-- ==== Sys2Proof/Word.lean ====
section
/-! DEFINITION. The word and byte types of the block: registers are 64 bits wide (R396), memory is made of bytes. -/

namespace Sys2Proof

/-- A register value (R396). -/
abbrev Word := BitVec 64

/-- One byte of memory. -/
abbrev Byte := BitVec 8

end Sys2Proof
end

