-- ==== Sys2Proof/Config.lean ====
section
/-! DEFINITION. What an implementation fixes: the four parts (R1, R13), the block prefixes (R9), and the free values the
manual leaves open (constants without a body). -/

namespace Sys2Proof

/-- The four ordering codes (R1). -/
inductive Part where
  | t2a | t2l | t4l | t8l
deriving DecidableEq, Repr

/-- Compute dies of a part (Table 0.1). -/
def Part.dies : Part → Nat
  | .t2a => 2 | .t2l => 2 | .t4l => 4 | .t8l => 8

/-- The part is cooled by air (Table 0.1). -/
def Part.air : Part → Bool
  | .t2a => true | _ => false

/-- Maximum input power, W (Table 1.1). -/
def Part.maxWatts : Part → Nat
  | .t2a => 1050 | .t2l => 1050 | .t4l => 2050 | .t8l => 4000

/-- The 18 block prefixes, in the order of R9. -/
inductive Blk where
  | seq | cel | trl | mma | cvu | hbm | fab | mac | agl | clk | pwr | thm | saf | sec | mod | srg | eng | tim
deriving DecidableEq, Repr

/-- Prefix position of R9. -/
def Blk.pos : Blk → Nat
  | .seq => 0 | .cel => 1 | .trl => 2 | .mma => 3 | .cvu => 4 | .hbm => 5 | .fab => 6 | .mac => 7 | .agl => 8
  | .clk => 9 | .pwr => 10 | .thm => 11 | .saf => 12 | .sec => 13 | .mod => 14 | .srg => 15 | .eng => 16 | .tim => 17

/-- All prefixes in the order of R9. -/
def Blk.all : List Blk :=
  [.seq, .cel, .trl, .mma, .cvu, .hbm, .fab, .mac, .agl, .clk, .pwr, .thm, .saf, .sec, .mod, .srg, .eng, .tim]

/-- Instances of a block on one die (Table 24.1). -/
def Blk.insts : Blk → Nat
  | .mma => 48 | .cvu => 48 | .srg => 48 | .hbm => 2 | .mac => 4 | .eng => 8 | _ => 1

/-- Free value: which line of a full set the Cellar replaces; tree pseudo-LRU over a number of ways that is not a power of
two has no stated form (R170). -/
opaque Config.victim : Nat → Nat

/-- Free value: coefficient `k` of segment `s` of standard function table `fn`, 32 bits; the manual gives the tables' error
bounds and not their coefficients (R77). -/
opaque Config.fnCoef (fn s k : Nat) : BitVec 32

/-- Free value: the fraction bits of the output of a standard function table (R74, R77). -/
opaque Config.fnFrac : Nat → Fin 31

/-- Free value: TAILS byte of a standard table for which the manual gives no tails (R74, Table 4.4). -/
opaque Config.fnTails : Nat → BitVec 8

/-- Free value: low-tail constant of the standard table of log2 (R76). -/
opaque Config.fnTlo : Nat → BitVec 32

/-- Free value: whether a REDSTORE's target failed NAN_SCALE, and the format code it was found with, as the source records
them; status FORMAT carries neither (R228). -/
opaque Config.redFormat : Nat → Bool × BitVec 8

/-- Free value: cause and words 2 and 3 of the trap of a context whose step ends because its cluster goes dark or its die
stops; the manual names no cause (R59, R334, R384). -/
opaque Config.darkTrap : Nat → BitVec 8 × BitVec 48 × BitVec 48

/-- Free value: the highest factory voltage of a cluster, as a rail code, which the manual does not give (R304). -/
opaque Config.factoryCode : Nat → Fin 25

/-- Free value: the SHA-256 of a field record's header and payload, by type, die, SEQ and payload (R303, R306); the manual
refers to the standard. -/
opaque Config.measure (typ die seq : Nat) (pay : List Byte) : BitVec 256

/-- Free value: the eight data bytes of an I3C private read that returns a status alone (R400). -/
opaque Config.i3cData : Nat → Word

/-- Free value: the provisioned identifier, the bus and the device characteristics that the target reports (R412, which names the
commands and gives no values). -/
opaque Config.i3cId : BitVec 48 × BitVec 8 × BitVec 8

/-- Free value: the two bytes that GETSTATUS returns (R412). -/
opaque Config.i3cStatus : Nat → BitVec 16

end Sys2Proof
end

