-- ==== Sys2Proof/Syntax.lean ====
section
/-! DEFINITION. The commands of the block, one constructor per row of spec/opcode_table.json, and the types of their
operands: the data an outside agent or a physical event brings. -/

namespace Sys2Proof

/-- What the physical surroundings do to a unit while it works: the line addresses whose first read fails its CRC-32C and
whose second read passes (R58, R94, R145), and the residue errors that hit a unit (R57, R83): logical cluster, array or
lane, and row × 96 + column of the tile. -/
structure Env where
  glitch : List Nat := []
  residue : List (Nat × Nat × Nat) := []
deriving DecidableEq, Repr

/-- The severity an HBM access meets (Table 10.3). -/
inductive HbmEvent where
  | none | eccCe | eccUe | sbUe | crc | linkCe | linkUe
deriving DecidableEq, Repr

/-- A record of a fabric frame (Table 12.5): request, response or link control, with its payload; `src` is the model's own:
one more than the number of the line of this module that the payload was read from (R378), 0 for none. -/
structure FRec where
  kind : Nat := 0
  flag : Bool := false
  retx : Bool := false
  op : Nat := 0
  ctx : Nat := 0
  die : Nat := 0
  akind : Nat := 0
  srcMod : Nat := 0
  word : Nat := 0
  dstMod : Nat := 0
  tag : Nat := 0
  seq : Nat := 0
  stat : Nat := 0
  addr : Nat := 0
  pay : List Byte := []
  src : Nat := 0
deriving DecidableEq, Repr

/-- A flash record as it is found or delivered (R300): its header fields, its payload, the SHA-256 of header and payload
(R303), and the verdicts of the checks the manual refers to cryptographic standards for (R301, R303). -/
structure FlashRec where
  typ : Nat := 0
  die : Nat := 255
  slot : Nat := 0
  svn : Nat := 0
  seq : Nat := 0
  serial : Nat := 0
  hdrOk : Bool := true
  hashOk : Bool := true
  sigOk : Bool := true
  meas : List Byte := []
  pay : List Byte := []
deriving DecidableEq, Repr

/-- An IEEE 802.1AS message (R244, R324), with what its timestamps carry. -/
inductive Ptp where
  | announce (prio1 cls prio2 id : Nat)
  | sync
  | followUp (origin : Nat)
  | pdelayReq
  | pdelayResp (delay : Nat)
deriving DecidableEq, Repr

/-- What the power manager of a die measures in one microsecond (R345, R347, R356, R357): rail currents in mA and rail
voltages in mV by physical cluster, feeder currents at the plane in mA by quadrant, replica slack in ps by cluster, busy
cycles as (cluster, partition, weighted cycles), idle cycles as (cluster, idle, all), energy of rails 52–58 in pJ, and
bytes moved as (partition, bytes), partition 32 standing for no partition. -/
structure PowerSample where
  amps : List Nat := []
  volts : List Nat := []
  plane : List Nat := []
  margin : List Nat := []
  busy : List (Nat × Nat × Nat) := []
  idle : List (Nat × Nat × Nat) := []
  fixed : Nat := 0
  bytes : List (Nat × Nat) := []
deriving DecidableEq, Repr

/-- What the module controller measures for one cap evaluation (R354): input power not drawn by cluster rails in W, and
by die the rail power its clusters would draw at their targets without NCAP, in W. -/
structure CapSample where
  other : Nat := 0
  demand : List Nat := []
deriving DecidableEq, Repr

/-- I3C common commands (R412). -/
inductive Ccc where
  | entdaa (addr : Nat)
  | setdasa (addr : Nat)
  | rstdaa
  | getpid
  | getbcr
  | getdcr
  | getstatus
  | enec
  | disec
  | other (code : Nat)
deriving DecidableEq, Repr

/-- The commands, one constructor per row of spec/opcode_table.json, in its order. -/
inductive Instr where
  /-- NOP (R143): A NOP step issues; it waits and signals only as its common fields say. -/
  | nop (d : Nat) (c : Nat) (q : Bool)
  /-- WAIT (R143): A WAIT step holds its queue until its counter condition is met. -/
  | wait (d : Nat) (c : Nat) (q : Bool)
  /-- SIG (R143): A SIG step adds SIG_INC to SIG_CREF at issue. -/
  | sig (d : Nat) (c : Nat) (q : Bool)
  /-- SWAP (R143): A SWAP step requests a SWAP of the context's shadow sets in the named blocks. -/
  | swap (d : Nat) (c : Nat) (q : Bool)
  /-- FENCE (R143): A FENCE step holds one or both queues until every earlier step of those queues has completed. -/
  | fence (d : Nat) (c : Nat) (q : Bool)
  /-- TRAP (R111): A TRAP step traps its context with cause TRAP_STEP. -/
  | trap (d : Nat) (c : Nat) (q : Bool)
  /-- MMA (R126): An MMA step is released to its clusters and streams activations through the arrays into output tiles. -/
  | mma (d : Nat) (c : Nat) (q : Bool) (env : Env)
  /-- CONV (R62): A CONV step folds, scales, biases, rotates, rounds, saturates and encodes a tensor on each cluster of its mask. -/
  | conv (d : Nat) (c : Nat) (q : Bool) (env : Env)
  /-- ELEM (R78): An ELEM step applies row operations, a table function and optional row reduction element by element. -/
  | elem (d : Nat) (c : Nat) (q : Bool) (env : Env)
  /-- STAT (R132): A STAT step measures the amax exponent of a tensor on each cluster of its mask. -/
  | stat (d : Nat) (c : Nat) (q : Bool) (env : Env)
  /-- OPT (R81): An OPT step updates master weights and moments from the reduced gradient. -/
  | opt (d : Nat) (c : Nat) (q : Bool) (env : Env)
  /-- RACK (R134): A RACK step copies rows of lines between HBM and Cellar, locally or remotely. -/
  | rack (d : Nat) (c : Nat) (q : Bool) (env : Env)
  /-- DECANT (R136): A DECANT step copies lines between the host window and local HBM or Cellar. -/
  | decant (d : Nat) (c : Nat) (q : Bool) (env : Env)
  /-- GATHER (R137): A GATHER step reads its index list and copies runs of lines from listed addresses to BASE. -/
  | gather (d : Nat) (c : Nat) (q : Bool) (env : Env)
  /-- SCATTER (R137): A SCATTER step reads its index list and copies runs of lines from BASE to listed addresses. -/
  | scatter (d : Nat) (c : Nat) (q : Bool) (env : Env)
  /-- DISPATCH (R139): A DISPATCH step sends token rows to expert slots by the route list, writes count lines and signals each expert. -/
  | dispatch (d : Nat) (c : Nat) (q : Bool) (env : Env)
  /-- COMBINE (R139): A COMBINE step fetches each entry's result row from its expert or zero-fills it. -/
  | combine (d : Nat) (c : Nat) (q : Bool) (env : Env)
  /-- MCAST (R208): An MCAST step reads its group line and writes each source line to every valid member. -/
  | mcast (d : Nat) (c : Nat) (q : Bool) (env : Env)
  /-- REPLICA (R136): A REPLICA step copies lines from the same address on another module and counts version mismatches. -/
  | replica (d : Nat) (c : Nat) (q : Bool) (env : Env)
  /-- RED (R140): A RED step hands a filled bucket to a reduction channel, tagged with the layout generation. -/
  | red (d : Nat) (c : Nat) (q : Bool)
  /-- LAYOUT (R141): A LAYOUT step raises the die's layout generation once no older-generation bucket remains accepted. -/
  | layout (d : Nat) (c : Nat) (q : Bool)
  /-- SNAP (R142): A SNAP step holds its queues until earlier steps complete and then writes the die's snapshot part. -/
  | snap (d : Nat) (c : Nat) (q : Bool) (env : Env)
  /-- STAT_RING_UPDATE (R132): Once every cluster's share has ended, the die updates the scale-history ring entry as one read-modify-write. -/
  | statRingUpdate (d : Nat) (fid : Nat) (env : Env)
  /-- TABLE_FETCH (R94): The sequencer fetches a step-table line through the Cellar and checks its CRC. -/
  | tableFetch (d : Nat) (c : Nat) (q : Bool) (env : Env)
  /-- UNIT_COMPLETE (R103): A unit of a step completes once its writes are visible and signals its counter. -/
  | unitComplete (d : Nat) (fid : Nat) (u : Nat)
  /-- WAIT_TIMEOUT (R109): A WAIT step's TIMEOUT expires and the queue follows TLINK or the context traps. -/
  | waitTimeout (d : Nat) (c : Nat) (q : Bool)
  /-- TRAP_RECORD (R111): After steps in flight end, die 0 writes the context's trap record. -/
  | trapRecord (c : Nat)
  /-- STOP (R113): SEQ_CTX_CTL.STOP halts issue of a context at the next step boundary on every die. -/
  | stop (c : Nat)
  /-- RESUME (R113): SEQ_CTX_CTL.RESUME returns a STOPPED context to RUNNING. -/
  | resume (c : Nat)
  /-- CLEAR (R113): SEQ_CTX_CTL.CLEAR takes a TRAPPED or STOPPED context to IDLE and empties its queues. -/
  | clear (c : Nat)
  /-- SEQ_CNT_WRITE (R104): A write to a sequencer counter is applied only while its context is IDLE, STOPPED or TRAPPED. -/
  | seqCntWrite (d : Nat) (c : Nat) (i : Nat) (v : Word)
  /-- QUANTUM_EXPIRY (R114): A resident context's quantum expires on a shared cluster. -/
  | quantumExpiry (d : Nat) (l : Nat)
  /-- CONTEXT_PRELOAD (R115): PRELOAD_LEAD before expiry, the incoming context's image is loaded into the shadow sets. -/
  | contextPreload (d : Nat) (l : Nat) (env : Env)
  /-- CONTEXT_SWITCH (R114): At a step boundary with empty slots and no open tile, a cluster swaps in the incoming context. -/
  | contextSwitch (d : Nat) (l : Nat) (env : Env)
  /-- DOORBELL (R148): A store to SEQ_DB_PROD_c is accepted or rejected and updates PROD. -/
  | doorbell (c : Nat) (p : BitVec 32)
  /-- DESCRIPTOR_FETCH (R149): Die 0 issues the descriptor read when PROD differs from CONS and the context is IDLE. -/
  | descriptorFetch (c : Nat)
  /-- DESCRIPTOR_ARRIVE (R154): The descriptor arrives and its own fields are checked before the directory read is issued. -/
  | descriptorArrive (c : Nat) (ok : Bool) (ws : List Word)
  /-- DIRECTORY_ARRIVE (R153): The directory line arrives, is checked, counters are cleared and each die receives its bases. -/
  | directoryArrive (c : Nat) (env : Env)
  /-- DESCRIPTOR_COMPLETE (R94): Both queues reach END on every die and every step and SCOPE 2 signal has completed. -/
  | descriptorComplete (c : Nat)
  /-- DESCRIPTOR_POST (R155): Die 0 begins posting the descriptor by writing its report. -/
  | descriptorPost (c : Nat)
  /-- COMPLETION_ENTRY_WRITE (R156): Once the report is visible, die 0 writes the 32-byte completion entry. -/
  | completionEntryWrite (c : Nat)
  /-- CONS_WRITE_BACK (R155): Once the entry is acknowledged, die 0 advances CONS and writes it back. -/
  | consWriteBack (c : Nat)
  /-- COMPLETION_VECTOR (R155): Once the write-back is acknowledged, die 0 sends the context's completion vector. -/
  | completionVector (c : Nat)
  /-- SEQ_RING_RESET (R166): SEQ_RING_RESET_c sets PROD and CONS to 0 when the context is IDLE with PROD equal to CONS. -/
  | seqRingReset (c : Nat)
  /-- CELLAR_READ (R176): A line read reaches its bank, and its SECDED words are checked and corrected or poisoned. -/
  | cellarRead (a : Nat) (ecc : List (Nat × Bool))
  /-- CELLAR_WRITE (R174): A full-line write reaches its bank and is acknowledged once visible. -/
  | cellarWrite (a : Nat) (bs : List Byte) (sb : Word)
  /-- CELLAR_MASKED_WRITE (R175): A masked write is merged in one bank operation after its CRC is checked. -/
  | cellarMaskedWrite (a : Nat) (bs : List Byte) (mask : Nat) (sb : Option Word) (crc : Nat)
  /-- SCRUB (R177): The scrubber reads a populated row in its period and corrects or poisons it. -/
  | scrub (a : Nat) (ecc : List (Nat × Bool))
  /-- CEL_PARTITION_CHANGE (R179): At the quiescent point a CEL SWAP writes back, zeroes ways and applies the new partition and policies. -/
  | celPartitionChange (d : Nat)
  /-- FLUSH (R180): CEL_CMD.FLUSH writes back every line dirty at its start. -/
  | flush (d : Nat)
  /-- PURGE (R180): CEL_CMD.PURGE waits for the quiescent point and writes back and invalidates every cache line. -/
  | purge (d : Nat)
  /-- FLUSH_COMPLETE (R180): A FLUSH or PURGE ends and sets FLUSH_DONE. -/
  | flushComplete (d : Nat)
  /-- CEL_SPARE_IN (R182): CEL_CMD.SPARE_IN waits for the quiescent point and copies a bank into a spare bank. -/
  | celSpareIn (d : Nat) (bank : Nat) (spare : Nat)
  /-- CEL_SPARE_DONE (R182): The bank copy completes, the map entry is set and SPARE_DONE is raised. -/
  | celSpareDone (d : Nat)
  /-- HBM_READ (R190): The controller reads a line and its sideband and classes any ECC, CRC or parity error. -/
  | hbmRead (a : Nat) (ev : HbmEvent)
  /-- HBM_WRITE (R188): The controller writes a line and its sideband and acknowledges once both are held. -/
  | hbmWrite (a : Nat) (bs : List Byte) (sb : Word) (ev : HbmEvent)
  /-- REFRESH_RATE_EVAL (R191): Every 1 ms each pseudo-channel re-evaluates its refresh rate from the stack temperature. -/
  | refreshRateEval (d : Nat) (k : Nat) (below : Bool)
  /-- PER_BANK_REFRESH (R191): A per-bank refresh interval expires and a refresh is issued. -/
  | perBankRefresh (d : Nat) (k : Nat) (pc : Nat)
  /-- FLUSH_SB (R188): HBM_CMD.FLUSH_SB writes back the sideband cache. -/
  | flushSb (d : Nat) (k : Nat)
  /-- HBM_RETIRE (R194): HBM_CMD.RETIRE copies a unit to a free pool unit and installs the remap entry. -/
  | hbmRetire (d : Nat) (k : Nat) (pc : Nat) (unit : Nat)
  /-- RETIRE_DONE (R194): A retirement copy completes and the held accesses are released. -/
  | retireDone (d : Nat) (k : Nat) (bad : List Nat)
  /-- MAINT_ENTER (R196): HBM_CMD.MAINT_ENTER completes accesses, writes back the sideband cache and sets MAINT. -/
  | maintEnter (d : Nat) (k : Nat)
  /-- MAINT_EXIT (R196): HBM_CMD.MAINT_EXIT zero-fills after MBIST and releases held accesses. -/
  | maintExit (d : Nat) (k : Nat)
  /-- MBIST (R196): HBM_CMD.MBIST starts a destructive pattern test of the stack in maintenance. -/
  | mbist (d : Nat) (k : Nat) (pat : Nat)
  /-- MBIST_DONE (R196): An MBIST ends and sets MBIST_DONE, and MBIST_FAIL on failure. -/
  | mbistDone (d : Nat) (k : Nat) (fail : Option (Nat × Nat))
  /-- HBM_1500_GO (R197): HBM_1500_CTL.GO loads the wrapper instruction and starts shifting LEN bits. -/
  | hbm1500Go (d : Nat) (k : Nat) (wir : Nat) (len : Nat)
  /-- HBM_1500_DONE (R197): An IEEE 1500 operation ends and sets DONE. -/
  | hbm1500Done (d : Nat) (k : Nat) (out : Nat)
  /-- HBM_BRINGUP (R195): After die boot each controller trains, repairs, remaps and zero-fills its stack. -/
  | hbmBringup (d : Nat) (k : Nat) (fails : Nat)
  /-- READ (R204): A fabric READ reaches the home, which returns the line and sideband. -/
  | read (d : Nat) (r : FRec)
  /-- WRITE (R204): A fabric WRITE reaches the home and replaces or merges the line. -/
  | write (d : Nat) (r : FRec)
  /-- REDSTORE (R205): A fabric REDSTORE reaches the home and is added into the target unit. -/
  | redstore (d : Nat) (r : FRec) (alu : Bool)
  /-- ATOMIC (R206): A fabric ATOMIC reaches the home and acts on one word of the line. -/
  | atomic (d : Nat) (r : FRec) (env : Env) (alu : Bool)
  /-- SIGNAL (R207): A fabric SIGNAL reaches its target die and adds to the named counter. -/
  | signal (d : Nat) (r : FRec) (alu : Bool)
  /-- FABRIC_RESPONSE (R210): A response reaches its issuer, returning the tag and acting on any non-OK status. -/
  | fabricResponse (d : Nat) (tag : Nat) (st : Nat) (bs : List Byte) (sb : Word)
  /-- HOT_LINE_WINDOW (R218): The hold window of a hot line expires and the merged request leaves. -/
  | hotLineWindow (d : Nat) (i : Nat) (alu : Bool)
  /-- HOT_LINE_FREE (R218): A hot-line entry is freed after four windows without a request. -/
  | hotLineFree (d : Nat) (i : Nat)
  /-- HOP_ACK_TIMEOUT (R226): 4 µs pass without acknowledgement and the sender retransmits from the oldest unacknowledged frame. -/
  | hopAckTimeout (d : Nat) (p : Nat)
  /-- NAK (R226): A NAK link-control record arrives and the sender retransmits from the frame named. -/
  | nak (d : Nat) (p : Nat) (hseq : Nat)
  /-- E2E_TIMEOUT (R227): A request is unanswered after FAB_E2E.TIMEOUT and is retransmitted on TC1 or fails with TIMEOUT. -/
  | e2eTimeout (d : Nat) (tag : Nat)
  /-- BULK_ESCAPE (R222): A bulk request finds no productive port with TC5 credit for 1 µs and moves to TC4. -/
  | bulkEscape (d : Nat) (p : Nat) (i : Nat)
  /-- CTRL_HOLD_RELEASE (R224): Every control request sent on a failed port is resolved and held control traffic resumes. -/
  | ctrlHoldRelease (d : Nat)
  /-- FRAME_RECEIVE (R236): A frame is received into the Cellar, checked and handed to the router or host queue. -/
  | frameReceive (d : Nat) (p : Nat) (bs : List Byte) (fcs : Bool)
  /-- FRAME_TRANSMIT (R237): A frame that lies whole in the Cellar starts on the wire under gates, pause and priority. -/
  | frameTransmit (d : Nat) (p : Nat)
  /-- FRAME_TX_END (R245): A host frame's last bit leaves and TX_CONS advances with HOST_TX. -/
  | frameTxEnd (d : Nat) (p : Nat)
  /-- PFC_RECEIVE (R241): A received PFC frame pauses or resumes a class. -/
  | pfcReceive (d : Nat) (p : Nat) (cls : Nat) (quanta : Nat)
  /-- PFC_REPEAT (R241): Every 10 µs while above XON, the port repeats its pausing PFC frame. -/
  | pfcRepeat (d : Nat) (p : Nat)
  /-- PAUSE_EXPIRY (R241): A received pause time passes and the class may send again. -/
  | pauseExpiry (d : Nat) (p : Nat) (cls : Nat)
  /-- ACK_ONLY_FRAME (R239): An acknowledgement held 500 ns unsent causes a frame with NREC 0. -/
  | ackOnlyFrame (d : Nat) (p : Nat)
  /-- PORT_BRING_UP (R233): A port runs auto-negotiation, link training and PCS alignment. -/
  | portBringUp (d : Nat) (p : Nat) (locks : Nat)
  /-- HELLO (R233): A received HELLO is checked against port roles and the port comes up or is marked MISCABLED. -/
  | hello (d : Nat) (p : Nat) (peer : Nat) (port : Nat)
  /-- PORT_RETRAIN_TIMER (R233): Every 100 ms a failing port with AUTO_RETRAIN retrains. -/
  | portRetrainTimer (d : Nat) (p : Nat)
  /-- MAC_RETRAIN (R246): MAC_CMD.RETRAIN takes the port down and retrains it. -/
  | macRetrain (d : Nat) (p : Nat)
  /-- LANE_LOCK_LOSS (R234): A receive lane loses lock and the spare is requested or the lane is lost. -/
  | laneLockLoss (d : Nat) (p : Nat) (lane : Nat)
  /-- MAC_SPARE_IN (R234): MAC_CMD.SPARE_IN requests the spare lane for a logical lane. -/
  | macSpareIn (d : Nat) (p : Nat) (lane : Nat)
  /-- SPARE_REQ (R234): A SPARE_REQ record arrives and the far end maps its transmit lane to the spare. -/
  | spareReq (d : Nat) (p : Nat) (lane : Nat)
  /-- PCS_REALIGNED (R234): The PCS realigns on the spare and SPARE_DONE is sent. -/
  | pcsRealigned (d : Nat) (p : Nat)
  /-- SPARE_DONE (R234): A SPARE_DONE record arrives and the sender resumes and retransmits. -/
  | spareDone (d : Nat) (p : Nat)
  /-- LANE_SER_WINDOW (R235): Each 1 ms a lane's FEC symbol errors are compared with SER_LIMIT. -/
  | laneSerWindow (d : Nat) (p : Nat) (lane : Nat) (errs : Nat)
  /-- GATE_ENTRY (R243): The gate control list reaches an entry or cycle start and changes gate states. -/
  | gateEntry (d : Nat) (p : Nat)
  /-- PTP_MESSAGE (R244): An IEEE 802.1AS message is timestamped and handled by the time manager. -/
  | ptpMessage (d : Nat) (p : Nat) (msg : Ptp)
  /-- HQ_RX_CONS (R245): MAC_HQ_DB with RX_WR sets the host receive consumer index. -/
  | hqRxCons (d : Nat) (p : Nat) (v : Nat)
  /-- HQ_TX_PROD (R245): MAC_HQ_DB with TX_WR sets the host transmit producer index. -/
  | hqTxProd (d : Nat) (p : Nat) (v : Nat)
  /-- BUCKET_START (R248): A channel starts its next accepted bucket, advancing ORD and reading its group descriptor. -/
  | bucketStart (d : Nat) (c : Nat) (h : Nat)
  /-- CHUNK_LOADED (R253): A chunk of SRC is loaded into region A and acknowledged. -/
  | chunkLoaded (d : Nat) (c : Nat) (h : Nat) (env : Env)
  /-- CHANNEL_HEADER_UPDATE (R252): The channel acts on a partner's store to its header line. -/
  | channelHeaderUpdate (d : Nat) (c : Nat) (h : Nat) (env : Env) (alu : Bool)
  /-- BUCKET_COMPLETE (R256): Every chunk is in DST and every DOWN SWAP returned, so the bucket completes and signals. -/
  | bucketComplete (d : Nat) (c : Nat) (h : Nat)
  /-- RED_TIMEOUT (R252): A waited header word stays unchanged for FAB_RCTL.TIMEOUT and the context traps. -/
  | redTimeout (d : Nat) (c : Nat) (h : Nat) (w : Nat)
  /-- AGL_LINK_TRAIN (R281): An AGL port starts lane training when enabled or due for retrain. -/
  | aglLinkTrain (d : Nat)
  /-- AGL_LANES_TRAINED (R280): Lane training ends and the port takes full width, x8 or DOWN. -/
  | aglLanesTrained (d : Nat) (lanes : Nat)
  /-- AGL_INIT (R284): A host INIT flit arrives and is checked before the port goes UP. -/
  | aglInit (d : Nat) (proto : Nat) (side : Nat) (cr : Nat) (cs : Nat) (cp : Nat)
  /-- FLIT_RECEIVE (R283): A flit arrives and is accepted, discarded with a NAK, and its credits and acknowledgement applied. -/
  | flitReceive (d : Nat) (bs : List Byte)
  /-- AGL_NAK (R283): A NAK flit arrives and the sender replays from the flit after FACK. -/
  | aglNak (d : Nat) (fack : Nat)
  /-- FLIT_REPLAY_TIMEOUT (R283): 2 µs pass without acknowledgement and the sender replays. -/
  | flitReplayTimeout (d : Nat)
  /-- AGL_RETRAIN (R296): AGL_CMD.RETRAIN takes an UP port to RETRAIN. -/
  | aglRetrain (d : Nat)
  /-- AGL_DOWN (R296): AGL_CMD.DOWN takes the port DOWN with the effects of R283. -/
  | aglDown (d : Nat)
  /-- AGL_AUTO_RETRAIN (R283): Every 100 ms a DOWN port with AUTO_RETRAIN restarts bring-up. -/
  | aglAutoRetrain (d : Nat)
  /-- RD_ONCE (R287): A host RD_ONCE reads a line with no copy kept. -/
  | rdOnce (d : Nat) (tag : Nat) (a : Nat)
  /-- RD_SHARED (R289): A host RD_SHARED reads a line and installs S in the snoop filter. -/
  | rdShared (d : Nat) (tag : Nat) (a : Nat)
  /-- RD_OWN (R289): A host RD_OWN reads a line and installs or upgrades to E. -/
  | rdOwn (d : Nat) (tag : Nat) (a : Nat)
  /-- RD_8 (R287): A host RD_8 reads 8 bytes of memory, a register or a proxy window. -/
  | rd8 (d : Nat) (tag : Nat) (a : Nat)
  /-- WR_LINE (R287): A host WR_LINE writes a full line with the sideband it carries. -/
  | wrLine (d : Nat) (tag : Nat) (a : Nat) (bs : List Byte) (sb : Word)
  /-- WR_PART (R287): A host WR_PART writes a masked line. -/
  | wrPart (d : Nat) (tag : Nat) (a : Nat) (bs : List Byte) (sb : Word) (mask : Nat)
  /-- WR_8 (R287): A host WR_8 writes 8 bytes of memory, a register or a proxy window. -/
  | wr8 (d : Nat) (tag : Nat) (a : Nat) (v : Word)
  /-- WR_BACK (R290): A host WR_BACK returns an E line and removes its entry. -/
  | wrBack (d : Nat) (tag : Nat) (a : Nat) (bs : List Byte) (sb : Word)
  /-- EVICT (R289): A host EVICT gives up an unmodified line and removes its entry. -/
  | evict (d : Nat) (tag : Nat) (a : Nat)
  /-- HOST_ATOMIC (R287): A host ATOMIC acts on one word of a line or a proxy window. -/
  | hostAtomic (d : Nat) (tag : Nat) (a : Nat) (kind : Nat) (x : Word) (y : Word) (env : Env) (alu : Bool)
  /-- RSP (R293): A host RSP reaches the module and ends a module request or snoop. -/
  | rsp (d : Nat) (tag : Nat) (st : Nat)
  /-- RSP_8 (R293): A host RSP_8 reaches the module with an 8-byte datum. -/
  | rsp8 (d : Nat) (tag : Nat) (st : Nat) (v : Word)
  /-- RSP_DATA (R290): A host RSP_DATA reaches the module with a line, checked for kept sidebands or written for a snoop. -/
  | rspData (d : Nat) (tag : Nat) (st : Nat) (bs : List Byte) (sb : Word)
  /-- SNP_TIMEOUT (R290): A snoop is unanswered after SNP_TIMEOUT and its entry is removed. -/
  | snpTimeout (d : Nat) (tag : Nat)
  /-- RSP_TIMEOUT (R294): A module request is unanswered after AGL_CTL.TIMEOUT and ends with TIMEOUT. -/
  | rspTimeout (d : Nat) (tag : Nat)
  /-- INTR (R292): Once its earlier writes are acknowledged, a block sends its interrupt vector over the link. -/
  | intr (d : Nat)
  /-- START_UP (R298): The input becomes good or RST_N rises, and the module controller ROM runs from t0. -/
  | startUp (slot : Nat) (recs : List FlashRec) (mcBad : Bool)
  /-- RST_N_FALL (R298): RST_N goes low and every die and the module controller are held in reset. -/
  | rstNFall
  /-- BOOT_STAGE_TIMEOUT (R299): A start-up stage misses its bound and STAGE becomes 0xF with BOOT_FAIL. -/
  | bootStageTimeout
  /-- DIE_RELEASE (R303): With rails up and REFCLK present, each die ROM verifies its records and starts its firmware. -/
  | dieRelease (d : Nat) (clk : Bool) (bad : List Nat) (dieBad : Bool)
  /-- MODULE_READY (R299): Every die booted, stack trained and link port UP, so READY is set. -/
  | moduleReady
  /-- UPDATE (R310): SEC_CMD UPDATE verifies a record and writes it to the inactive slot as pending. -/
  | update (rec : Option FlashRec) (wr : Bool)
  /-- COMMIT (R310): SEC_CMD COMMIT raises each type's minimum SVN to that of its active slot. -/
  | commit (wr : Bool)
  /-- ATTEST (R309): SEC_CMD ATTEST writes a signed attestation report. -/
  | attest (nonce : Option (List Byte)) (sig : List Byte) (wr : Bool)
  /-- OWNER_INSTALL (R307): SEC_CMD OWNER_INSTALL installs an owner key or policy. -/
  | ownerInstall (rec : Option FlashRec) (wr : Bool)
  /-- SEC_COMMAND_END (R311): A SEC command ends with CMD_DONE or CMD_ERR and its result code. -/
  | secCommandEnd
  /-- FREQ_CHANGE_REQUEST (R314): A frequency change is accepted and the cluster clock stops at a cycle boundary. -/
  | freqChangeRequest (d : Nat) (p : Nat) (n : Nat)
  /-- FREQ_CHANGE_RESTART (R314): The oscillator locks and the cluster clock restarts at the new step. -/
  | freqChangeRestart (d : Nat) (p : Nat)
  /-- DEFERRED_INCREASE (R315): A deferred increase comes due 10 µs later and is reconsidered. -/
  | deferredIncrease (d : Nat) (p : Nat)
  /-- MARGIN_WARN (R316): A cluster's margin falls below MARGIN_WARN and its FMAX is lowered. -/
  | marginWarn (d : Nat) (p : Nat) (m : Nat)
  /-- OSC_FALLBACK (R317): A cluster oscillator loses lock and the cluster runs from root ÷ 8. -/
  | oscFallback (d : Nat) (p : Nat)
  /-- PLL_UNLOCK (R317): The root PLL loses lock and the die stops in order. -/
  | pllUnlock (d : Nat)
  /-- REF_LOST (R317): REFCLK is absent for 2 µs and every die stops in order. -/
  | refLost
  /-- SERDES_PLL_UNLOCK (R317): A SerDes PLL loses lock and its ports go down. -/
  | serdesPllUnlock (d : Nat) (ports : Nat) (agl : Bool)
  /-- CROSSING_WAKE (R319): Data enters a crossing whose destination clock is stopped and a wake or power-on is requested. -/
  | crossingWake (d : Nat) (p : Nat)
  /-- HELD_CROSSING_SCAN (R319): On a T2 or T4 the clock manager's 1 µs evaluation finds a held crossing and restarts the clock. -/
  | heldCrossingScan (d : Nat)
  /-- DOMAIN_TIME_CORRECT (R322): Every 1 µs each domain replaces its time copy with the die time base. -/
  | domainTimeCorrect (d : Nat)
  /-- PKG_SYNC (R323): Every 1 µs each die exchanges a sync message with die 0 and corrects its time base. -/
  | pkgSync (d : Nat)
  /-- SYNC_INTERVAL (R324): A PTP sync interval expires and the PTP instance sends its sync messages. -/
  | syncInterval
  /-- PPS_EDGE (R325): A rising PPS edge is timestamped and steers the time base. -/
  | ppsEdge
  /-- SYNC_LOST (R326): Three sync intervals or two pulses are missed and the time base holds its rate. -/
  | syncLost
  /-- TIM_OFFSET (R321): A write to TIM_OFFSET applies a signed correction under SRC = FREE. -/
  | timOffset (d : Nat) (v : Word)
  /-- VIN_STOP (R328): The input stays below 36 V or above 50 V for 10 µs and the module stops in order. -/
  | vinStop (v : Nat)
  /-- IBC_FAIL (R330): An intermediate bus converter is lost and the cap falls or every die loses power. -/
  | ibcFail (i : Nat)
  /-- RAIL_FAULT (R332): A fixed rail stays 8 % from its set-point for 10 µs and the die stops. -/
  | railFault (d : Nat) (rail : Nat)
  /-- PHASE_FAIL (R333): A phase fault persists for 1 µs and the phase is disabled. -/
  | phaseFail (d : Nat) (p : Nat) (ph : Nat)
  /-- RETENTION_ENTER (R336): A cluster idle for OFF_DELAY enters retention. -/
  | retentionEnter (d : Nat) (p : Nat)
  /-- POWER_ON_REQUEST (R336): A step, crossing or register access asks a cluster in retention to power on. -/
  | powerOnRequest (d : Nat) (p : Nat)
  /-- ADMISSION_EVAL (R338): Each 1 µs the quadrant checks headroom for a waiting power-on, up to 20 µs, then ramps slowly. -/
  | admissionEval (d : Nat) (quad : Nat) (amps : Nat)
  /-- RAMP_DONE (R338): The rail reaches its set-point, the exit reset is applied and the clock starts. -/
  | rampDone (d : Nat) (p : Nat) (held : Bool)
  /-- LOW_WATER_RECORD (R339): A rail excursion ends and its minimum and time are written to the ring. -/
  | lowWaterRecord (d : Nat) (rail : Nat) (mv : Nat) (tm : Nat)
  /-- ENTER_LP (R340): MOD_PWR_CMD.ENTER_LP takes every die into the low-power state. -/
  | enterLp
  /-- EXIT_LP (R341): MOD_PWR_CMD.EXIT_LP restores rails, fields, memories and ports. -/
  | exitLp
  /-- POWER_EVAL (R345): Each 1 µs the power manager samples currents, integrates energy and sets each cluster's target step. -/
  | powerEval (d : Nat) (sm : PowerSample)
  /-- DROOP_TRIP (R349): A droop detector trips, the clock stretches and the shunt fires. -/
  | droopTrip (d : Nat) (p : Nat)
  /-- STRETCH_HOLD_END (R349): 128 stretched cycles pass after the latest trip and stretching ends. -/
  | stretchHoldEnd (d : Nat) (p : Nat) (cycles : Nat)
  /-- LL_EXPIRY (R346): A tagged entry is still tagged 10 s after first use and is excluded. -/
  | llExpiry (d : Nat) (p : Nat) (e : Nat)
  /-- VF_RECORD_WRITE (R346): The module controller writes calibration changes into VF_TABLES, at most hourly or at a stop. -/
  | vfRecordWrite (d : Nat) (wr : Bool)
  /-- INPUT_SAMPLE (R353): Every 10 µs the module controller samples input voltage and current. -/
  | inputSample (v : Nat) (i : Nat)
  /-- CAP_EVAL (R352): Every 100 µs the module cap is evaluated, shared into die budgets and energy charged to partitions. -/
  | capEval (sm : CapSample)
  /-- DIE_BUDGET_EVAL (R354): Every 10 µs each die compares its power with its budget and moves NCAP. -/
  | dieBudgetEval (d : Nat) (watts : Nat)
  /-- SENSOR_CONVERSION (R363): A die sensor converts and its unit is compared with the junction thresholds. -/
  | sensorConversion (d : Nat) (i : Nat) (t : Nat)
  /-- PAIR_FAULT (R362): A pair differs by more than 10 °C for 1 ms and is declared faulty. -/
  | pairFault (d : Nat) (p : Nat)
  /-- THROTTLE_STEP (R363): Every 100 µs at or above 95 °C the thermal ceiling falls a further step. -/
  | throttleStep (d : Nat) (p : Nat)
  /-- THERMAL_UNDO (R364): A unit stays 3 K below a threshold for 1 ms and its ceiling rises a step. -/
  | thermalUndo (d : Nat) (i : Nat)
  /-- HBM_TEMP_READ (R365): A stack temperature reading is updated and compared with HBM_HOT and HBM_TRIP. -/
  | hbmTempRead (d : Nat) (k : Nat) (t : Nat)
  /-- TRAY_READ (R366): Every 1 ms the controller reads the tray sensors and updates the coolant cap and stop state. -/
  | trayRead (tin : Option Int) (tout : Option Int) (flow : Option Nat)
  /-- COOLANT_SHUTDOWN (R369): A coolant stop has not ended 2 s after detection and the module stops. -/
  | coolantShutdown
  /-- ERRN_STUCK (R374): ERR_N reads high for 10 µs while driven low and the module stops. -/
  | errnStuck
  /-- DIE_STOP (R384): An FTL cause stops a die in order and every context enters STOPPED. -/
  | dieStop (d : Nat) (b : Blk) (bit : Nat)
  /-- MODULE_STOP (R385): Every die stops from one t0 and the converters are switched off. -/
  | moduleStop
  /-- BRIDGE_FLIT_REJECT (R405): A Trellis bridge rejects a flit and has it resent, failing after eight. -/
  | bridgeFlitReject (d : Nat) (peer : Nat) (n : Nat)
  /-- STATUS_CLEAR (R387): A W1C write clears status bits, subject to the clearing rules. -/
  | statusClear (d : Nat) (b : Blk) (i : Nat) (v : Word)
  /-- CL_IN (R390): MOD_SPARE_CMD CL_IN powers on a spare cluster to take a logical cluster. -/
  | clIn (d : Nat) (l : Nat)
  /-- CLUSTER_SWITCH_HOLD (R390): The spare's tests end and the sequencer stops releasing steps to the logical cluster. -/
  | clusterSwitchHold (bad : Bool)
  /-- CLUSTER_SWITCH_COPY (R390): With the old cluster empty, its state is copied and the logical cluster moves to the spare. -/
  | clusterSwitchCopy
  /-- BANK_IN (R389): MOD_SPARE_CMD BANK_IN requests a Cellar bank spare. -/
  | bankIn (d : Nat) (bank : Nat)
  /-- LANE_IN (R389): MOD_SPARE_CMD LANE_IN requests a port's spare lane. -/
  | laneIn (d : Nat) (p : Nat) (lane : Nat)
  /-- SPARE_RETIRE (R389): MOD_SPARE_CMD RETIRE retires an HBM unit. -/
  | spareRetire (d : Nat) (k : Nat) (pc : Nat) (unit : Nat)
  /-- TEST_CL (R394): MOD_SPARE_CMD TEST_CL moves a logical cluster to a spare and tests the freed cluster. -/
  | testCl (d : Nat) (l : Nat)
  /-- REPAIR_RECORD_WRITE (R393): The module controller writes the die's REPAIR record after a repair. -/
  | repairRecordWrite (d : Nat) (wr : Bool)
  /-- REPAIR_RETRY (R393): Every 60 s a pending REPAIR record write is retried. -/
  | repairRetry (d : Nat) (wr : Bool)
  /-- INJECT_RESIDUE (R60): MMA_TEST.INJECT_RESIDUE inverts a shadow so the next drain raises ARRAY_RESIDUE. -/
  | injectResidue (d : Nat) (l : Nat) (arr : Nat)
  /-- INJECT_EXIT_CRC (R388): SAF_TEST.INJECT_EXIT_CRC corrupts the next line a unit sends so EXIT_CRC is raised. -/
  | injectExitCrc (d : Nat) (u : Nat)
  /-- SWAP_REQUEST (R163): <BLK>_SWAP.REQUEST asks for a SWAP at the block's next quiescent point. -/
  | swapRequest (d : Nat) (b : Blk) (i : Nat)
  /-- BLOCK_SWAP (R163): At the quiescent point the shadow set is copied into the active set, or refused if unswappable. -/
  | blockSwap (d : Nat) (b : Blk) (i : Nat)
  /-- INTERRUPT_MASK_WRITE (R161): A write to <BLK>_IMASK changes masks and sends the vector for a set status bit it unmasks. -/
  | interruptMaskWrite (d : Nat) (b : Blk) (i : Nat) (v : Word)
  /-- REGISTER_WRITE (R10): A write to a register without a row of its own acts by the fields' access codes. -/
  | registerWrite (a : Nat) (v : Word)
  /-- I3C_WRITE (R400): A management-bus private write of 15 bytes writes a register. -/
  | i3cWrite (bs : List Byte)
  /-- I3C_READ (R400): A management-bus 0x02 write followed by a 9-byte read returns a register with its status. -/
  | i3cRead (bs : List Byte) (len : Nat)
  /-- COMMON_COMMAND (R412): An I3C common command (ENTDAA, SETDASA, RSTDAA, GETPID, GETBCR, GETDCR, GETSTATUS, ENEC, DISEC) arrives on the management bus and assigns, resets or reports the target's address and identity. -/
  | commonCommand (cmd : Ccc)
  /-- PATTERN_TEST_END (R394): The tests and pattern test of a cluster freed by TEST_CL end within 2 ms, and the cluster becomes a spare or is retired and recorded. -/
  | patternTestEnd (bad : Bool)
deriving DecidableEq, Repr

end Sys2Proof
end

