-- ==== Sys2Proof/Machine/Sparse.lean ====
section
/-! DEFINITION. Sparse maps: a list of (key, value) pairs, keys strictly rising, no pair whose value is what an
unlisted key reads as. Memory, registers and every table of the block that has many entries are kept so. -/

namespace Sys2Proof.Machine

variable {α : Type}

/-- The value at key `k`; an unlisted key reads as `d`. -/
def smGet (d : α) : List (Nat × α) → Nat → α
  | [], _ => d
  | (j, v) :: r, k => if j = k then v else smGet d r k

/-- The list without key `k`. -/
def smDel : List (Nat × α) → Nat → List (Nat × α)
  | [], _ => []
  | (j, v) :: r, k => if j = k then smDel r k else (j, v) :: smDel r k

/-- The list with value `v` at key `k`, in rising order of keys. -/
def smIns : List (Nat × α) → Nat → α → List (Nat × α)
  | [], k, v => [(k, v)]
  | (j, w) :: r, k, v =>
    if k < j then (k, v) :: (j, w) :: r
    else if k = j then (k, v) :: r
    else (j, w) :: smIns r k v

/-- The map with value `v` at key `k`, in canonical form: a value equal to `d`, what an unlisted key reads as,
removes the entry. -/
def smPut [DecidableEq α] (d : α) (m : List (Nat × α)) (k : Nat) (v : α) : List (Nat × α) :=
  if v = d then smDel m k else smIns m k v

/-- The map keeps its canonical form: keys strictly rising, no entry at its default. -/
def smWf [DecidableEq α] (d : Nat → α) : List (Nat × α) → Bool
  | [] => true
  | [(k, v)] => decide (v ≠ d k)
  | (k, v) :: (j, w) :: r => decide (v ≠ d k) && decide (k < j) && smWf d ((j, w) :: r)

/-- The first `n` values from key `k` upward. -/
def smRange (d : α) (m : List (Nat × α)) (k : Nat) : Nat → List α
  | 0 => []
  | n + 1 => smGet d m k :: smRange d m (k + 1) n

/-- Put a list of values at `k`, `k + 1`, …. -/
def smPuts [DecidableEq α] (d : α) : List (Nat × α) → Nat → List α → List (Nat × α)
  | m, _, [] => m
  | m, k, v :: r => smPuts d (smPut d m k v) (k + 1) r

end Sys2Proof.Machine
end

