-- ==== Sys2Proof/Machine/Bits.lean ====
section
/-! DEFINITION. Bit fields of words, little-endian byte strings (R6) and the CRC-32C of a line (R282, R375). -/

namespace Sys2Proof.Machine

/-- The `n` bits of `w` from bit `lo` upward, as a number (R5). -/
def bits (w : Word) (lo n : Nat) : Nat := (w.toNat >>> lo) % 2 ^ n

/-- Bit `i` of `w`. -/
def bitOf (w : Word) (i : Nat) : Bool := w.getLsbD i

/-- A word with ones in the `n` bits from bit `lo` upward. -/
def maskOf (lo n : Nat) : Word := BitVec.ofNat 64 ((2 ^ n - 1) <<< lo)

/-- A word with a one in bit `i`. -/
def bitMask (i : Nat) : Word := BitVec.ofNat 64 (2 ^ i)

/-- `w` with the `n` bits from bit `lo` upward set to `v` (modulo `2 ^ n`). -/
def withBits (w : Word) (lo n v : Nat) : Word :=
  (w &&& ~~~ maskOf lo n) ||| BitVec.ofNat 64 ((v % 2 ^ n) <<< lo)

/-- `w` with bit `i` set to `v`. -/
def withBit (w : Word) (i : Nat) (v : Bool) : Word :=
  if v then w ||| bitMask i else w &&& ~~~ bitMask i

/-- A number as a register value. -/
def wordOf (n : Nat) : Word := BitVec.ofNat 64 n

/-- 1 for true, 0 for false. -/
def b2n (b : Bool) : Nat := if b then 1 else 0

/-- Bits `lo … lo + n − 1` of a number. -/
def nbits (x lo n : Nat) : Nat := (x >>> lo) % 2 ^ n

/-- Bit `i` of a number. -/
def nbit (x i : Nat) : Bool := x.testBit i

/-- The two's-complement reading of the low `n` bits of a number. -/
def signedOf (n x : Nat) : Int :=
  if x % 2 ^ n < 2 ^ (n - 1) then ((x % 2 ^ n : Nat) : Int) else ((x % 2 ^ n : Nat) : Int) - (2 ^ n : Nat)

/-- An integer as an `n`-bit two's-complement number. -/
def unsignedOf (n : Nat) (x : Int) : Nat := (x % ((2 ^ n : Nat) : Int)).toNat

/-- The number of ones in the low `n` bits of `x`. -/
def popcount (x : Nat) : Nat → Nat
  | 0 => 0
  | n + 1 => popcount x n + b2n (nbit x n)

/-- The indices of the ones in the low `n` bits of `x`, rising. -/
def onesOf (x n : Nat) : List Nat := (List.range n).filter (fun i => nbit x i)

/-- The little-endian number of a byte string (R6). -/
def leNat : List Byte → Nat
  | [] => 0
  | b :: r => b.toNat + 256 * leNat r

/-- `n` bytes of `v`, little-endian (R6). -/
def leBytes : Nat → Nat → List Byte
  | 0, _ => []
  | n + 1, v => BitVec.ofNat 8 v :: leBytes n (v / 256)

/-- The number in the `n` bytes from byte `off` of a byte string (R6). -/
def leAt (bs : List Byte) (off n : Nat) : Nat := leNat ((bs.drop off).take n)

/-- The byte string with the bytes from `off` replaced by `v`. -/
def spliceAt (bs : List Byte) (off : Nat) (v : List Byte) : List Byte :=
  bs.take off ++ v ++ bs.drop (off + v.length)

/-- The byte string cut or filled with zero bytes to `n` bytes. -/
def padTo (n : Nat) (bs : List Byte) : List Byte :=
  bs.take n ++ List.replicate (n - bs.length) 0

/-- A function of a number that is evaluated first: a long computation stays flat when the kernel runs it. -/
def forced {α : Type} (n : Nat) (f : Nat → α) : α :=
  match n with
  | 0 => f 0
  | k + 1 => f (k + 1)

/-- `n` bits of the reflected CRC-32C polynomial (R282). -/
def crcBits : Nat → Nat → Nat
  | 0, c => c
  | n + 1, c => forced c (fun x => crcBits n (if x % 2 = 1 then (x / 2) ^^^ 0x82F63B78 else x / 2))

/-- The CRC-32C register after the bytes of a string (R282). -/
def crcFold : List Byte → Nat → Nat
  | [], c => c
  | b :: bs, c => forced (crcBits 8 (c ^^^ b.toNat)) (fun x => crcFold bs x)

/-- The CRC-32C of a byte string (R282, R375). -/
def crc32c (bs : List Byte) : BitVec 32 := BitVec.ofNat 32 (crcFold bs 0xFFFFFFFF ^^^ 0xFFFFFFFF)

/-- CRC-32C of 128 zero bytes, the check value of a zero-filled line (R375). -/
def zeroLineCrc : BitVec 32 := 0x082764DB#32

end Sys2Proof.Machine
end

