-- ==== Sys2Proof/Machine/RegMap.lean ====
section
/-! DEFINITION. Where the registers live (R396, R397, Tables 24.1 and 24.8), the access code of every field (R10) and the
reset value of every register (R406). -/

namespace Sys2Proof.Machine

/-- A place in register space: die, block, instance and offset (R396); `f` counts from the instance, and a cluster page
offset (R397) counts from 0x1_0000. -/
structure RegLoc where
  d : Nat
  b : Blk
  i : Nat
  f : Nat
deriving DecidableEq, Repr

/-- First local address of register space (R22). -/
def regBase : Nat := 0x020000000000

/-- The local address of offset `f` of instance `i` of block `b` on die `d` (R396). -/
def regAddr (d : Nat) (b : Blk) (i f : Nat) : Nat :=
  regBase + 0x2000000 * d + 0x100000 * b.pos + 0x1000 * i + f

/-- The address lies in the windows of register space (Table 1.5). -/
def isRegAddr (a : Nat) : Bool := decide (regBase ≤ a) && decide (a < 0x020010000000)

/-- The place at byte `w` of the window of die `d`, where the slot holds block `o` (R396). -/
def locIn (d w : Nat) (o : Option Blk) : Option RegLoc :=
  match o with
  | none => none
  | some b => if b.insts = 1 then some ⟨d, b, 0, w % 0x100000⟩ else some ⟨d, b, w % 0x100000 / 0x1000, w % 0x1000⟩

/-- The place a register-space address names, where the slot exists (R396). -/
def locOf (a : Nat) : Option RegLoc :=
  locIn ((a - regBase) / 0x2000000) ((a - regBase) % 0x2000000) Blk.all[(a - regBase) % 0x2000000 / 0x100000]?

/-- The access codes of a register's fields as masks (R10), and its reset value; bits in no mask are RO. -/
structure RegDef where
  rw : Word := 0
  rws : Word := 0
  w1c : Word := 0
  wo : Word := 0
  live : Word := 0
  reset : Word := 0
deriving DecidableEq, Repr

/-- A register of RO fields only. -/
def roDef (reset : Word := 0) : RegDef := { reset := reset }

/-- A register whose fields in `m` are RWS. -/
def rwsDef (m reset : Word) : RegDef := { rws := m, reset := reset }

/-- All 64 bits. -/
def allBits : Word := BitVec.allOnes 64

/-- Cause bits of a block's STAT register, W1C (Table 24.2 and each block's STAT table). -/
def causeMask : Blk → Word
  | .seq => maskOf 8 7 | .cel => maskOf 8 6 | .trl => maskOf 8 2 | .mma => maskOf 8 8 | .cvu => maskOf 8 7
  | .hbm => maskOf 8 12 | .fab => maskOf 8 8 | .mac => maskOf 8 8 | .agl => maskOf 8 8 | .clk => maskOf 8 5
  | .pwr => maskOf 8 5 ||| maskOf 16 7 | .thm => maskOf 8 8 | .saf => maskOf 8 7 | .sec => maskOf 8 7
  | .mod => maskOf 8 15 | .srg => 0 | .eng => maskOf 8 6 | .tim => maskOf 8 2

/-- MASK field of a block's IMASK register, LIVE (Table 24.2 and each block's IMASK table). -/
def imaskMask : Blk → Word
  | .seq => maskOf 8 8 | .pwr => maskOf 8 16 | b => causeMask b

/-- The registers of Table 24.2, offsets 0x000–0x018 of every block. -/
def commonDef (b : Blk) (f : Nat) : Option RegDef :=
  if f = 0 then some { w1c := maskOf 0 4 ||| causeMask b, reset := if b = .fab then 0x20000 else 0 }
  else if f = 8 then some { live := imaskMask b }
  else if f = 0x10 then some { w1c := bitMask 7 }
  else if f = 0x18 then some { wo := bitMask 1 }
  else none

/-- SEQ registers (Tables 6.14–6.18, 8.8, 8.9, 14.7). -/
def seqDef (d f : Nat) : Option RegDef :=
  if f = 0x20 then some (rwsDef (maskOf 0 8) 5)
  else if 0x100 ≤ f ∧ f < 0x300 then
    match (f - 0x100) % 0x40 with
    | 0x00 => some (rwsDef (maskOf 0 3 ||| maskOf 4 16) 0x20)
    | 0x08 => some (rwsDef (maskOf 0 48) 0x0000FFFFFFFFFFFF)
    | 0x10 => some (roDef)
    | 0x18 => some (rwsDef (maskOf 7 41) 0)
    | 0x20 => some (rwsDef (maskOf 7 41) 0)
    | 0x28 => some { wo := maskOf 0 3 }
    | 0x30 => some { rw := maskOf 0 16 }
    | _ => none
  else if 0x400 ≤ f ∧ f < 0x600 then some (roDef)
  else if 0x600 ≤ f ∧ f < 0x800 ∧ d = 0 then
    match (f - 0x600) % 0x40 with
    | 0x00 => some (rwsDef (maskOf 0 5 ||| maskOf 12 36) 4)
    | 0x08 => some (rwsDef (maskOf 12 36) 0)
    | 0x10 => some (rwsDef (maskOf 3 45) 0)
    | 0x18 => some (roDef)
    | 0x20 => some { wo := bitMask 0 }
    | _ => none
  else if 0x1000 ≤ f ∧ f < 0x5000 then some { rw := allBits }
  else if 0x8000 ≤ f ∧ f < 0x10000 ∧ d = 0 then
    match (f - 0x8000) % 0x1000 with
    | 0x000 => some { wo := maskOf 0 32 }
    | 0x008 => some (roDef)
    | 0x010 => some (roDef)
    | _ => none
  else none

/-- CEL registers (Tables 9.8–9.10). -/
def celDef (f : Nat) : Option RegDef :=
  if f = 0x20 then some (rwsDef (maskOf 0 2 ||| maskOf 8 24) 0x01000A00)
  else if f = 0x28 then some (rwsDef (maskOf 0 4) 4)
  else if f = 0x30 then some (rwsDef (maskOf 0 6 ||| maskOf 8 6 ||| maskOf 16 6 ||| maskOf 24 6) 0x08081010)
  else if f = 0x38 then some { wo := maskOf 0 3 ||| maskOf 8 10 ||| maskOf 24 5 }
  else if 0x40 ≤ f ∧ f < 0xC0 then
    if f % 16 = 0 then some (rwsDef (maskOf 12 36) 0) else some (rwsDef (maskOf 0 3 ||| maskOf 12 36) 0)
  else if 0x100 ≤ f ∧ f < 0x220 then (if f < 0x200 then some (roDef) else some (roDef))
  else if 0x1000 ≤ f ∧ f < 0x3100 then some (roDef)
  else none

/-- HBM registers (Tables 10.9–10.11). -/
def hbmDef (f : Nat) : Option RegDef :=
  if f = 0x20 then some (rwsDef (maskOf 0 1 ||| maskOf 8 8) 0x1001)
  else if f = 0x28 then some { wo := maskOf 0 14 ||| maskOf 16 14 }
  else if f = 0x30 then some (roDef)
  else if f = 0x38 then some { rw := maskOf 0 28, wo := bitMask 28 }
  else if f = 0x40 then some { rw := maskOf 0 14 }
  else if f = 0x48 then some (roDef)
  else if 0x100 ≤ f ∧ f < 0x200 then some { rw := allBits }
  else if 0x200 ≤ f ∧ f < 0x230 then some (roDef)
  else none

/-- FAB registers (Tables 11.14–11.16, 13.10–13.12). -/
def fabDef (f : Nat) : Option RegDef :=
  if f = 0x20 then some (rwsDef (maskOf 0 8) 0x50)
  else if f = 0x28 then some (rwsDef (maskOf 0 12) 0)
  else if f = 0x30 then some (rwsDef (maskOf 0 2 ||| maskOf 4 12) 0)
  else if f = 0x38 then some (rwsDef (maskOf 0 10 ||| maskOf 16 3) 0x30032)
  else if f = 0x40 then some (rwsDef (maskOf 7 41) 0)
  else if f = 0x48 then some (roDef)
  else if f = 0x50 then some (rwsDef (maskOf 7 41) 0)
  else if f = 0x58 then some (rwsDef (maskOf 0 16) 0x64)
  else if f = 0x60 then some { w1c := bitMask 7 }
  else if 0x80 ≤ f ∧ f < 0xA0 then some (rwsDef (maskOf 0 13 ||| maskOf 16 32) 0)
  else if 0x100 ≤ f ∧ f < 0x140 then some (roDef)
  else if 0x200 ≤ f ∧ f < 0x240 then some { rw := allBits }
  else if 0x1000 ≤ f ∧ f < 0x2000 then
    match f % 0x20 with
    | 0x00 => some { rw := maskOf 0 4 ||| maskOf 20 28 }
    | 0x08 => some { rw := maskOf 7 41 }
    | 0x10 => some { rw := maskOf 16 16 }
    | _ => none
  else none

/-- MAC registers (Tables 12.9–12.11). -/
def macDef (f : Nat) : Option RegDef :=
  if f = 0x20 then some (rwsDef (maskOf 0 7 ||| maskOf 8 14 ||| maskOf 24 28) 0x00000188B5240030)
  else if f = 0x28 then some (rwsDef allBits 0x0800040003000400)
  else if f = 0x30 then some (rwsDef (maskOf 0 48) 0)
  else if f = 0x38 then some (rwsDef (maskOf 12 36) 0x00000253594E0000)
  else if f = 0x40 then some (rwsDef (maskOf 0 24) 0xFAC688)
  else if f = 0x48 then some (rwsDef (maskOf 0 16) 0x1000)
  else if f = 0x50 then some (roDef 0xFF)
  else if f = 0x58 then some { wo := maskOf 0 5 }
  else if f = 0x60 ∨ f = 0x68 then some (rwsDef (maskOf 0 55) 0x0010000000000000)
  else if f = 0x70 then some (roDef)
  else if f = 0x78 then some { wo := maskOf 0 34 }
  else if f = 0x80 then some { live := maskOf 0 9 ||| maskOf 32 32 }
  else if f = 0x88 then some { live := allBits }
  else if 0x100 ≤ f ∧ f < 0x180 then some (roDef)
  else if 0x180 ≤ f ∧ f < 0x1C8 then some (roDef)
  else if 0x800 ≤ f ∧ f < 0x1000 then some { live := maskOf 0 40, reset := 0xFF }
  else none

/-- AGL registers (Tables 16.12, 16.13). -/
def aglDef (f : Nat) : Option RegDef :=
  if f = 0x20 then some (rwsDef (maskOf 0 3 ||| maskOf 16 32) 0x0000001400640006)
  else if f = 0x28 then some (rwsDef (maskOf 0 46) 0x0000280000000000)
  else if f = 0x30 then some (rwsDef (maskOf 0 34) 0)
  else if f = 0x38 then some (rwsDef (maskOf 3 37) 0)
  else if f = 0x40 then some (roDef)
  else if f = 0x48 then some { wo := maskOf 0 2 }
  else if f = 0x50 then some (roDef)
  else if 0x100 ≤ f ∧ f < 0x160 then some (roDef)
  else none

/-- CLK registers and the cluster page CLK_CL_p (Tables 18.8, 18.9); FMAX and LOGICAL before the records are read: 19
and the identity on physical clusters 0–47 (DESIGN CHOICE, log entry 4). -/
def clkDef (f : Nat) : Option RegDef :=
  if f = 0x20 then some (rwsDef (maskOf 0 8) 0x14)
  else if 0x28 ≤ f ∧ f < 0x48 then some (roDef)
  else if 0x10100 ≤ f ∧ f < 0x10100 + 8 * 52 then
    let p := (f - 0x10100) / 8
    some (roDef (wordOf (8 + 32 * 19 + 0xFF * 0x10000 + (if p < 48 then p else 0x3F) * 0x1000000)))
  else none

/-- PWR registers and the cluster page PWR_RAIL_p (Tables 19.6, 20.4). -/
def pwrDef (f : Nat) : Option RegDef :=
  if f = 0x20 then some (rwsDef (maskOf 0 32) 0x19140032)
  else if f = 0x28 then some { rw := maskOf 0 10 }
  else if 0x30 ≤ f ∧ f < 0x58 then some (roDef)
  else if f = 0x58 then some { live := maskOf 0 26, reset := 0x03EA588C }
  else if f = 0x60 then some (roDef 0x13FFFF)
  else if 0x68 ≤ f ∧ f < 0x80 then some (roDef)
  else if f = 0x80 then some { rw := maskOf 0 11 }
  else if f = 0x88 then some (roDef)
  else if 0x200 ≤ f ∧ f < 0x300 then some (roDef)
  else if 0x10100 ≤ f ∧ f < 0x10100 + 8 * 52 then some (roDef 0x3E0)
  else none

/-- THM registers and the cluster page THM_CL_p (Table 21.8). -/
def thmDef (f : Nat) : Option RegDef :=
  if 0x100 ≤ f ∧ f < 0x4A0 then some (roDef)
  else if 0x10400 ≤ f ∧ f < 0x10400 + 8 * 52 then some (roDef 0x13)
  else none

/-- SEC registers of die 0 (Table 17.9). -/
def secDef (d f : Nat) : Option RegDef :=
  if d ≠ 0 then none
  else if f = 0x20 then some { wo := maskOf 0 4 }
  else if f = 0x28 then some { rw := allBits }
  else if f = 0x30 then some { rw := maskOf 0 48 }
  else if f = 0x38 then some (roDef)
  else if f = 0x40 then some { rw := allBits }
  else none

/-- Reset value of MOD_COOL_CFG: RATED of Table 21.3, HCAP 3,830, OUT_MAX 62 (Table 21.9). -/
def coolReset (p : Part) : Word :=
  let rated := match p with | .t2a => 0 | .t2l => 800 | .t4l => 1600 | .t8l => 3000
  wordOf (rated + 3830 * 0x10000 + 62 * 0x10000000)

/-- Intermediate bus converters of a part (R329). -/
def Part.ibcs : Part → Nat
  | .t2a => 1 | .t2l => 1 | .t4l => 2 | .t8l => 4

/-- MOD registers (Tables 17.10, 19.7, 20.5, 21.9, 22.7, 23.5). -/
def modDef (p : Part) (f : Nat) : Option RegDef :=
  if f = 0x20 then some (roDef)
  else if f = 0x28 then some (roDef (wordOf ((2 ^ Part.ibcs p - 1) * 2 ^ 32)))
  else if f = 0x30 then some { wo := maskOf 0 2 }
  else if f = 0x38 then some { live := maskOf 0 32, reset := wordOf (p.maxWatts * 0x10001) }
  else if f = 0x40 then some (roDef (wordOf p.maxWatts))
  else if f = 0x48 ∨ f = 0x50 ∨ f = 0x58 then some (roDef)
  else if f = 0x60 then some (rwsDef (maskOf 0 36) (coolReset p))
  else if f = 0x68 then some (rwsDef (maskOf 0 7 ||| maskOf 8 7 ||| maskOf 16 7) 0x323130)
  else if f = 0x70 then some (roDef)
  else if f = 0x78 then some (rwsDef (maskOf 0 9 ||| maskOf 12 8 ||| maskOf 24 8) 0x100320EF)
  else if f = 0x80 then some { wo := maskOf 0 4 ||| maskOf 4 3 ||| maskOf 7 1 ||| maskOf 8 24 }
  else if f = 0x88 then some { w1c := bitMask 1 }
  else if 0x90 ≤ f ∧ f < 0xD0 then some (roDef)
  else if 0x100 ≤ f ∧ f < 0x200 then some (roDef)
  else none

/-- TIM registers (Table 18.11). -/
def timDef (f : Nat) : Option RegDef :=
  if f = 0x20 then some (rwsDef (maskOf 0 3 ||| maskOf 8 40) 0x000003E8FCF8F800)
  else if f = 0x28 then some (roDef)
  else if f = 0x30 then some { wo := allBits }
  else if f = 0x38 then some { rw := maskOf 0 48 }
  else if f = 0x40 ∨ f = 0x48 ∨ f = 0x50 then some (roDef)
  else none

/-- The defined register at offset `f` of a block's instance, with its access codes and reset (R10, R406). -/
def regDef (p : Part) (d : Nat) (b : Blk) (f : Nat) : Option RegDef :=
  if f < 0x20 then (if f % 8 = 0 then commonDef b f else none)
  else if f % 8 ≠ 0 then none
  else match b with
  | .seq => seqDef d f
  | .cel => celDef f
  | .trl => if f = 0x20 then some (roDef) else none
  | .mma =>
    if f = 0x20 then some (rwsDef allBits allBits)
    else if f = 0x28 then some { wo := maskOf 0 3 }
    else if 0x30 ≤ f ∧ f < 0x50 then some (roDef)
    else none
  | .cvu =>
    if f = 0x20 then some (rwsDef allBits allBits)
    else if f = 0x28 then some { rw := maskOf 0 12, reset := 1 }
    else if f = 0x30 then some (roDef)
    else if 0x38 ≤ f ∧ f < 0x60 then some (roDef)
    else none
  | .hbm => hbmDef f
  | .fab => fabDef f
  | .mac => macDef f
  | .agl => aglDef f
  | .clk => clkDef f
  | .pwr => pwrDef f
  | .thm => thmDef f
  | .saf =>
    if f = 0x38 then some { wo := maskOf 0 4 }
    else if 0x20 ≤ f ∧ f < 0x38 then some (roDef)
    else none
  | .sec => secDef d f
  | .mod => modDef p f
  | .srg => if 0x40 ≤ f ∧ f < 0x140 then some { rws := allBits } else none
  | .eng => if f = 0x20 then some (roDef) else none
  | .tim => timDef f

/-- One past the last offset in use of an instance (Table 24.1); the proxy windows of FAB are handled apart. -/
def Blk.limit : Blk → Nat
  | .seq => 0x10000 | .cel => 0x3100 | .trl => 0x28 | .mma => 0x50 | .cvu => 0x60 | .hbm => 0x230 | .fab => 0x10000
  | .mac => 0x1000 | .agl => 0x160 | .clk => 0x48 | .pwr => 0x300 | .thm => 0x4A0 | .saf => 0x40 | .sec => 0x48
  | .mod => 0x200 | .srg => 0x140 | .eng => 0x28 | .tim => 0x58

/-- The offset lies in the part of a slot that is in use, its cluster page included (R397, R398). -/
def Blk.offsetInUse (b : Blk) (f : Nat) : Bool :=
  decide (f < Blk.limit b) ||
    (match b with
     | .clk | .pwr => decide (0x10000 ≤ f) && decide (f < 0x10100 + 8 * 52)
     | .thm => decide (0x10000 ≤ f) && decide (f < 0x10400 + 8 * 52)
     | _ => false)

/-- The reset value of the register at a place; zero where none is defined. -/
def placeReset (p : Part) (o : Option RegLoc) : Word :=
  match o with
  | none => 0
  | some l => match regDef p l.d l.b l.f with
    | none => 0
    | some r => r.reset

/-- The reset value of the register at a local address; zero where none is defined. -/
def regReset (p : Part) (a : Nat) : Word := placeReset p (locOf a)

end Sys2Proof.Machine
end

