-- ==== Sys2Proof/Machine/State.lean ====
section
/-! DEFINITION. The state of the block, as plain data, and its value right after reset. -/

namespace Sys2Proof.Machine

/-- Why the block stops with a fault. -/
inductive Fault where
  /-- A step-table line was rewritten while a descriptor that names its table is in hand, and the step read from it
  comes to issue: the manual calls the behaviour undefined (R95). Raised by the step rows. Safe: the block stops. -/
  | tableRewritten
deriving DecidableEq, Repr

/-- Why a command has no meaning. -/
inductive Refusal where
  /-- A command whose meaning is not written yet. Raised by the dispatch alone. Safe: the block stops. -/
  | notModelled (mnemonic : String)
deriving DecidableEq, Repr

/-- States of a context (Table 6.1); a running context reads READY while its next step waits for clusters on which it is
not resident (R93). -/
inductive CtxSt where
  | idle | running | stopped | trapped
deriving DecidableEq, Repr

/-- One queue of a context on one die (R94, R110). -/
structure Queue where
  /-- R94: the queue has reached END. -/
  atEnd : Bool := true
  /-- R94: local address of the table's first step. -/
  base : Nat := 0
  /-- R98: index of the head step. -/
  head : Nat := 0
  /-- R110: the return register. -/
  ret : Option Nat := none
  /-- R110: the step the queue has just returned to. -/
  back : Option Nat := none
  /-- R94: the prefetched steps, index and eight words. -/
  win : List (Nat × List Word) := []
deriving DecidableEq, Repr

/-- One context on one die (R93). -/
structure Ctx where
  /-- R93: its state. -/
  st : CtxSt := .idle
  /-- R94: the main queue. -/
  main : Queue := {}
  /-- R94: the deferred queue. -/
  defer : Queue := {}
  /-- R274: SNAP steps completed on the die under the descriptor. -/
  snaps : Nat := 0
deriving DecidableEq, Repr

/-- The first detection of a trap (R112): cause, detecting unit, queue, index, operand and the words 2 and 3. -/
structure TrapRec where
  /-- R112: trap cause (Table 6.7). -/
  cause : Nat := 0
  /-- R40: die of the detection. -/
  d : Nat := 0
  /-- R112: the detecting unit, field CLUSTER. -/
  unit : Nat := 0
  /-- R40: 1 for a step of the deferred queue. -/
  defer : Bool := false
  /-- R40: index of the step. -/
  idx : Nat := 0
  /-- R40: local address of the table's first step. -/
  tbase : Nat := 0
  /-- R40: operand code (Table 2.9). -/
  operand : Nat := 0
  /-- R40: block number. -/
  block : Nat := 0
  /-- R112: word 2 without MORE. -/
  w2 : Nat := 0
  /-- R112: word 3. -/
  w3 : Nat := 0
  /-- R40: die time base at the detection, ns. -/
  ts : Nat := 0
deriving DecidableEq, Repr

/-- Where a descriptor of a context stands (R153, R155). -/
inductive HPhase where
  | none | descRead | dirWait | running | ended | report | entry | cons | vector
deriving DecidableEq, Repr

/-- The work of one context as die 0 holds it (R149–R158). -/
structure HCtx where
  /-- R149, R155: the stage of the descriptor in hand. -/
  phase : HPhase := .none
  /-- R151: DSEQ. -/
  dseq : Nat := 0
  /-- R151: IRQ. -/
  irq : Bool := false
  /-- R151: TABLE_DIR. -/
  dir : Nat := 0
  /-- R151: REPORT_ADDR. -/
  rep : Nat := 0
  /-- R151: REPORT_LINES. -/
  repLines : Nat := 0
  /-- R151: CLR_BASE. -/
  clrBase : Nat := 0
  /-- R151: CLR_COUNT. -/
  clrCount : Nat := 0
  /-- R155: STATUS of the completion entry. -/
  status : Nat := 0
  /-- R156: CAUSE of the completion entry. -/
  cause : Nat := 0
  /-- R157: START_NS. -/
  startNs : Nat := 0
  /-- R157: energy of the four partitions at the start, µJ. -/
  energy0 : List Nat := []
  /-- R157: idle counters at the start, summed over dies. -/
  idle0 : List Nat := []
  /-- R157: END_NS. -/
  endNs : Nat := 0
  /-- R157: ENERGY of the four partitions over the descriptor, µJ. -/
  energy : List Nat := []
  /-- R157: step records in the order die 0 received them. -/
  recs : List (List Word) := []
  /-- R156: REPORT_TRUNC. -/
  trunc : Bool := false
  /-- R156: POISONED. -/
  poisoned : Bool := false
  /-- R155: host writes of the present stage that are not acknowledged yet. -/
  acks : Nat := 0
  /-- R112: the first detection since the record was armed. -/
  trap : Option TrapRec := none
  /-- R112: every other detection. -/
  more : Nat := 0
  /-- R111: the trap record is written. -/
  trapDone : Bool := false
  /-- R155: a CLEAR waits for steps in flight to end. -/
  clearing : Bool := false
deriving DecidableEq, Repr

/-- What an engine does with the line a READ or M_RD returns (R134, R139). -/
inductive LineAct where
  /-- nothing: the request was a store. -/
  | none
  /-- R134: write the line to a local address, or to a host-window address. -/
  | line (dst : Nat)
  /-- R139: copy `n` bytes from byte `off` of the line to a local byte address. -/
  | bytes (dst off n : Nat)
deriving DecidableEq, Repr

/-- One piece of work of a racking engine, addresses global (R134, R137, R139, R274). -/
inductive EAct where
  /-- R134: copy line `i` of the step; the flag says that a store of it carries FLAG. -/
  | copy (i src dst : Nat) (flag : Bool)
  /-- R139: copy `n` scale bytes of entry `i`, from byte `soff` of a region to byte `doff` of another. -/
  | part (i src soff dst doff n : Nat)
  /-- R139: write the count line of an expert. -/
  | count (i v dst : Nat)
  /-- R139: signal an expert's counter. -/
  | sig (cref : Nat)
  /-- R139: write a row of zeros and its zero scale bytes: lines from `dst`, `nl` of them, then `n` bytes at `doff` of
  `sdst`. -/
  | zero (i dst nl sdst doff n : Nat)
  /-- R274: write a line of the snapshot. -/
  | snap (la : Nat) (bs : List Byte) (side : Word)
  /-- R274: write the header line; its TIMESTAMP is filled when it is sent. -/
  | header (la : Nat) (bs : List Byte)
deriving DecidableEq, Repr

/-- A step in flight on one die (R103, R122). -/
structure Flight where
  /-- The flight's own number. -/
  id : Nat := 0
  /-- R93: die. -/
  d : Nat := 0
  /-- R93: context. -/
  c : Nat := 0
  /-- R122: step of the deferred queue. -/
  defer : Bool := false
  /-- R122: index in its table. -/
  idx : Nat := 0
  /-- R40: local address of the table's first step. -/
  tbase : Nat := 0
  /-- R118: the eight step words. -/
  ws : List Word := []
  /-- R123: units not complete yet; engine and channel steps hold unit 0. -/
  units : List Nat := []
  /-- R59: at least one unit ended without completing. -/
  failed : Bool := false
  /-- R158: record words 2 to 7. -/
  figs : List Nat := []
  /-- R132: amax exponents the clusters of a STAT measured. -/
  aexp : Option Int := none
  /-- R58: at least one line was written poisoned. -/
  poisoned : Bool := false
  /-- R59: numbers of the lines the step has written on this module; for a SWAP step, the marks of the blocks it waits for
  (R143). -/
  lines : List Nat := []
  /-- R134, R139, R274: what the step sends once everything it sent before is answered. -/
  todo : List EAct := []
  /-- R215: requests sent and not answered. -/
  wait : Nat := 0
deriving DecidableEq, Repr

/-- One element of an output tile (R48, R57). -/
structure Elem where
  /-- R48: the 32-bit main value. -/
  main : BitVec 32 := 0
  /-- R48: the 16-bit compensation word. -/
  comp : BitVec 16 := 0
  /-- R57: the residue shadow, 0 to 6. -/
  shadow : Nat := 0
deriving DecidableEq, Repr

/-- One output tile of an array (R48). -/
structure Tile where
  /-- R48: elements, keyed row × 96 + column; an unlisted element is clear. -/
  elems : List (Nat × Elem) := []
  /-- R48: the tile exponent. -/
  texp : Int := 0
  /-- R127: lane mode of the step that filled it: 0 normal integer, 1 narrow integer, 2 normal block, 3 narrow block. -/
  mode : Nat := 0
  /-- R58: the tile consumed a poisoned line. -/
  poison : Bool := false
deriving DecidableEq, Repr

/-- One matrix array (R42, R48, R50). -/
structure Arr where
  /-- R48: tile T0. -/
  t0 : Tile := {}
  /-- R48: tile T1. -/
  t1 : Tile := {}
  /-- R48: the tile filled last: `some false` T0, `some true` T1, none after start-up. -/
  last : Option Bool := none
  /-- R50: the last tile is open. -/
  isOpen : Bool := false
  /-- R45: weight register 0 of the cells, keyed depth × 96 + column. -/
  w0 : List (Nat × Int) := []
  /-- R45: weight register 1 of the cells. -/
  w1 : List (Nat × Int) := []
  /-- R60: INJECT_RESIDUE waits for the next drain. -/
  inject : Bool := false
deriving DecidableEq, Repr

/-- One logical cluster of a die (R15, R114). -/
structure Cluster where
  /-- R114: the resident context. -/
  resident : Option Nat := none
  /-- R115: the context whose image the shadow sets hold. -/
  preload : Option Nat := none
  /-- R114: the resident context's quantum has expired. -/
  expired : Bool := false
  /-- R390: the sequencer releases no step to it. -/
  held : Bool := false
  /-- R15: its four arrays. -/
  arr : List (Nat × Arr) := []
deriving DecidableEq, Repr

/-- Who holds a fabric tag (R203, R215). -/
inductive Owner where
  /-- R103: the SCOPE 2 signal of unit `u` of a step: queue, index, table base. -/
  | sig (u : Nat) (defer : Bool) (idx tbase : Nat)
  /-- R134: line `i` of engine flight `fid`. -/
  | eng (fid i : Nat) (act : LineAct)
  /-- R252: a reduction channel's store: channel, LEVEL of Table 13.8, flight of its bucket. -/
  | chan (h k fid : Nat)
  /-- R209: a proxy access that came over the link of die `pd` with a host tag. -/
  | proxy (pd tag opc word : Nat)
deriving DecidableEq, Repr

/-- A held tag of the request table (R14, R215). -/
structure TagEnt where
  /-- The request as it was sent. -/
  r : FRec := {}
  /-- R203: its issuer. -/
  own : Owner := .sig 0 false 0 0
  /-- R227: retransmissions so far. -/
  tries : Nat := 0
  /-- R224: the port it was sent on. -/
  via : Option Nat := none
deriving DecidableEq, Repr

/-- A hot-line table entry of a blend unit (R218). -/
structure Hot where
  /-- R217: operation, target address and word that members share. -/
  key : Nat × Nat × Nat := (0, 0, 0)
  /-- R218: the merged request that is held. -/
  req : Option FRec := none
  /-- R219: its members in the order of arrival. -/
  members : List FRec := []
  /-- R218: windows without a request. -/
  idle : Nat := 0
deriving DecidableEq, Repr

/-- The fabric router of a die (R14, R200–R228). -/
structure Router where
  /-- R236: requests and responses handed to the router for this module, with their class. -/
  inq : List (Nat × FRec) := []
  /-- R14: the tag table. -/
  tags : List (Nat × TagEnt) := []
  /-- R14, R213: requests that wait for a tag or for earlier bulk stores. -/
  waitq : List (FRec × Owner) := []
  /-- R227: next end-to-end sequence number by destination module × 2 + class (1 control). -/
  seqs : List (Nat × Nat) := []
  /-- R227: by (source module × 8 + source die) × 2 + class: the applied numbers, newest first, with their responses. -/
  applied : List (Nat × List (Nat × FRec)) := []
  /-- R218: the hot-line table, most recently used first. -/
  hot : List Hot := []
  /-- R218: lines forwarded in the last window: key, record and tick. -/
  recent : List ((Nat × Nat × Nat) × Nat) := []
  /-- R219: merged requests that have left: the merged record's member list by (source die, tag). -/
  merged : List (Nat × List FRec) := []
  /-- R224: ports whose control requests are not all resolved. -/
  failed : List Nat := []
  /-- R224: control traffic held: out port and record. -/
  heldq : List (Nat × FRec) := []
deriving DecidableEq, Repr

/-- A fabric frame (R238, Table 12.4). -/
structure Frame where
  /-- R238: destination address. -/
  dst : Nat := 0
  /-- R238: source address. -/
  src : Nat := 0
  /-- R238: class. -/
  pcp : Nat := 0
  /-- R238: VID. -/
  vid : Nat := 0
  /-- R238: EtherType. -/
  etype : Nat := 0
  /-- Table 12.4: HSEQ. -/
  hseq : Nat := 0
  /-- Table 12.4: HACK, where HACK_VALID is set. -/
  hack : Option Nat := none
  /-- R238: the records. -/
  recs : List FRec := []
deriving DecidableEq, Repr

/-- An Ethernet port beside its registers (R233–R245). -/
structure Port where
  /-- R237: records that wait, class and record, oldest first. -/
  txq : List (Nat × FRec) := []
  /-- R240: link-control records that wait. -/
  ctlq : List FRec := []
  /-- R226: next hop sequence number. -/
  hseq : Nat := 0
  /-- R226: frames sent and not acknowledged, oldest first. -/
  unacked : List Frame := []
  /-- R226: retransmissions of the oldest frame without success. -/
  tries : Nat := 0
  /-- R226: hop sequence number expected next. -/
  rxNext : Nat := 0
  /-- R239: an acknowledgement is held unsent. -/
  ackDue : Bool := false
  /-- R226: a NAK was sent and the frame asked for has not arrived. -/
  naked : Bool := false
  /-- R241: received frames that still hold transit lines: class, lines, and the record whose taking frees them. -/
  held : List (Nat × Nat × FRec) := []
  /-- R238: module identifier in the neighbour's HELLO. -/
  peer : Nat := 0
  /-- R241: classes this port pauses at its partner. -/
  pausing : List Nat := []
  /-- R241: classes its partner pauses. -/
  paused : List Nat := []
  /-- R243: gate states of the eight classes. -/
  gates : Nat := 255
  /-- R243: next entry of the gate control list. -/
  gcl : Nat := 0
  /-- R234: logical receive lane being moved to the spare. -/
  rxMove : Option Nat := none
  /-- R234: new frames are held for a switch-in. -/
  txHold : Bool := false
  /-- R233: training has passed and a HELLO is awaited. -/
  trained : Bool := false
  /-- R245: a host frame is on the wire. -/
  hostTx : Bool := false
  /-- R243: the first record of each class that waited at the start of the present gate cycle. -/
  gateWait : List (Nat × FRec) := []
  /-- R243: those of them already counted in GATE_STARVE. -/
  gateDone : List (Nat × FRec) := []
deriving DecidableEq, Repr

/-- A link message (Table 16.4). -/
structure LMsg where
  /-- Table 16.4: OPC. -/
  opc : Nat := 0
  /-- Table 16.4: WORD. -/
  word : Nat := 0
  /-- Table 16.4: POISON. -/
  poison : Bool := false
  /-- Table 16.4: TAG. -/
  tag : Nat := 0
  /-- Table 16.4: STATUS. -/
  stat : Nat := 0
  /-- Table 16.4: AKIND or XSTATUS. -/
  ak : Nat := 0
  /-- Table 16.4: ADDR. -/
  addr : Nat := 0
  /-- R285: payload slots, 16 bytes each. -/
  pay : List Byte := []
deriving DecidableEq, Repr

/-- A flit (Table 16.3). -/
structure Flit where
  /-- Table 16.3: FTYPE. -/
  ftype : Nat := 0
  /-- Table 16.3: FSEQ. -/
  fseq : Nat := 0
  /-- Table 16.3: FACK, where ACK_VALID is set. -/
  fack : Option Nat := none
  /-- Table 16.3: CR_REQ, CR_SNP, CR_RSP. -/
  cr : Nat × Nat × Nat := (0, 0, 0)
  /-- Table 16.3: the message in its slots; the other slots hold NOP. -/
  msg : Option LMsg := none
  /-- R284: bytes of slot 0 of an INIT flit. -/
  init : List Byte := []
deriving DecidableEq, Repr

/-- Who waits for the host's response to a module request (R286). -/
inductive HOwner where
  /-- R149: the descriptor read of a context. -/
  | desc (c : Nat)
  /-- R155: a report, entry or CONS write of a context. -/
  | post (c : Nat)
  /-- R111: the trap record of a context. -/
  | trap (c : Nat)
  /-- R136, R142: line `i` of an engine flight. -/
  | eng (fid i : Nat) (act : LineAct)
  /-- R288: the read of a kept line whose masked write follows: die, mask, data and the write's own owner code. -/
  | merge (d c k mask : Nat) (bs : List Byte)
  /-- R307–R310: a security command. -/
  | sec
deriving DecidableEq, Repr

/-- A module request to the host that is not answered (R286). -/
structure HReq where
  /-- R285: its tag. -/
  tag : Nat := 0
  /-- Table 16.5: its opcode. -/
  opc : Nat := 0
  /-- R288: host-window local address. -/
  la : Nat := 0
  /-- R136: the die that issued it. -/
  d : Nat := 0
  /-- its issuer. -/
  own : HOwner := .sec
deriving DecidableEq, Repr

/-- An outstanding snoop (R290). -/
structure Snoop where
  /-- its tag. -/
  tag : Nat := 0
  /-- line number of the module line. -/
  ln : Nat := 0
  /-- R289: SNP_INV, else SNP_SHARE. -/
  inv : Bool := false
  /-- R289: the entry was E. -/
  excl : Bool := false
  /-- R289: a full-line write waits, so returned data is discarded. -/
  discard : Bool := false
deriving DecidableEq, Repr

/-- The Aigraic Link port of a die beside its registers (R279–R294). -/
structure Link where
  /-- R283: next FSEQ. -/
  fseq : Nat := 0
  /-- R283: FSEQ expected next. -/
  rxNext : Nat := 0
  /-- R283: DATA flits not acknowledged, oldest first. -/
  unacked : List Flit := []
  /-- R283: replays of the oldest flit. -/
  replays : Nat := 0
  /-- R283: retrains failed in a row. -/
  fails : Nat := 0
  /-- R281: the port is coming up again from UP and keeps its buffers. -/
  keep : Bool := false
  /-- R284: credit held, in slots: REQ, SNP, RSP. -/
  credit : Nat × Nat × Nat := (0, 0, 0)
  /-- R284: slots freed since the last DATA flit. -/
  owed : Nat × Nat × Nat := (0, 0, 0)
  /-- R284: messages that wait for credit or window. -/
  sendq : List LMsg := []
  /-- R285: bytes of a message that a following flit completes. -/
  partMsg : List Byte := []
  /-- R289: snoop filter, most recently used first: line number and state E. -/
  filter : List (Nat × Bool) := []
  /-- R290: outstanding snoops. -/
  snoops : List Snoop := []
  /-- R290, R291: messages of the host that wait, oldest first; the flag says that the adders of an ATOMIC disagree (R379). -/
  stalled : List (LMsg × Bool) := []
  /-- R286: module requests without a response. -/
  hreqs : List HReq := []
  /-- R285: next tag. -/
  nextTag : Nat := 0
  /-- R292: interrupt vectors that wait for the block's earlier writes. -/
  intrq : List Nat := []
deriving DecidableEq, Repr

/-- Everything the module sends. -/
inductive OutMsg where
  /-- R282: a flit on the link of a die. -/
  | flit (d : Nat) (f : Flit)
  /-- R238: a fabric frame on a port of a die. -/
  | frame (d p : Nat) (f : Frame)
  /-- R245: a host frame on a port; the flag says that its FCS is inverted (R378). -/
  | host (d p : Nat) (bs : List Byte) (badFcs : Bool)
  /-- R241: a PFC frame: class and quanta. -/
  | pfc (d p cls quanta : Nat)
  /-- R244: an IEEE 802.1AS message on a port. -/
  | ptp (d p : Nat) (m : Ptp)
  /-- R405: a flit resent over a Trellis bridge. -/
  | bridge (d peer : Nat)
  /-- R400: bytes on the management bus. -/
  | i3c (bs : List Byte)
deriving DecidableEq, Repr

/-- A bucket a reduction channel has accepted (R140). -/
structure Bucket where
  /-- R140: the RED step's flight. -/
  fid : Nat := 0
  /-- Table 7.12: SIZE. -/
  size : Nat := 0
  /-- Table 7.12: RGROUP. -/
  rgroup : Nat := 0
  /-- Table 7.12: SRC. -/
  src : Nat := 0
  /-- Table 7.12: DST. -/
  dst : Nat := 0
  /-- Table 7.12: BSEQ. -/
  bseq : Nat := 0
  /-- R140: layout generation at issue. -/
  gen : Nat := 0
deriving DecidableEq, Repr

/-- A reduction channel beside its registers (R247–R263). -/
structure Chan where
  /-- R140, R248: accepted buckets, oldest first; the first is the active one while `phase` is not 0. -/
  accepted : List Bucket := []
  /-- Table 13.12: PHASE. -/
  phase : Nat := 0
  /-- R248: BSEQ and generation of the bucket before. -/
  prev : Option (Nat × Nat) := none
  /-- R247: format of the active bucket. -/
  fmt : Nat := 0
  /-- R249: NRANKS. -/
  nranks : Nat := 0
  /-- R249: RANK. -/
  rank : Nat := 0
  /-- R249: rank-list entries that the bucket needs, by rank. -/
  ids : List (Nat × Nat) := []
  /-- R253: leading chunks loaded. -/
  loaded : Nat := 0
  /-- R254: leading chunks sent up. -/
  up : Nat := 0
  /-- R256: leading result chunks in this rank's DST. -/
  res : Nat := 0
  /-- R254: by level, the last GO count sent to the child. -/
  goSent : List (Nat × Nat) := []
  /-- R256: leading result chunks read, and forwarded to the children. -/
  fwd : Nat := 0
  /-- R254, R256: stores sent and not answered. -/
  wait : Nat := 0
  /-- R262: exact sum of squares of SRC, in units of 2^−254 for BS16 and of 1 for plain integers. -/
  lsq : Nat := 0
  /-- R262: exact sum of squares of the result, in the same units. -/
  rsq : Nat := 0
  /-- R259: SAT. -/
  sat : Nat := 0
  /-- R259: POISONED. -/
  poisoned : Bool := false
  /-- R263: UP_SENT. -/
  digUp : Nat := 0
  /-- R263: DOWN. -/
  digDown : Nat := 0
  /-- R263: UP_RECV by level. -/
  digRecv : List (Nat × Nat) := []
deriving DecidableEq, Repr

/-- The Cellar of a die beside its lines and registers (R167–R182). -/
structure Cellar where
  /-- R170: HBM lines held in cache ways, with their dirty marks, most recently used first. -/
  cache : List (Nat × Bool) := []
  /-- R180: the FLUSH (false) or PURGE (true) in progress. -/
  flush : Option Bool := none
  /-- R180: a PURGE waits for the quiescent point. -/
  purgeWait : Bool := false
  /-- R182: the bank copy in progress or waiting: logical bank and spare. -/
  spare : Option (Nat × Nat) := none
  /-- R181: the rail is at retention voltage. -/
  retained : Bool := false
  /-- R181: the low-water record showed a fall below 0.42 V. -/
  lost : Bool := false
deriving DecidableEq, Repr

/-- A command an HBM controller runs (R194, R196, R197). -/
inductive HbmCmd where
  | retire (pc unit pool : Nat)
  | mbist (pattern : Nat)
  | shift
deriving DecidableEq, Repr

/-- An HBM controller beside its registers (R187–R198). -/
structure Hbm where
  /-- R193: remap entries, keyed pc × 16,384 + unit, value pool unit + 1. -/
  remap : List (Nat × Nat) := []
  /-- R194: pool units marked unusable, as pc × 256 + pool unit. -/
  bad : List Nat := []
  /-- R194, R196, R197: the command that runs. -/
  cmd : Option HbmCmd := none
  /-- R196: an MBIST has destroyed the contents. -/
  wiped : Bool := false
  /-- R188: sideband lines held, as pc × 2^20 + sideband line, with their dirty marks, most recently used first. -/
  sbCache : List (Nat × Bool) := []
  /-- R195: bring-up attempts that failed. -/
  fails : Nat := 0
  /-- R191: 1 ms evaluations in a row below the present step's threshold. -/
  below : Nat := 0
  /-- R191: refreshes issued. -/
  refreshes : Nat := 0
deriving DecidableEq, Repr

/-- A physical cluster beside its registers (R314, R335, R343–R350). -/
structure Phys where
  /-- R343: the voltage-frequency table, by entry: CODE, plus 32 where the light-load tag is set. -/
  vf : List (Nat × Nat) := []
  /-- R314: step of the change under way. -/
  target : Option Nat := none
  /-- R314: the latest request that arrived during a change. -/
  next : Option Nat := none
  /-- R315: step of a deferred increase. -/
  deferred : Option Nat := none
  /-- R315: tick of the latest droop event. -/
  droopAt : Option Nat := none
  /-- R315: a droop is latched during a stop. -/
  latched : Bool := false
  /-- R349: a stretch hold runs. -/
  stretch : Bool := false
  /-- R335: the shunt bank is charged. -/
  shuntOk : Bool := true
  /-- R347: current ceiling. -/
  curCeil : Nat := 19
  /-- R350: droop ceiling. -/
  droopCeil : Nat := 19
  /-- R347: the limits that lowered the current ceiling: 1 cluster, 2 die, 4 quadrant. -/
  low : Nat := 0
  /-- R346, R347: the ten latest rail currents, mA, newest first. -/
  amps : List Nat := []
  /-- R347: evaluations in a row below 90 % of every limit. -/
  calm : Nat := 0
  /-- R346: entries used and tagged, with the microseconds of good load. -/
  used : List (Nat × Nat) := []
  /-- R346: entries excluded in this start. -/
  excluded : List Nat := []
  /-- R362: PAIR_DIFF was raised and the difference has not fallen below 3 °C. -/
  diffHeld : Bool := false
  /-- R338: the ramp is slow. -/
  slow : Bool := false
  /-- R390: the cluster is a spare, or was retired. -/
  retired : Bool := false
  /-- R350: holds that ended in the last 10 µs: tick and stretched cycles. -/
  stretched : List (Nat × Nat) := []
  /-- R350: the latest tick at which a hold started or ended. -/
  holdAt : Nat := 0
deriving DecidableEq, Repr

/-- One compute die beside its blocks (R303, R321, R384). -/
structure DieSt where
  /-- R303: the die was released and runs its firmware. -/
  up : Bool := false
  /-- R384: the die has stopped in order. -/
  stopped : Bool := false
  /-- R371: a fatal cause waits for the stop: block and bit. -/
  stopDue : Option (Blk × Nat) := none
  /-- R321: time base, ns. -/
  now : Nat := 0
  /-- R321: its 32-bit fraction. -/
  frac : Nat := 0
  /-- R321: the rate word, in units of 2^−32 ns a Cellar-and-Trellis cycle. -/
  rate : Nat := 2284557976
  /-- R321: correction still to be slewed, in units of 2^−32 ns. -/
  slew : Int := 0
  /-- R321: it is slewed at 500 ppm, else at up to 100 ppm. -/
  fastSlew : Bool := false
  /-- R97: context that issued last. -/
  lastCtx : Nat := 0
  /-- R163: SWAP requests that wait, as local addresses of SWAP registers. -/
  swapReq : List Nat := []
  /-- R388: units whose next line is sent with an inverted CRC bit. -/
  exitInj : List Nat := []
  /-- R326: sync intervals or pulses with a small error in a row. -/
  goodSync : Nat := 0
  /-- R326: sync intervals or pulses missed in a row. -/
  missed : Nat := 0
  /-- R324: path delay by port, ns. -/
  pdelay : List (Nat × Nat) := []
  /-- R324: receive timestamp of the last sync by port. -/
  syncAt : List (Nat × Nat) := []
  /-- R355: rail energy by partition since the last cap evaluation, pJ; 32 for no partition. -/
  energy : List (Nat × Nat) := []
  /-- R361: the latest four conversions of each sensor, newest first, keyed by sensor. -/
  conv : List (Nat × List Nat) := []
  /-- R363: non-cluster units that hold the die in an emergency. -/
  emerg : List Nat := []
  /-- R339: low-water rings: rail × 16 + entry, value (mV, ns). -/
  lowWater : List (Nat × (Nat × Nat)) := []
  /-- R339: HEAD of each rail's ring. -/
  lwHead : List (Nat × Nat) := []
  /-- R319: physical clusters for which a crossing holds data. -/
  heldX : List Nat := []
  /-- R338: physical clusters that wait for power-on, oldest first, with the evaluations each has waited. -/
  onReq : List (Nat × Nat) := []
  /-- R347: plane current by quadrant, latest first, mA. -/
  plane : List (Nat × List Nat) := []
  /-- R116: sequencer clocks seen, modulo 4 Cellar-and-Trellis clocks. -/
  phase4 : Nat := 0
deriving DecidableEq, Repr

/-- The module controller beside its registers (R298–R311, R328–R330, R352–R369, R389–R394, R400). -/
structure ModCtl where
  /-- R298: the input is good. -/
  good : Bool := false
  /-- R298: RST_N is low. -/
  rstLow : Bool := false
  /-- R371: the bit of a fatal cause of the module that waits for the stop. -/
  stopDue : Option Nat := none
  /-- R385: the module has stopped in order. -/
  stopped : Bool := false
  /-- R330: the plane has power. -/
  plane : Bool := false
  /-- R410: SLOT_ID sampled at t0. -/
  slotId : Nat := 0
  /-- R317: REFCLK is present. -/
  refclk : Bool := true
  /-- R300: the records of the flash. -/
  flash : List FlashRec := []
  /-- R309: records loaded since the last start, in load order. -/
  loaded : List FlashRec := []
  /-- R305: boot count. -/
  boots : Nat := 0
  /-- R305: minimum SVN by type. -/
  minSvn : List (Nat × Nat) := []
  /-- R305: current SEQ by type × 256 + die. -/
  curSeq : List (Nat × Nat) := []
  /-- R305: active slot by type. -/
  slot : List (Nat × Nat) := []
  /-- R305: pending flags by type. -/
  pendUpd : List Nat := []
  /-- R305: the last REQUIRE_OWNER. -/
  require : Bool := false
  /-- R307: the installed owner key's hash. -/
  owner : Option Nat := none
  /-- R308: a valid IDENTITY was loaded; its serial number. -/
  serial : Option Nat := none
  /-- R311: the security command that runs: OP, then CODE and OUT_LEN once executed. -/
  sec : Option (Nat × Option (Nat × Nat)) := none
  /-- R353: the latest ten input samples, 10 mV, newest first. -/
  vins : List Nat := []
  /-- R358: input energy since the last cap evaluation, pJ. -/
  inPj : Nat := 0
  /-- R358: fractions of a µJ carried, pJ: by partition, 33 the input, and die × 64 + 64 + partition for a die's share. -/
  frac : List (Nat × Nat) := []
  /-- R368: the latest 100 flow readings, newest first. -/
  flows : List Nat := []
  /-- R369: the latest ten outlet readings, 1/128 °C, newest first. -/
  outs : List Int := []
  /-- R366: reads without an answer in a row: inlet, outlet, flow. -/
  noAns : Nat × Nat × Nat := (0, 0, 0)
  /-- R369: milliseconds since the coolant stop was detected. -/
  coolStop : Option Nat := none
  /-- R369: milliseconds of good flow during a stop. -/
  goodFlow : Nat := 0
  /-- R368: FLOW_LOW was raised and flow has not returned above 90 %. -/
  flowHeld : Bool := false
  /-- R390: the cluster switch-in: die, logical cluster, old and spare physical cluster, stage 0 to 2, TEST_CL. -/
  sw : Option (Nat × Nat × Nat × Nat × Nat × Bool) := none
  /-- R394: the freed cluster under test: die and physical cluster. -/
  test : Option (Nat × Nat) := none
  /-- R393: dies whose REPAIR record is to be written; the flag says that a write failed. -/
  repair : List (Nat × Bool) := []
  /-- R392: logical clusters marked absent, as die × 64 + cluster. -/
  absent : List Nat := []
  /-- R389: evidence events: kind × 2^32 + place, and tick. -/
  evid : List (Nat × Nat) := []
  /-- R389: clusters whose switch-in waits for the running one, as die × 64 + logical cluster. -/
  due : List Nat := []
  /-- R392: dies that hold a bank recorded as failed; they are not released at the next start. -/
  failedDies : List Nat := []
  /-- R324: the best announce message received: priority1, clockClass, priority2, clockIdentity. -/
  best : Option (Nat × Nat × Nat × Nat) := none
  /-- R340: clusters whose rails were on when the low-power state was entered, as die × 64 + physical cluster. -/
  saved : List Nat := []
  /-- R412: the dynamic address. -/
  dyn : Option Nat := none
  /-- R400: what the next private read returns: status and data. -/
  i3cAns : Option (Nat × Word) := none
deriving DecidableEq, Repr

/-- The state of the block. -/
structure State where
  /-- Commands that wait, first in, first out (the model's queue, log entry 1). -/
  pending : List Instr := []
  /-- R1: the part. -/
  part : Part := .t8l
  /-- R321: Cellar-and-Trellis clocks since reset (log entry 2). -/
  tick : Nat := 0
  /-- The model's own counter of free values (log entry 3). -/
  free : Nat := 0
  /-- R22: bytes of HBM and of the Cellar scratchpad, by local address. -/
  mem : List Host.Cell := []
  /-- R24, R376: line sidebands, by local address ÷ 128. -/
  side : List (Nat × Word) := []
  /-- R396: active values of the registers, by local address. -/
  regs : List (Nat × Word) := []
  /-- R163: shadow values of RWS fields, by local address. -/
  shadow : List (Nat × Word) := []
  /-- R387: classes that the events of a cause bit have set, keyed STAT address × 64 + bit. -/
  classes : List (Nat × Nat) := []
  /-- R93: contexts, keyed die × 8 + context. -/
  ctxs : List (Nat × Ctx) := []
  /-- R149: the work of each context at die 0. -/
  hctx : List (Nat × HCtx) := []
  /-- R103: steps in flight, oldest first. -/
  flights : List Flight := []
  /-- Number of the next flight. -/
  nextId : Nat := 0
  /-- R15: logical clusters, keyed die × 64 + cluster. -/
  clus : List (Nat × Cluster) := []
  /-- R313: physical clusters, keyed die × 64 + cluster. -/
  phys : List (Nat × Phys) := []
  /-- R15: dies. -/
  dies : List (Nat × DieSt) := []
  /-- R200: fabric routers, by die. -/
  routers : List (Nat × Router) := []
  /-- R230, R231: Ethernet ports, keyed die × 8 + port; half B of a port in MODE 2 stands at port + 4. -/
  ports : List (Nat × Port) := []
  /-- R279: Aigraic Link ports, by die. -/
  links : List (Nat × Link) := []
  /-- R248: reduction channels, keyed (die × 8 + context) × 16 + channel. -/
  chans : List (Nat × Chan) := []
  /-- R167: Cellars, by die. -/
  cels : List (Nat × Cellar) := []
  /-- R184: HBM controllers, keyed die × 2 + controller. -/
  hbms : List (Nat × Hbm) := []
  /-- R298: the module controller. -/
  modc : ModCtl := {}
  /-- R374: the ERR_N pin reads high although it is driven low. -/
  errnStuck : Bool := false
  /-- Everything the module has sent, newest first. -/
  out : List OutMsg := []
deriving DecidableEq, Repr

/-- The state of a part right after reset, at t0 of start-up (R298, Table 17.1): every register at its reset value, memory
with nothing listed, the queue empty. -/
def State.resetOf (p : Part) : State := { part := p }

/-- The state right after reset: a SYN-T8L (DESIGN CHOICE, log entry 6). -/
def State.reset : State := State.resetOf .t8l

end Sys2Proof.Machine
end

