-- ==== Sys2Proof/Machine/Ops.lean ====
section
/-! DEFINITION. The named operations over registers, memory and the parts of the state. -/

namespace Sys2Proof.Machine

/-- Do `f` for every element of a list, in order. -/
def forEach {α : Type} (xs : List α) (f : α → State → State) (s : State) : State :=
  xs.foldl (fun t x => f x t) s

/-- Read the die. -/
def State.die (s : State) (d : Nat) : DieSt := smGet {} s.dies (d)

/-- Write the die. -/
def State.putDie (s : State) (d : Nat) (x : DieSt) : State :=
  { s with dies := smPut {} s.dies (d) x }

/-- Change the die. -/
def State.updDie (s : State) (d : Nat) (f : DieSt → DieSt) : State := s.putDie d (f (s.die d))

/-- Read the fabric router of a die. -/
def State.router (s : State) (d : Nat) : Router := smGet {} s.routers (d)

/-- Write the fabric router of a die. -/
def State.putRouter (s : State) (d : Nat) (x : Router) : State :=
  { s with routers := smPut {} s.routers (d) x }

/-- Change the fabric router of a die. -/
def State.updRouter (s : State) (d : Nat) (f : Router → Router) : State := s.putRouter d (f (s.router d))

/-- Read the Aigraic Link port of a die. -/
def State.link (s : State) (d : Nat) : Link := smGet {} s.links (d)

/-- Write the Aigraic Link port of a die. -/
def State.putLink (s : State) (d : Nat) (x : Link) : State :=
  { s with links := smPut {} s.links (d) x }

/-- Change the Aigraic Link port of a die. -/
def State.updLink (s : State) (d : Nat) (f : Link → Link) : State := s.putLink d (f (s.link d))

/-- Read the Cellar of a die. -/
def State.cel (s : State) (d : Nat) : Cellar := smGet {} s.cels (d)

/-- Write the Cellar of a die. -/
def State.putCel (s : State) (d : Nat) (x : Cellar) : State :=
  { s with cels := smPut {} s.cels (d) x }

/-- Change the Cellar of a die. -/
def State.updCel (s : State) (d : Nat) (f : Cellar → Cellar) : State := s.putCel d (f (s.cel d))

/-- Read context `c` on die `d`. -/
def State.ctx (s : State) (d c : Nat) : Ctx := smGet {} s.ctxs (d * 8 + c)

/-- Write context `c` on die `d`. -/
def State.putCtx (s : State) (d c : Nat) (x : Ctx) : State :=
  { s with ctxs := smPut {} s.ctxs (d * 8 + c) x }

/-- Change context `c` on die `d`. -/
def State.updCtx (s : State) (d c : Nat) (f : Ctx → Ctx) : State := s.putCtx d c (f (s.ctx d c))

/-- Read the work of context `c` at die 0. -/
def State.hc (s : State) (c : Nat) : HCtx := smGet {} s.hctx (c)

/-- Write the work of context `c` at die 0. -/
def State.putHc (s : State) (c : Nat) (x : HCtx) : State :=
  { s with hctx := smPut {} s.hctx (c) x }

/-- Change the work of context `c` at die 0. -/
def State.updHc (s : State) (c : Nat) (f : HCtx → HCtx) : State := s.putHc c (f (s.hc c))

/-- Read logical cluster `l` of die `d`. -/
def State.cl (s : State) (d l : Nat) : Cluster := smGet {} s.clus (d * 64 + l)

/-- Write logical cluster `l` of die `d`. -/
def State.putCl (s : State) (d l : Nat) (x : Cluster) : State :=
  { s with clus := smPut {} s.clus (d * 64 + l) x }

/-- Change logical cluster `l` of die `d`. -/
def State.updCl (s : State) (d l : Nat) (f : Cluster → Cluster) : State := s.putCl d l (f (s.cl d l))

/-- Read physical cluster `p` of die `d`. -/
def State.ph (s : State) (d p : Nat) : Phys := smGet {} s.phys (d * 64 + p)

/-- Write physical cluster `p` of die `d`. -/
def State.putPh (s : State) (d p : Nat) (x : Phys) : State :=
  { s with phys := smPut {} s.phys (d * 64 + p) x }

/-- Change physical cluster `p` of die `d`. -/
def State.updPh (s : State) (d p : Nat) (f : Phys → Phys) : State := s.putPh d p (f (s.ph d p))

/-- Read Ethernet port `p` of die `d`; 4 to 7 are the halves B of ports 0 to 3 in MODE 2 (R231). -/
def State.port (s : State) (d p : Nat) : Port := smGet {} s.ports (d * 8 + p)

/-- Write Ethernet port `p` of die `d`. -/
def State.putPort (s : State) (d p : Nat) (x : Port) : State :=
  { s with ports := smPut {} s.ports (d * 8 + p) x }

/-- Change Ethernet port `p` of die `d`. -/
def State.updPort (s : State) (d p : Nat) (f : Port → Port) : State := s.putPort d p (f (s.port d p))

/-- Read reduction channel `h` of context `c` on die `d`. -/
def State.chan (s : State) (d c h : Nat) : Chan := smGet {} s.chans ((d * 8 + c) * 16 + h)

/-- Write reduction channel `h` of context `c` on die `d`. -/
def State.putChan (s : State) (d c h : Nat) (x : Chan) : State :=
  { s with chans := smPut {} s.chans ((d * 8 + c) * 16 + h) x }

/-- Change reduction channel `h` of context `c` on die `d`. -/
def State.updChan (s : State) (d c h : Nat) (f : Chan → Chan) : State := s.putChan d c h (f (s.chan d c h))

/-- Read HBM controller `k` of die `d`. -/
def State.hbm (s : State) (d k : Nat) : Hbm := smGet {} s.hbms (d * 2 + k)

/-- Write HBM controller `k` of die `d`. -/
def State.putHbm (s : State) (d k : Nat) (x : Hbm) : State :=
  { s with hbms := smPut {} s.hbms (d * 2 + k) x }

/-- Change HBM controller `k` of die `d`. -/
def State.updHbm (s : State) (d k : Nat) (f : Hbm → Hbm) : State := s.putHbm d k (f (s.hbm d k))

/-! ### Registers (R10, R396) -/

/-- Dies of the part (R13). -/
def State.nd (s : State) : Nat := s.part.dies

/-- The active value held at a register's local address. -/
def State.reg (s : State) (a : Nat) : Word := smGet (regReset s.part a) s.regs a

/-- Set the active value held at a register's local address. -/
def State.setReg (s : State) (a : Nat) (v : Word) : State :=
  { s with regs := smPut (regReset s.part a) s.regs a v }

/-- The shadow value held at a register's local address (R163). -/
def State.shad (s : State) (a : Nat) : Word := smGet (regReset s.part a) s.shadow a

/-- Set the shadow value at a register's local address (R163). -/
def State.setShad (s : State) (a : Nat) (v : Word) : State :=
  { s with shadow := smPut (regReset s.part a) s.shadow a v }

/-- Register at offset `f` of instance `i` of block `b` on die `d` (R396). -/
def State.rg (s : State) (d : Nat) (b : Blk) (i f : Nat) : Word := s.reg (regAddr d b i f)

/-- Set the register at offset `f` of instance `i` of block `b` on die `d`. -/
def State.setRg (s : State) (d : Nat) (b : Blk) (i f : Nat) (v : Word) : State := s.setReg (regAddr d b i f) v

/-- `n` bits from bit `lo` of a register, as a number. -/
def State.fld (s : State) (d : Nat) (b : Blk) (i f lo n : Nat) : Nat := bits (s.rg d b i f) lo n

/-- Set `n` bits from bit `lo` of a register. -/
def State.setFld (s : State) (d : Nat) (b : Blk) (i f lo n v : Nat) : State :=
  s.setRg d b i f (withBits (s.rg d b i f) lo n v)

/-- Add `k` to a counter register, modulo 2^64. -/
def State.addRg (s : State) (d : Nat) (b : Blk) (i f k : Nat) : State :=
  s.setRg d b i f (s.rg d b i f + wordOf k)

/-- The die exists, was released and has not stopped; its always-on domain works (R304, R384). -/
def State.awake (s : State) (d : Nat) : Bool := decide (d < s.nd) && (s.die d).up && !(s.die d).stopped

/-- MOD_PWR.LOW_POWER: the module is in the low-power state (R340). -/
def State.lowPower (s : State) : Bool := s.fld 0 .mod 0 0x28 36 1 = 1

/-- The die runs: it was released, has not stopped, and the module is not in the low-power state (R304, R340, R384). -/
def State.live (s : State) (d : Nat) : Bool := s.awake d && !s.lowPower

/-- The time a domain of a die stamps: its copy of the time base, ns (R322); the copies stand at the time base itself (log
entry 23). -/
def State.time (s : State) (d : Nat) : Nat := (s.die d).now

/-- Cellar-and-Trellis clocks in `us` microseconds (R313: 1.88 GHz). -/
def usTicks (us : Nat) : Nat := 1880 * us

/-! ### The address map (R22) -/

/-- Bytes of one die's HBM slice (R185). -/
def hbmSlice : Nat := 0x1D80000000

/-- First address of the Cellar window (Table 1.5). -/
def celBase : Nat := 0x010000000000

/-- First address of the host window (Table 1.5). -/
def hostBase : Nat := 0x030000000000

/-- Populated HBM (R185). -/
def State.isHbm (s : State) (a : Nat) : Bool := decide (a < s.nd * hbmSlice)

/-- Lines of a die's scratchpad (R167). -/
def State.spLines (s : State) (d : Nat) : Nat := (15 - s.fld d .cel 0 0x28 0 4) * 196608

/-- The address lies in the Cellar window (Table 1.5). -/
def inCelWindow (a : Nat) : Bool := decide (celBase ≤ a) && decide (a < celBase + 0x100000000)

/-- Die of a Cellar-window address (R168). -/
def celDie (a : Nat) : Nat := (a - celBase) / 0x20000000

/-- Line of its die's slice that a Cellar-window address names (R168). -/
def celLine (a : Nat) : Nat := (a - celBase) % 0x20000000 / 128

/-- Populated Cellar-window address (R168). -/
def State.isCel (s : State) (a : Nat) : Bool :=
  inCelWindow a && decide (celDie a < s.nd) && decide (celLine a < s.spLines (celDie a))

/-- Populated HBM or Cellar-window address (R22). -/
def State.isMem (s : State) (a : Nat) : Bool := s.isHbm a || s.isCel a

/-- The address lies in the host window (Table 1.5). -/
def inHostWindow (a : Nat) : Bool := decide (hostBase ≤ a) && decide (a < hostBase + 2 ^ 40)

/-- The die whose Cellar serves a memory address (R168, R185). -/
def homeDie (a : Nat) : Nat := if inCelWindow a then celDie a else a / hbmSlice

/-- The address can be served: its home die is released and has not stopped (R169, R384). -/
def State.served (s : State) (a : Nat) : Bool := s.isMem a && s.live (homeDie a)

/-- The local address of a Cellar line offset (R120). -/
def cloAddr (clo : Nat) : Nat := celBase + 128 * clo

/-- Bank of a line's set: scratchpad by R168, HBM by R170. -/
def bankOf (a : Nat) : Nat :=
  if inCelWindow a then
    let l := celLine a
    Nat.xor (Nat.xor (nbits l 0 10) (nbits l 10 10)) (nbits l 20 2 * 256)
  else
    let h := a / 128
    Nat.xor (Nat.xor (nbits h 0 10) (nbits h 10 10)) (nbits h 20 10)

/-- Way × 192 + set of a scratchpad line (R168). -/
def celRow (a : Nat) : Nat :=
  let row := celLine a / 1024
  (14 - row / 192) * 192 + row % 192

/-- Set of an HBM line (R170). -/
def setOf (a : Nat) : Nat := a / 128 / 1024 % 192

/-- Controller, pseudo-channel and line offset of an HBM address (R185). -/
def hbmPlace (a : Nat) : Nat × Nat × Nat :=
  let y := a % hbmSlice
  let k := (nbits y 12 1 + nbits y 20 1) % 2
  let x := y / 8192 * 4096 + y % 4096
  let ln := x / 128
  (k, Nat.xor (Nat.xor (nbits ln 0 6) (nbits ln 6 6)) (nbits ln 12 6), ln / 64)

/-! ### Lines (R24, R375, R376) -/

/-- A line and its sideband. -/
structure Line where
  bytes : List Byte
  sb : Word
deriving DecidableEq, Repr

/-- What a byte that nothing has written reads as (R167, R195: zero-filled). -/
def memDefault : Byte := 0

/-- Sideband of a zero-filled line: a valid CRC-32C, format 0x00, version 0, flags 0 (R167, R195). -/
def zeroSide : Word := zeroLineCrc.setWidth 64

/-- A sideband of a check value, version, format code and flags (R24, R121, R376). -/
def mkSide (crc : BitVec 32) (ver fmt flags : Nat) : Word :=
  (crc.setWidth 64) ||| wordOf ((ver % 65536) * 2 ^ 32 + (fmt % 256) * 2 ^ 48 + (flags % 256) * 2 ^ 56)

/-- Version in a sideband (R121). -/
def sbVer (w : Word) : Nat := bits w 32 16
/-- Format code in a sideband (R23). -/
def sbFmt (w : Word) : Nat := bits w 48 8
/-- Flags in a sideband (R376). -/
def sbFlags (w : Word) : Nat := bits w 56 8
/-- POISON (R376). -/
def sbPoison (w : Word) : Bool := bitOf w 56
/-- The check value held in a sideband (R375). -/
def sbCrc (w : Word) : BitVec 32 := w.setWidth 32

/-- Flags of a line found damaged by the block that writes it (R376): POISON. -/
def flagPoison : Nat := 1
/-- Flags of a line written from a poisoned input (R376): POISON and DERIVED. -/
def flagDerived : Nat := 3

/-- A line with a new check value, and the given version, format code and flags (R375). -/
def mkLine (bs : List Byte) (ver fmt flags : Nat) : Line :=
  { bytes := bs, sb := mkSide (crc32c bs) ver fmt flags }

/-- The line of 128 zero bytes (R167). -/
def zeroLine : Line := { bytes := List.replicate 128 0, sb := zeroSide }

/-- The check value of a line matches its data (R375). -/
def Line.crcOk (l : Line) : Bool := decide (crc32c l.bytes = sbCrc l.sb)

/-- The line with its POISON flag set, DERIVED clear (R176). -/
def Line.poison (l : Line) : Line := { l with sb := withBits l.sb 56 8 flagPoison }

/-- One byte of memory. -/
def State.byte (s : State) (a : Nat) : Byte := smGet memDefault s.mem a

/-- Sideband of line number `n`. -/
def State.sideOf (s : State) (n : Nat) : Word := smGet zeroSide s.side n

/-- Line number `n` (address ÷ 128). -/
def State.line (s : State) (n : Nat) : Line :=
  { bytes := smRange memDefault s.mem (128 * n) 128, sb := s.sideOf n }

/-- Write line number `n` whole (R125, R174). -/
def State.putLine (s : State) (n : Nat) (l : Line) : State :=
  { s with mem := smPuts memDefault s.mem (128 * n) (padTo 128 l.bytes), side := smPut zeroSide s.side n l.sb }

/-- Set the sideband of line number `n`. -/
def State.putSide (s : State) (n : Nat) (w : Word) : State := { s with side := smPut zeroSide s.side n w }

/-- Mark line number `n` poisoned, as the block that found it damaged (R376). -/
def State.poisonLine (s : State) (n : Nat) : State := s.putSide n (withBits (s.sideOf n) 56 8 flagPoison)

/-- The canonical form of memory, sidebands and registers. -/
def Memory.wf (s : State) : Bool :=
  smWf (fun _ => memDefault) s.mem && smWf (fun _ => zeroSide) s.side && smWf (regReset s.part) s.regs &&
    smWf (regReset s.part) s.shadow

/-- Bytes of `a` with those of `b` where bit i of `mask` is set. -/
def mergeBytes (mask : Nat) : Nat → List Byte → List Byte → List Byte
  | _, [], _ => []
  | i, x :: xs, ys => (if nbit mask i then ys.headD 0 else x) :: mergeBytes mask (i + 1) xs ys.tail

/-- Merge masked bytes with a sideband into line `n` (R175, steps 3 and 4): new check value, incoming format and version,
poison flags ORed. -/
def State.mergeLine (s : State) (n mask : Nat) (bs : List Byte) (sb : Word) : State :=
  let old := s.line n
  let m := mergeBytes mask 0 old.bytes bs
  s.putLine n (mkLine m (sbVer sb) (sbFmt sb) (Nat.lor (sbFlags old.sb) (sbFlags sb)))

/-- Merge masked bytes that carry no sideband into line `n` (R175): only the check value is new. -/
def State.mergeBare (s : State) (n mask : Nat) (bs : List Byte) : State :=
  let old := s.line n
  let m := mergeBytes mask 0 old.bytes bs
  s.putLine n (mkLine m (sbVer old.sb) (sbFmt old.sb) (sbFlags old.sb))

/-! ### The cache in front of HBM (R170, R171) -/

/-- Policy of an HBM address: 0 WRITE_BACK, 1 WRITE_THROUGH, 2 STREAM (R171). -/
def State.policy (s : State) (a : Nat) : Nat :=
  let d := homeDie a
  if s.fld d .cel 0 0x28 0 4 = 0 then 2
  else
    match (List.range 8).find? (fun n =>
      nbit (s.rg d .cel 0 (0x48 + 16 * n)).toNat 2 &&
      decide (s.fld d .cel 0 (0x40 + 16 * n) 12 36 ≤ a / 4096) &&
      decide (a / 4096 ≤ s.fld d .cel 0 (0x48 + 16 * n) 12 36)) with
    | some n => s.fld d .cel 0 (0x48 + 16 * n) 0 2
    | none => s.fld d .cel 0 0x20 0 2

/-- Bring an HBM line into a cache way of its home die, evicting a line of its set when the ways are full; the victim is
a free value (R170), and a dirty victim counts in CEL_CNT_WB. -/
def State.allocate (s : State) (a : Nat) (dirty : Bool) : State :=
  let d := homeDie a
  let n := a / 128
  let c := (s.cel d).cache
  let rest := c.filter (fun e => e.1 ≠ n)
  let was := c.any (fun e => e.1 = n && e.2)
  let same := rest.filter (fun e => bankOf (128 * e.1) = bankOf a && setOf (128 * e.1) = setOf a)
  if same.length < s.fld d .cel 0 0x28 0 4 then
    s.updCel d (fun x => { x with cache := (n, dirty || was) :: rest })
  else
    let v := same.getD (Config.victim s.free % same.length) (n, false)
    let s1 := (s.updCel d (fun x => { x with cache := (n, dirty || was) :: rest.filter (fun e => e.1 ≠ v.1) }))
    let s2 := { s1 with free := s1.free + 1 }
    if v.2 then s2.addRg d .cel 0 0x210 1 else s2

/-- The cache's part of a read of an HBM line (R171, Table 9.1, CEL_CNT_HIT and CEL_CNT_MISS). -/
def State.touchRead (s : State) (a : Nat) : State :=
  if inCelWindow a then s
  else
    let d := homeDie a
    if (s.cel d).cache.any (fun e => e.1 = a / 128) then
      (s.addRg d .cel 0 0x200 1).allocate a false
    else
      let s1 := s.addRg d .cel 0 0x208 1
      if s1.policy a = 2 then s1 else s1.allocate a false

/-- The cache's part of a write of an HBM line; a masked write that misses reads HBM first (R171, R175). -/
def State.touchWrite (s : State) (a : Nat) (masked : Bool) : State :=
  if inCelWindow a then s
  else
    let d := homeDie a
    let hit := (s.cel d).cache.any (fun e => e.1 = a / 128)
    let s1 := if hit then s.addRg d .cel 0 0x200 1 else if masked then s.addRg d .cel 0 0x208 1 else s
    match s1.policy a with
    | 0 => s1.allocate a true
    | 1 => s1.allocate a false
    | _ => if hit then s1.updCel d (fun x => { x with cache := x.cache.filter (fun e => e.1 ≠ a / 128) }) else s1

/-- Read a line as a requester gets it, with the cache's part. -/
def State.readAt (s : State) (a : Nat) : Line := s.line (a / 128)

/-- Write a whole line at an address, with the cache's part (R174). -/
def State.writeAt (s : State) (a : Nat) (l : Line) : State := (s.touchWrite a false).putLine (a / 128) l

/-- Masked write at an address, with the cache's part (R175). -/
def State.mergeAt (s : State) (a mask : Nat) (bs : List Byte) (sb : Word) : State :=
  (s.touchWrite a true).mergeLine (a / 128) mask bs sb

/-! ### What leaves the module -/

/-- Append a thing sent. -/
def State.emit (s : State) (o : OutMsg) : State := { s with out := o :: s.out }

/-- Take a free value. -/
def State.fresh (s : State) : State := { s with free := s.free + 1 }

/-- Physical clusters of a die. -/
def allPhys : List Nat := List.range 52

/-- LOGICAL of a physical cluster, 0x3F for none (Table 18.9). -/
def State.logical (s : State) (d p : Nat) : Nat := s.fld d .clk 0 (0x10100 + 8 * p) 24 6

/-- The physical cluster that serves a logical cluster (R16). -/
def State.serving (s : State) (d l : Nat) : Option Nat := allPhys.find? (fun p => s.logical d p = l)

/-- Dies of the part. -/
def State.allDies (s : State) : List Nat := List.range s.nd

/-- The die that carries the Aigraic Link port of a die's traffic (R136). -/
def State.portDie (s : State) (d : Nat) : Nat :=
  match s.part with
  | .t4l => d / 2 * 2
  | .t8l => d / 4 * 4
  | _ => 0

/-- Dies that carry an Aigraic Link port (Table 1.1). -/
def State.linkDies (s : State) : List Nat :=
  match s.part with
  | .t4l => [0, 2]
  | .t8l => [0, 4]
  | _ => [0]

end Sys2Proof.Machine
end

