-- ==== Sys2Proof/Machine/Flags.lean ====
section
/-! DEFINITION. Status bits, logs, interrupts and clears (R12, R160, R161, R371–R374, R387). -/

namespace Sys2Proof.Machine

/-- The error classes of Table 0.6, and no class. -/
inductive Cls where
  | none | ce | ucc | ftl
deriving DecidableEq, Repr

/-- The class bit of a STAT register (Table 24.2). -/
def Cls.bit : Cls → Word
  | .none => 0 | .ce => 1 | .ucc => 2 | .ftl => 4

/-- Address of a STAT register. -/
def statAddr (d : Nat) (b : Blk) (i : Nat) : Nat := regAddr d b i 0

/-- Interrupt vector of a block instance (R160). -/
def vectorOf (d : Nat) (b : Blk) (i : Nat) : Nat := 2048 * d + 64 * b.pos + i

/-- Queue an interrupt vector on the port that serves the die (R136, R292); the INTR command sends it. -/
def State.queueIntr (s : State) (d v : Nat) : State :=
  s.updLink (s.portDie d) (fun k => { k with intrq := k.intrq ++ [v] })

/-- Set STAT bits: the vector is queued when a cause bit rises unmasked; bits that rise together queue one vector
(R161). -/
def State.setStat (s : State) (d : Nat) (b : Blk) (i : Nat) (bitsUp : Word) : State :=
  let old := s.rg d b i 0
  let rise := bitsUp &&& ~~~ old &&& ~~~ (s.rg d b i 8) &&& ~~~ maskOf 0 8
  let s1 := s.setRg d b i 0 (old ||| bitsUp)
  if rise = 0 then s1 else s1.queueIntr d (vectorOf d b i)

/-- Fill a log and set VALID where VALID is 0 (R371, step 3). -/
def State.fillLog (s : State) (d : Nat) (b : Blk) (i : Nat) (log : Nat) : State :=
  if bitOf (s.rg d b i 0x10) 7 then s else s.setRg d b i 0x10 (wordOf log ||| bitMask 7)

/-- Record that an event of class `c` has set a cause bit (R387). -/
def State.noteClass (s : State) (d : Nat) (b : Blk) (i bit : Nat) (c : Cls) : State :=
  let k := statAddr d b i * 64 + bit
  { s with classes := smPut 0 s.classes k (Nat.lor (smGet 0 s.classes k) c.bit.toNat) }

/-- A fatal cause waits for the stop in order of its die, or of the module (R371, step 6). -/
def State.noteStop (s : State) (d : Nat) (b : Blk) (bit : Nat) (c : Cls) : State :=
  if c = .ftl then
    if b = .mod then { s with modc := { s.modc with stopDue := some (s.modc.stopDue.getD bit) } }
    else s.updDie d (fun x => { x with stopDue := some (x.stopDue.getD (b, bit)) })
  else s

/-- A block detects a cause: cause and class bits, vector, and the stop that a fatal class calls for (R371). -/
def State.cause (s : State) (d : Nat) (b : Blk) (i bit : Nat) (c : Cls) : State :=
  ((s.setStat d b i (bitMask bit ||| c.bit)).noteClass d b i bit c).noteStop d b bit c

/-- A block detects a cause and logs it: as `cause`, with the log filled where it is empty (R371). -/
def State.raise (s : State) (d : Nat) (b : Blk) (i bit : Nat) (c : Cls) (log : Nat) : State :=
  (s.cause d b i bit c).fillLog d b i log

/-- A write or command is refused: CONFIG_BUSY is set, with no class (R164). -/
def State.configBusy (s : State) (d : Nat) (b : Blk) (i : Nat) : State :=
  s.setRg d b i 0 (s.rg d b i 0 ||| bitMask 3)

/-- Every instance of every block of a die that has registers (R9, Table 24.1). -/
def blockInsts (d : Nat) : List (Blk × Nat) :=
  (Blk.all.filter (fun b => b ≠ .mod || d = 0)).flatMap (fun b => (List.range b.insts).map (fun i => (b, i)))

/-- UCC or FTL is set in a block of the die other than MOD (R373). -/
def State.dieErr (s : State) (d : Nat) : Bool :=
  (blockInsts d).any (fun x => x.1 ≠ .mod && decide (s.rg d x.1 x.2 0 &&& 6 ≠ 0))

/-- The module controller drives ERR_N low (R373). -/
def State.errnLow (s : State) : Bool :=
  s.allDies.any s.dieErr || decide (s.rg 0 .mod 0 0 &&& 6 ≠ 0) ||
    (s.modc.good && decide (s.fld 0 .mod 0 0x20 0 4 = 0)) || s.modc.rstLow

/-- SAF_SUM of a die: bit b set while an instance of the b-th prefix has UCC or FTL set (Table 22.7). -/
def State.safSum (s : State) (d : Nat) : Nat :=
  Blk.all.foldl (fun acc b =>
    acc + (if (blockInsts d).any (fun x => x.1 = b && decide (s.rg d x.1 x.2 0 &&& 6 ≠ 0)) then 2 ^ b.pos else 0)) 0

/-- MOD_ERR_SUM (Table 22.7). -/
def State.modErrSum (s : State) : Nat :=
  s.allDies.foldl (fun acc d => acc + (if s.dieErr d then 2 ^ d else 0)) 0 +
    256 * b2n (decide (s.rg 0 .mod 0 0 &&& 6 ≠ 0)) + 512 * b2n s.errnLow +
    1024 * b2n (s.errnLow && !s.errnStuck)

/-- The cause bits that still hold a class bit of a STAT register (R387). -/
def State.holdsClass (s : State) (d : Nat) (b : Blk) (i : Nat) (stat : Word) (cls : Nat) : Bool :=
  (List.range 64).any (fun k =>
    decide (8 ≤ k) && bitOf stat k && nbit (smGet 0 s.classes (statAddr d b i * 64 + k)) cls)

/-- Forget the classes of the cause bits that are clear. -/
def State.forgetClasses (s : State) (d : Nat) (b : Blk) (i : Nat) (stat : Word) : State :=
  forEach ((List.range 64).filter (fun k => decide (8 ≤ k) && !bitOf stat k))
    (fun k t => { t with classes := smPut 0 t.classes (statAddr d b i * 64 + k) 0 }) s

/-- Bits that a rule keeps from being cleared now (R387): COOLANT_STOP while a stop is in force, EMERGENCY while a unit
reads 112 °C or more, FTL bits of a stopped die or module. -/
def State.stuckBits (s : State) (d : Nat) (b : Blk) : Word :=
  (if b = .mod && decide (s.fld 0 .mod 0 0x58 48 1 = 1) then bitMask 13 else 0) |||
  (if b = .thm && (List.range 116).any (fun k => decide (896 ≤ s.fld d .thm 0 (0x100 + 8 * k) 0 12)) then bitMask 12
   else 0) |||
  (if b = .mod then (if s.modc.stopped then bitMask 2 else 0)
   else if (s.die d).stopped then bitMask 2 else 0)

/-- A write of ones to W1C bits of a STAT register (R387): cause bits first, then the class bits that no remaining cause
holds. -/
def State.clearStat (s : State) (d : Nat) (b : Blk) (i : Nat) (v : Word) : State :=
  let old := s.rg d b i 0
  let w := v &&& (maskOf 0 4 ||| causeMask b) &&& ~~~ s.stuckBits d b
  let causes := old &&& ~~~ (w &&& ~~~ maskOf 0 3)
  let cls := (List.range 3).foldl (fun acc k =>
    if bitOf w k && !s.holdsClass d b i causes k then acc ||| bitMask k else acc) (0 : Word)
  (s.setRg d b i 0 (causes &&& ~~~ cls)).forgetClasses d b i (causes &&& ~~~ cls)

/-- A write to a mask register: a mask bit that clears while its status bit is set queues the vector (R161, R165). -/
def State.writeMask (s : State) (d : Nat) (b : Blk) (i : Nat) (v : Word) : State :=
  let old := s.rg d b i 8
  let new := v &&& imaskMask b
  let s1 := s.setRg d b i 8 new
  if old &&& ~~~ new &&& s.rg d b i 0 &&& causeMask b = 0 then s1 else s1.queueIntr d (vectorOf d b i)

end Sys2Proof.Machine
end

