-- ==== Sys2Proof/Machine/LinkOps.lean ====
section
/-! DEFINITION. The Aigraic Link as the rest of the module uses it: exit checks (R378), credit and flits (R282–R284),
module requests (R286, R288) and snoops (R289, R290). -/

namespace Sys2Proof.Machine

/-- Link states of Table 16.1. -/
def lkDown : Nat := 0
def lkTrain : Nat := 1
def lkAlign : Nat := 2
def lkUp : Nat := 3
def lkRetrain : Nat := 4

/-- AGL_LINK.STATE of a die (Table 16.12). -/
def State.lkState (s : State) (d : Nat) : Nat := s.fld d .agl 0 0x40 0 3

/-- Set AGL_LINK.STATE and AGL_STAT.UP (Tables 16.10, 16.12), and MOD_BOOT.PORTS_UP (Table 17.10). -/
def State.setLk (s : State) (d st : Nat) : State :=
  let s1 := (s.setFld d .agl 0 0x40 0 3 st).setFld d .agl 0 0 16 1 (b2n (st = lkUp))
  s1.setFld 0 .mod 0 0x20 (if d = 0 then 32 else 33) 1 (b2n (st = lkUp))

/-- Add to AGL_CNT_k (Table 16.13). -/
def State.aglCnt (s : State) (d k n : Nat) : State := s.addRg d .agl 0 (0x100 + 8 * k) n

/-- The line a port is about to send, after the injection of Table 22.7 (INJECT_EXIT_CRC). -/
def State.injected (s : State) (d u : Nat) (l : Line) : State × Line :=
  if (s.die d).exitInj.contains u then
    (s.updDie d (fun x => { x with exitInj := x.exitInj.filter (fun k => k ≠ u) }),
      { l with sb := l.sb ^^^ 1 })
  else (s, l)

/-- The exit check of a port (R378): a line whose CRC-32C fails leaves with POISON set, is rewritten poisoned where it
stands, and raises EXIT_CRC; a poisoned line leaves as it is. `src` is its line number where it stands in memory. -/
def State.exitLine (s : State) (d u : Nat) (src : Option Nat) (l : Line) : State × Line :=
  let (s1, l1) := s.injected d u l
  if sbPoison l1.sb || l1.crcOk then (s1, l1)
  else
    let s2 := match src with
      | some n => s1.poisonLine n
      | none => s1
    (s2.raise d .saf 0 8 .ucc (1 + u * 256 + (src.getD 0) * 128 * 65536), { l1 with sb := withBits l1.sb 56 8 flagPoison })

/-- Class of an opcode: 0 REQ, 1 SNP, 2 RSP (Table 16.5). -/
def opcClass (opc : Nat) : Nat :=
  if opc = 0x21 ∨ opc = 0x22 then 1 else if 0x30 ≤ opc then 2 else 0

/-- Slots of a message: its header and its payload (R285). -/
def LMsg.slots (m : LMsg) : Nat := 1 + (m.pay.length + 15) / 16

/-- The `k`-th of a triple. -/
def tri (t : Nat × Nat × Nat) (k : Nat) : Nat := if k = 0 then t.1 else if k = 1 then t.2.1 else t.2.2

/-- The triple with `n` added to its `k`-th part. -/
def triAdd (t : Nat × Nat × Nat) (k n : Nat) : Nat × Nat × Nat :=
  if k = 0 then (t.1 + n, t.2.1, t.2.2) else if k = 1 then (t.1, t.2.1 + n, t.2.2) else (t.1, t.2.1, t.2.2 + n)

/-- The triple with `n` taken from its `k`-th part. -/
def triSub (t : Nat × Nat × Nat) (k n : Nat) : Nat × Nat × Nat :=
  if k = 0 then (t.1 - n, t.2.1, t.2.2) else if k = 1 then (t.1, t.2.1 - n, t.2.2) else (t.1, t.2.1, t.2.2 - n)

/-- A flit leaves a port: FLITS_TX. -/
def State.emitFlit (s : State) (d : Nat) (f : Flit) : State := (s.emit (.flit d f)).aglCnt d 0 1

/-- The acknowledgement a port sends: the last DATA flit it accepted (Table 16.3). -/
def Link.ackNow (k : Link) : Option Nat := some ((k.rxNext + 4095) % 4096)

/-- Send a DATA flit that holds one message, or NOPs alone, and returns the credit owed (R282–R284); one message travels in one
flit (log entry 12). -/
def State.sendFlit (s : State) (d : Nat) (m : Option LMsg) : State :=
  let k := s.link d
  let f : Flit := { ftype := 0, fseq := k.fseq, fack := k.ackNow, cr := k.owed, msg := m }
  let cr := match m with | some x => triSub k.credit (opcClass x.opc) x.slots | none => k.credit
  (s.putLink d { k with fseq := (k.fseq + 1) % 4096, unacked := k.unacked ++ [f], owed := (0, 0, 0), credit := cr }).emitFlit d f

/-- A message can be sent now: the port is UP, the replay window has room and the class has credit (R283, R284). -/
def State.canSend (s : State) (d : Nat) (m : LMsg) : Bool :=
  let k := s.link d
  decide (s.lkState d = lkUp) && decide (k.unacked.length < 1024) && decide (m.slots ≤ tri k.credit (opcClass m.opc))

/-- Send waiting messages while credit and window allow; a message never waits for one of another class (R284). -/
def State.pumpLink (d : Nat) : Nat → State → State
  | 0, s => s
  | n + 1, s =>
    match (s.link d).sendq.find? (fun m => s.canSend d m &&
        decide ((s.link d).sendq.find? (fun x => opcClass x.opc = opcClass m.opc) = some m)) with
    | none => s
    | some m => State.pumpLink d n ((s.updLink d (fun k => { k with sendq := k.sendq.erase m })).sendFlit d (some m))

/-- Hand a message to the port: it is sent in order within its class. -/
def State.sendMsg (s : State) (d : Nat) (m : LMsg) : State :=
  let s1 := s.updLink d (fun k => { k with sendq := k.sendq ++ [m] })
  State.pumpLink d (s1.link d).sendq.length s1

/-- Answer a host request (R293); a status other than OK counts in HOST_ERR, and a port that is DOWN discards the response
(R283). -/
def State.respond (s : State) (d : Nat) (m : LMsg) : State :=
  let s1 := if m.stat = 0 then s else s.aglCnt d 5 1
  if s1.lkState d = lkDown then s1 else s1.sendMsg d m

/-- Payload PL: line, sideband, SBADDR (R285). -/
def payPL (l : Line) (sbaddr : Nat) : List Byte := padTo 128 l.bytes ++ leBytes 8 l.sb.toNat ++ leBytes 8 sbaddr

/-- Payload PM: PL and the byte mask (R285). -/
def payPM (l : Line) (sbaddr mask : Nat) : List Byte := payPL l sbaddr ++ leBytes 16 mask

/-- The line in a PL payload. -/
def plLine (bs : List Byte) : Line := { bytes := padTo 128 bs, sb := wordOf (leAt bs 128 8) }

/-- Host address of a host-window local address (R288). -/
def State.hostAddr (s : State) (pd la : Nat) : Nat := s.fld pd .agl 0 0x28 0 40 * 4096 + (la - hostBase)

/-- The local address lies in the populated part of the host window of the port (R288). -/
def State.inWindow (s : State) (pd la : Nat) : Bool :=
  inHostWindow la && decide (la - hostBase < 2 ^ s.fld pd .agl 0 0x28 40 6)

/-- The line lies in the kept-sideband range (R288). -/
def State.isKept (s : State) (pd la : Nat) : Bool :=
  let x := la - hostBase
  let b := s.fld pd .agl 0 0x30 0 28 * 4096
  let z := s.fld pd .agl 0 0x30 28 6
  decide (z ≠ 0) && decide (b ≤ x) && decide (x < b + 2 ^ z)

/-- SBADDR of a kept line (R288); zero for another. -/
def State.sbAddr (s : State) (pd la : Nat) : Nat :=
  if s.isKept pd la then
    let off := (s.rg pd .agl 0 0x38).toNat % 2 ^ 40 / 8 * 8 +
      8 * ((la - hostBase - s.fld pd .agl 0 0x30 0 28 * 4096) / 128)
    s.fld pd .agl 0 0x28 0 40 * 4096 + off
  else 0

/-- Issue a module request for a host-window address on behalf of die `d` (R286, R288). The second part is the status of a
request that is not sent: ADDR outside the window, LINK_DOWN on a port that is DOWN. -/
def State.hostReq (s : State) (d opc la : Nat) (pay : Nat → List Byte) (own : HOwner) : State × Option Nat :=
  let pd := s.portDie d
  if !s.inWindow pd la then (s, some 1)
  else if s.lkState pd = lkDown then (s, some 7)
  else
    let k := s.link pd
    let m : LMsg := { opc := opc, tag := k.nextTag, addr := s.hostAddr pd la, pay := pay (s.sbAddr pd la) }
    let s1 := s.putLink pd { k with nextTag := (k.nextTag + 1) % 65536,
                                    hreqs := k.hreqs ++ [{ tag := k.nextTag, opc := opc, la := la, d := d, own := own }] }
    (s1.sendMsg pd m, none)

/-- M_RD of a host-window line (Table 16.5). -/
def State.hostRead (s : State) (d la : Nat) (own : HOwner) : State × Option Nat :=
  s.hostReq d 0x11 la (fun sb => leBytes 8 sb ++ leBytes 8 0) own

/-- M_WR of a host-window line, after the exit check (R288, R378). -/
def State.hostWrite (s : State) (d la : Nat) (src : Option Nat) (l : Line) (own : HOwner) : State × Option Nat :=
  let pd := s.portDie d
  if !s.inWindow pd la then (s, some 1)
  else if s.lkState pd = lkDown then (s, some 7)
  else
    let (s1, l1) := s.exitLine pd 4 src l
    s1.hostReq d 0x12 la (payPL l1) own

/-- A masked write of a host-window line: M_WR_PART, or the read of a kept line, whose merged line is then written whole
(R288). `k` tells the owner of the write. -/
def State.hostMerge (s : State) (d c k la mask : Nat) (bs : List Byte) (own : HOwner) : State × Option Nat :=
  let pd := s.portDie d
  let ln := la / 128 * 128
  if s.isKept pd ln then s.hostRead d ln (.merge d c k mask bs)
  else s.hostReq d 0x13 ln (fun sb => payPM (mkLine (padTo 128 bs) 0 0 0) sb mask) own

/-! ### Snoops (R289, R290) -/

/-- The port through which the host holds a module line, and the state E of its entry. -/
def State.holder (s : State) (ln : Nat) : Option (Nat × Bool) :=
  s.linkDies.findSome? (fun pd => ((s.link pd).filter.find? (fun e => e.1 = ln)).map (fun e => (pd, e.2)))

/-- A snoop of the line is outstanding (R290). -/
def State.snooping (s : State) (ln : Nat) : Bool :=
  s.linkDies.any (fun pd => (s.link pd).snoops.any (fun x => x.ln = ln))

/-- What an access needs before it may proceed (Table 16.6): 0 read, 1 full-line write, 2 masked write or ATOMIC. -/
def State.needsSnoop (s : State) (kind ln : Nat) : Bool :=
  match s.holder ln with
  | none => false
  | some (_, e) => e || kind ≠ 0

/-- Send the snoop an access calls for (Table 16.6), unless one of the line is outstanding. -/
def State.sendSnoop (s : State) (kind ln : Nat) : State :=
  if s.snooping ln then s
  else match s.holder ln with
  | none => s
  | some (pd, e) =>
    let k := s.link pd
    let inv := decide (kind ≠ 0)
    let sn : Snoop := { tag := k.nextTag, ln := ln, inv := inv, excl := e, discard := decide (kind = 1) }
    ((s.putLink pd { k with nextTag := (k.nextTag + 1) % 65536, snoops := k.snoops ++ [sn] }).sendMsg pd
      { opc := if inv then 0x21 else 0x22, tag := k.nextTag, addr := 128 * ln }).aglCnt pd 6 1

/-- The stack holds accesses to a line that no cache way holds: it is in maintenance (R196), or the line's unit is being retired
(R194). -/
def State.stackHeld (s : State) (ln : Nat) : Bool :=
  let a := 128 * ln
  let d := homeDie a
  let h := hbmPlace a
  s.isHbm a && !((s.cel d).cache.any (fun e => e.1 = ln)) &&
    (bitOf (s.rg d .hbm h.1 0) 25 ||
      (match (s.hbm d h.1).cmd with
       | some (.retire pc u _) => decide (pc = h.2.1) && decide (u = h.2.2 / 512)
       | _ => false))

/-- An access must wait: a snoop of the line is outstanding or is needed, or its stack holds it. -/
def State.mustWait (s : State) (kind ln : Nat) : Bool := s.snooping ln || s.needsSnoop kind ln || s.stackHeld ln

/-- Of a list of (kind, line) accesses, those that must wait for the host. -/
def State.waits (s : State) (acc : List (Nat × Nat)) : List (Nat × Nat) :=
  acc.filter (fun x => s.mustWait x.1 x.2)

/-- Send the snoops that a list of accesses needs. -/
def State.snoopAll (s : State) (acc : List (Nat × Nat)) : State :=
  forEach acc (fun x t => t.sendSnoop x.1 x.2) s

/-- A snooped entry ends (R289, R290): E becomes S on SNP_SHARE, every other entry is removed; its snoop ends. -/
def State.endSnoop (s : State) (pd : Nat) (x : Snoop) : State :=
  s.updLink pd (fun k => { k with
    snoops := k.snoops.filter (fun y => y.tag ≠ x.tag),
    filter := if x.inv then k.filter.filter (fun e => e.1 ≠ x.ln)
              else k.filter.map (fun e => if e.1 = x.ln then (e.1, false) else e) })

/-- A format code is a reserved value of Table 2.1 (R23, R287). -/
def fmtReserved (f : Nat) : Bool :=
  !([0, 1, 2, 3, 4, 5, 0x10, 0x11, 0x12, 0x13, 0x20, 0x21, 0x22, 0x30].contains f)

/-- Data that the host returns or writes back enters the module (R19, R287, R290): a new check value, the format, version
and flags it carries; a reserved format code is written as 0x00 with POISON. -/
def hostLine (bs : List Byte) (sb : Word) : Line :=
  if fmtReserved (sbFmt sb) then mkLine (padTo 128 bs) (sbVer sb) 0 flagPoison
  else mkLine (padTo 128 bs) (sbVer sb) (sbFmt sb) (sbFlags sb % 4)

end Sys2Proof.Machine
end

