-- ==== Sys2Proof/Machine/SpareOps.lean ====
section
/-! DEFINITION. What the rest of the block needs of the module controller and the power manager: cluster pages (R397), the
voltage-frequency table (R343), evidence and cluster spares (R16, R389–R394). -/

namespace Sys2Proof.Machine

/-- Change the module controller. -/
def State.updMod (s : State) (f : ModCtl → ModCtl) : State := { s with modc := f s.modc }

/-! ### Cluster pages (R397) -/

/-- Offset of CLK_CL_p and of PWR_RAIL_p in their blocks. -/
def clPage (p : Nat) : Nat := 0x10100 + 8 * p

/-- Offset of THM_CL_p in its block. -/
def thPage (p : Nat) : Nat := 0x10400 + 8 * p

/-- CLK_CL_p.N. -/
def State.stepN (s : State) (d p : Nat) : Nat := s.fld d .clk 0 (clPage p) 0 5
/-- CLK_CL_p.FMAX. -/
def State.fmax (s : State) (d p : Nat) : Nat := s.fld d .clk 0 (clPage p) 5 5
/-- CLK_CL_p.STOPPED. -/
def State.clkStopped (s : State) (d p : Nat) : Bool := s.fld d .clk 0 (clPage p) 10 1 = 1
/-- PWR_RAIL_p.STATE: 0 on, 1 retention, 2 ramping, 3 dark. -/
def State.railSt (s : State) (d p : Nat) : Nat := s.fld d .pwr 0 (clPage p) 10 2
/-- Set PWR_RAIL_p.STATE. -/
def State.setRailSt (s : State) (d p v : Nat) : State := s.setFld d .pwr 0 (clPage p) 10 2 v
/-- Set CLK_CL_p.LOGICAL. -/
def State.setLogical (s : State) (d p l : Nat) : State := s.setFld d .clk 0 (clPage p) 24 6 l

/-! ### The voltage-frequency table (R343) -/

/-- Temperature band of a cluster: 1 at 70 °C or above. -/
def State.band (s : State) (d p : Nat) : Nat := if 560 ≤ s.fld d .thm 0 (thPage p) 8 12 then 1 else 0

/-- Entry for step `n` in the present band. -/
def State.vfIndex (s : State) (d p n : Nat) : Nat := 2 * (n - 8) + s.band d p

/-- CODE of an entry, without guard. -/
def Phys.code (x : Phys) (e : Nat) : Nat := smGet 0 x.vf e % 32

/-- An entry carries the light-load tag. -/
def Phys.tagged (x : Phys) (e : Nat) : Bool := smGet 0 x.vf e / 32 % 2 = 1

/-- Rail code at which a cluster runs from an entry: a tagged entry takes two codes of guard. -/
def Phys.rail (x : Phys) (e : Nat) : Nat := x.code e + (if x.tagged e then 2 else 0)

/-- An entry can be used: its code, guard included, is at most 24, and it is not excluded (R343, R346). -/
def Phys.usable (x : Phys) (e : Nat) : Bool := decide (x.rail e ≤ 24) && !x.excluded.contains e

/-! ### The log of the module controller (Tables 24.5, 24.6) -/

/-- MOD_ELOG of a cause. -/
def modLog (cause d unit : Nat) : Nat := cause + d % 8 * 16 + unit % 256 * 256

/-- The module controller logs a cause. -/
def State.modRaise (s : State) (bit cause d unit : Nat) (c : Cls) : State := s.raise 0 .mod 0 bit c (modLog cause d unit)

/-- The module controller is to write a die's REPAIR record (R393). -/
def State.repairDue (s : State) (d : Nat) : State :=
  if s.modc.repair.any (fun e => e.1 = d) then s else s.updMod (fun m => { m with repair := m.repair ++ [(d, false)] })

/-- SPARE_DUE (R389): no class, no log. -/
def State.spareDue (s : State) : State := s.setStat 0 .mod 0 (bitMask 21)

/-- NO_SPARE (R392). -/
def State.noSpare (s : State) (d unit : Nat) : State := s.modRaise 18 9 d unit .ucc

/-- AUTO bit `k` of MOD_SPARE_CTL: 0 clusters, 1 banks, 2 lanes, 3 HBM. -/
def State.autoSpare (s : State) (k : Nat) : Bool := bitOf (s.rg 0 .mod 0 0x78) k

/-! ### Evidence (R389) -/

/-- Clocks in 24 hours and in one hour. -/
def dayTicks : Nat := usTicks 86400000000
def hourTicks : Nat := usTicks 3600000000

/-- Key of an evidence event: kind (0 residue, 1 bank ECC_UE, 2 lane degraded, 3 HBM ECC_CE) and place. -/
def evKey (kind place : Nat) : Nat := kind * 2 ^ 32 + place

/-- Note an evidence event: the second part counts those of its key within the window, this one included. -/
def State.evidence (s : State) (key win : Nat) : State × Nat :=
  let xs := (s.modc.evid ++ [(key, s.tick)]).filter (fun e => e.1 ≠ key || decide (s.tick < e.2 + win))
  (s.updMod (fun m => { m with evid := xs }), (xs.filter (fun e => e.1 = key)).length)

/-! ### Cluster spares (R16, R390–R392) -/

/-- The lowest free spare cluster of a die: it serves no logical cluster, is not retired, and is neither being switched in nor
under test. -/
def State.freeSpare (s : State) (d : Nat) : Option Nat :=
  allPhys.find? (fun p => s.logical d p = 0x3F && !(s.ph d p).retired && decide (s.modc.test ≠ some (d, p)) &&
    (match s.modc.sw with
     | some (e, _, _, k, _, _) => decide ((e, k) ≠ (d, p))
     | none => true))

/-- A cluster switch-in starts (Table 23.2, t0): the spare powers on to the code of its own table. -/
def State.startSwitch (s : State) (d l p k : Nat) (test : Bool) : State :=
  let n := min (s.stepN d p) (s.fmax d k)
  let s1 := (s.updMod (fun m => { m with sw := some (d, l, p, k, 0, test) })).setFld 0 .mod 0 0x88 0 1 1
  let s2 := (s1.setFld d .clk 0 (clPage k) 0 5 n).setFld d .pwr 0 (clPage k) 0 5 ((s.ph d k).rail (s.vfIndex d k n))
  s2.setRailSt d k 2

/-- A logical cluster is marked absent (R392): its dark cluster no longer serves it. -/
def State.markAbsent (s : State) (d l p : Nat) : State :=
  (((s.setLogical d p 0x3F).updPh d p (fun x => { x with retired := true })).updMod (fun m =>
    { m with absent := m.absent ++ [d * 64 + l] })).repairDue d

/-- No spare is left for a logical cluster (R392): on a wear trigger nothing changes; a cluster that is dark becomes absent. -/
def State.noClusterSpare (s : State) (d l p : Nat) : State :=
  let s1 := s.noSpare d l
  if s.railSt d p = 3 then s1.markAbsent d l p else s1

/-- A logical cluster needs a spare now. -/
def State.clNeed (s : State) (d l : Nat) : State :=
  match s.serving d l with
  | none => s
  | some p =>
    match s.freeSpare d with
    | none => s.noClusterSpare d l p
    | some k => s.startSwitch d l p k false

/-- A switch-in or a test runs. -/
def State.switchBusy (s : State) : Bool := s.modc.sw.isSome || s.modc.test.isSome

/-- A trigger of Table 23.1 is met for a logical cluster (R389); one that comes while another switch-in runs waits for it. -/
def State.clTrigger (s : State) (d l : Nat) : State :=
  if !s.autoSpare 0 then s.spareDue
  else if !s.switchBusy then s.clNeed d l
  else if s.modc.due.contains (d * 64 + l) ||
      (match s.modc.sw with | some (e, m, _, _, _, _) => decide ((e, m) = (d, l)) | none => false) then s
  else s.updMod (fun m => { m with due := m.due ++ [d * 64 + l] })

/-- The trigger of the logical cluster that a physical cluster serves, where it serves one. -/
def State.physTrigger (s : State) (d p : Nat) : State :=
  if s.logical d p < 48 then s.clTrigger d (s.logical d p) else s

/-- The clusters that waited are taken up, up to one whose switch-in starts. -/
def State.runDue : List Nat → State → State
  | [], s => s.updMod (fun m => { m with due := [] })
  | x :: r, s =>
    let t := (s.updMod (fun m => { m with due := r })).clNeed (x / 64) (x % 64)
    if t.modc.sw.isSome then t else State.runDue r t

/-- A switch-in or spare command ends with a code (Table 23.5), and the next one that waits starts. -/
def State.spareEnd (s : State) (code : Nat) : State :=
  let s1 := (s.updMod (fun m => { m with sw := none, test := none })).setRg 0 .mod 0 0x88 (wordOf (2 + code * 256))
  State.runDue s1.modc.due s1

/-- The next free spare takes over, or none is left (R390). -/
def State.spareNext (s : State) (d l p : Nat) (t : Bool) (o : Option Nat) : State :=
  match o with
  | some j => s.startSwitch d l p j t
  | none => ((if t then s else s.noClusterSpare d l p).updCl d l (fun x => { x with held := false })).spareEnd 3

/-- The spare of the running switch-in is abandoned (R390): it is retired, SPARE_FAIL is raised, and the next free spare is tried
from t0. -/
def State.spareFailed (s : State) : State :=
  match s.modc.sw with
  | none => s
  | some (d, l, p, k, _, t) =>
    let s1 := (((s.updPh d k (fun x => { x with retired := true })).setRailSt d k 3).modRaise 20 0xB d l .ce).repairDue d
    s1.spareNext d l p t (s1.freeSpare d)

/-- A residue error on a logical cluster counts against RES_LIMIT of its physical cluster (R389). -/
def State.residueEvent (s : State) (d l : Nat) : State :=
  match s.serving d l with
  | none => s
  | some p =>
    let x := s.evidence (evKey 0 (d * 64 + p)) dayTicks
    if s.fld 0 .mod 0 0x78 12 4 ≤ x.2 then x.1.clTrigger d l else x.1

end Sys2Proof.Machine
end

