-- ==== Sys2Proof/Machine/ChanOps.lean ====
section
/-! DEFINITION. What the rest of the module needs of the reduction channels: chunk geometry (R247), digests (R263) and the
abandoning of a bucket on a trap (R258). -/

namespace Sys2Proof.Machine

/-- One byte of CRC-64/ECMA-182 (R263). -/
def crc64Byte (c : BitVec 64) (b : Byte) : BitVec 64 :=
  (List.range 8).foldl (fun x _ =>
    if x.getLsbD 63 then (x <<< 1) ^^^ 0x42F0E1EBA9EA3693#64 else x <<< 1) (c ^^^ (b.setWidth 64 <<< 56))

/-- CRC-64/ECMA-182 (R263): initial value 0, no reflection, final XOR 0. -/
def crc64 (bs : List Byte) : BitVec 64 := bs.foldl crc64Byte 0#64

/-- The digest of one unit (R263). -/
def digestUnit (b : Nat) (bs : List Byte) : Nat := (crc64 (leBytes 8 b ++ bs)).toNat

/-- Bytes of a bucket of SIZE `s` (R247). -/
def bucketBytes (size : Nat) : Nat := 2 ^ size * 1048576

/-- Chunks of a bucket (R247). -/
def bucketChunks (size : Nat) : Nat := 2 ^ (size + 4)

/-- Line numbers of result chunk `j` of a bucket at `base`: element lines and, for BS16, the scale line (R247). -/
def chunkLines (fmt size base j : Nat) : List Nat :=
  (List.range 512).map (fun i => base / 128 + 512 * j + i) ++
    (if fmt = 0x20 then [(base + bucketBytes size) / 128 + j] else [])

/-- Offset of a channel's register group (Table 13.12). -/
def rchOff (c h : Nat) : Nat := 0x1000 + 0x200 * c + 0x20 * h

/-- ORD of a channel (Table 13.12). -/
def State.chanOrd (s : State) (d c h : Nat) : Nat := s.fld d .fab 0 (rchOff c h + 0x10) 16 16

/-- Levels l = ⌈log2 R⌉ (R250). -/
def treeLevels (r : Nat) : Nat := ((List.range 13).find? (fun l => r ≤ 2 ^ l)).getD 0

/-- Tree position of this rank for a bucket (R250). -/
def treePos (r q bseq : Nat) : Nat := (q + r - bseq % r) % r

/-- Write the digest entry of the active bucket at entry ORD mod 64 of the ring; an address of zero writes none (R263). -/
def State.writeDigest (s : State) (d c h : Nat) (complete : Bool) : State :=
  let base := s.fld d .fab 0 (rchOff c h + 8) 7 41 * 128
  let ch := s.chan d c h
  match ch.accepted.head? with
  | none => s
  | some b =>
    let o := s.chanOrd d c h
    let a := base + 128 * (o % 64)
    if base = 0 ∨ s.isMem a = false then s
    else
      let pos := treePos ch.nranks ch.rank b.bseq
      let flags := b2n complete + 2 * b2n (pos = 0) + 4 * b2n ch.poisoned
      let bs := leBytes 4 b.bseq ++ leBytes 2 b.gen ++ leBytes 2 o ++ leBytes 2 pos ++ leBytes 2 ch.nranks ++
        leBytes 1 (treeLevels ch.nranks) ++ leBytes 1 flags ++ leBytes 2 0 ++ leBytes 8 ch.digUp ++
        leBytes 8 ch.digDown ++ (List.range 12).flatMap (fun k => leBytes 8 (smGet 0 ch.digRecv k))
      s.writeAt a (mkLine (padTo 128 bs) 0 0 0)

/-- A flight ends. -/
def State.dropFlight (s : State) (id : Nat) : State :=
  { s with flights := s.flights.filter (fun f => f.id ≠ id) }

/-- A channel abandons its active bucket and drops its accepted buckets (R258): DST lines not finally written are written
poisoned, the digest entry is written with COMPLETE = 0, none of the buckets completes. -/
def State.abandonChan (s : State) (d c h : Nat) : State :=
  let ch := s.chan d c h
  match ch.accepted with
  | [] => s
  | b :: rest =>
    let s1 := if ch.phase = 0 then s else
      forEach ((List.range (bucketChunks b.size)).filter (fun j => ch.res ≤ j))
        (fun j t => forEach (chunkLines ch.fmt b.size b.dst j)
          (fun n u => if u.isMem (128 * n) then u.poisonLine n else u) t) (s.writeDigest d c h false)
    let s2 := forEach (b :: rest) (fun x t => t.dropFlight x.fid) s1
    s2.updChan d c h (fun x =>
      { x with accepted := [], phase := 0, prev := if ch.phase = 0 then x.prev else some (b.bseq, b.gen) })

/-- Every channel of a context on a die abandons its work (R258). -/
def State.abandonCtx (s : State) (d c : Nat) : State :=
  forEach (List.range 16) (fun h t => t.abandonChan d c h) s

end Sys2Proof.Machine
end

