-- ==== Sys2Proof/Machine/Traps.lean ====
section
/-! DEFINITION. Traps of a context (R111, R112, R258) and the end of a step that does not complete (R39, R59). -/

namespace Sys2Proof.Machine

/-- A die of the module has stopped in order (R384). -/
def State.halted (s : State) : Bool := s.allDies.any (fun d => (s.die d).stopped)

/-- A context enters TRAPPED on every die on which it is not IDLE (Table 6.6, t1), and its channels abandon their work
(R258); after a stop in order a STOPPED context stays STOPPED (R384). -/
def State.trapDies (s : State) (c : Nat) : State :=
  forEach s.allDies (fun d t =>
    (if (t.ctx d c).st = .idle || ((t.ctx d c).st = .stopped && t.halted) then t
     else t.updCtx d c (fun x => { x with st := .trapped })).abandonCtx d c) s

/-- A context traps (R111): the first detection fills the record, every other is counted in MORE (R112). -/
def State.trap (s : State) (c : Nat) (r : TrapRec) : State :=
  (s.updHc c (fun x => match x.trap with
    | none => { x with trap := some r }
    | some _ => { x with more := min 255 (x.more + 1) })).trapDies c

/-- Further detections of a context that name no record (R112). -/
def State.moreTraps (s : State) (c n : Nat) : State :=
  if n = 0 then s else s.updHc c (fun x => { x with more := min 255 (x.more + n) })

/-- The record of a detection in a step in flight. -/
def Flight.det (f : Flight) (s : State) (cause unit operand block w2 w3 : Nat) : TrapRec :=
  { cause := cause, d := f.d, unit := unit, defer := f.defer, idx := f.idx, tbase := f.tbase, operand := operand,
    block := block, w2 := w2, w3 := w3, ts := s.time f.d }

/-- A flight by its number. -/
def State.flight (s : State) (id : Nat) : Option Flight := s.flights.find? (fun f => f.id = id)

/-- Change a flight, which keeps its number. -/
def State.updFlight (s : State) (id : Nat) (g : Flight → Flight) : State :=
  { s with flights := s.flights.map (fun f => if f.id = id then { g f with id := f.id } else f) }

/-- A step ends without completing (R59): it signals no more and every line it has written is marked poisoned, which its
descriptor's completion entry says (R156). -/
def State.failFlight (s : State) (id : Nat) : State :=
  match s.flight id with
  | none => s
  | some f =>
    (if f.lines.isEmpty then s
      else (forEach f.lines (fun n t => t.poisonLine n) s).updHc f.c (fun x => { x with poisoned := true })).updFlight id
      (fun g => { g with failed := true, todo := [] })

/-- ELOG of SEQ (Table 6.12). -/
def seqLog (code c idx : Nat) (defer : Bool) : Nat := code + 16 * b2n defer + 256 * c + 2 ^ 32 * idx

/-- ENG field of an engine step (Table 7.8). -/
def Flight.eng (f : Flight) : Nat := bits (f.ws.getD 2 0) 32 3

/-- A racking engine raises a cause of Table 7.16 for a step in flight: its status and log, the trap, and the end of the
step. `bit` is the STAT bit of Table 24.7. -/
def State.engTrap (s : State) (f : Flight) (cause bit w2 w3 : Nat) : State :=
  let e := f.eng
  let s1 := s.raise f.d .eng e bit .ucc ((cause - 0x1F) + f.c * 2 ^ 24 + f.idx * 2 ^ 32)
  (s1.failFlight f.id).trap f.c (f.det s cause (0x30 + e) 0 0 w2 w3)

/-- A payload that a REDSTORE's source finds broken in its own copy: cause and the code found (R205, R261). -/
def paySrcBad (fmt : Nat) (pay : List Byte) : Option (Nat × Nat) :=
  let n := if fmt = 0x20 then 4 else if fmt = 0x22 then 6 else 1
  match ((List.range n).map (fun i => leAt pay (128 * n + 8 * i + 6) 1)).find? (fun x => x ≠ fmt) with
  | some x => some (2, x)
  | none => if n ≠ 1 && leAt pay (136 * n + 8) 1 = 255 then some (1, 0) else none

/-- The record of a format cause that a REDSTORE's home reports with status FORMAT (R39, R40, R228): the source names its own
payload where that is at fault, else the target, whose cause and found code the status does not carry (a free value, log
entry 15). -/
def State.formatDet (s : State) (r : FRec) : State × (Nat × Nat × Nat) :=
  match paySrcBad r.stat r.pay with
  | some (c, x) => (s, (c, 8, r.stat * 2 ^ 40 + x * 2 ^ 48))
  | none =>
    let x := Config.redFormat s.free
    (s.fresh, if x.1 then (1, 9, r.stat * 2 ^ 40) else (2, 9, r.stat * 2 ^ 40 + x.2.toNat * 2 ^ 48))

/-- A reduction channel raises a cause of Table 13.8 for the bucket of flight `fid`: FAB_STAT.UCC, FAB_RLOG, and the trap, which
abandons the channel's work (R258, R264). -/
def State.redTrap (s : State) (d c h fid cause level st w2 w3 : Nat) : State :=
  let f := (s.flight fid).getD {}
  let s1 := s.setRg d .fab 0 0 (s.rg d .fab 0 0 ||| 2)
  let log := (cause - 0x37) + c * 16 + 128 + h * 256 + level % 16 * 4096 + st * 65536 + s.chanOrd d c h * 2 ^ 32
  let s2 := if bitOf (s1.rg d .fab 0 0x60) 7 then s1 else s1.setRg d .fab 0 0x60 (wordOf log)
  s2.trap c (f.det s cause 0x3F 0 0 w2 w3)

/-- RED_FAIL with a fabric status (Table 13.8). -/
def State.redFail (s : State) (d c h fid level st ga : Nat) : State :=
  s.redTrap d c h fid 0x38 level st (h + level % 16 * 16 + st * 256 + s.chanOrd d c h * 65536) ga

/-- A request that holds a tag ends with a status other than OK (R210, R228, R264). -/
def State.failOwner (s : State) (d : Nat) (t : TagEnt) (st : Nat) : State :=
  match t.own with
  | .sig _ defer idx tbase =>
    s.trap t.r.ctx { cause := 0x30, d := d, unit := 0x3F, defer := defer, idx := idx, tbase := tbase,
                     w2 := t.r.addr % 2 ^ 32 + st * 2 ^ 32, w3 := 0, ts := s.time d }
  | .eng fid i _ =>
    match s.flight fid with
    | none => s
    | some f => (s.updFlight fid (fun g => { g with wait := g.wait - 1 })).engTrap f 0x21 9 (f.eng + i * 256 + st * 2 ^ 32) t.r.addr
  | .chan h k fid =>
    let ch := s.chan d t.r.ctx h
    match ch.accepted.head?.filter (fun b => b.fid = fid && decide (ch.phase ≠ 0)) with
    | none => s
    | some b =>
      let f := (s.flight b.fid).getD {}
      if st = 4 then
        let x := s.formatDet t.r
        x.1.trap t.r.ctx (f.det s x.2.1 0x3F x.2.2.1 0 x.2.2.2 (t.r.addr % 2 ^ 48))
      else s.redFail d t.r.ctx h fid k st t.r.addr
  | .proxy pd tag opc word =>
    s.respond pd { opc := if opc = 0x07 then 0x30 else 0x31, tag := tag, stat := 8, ak := st, word := word,
                   pay := if opc = 0x07 then [] else List.replicate 16 0 }

end Sys2Proof.Machine
end

