-- ==== Sys2Proof/Machine/FabOps.lean ====
section
/-! DEFINITION. The fabric router as its users see it: topology and routes (R202, R221–R225), combining (R217–R219), tags,
order and the issue of requests (R213, R215, R227). -/

namespace Sys2Proof.Machine

/-- Operation codes of Table 11.1. -/
def opRead : Nat := 1
def opWrite : Nat := 2
def opRedstore : Nat := 3
def opMcast : Nat := 4
def opAtomic : Nat := 5
def opSignal : Nat := 6

/-- The module's own identifier (R200). -/
def State.ownId (s : State) (d : Nat) : Nat := s.fld d .fab 0 0x28 0 12

/-- FAB_TOPO.MODE: 0 TORUS, 1 SWITCHED, 2 TORUS_SWITCHED. -/
def State.topo (s : State) (d : Nat) : Nat := s.fld d .fab 0 0x30 0 2

/-- Size of torus dimension `k` (Table 11.14). -/
def State.dim (s : State) (d k : Nat) : Nat := s.fld d .fab 0 0x30 (4 + 4 * k) 4 + 1

/-- Modules of the torus (R202). -/
def State.torusSize (s : State) (d : Nat) : Nat := s.dim d 0 * s.dim d 1 * s.dim d 2

/-- Coordinate `k` of a module (R202). -/
def State.coord (s : State) (d k i : Nat) : Nat :=
  if k = 0 then i % s.dim d 0
  else if k = 1 then i / s.dim d 0 % s.dim d 1
  else i / (s.dim d 0 * s.dim d 1)

/-- The identifier is a torus member (R202). -/
def State.inTorus (s : State) (d i : Nat) : Bool := s.topo d ≠ 1 && decide (i < s.torusSize d)

/-- The port is up (MAC_STAT.UP). -/
def State.portUp (s : State) (d p : Nat) : Bool := bitOf (s.rg d .mac (p % 4) 0) 16

/-- Role of a port: dimension and positive direction, or open (R231, Table 12.2). -/
def State.portRole (s : State) (d p : Nat) : Option (Nat × Bool) :=
  if s.topo d = 1 ∨ p % 4 = 3 ∨ s.fld d .mac (p % 4) 0x20 0 2 = 2 then none else some (p, decide (d < (s.nd + 1) / 2))

/-- All ports of the module in ascending module port number, a port in MODE 2 as its two halves, A before B (R231). -/
def State.allPorts (s : State) : List (Nat × Nat) :=
  s.allDies.flatMap (fun d => (List.range 4).flatMap (fun p =>
    if s.fld d .mac p 0x20 0 2 = 2 then [(d, p), (d, p + 4)] else [(d, p)]))

/-- Ports up in a torus direction (R223). -/
def State.dirPorts (s : State) (k : Nat) (pos : Bool) : List (Nat × Nat) :=
  s.allPorts.filter (fun x => s.portUp x.1 x.2 && decide (s.portRole x.1 x.2 = some (k, pos)))

/-- Open ports that are up (R225). -/
def State.openPorts (s : State) : List (Nat × Nat) :=
  s.allPorts.filter (fun x => s.portUp x.1 x.2 && decide (s.portRole x.1 x.2 = none))

/-- Hops forward from `a` to `b` in a ring of `n`. -/
def ringDist (n a b : Nat) : Nat := (b + n - a) % n

/-- The direction of a dimension towards a module: none when the coordinate already agrees; the positive direction when
both are equally short (R221). -/
def State.dirTo (s : State) (d k dst : Nat) : Option Bool :=
  let f := ringDist (s.dim d k) (s.coord d k (s.ownId d)) (s.coord d k dst)
  if f = 0 then none else some (decide (f ≤ s.dim d k - f))

/-- The dimension-order direction of a control request (R221). -/
def State.controlDir (s : State) (d dst : Nat) : Option (Nat × Bool) :=
  (List.range 3).findSome? (fun k => (s.dirTo d k dst).map (fun p => (k, p)))

/-- The directions that shorten the distance of a bulk request (R222). -/
def State.productive (s : State) (d dst : Nat) : List (Nat × Bool) :=
  (List.range 3).flatMap (fun k =>
    let n := s.dim d k
    let f := ringDist n (s.coord d k (s.ownId d)) (s.coord d k dst)
    if f = 0 then [] else if f < n - f then [(k, true)] else if n - f < f then [(k, false)] else [(k, true), (k, false)])

/-- Credit of a port for a class: none while its partner pauses the class, else less the records that wait there. -/
def State.portCredit (s : State) (x : Nat × Nat) (cls : Nat) : Nat :=
  let p := s.port x.1 x.2
  if p.paused.contains cls then 0 else 1024 - (p.txq.filter (fun e => e.1 = cls)).length

/-- The first of the ports with the most credit for a class. -/
def State.bestPort (s : State) (xs : List (Nat × Nat)) (cls : Nat) : Option (Nat × Nat) :=
  let m := xs.foldl (fun a x => max a (s.portCredit x cls)) 0
  xs.find? (fun x => decide (s.portCredit x cls = m))

/-- Where a record to a module leaves (R221–R225): a port, or none where no route exists. -/
def State.route (s : State) (d dst : Nat) (ctrl : Bool) (cls : Nat) : Option (Nat × Nat) :=
  if s.inTorus d dst then
    if ctrl then
      match s.controlDir d dst with
      | none => none
      | some (k, pos) => let u := s.dirPorts k pos; u[dst % u.length]?
    else s.bestPort ((s.productive d dst).flatMap (fun x => s.dirPorts x.1 x.2)) cls
  else if s.topo d = 0 then none
  else let u := s.openPorts; if ctrl then u[dst % u.length]? else s.bestPort u cls

/-- The control direction towards a module has a port whose control requests are not all resolved (R224). -/
def State.dirHeld (s : State) (d dst : Nat) : Bool :=
  match s.controlDir d dst with
  | none => false
  | some (k, pos) => s.allDies.any (fun e => (s.router e).failed.any (fun p => decide (s.portRole e p = some (k, pos))))

/-- Put a record behind the others of its class at a port. -/
def State.enqueue (s : State) (x : Nat × Nat) (cls : Nat) (r : FRec) : State :=
  s.updPort x.1 x.2 (fun p => { p with txq := p.txq ++ [(cls, r)] })

/-- A control class: TC7 and TC6 (R211). -/
def ctrlClass (cls : Nat) : Bool := cls = 7 || cls = 6

/-- Send a record onward; the escape classes TC4 and TC2 follow the routing of control requests (R222); `false` says that no route exists. Control traffic for a failed direction is held (R224). -/
def State.forward (s : State) (d cls : Nat) (r : FRec) : State × Bool :=
  let ctrl := r.op = opSignal || r.op = opAtomic || ctrlClass cls || cls = 4 || cls = 2
  if s.inTorus d r.dstMod && ctrl && s.dirHeld d r.dstMod then
    (s.updRouter d (fun k => { k with heldq := k.heldq ++ [(cls, r)] }), true)
  else match s.route d r.dstMod ctrl cls with
  | none => (s, false)
  | some x => (s.enqueue x cls r, true)

/-! ### Combining (R217–R219) -/

/-- What mergeable requests share (R217): operation, target, and word or format with the class; none for a request that is
never merged. -/
def mergeKey (cls : Nat) (r : FRec) : Option (Nat × Nat × Nat) :=
  if r.kind ≠ 0 ∨ r.retx then none
  else if r.op = opSignal then some (opSignal, r.dstMod * 2 ^ 32 + r.addr % 2 ^ 32, cls)
  else if r.flag then none
  else if r.op = opRead then some (opRead, r.addr, cls)
  else if r.op = opAtomic ∧ r.akind = 0 then some (opAtomic, r.addr, r.word * 8 + cls)
  else if r.op = opRedstore ∧ (r.stat = 4 ∨ r.stat = 3) then some (opRedstore, r.addr, r.stat * 8 + cls)
  else none

/-- The two's-complement elements of a line, `w` bytes each. -/
def intElems (w : Nat) : Nat → List Byte → List Int
  | 0, _ => []
  | n + 1, bs => signedOf (8 * w) (leNat (bs.take w)) :: intElems w n (bs.drop w)

/-- Elements as bytes, `w` bytes each. -/
def elemBytes (w : Nat) (xs : List Int) : List Byte := xs.flatMap (fun x => leBytes w (unsignedOf (8 * w) x))

/-- A value lies in the `n`-bit two's-complement range. -/
def inRange (n : Nat) (x : Int) : Bool := decide (-(2 ^ (n - 1) : Nat) ≤ x) && decide (x < (2 ^ (n - 1) : Nat))

/-- The merge of two requests with one key (R217): none where payload sums would leave the format's range. -/
def mergeTwo (a b : FRec) : Option FRec :=
  if a.op = opSignal then
    some { a with flag := a.flag || b.flag,
                  addr := a.addr % 2 ^ 32 + 2 ^ 32 * ((a.addr / 2 ^ 32 + b.addr / 2 ^ 32) % 2 ^ 32) }
  else if a.op = opAtomic then
    some { a with pay := leBytes 8 ((leAt a.pay 0 8 + leAt b.pay 0 8) % 2 ^ 64) ++ a.pay.drop 8 }
  else if a.op = opRead then some a
  else
    let w := if a.stat = 4 then 4 else 2
    let n := 128 / w
    let xs := List.zipWith (· + ·) (intElems w n a.pay) (intElems w n b.pay)
    if xs.all (inRange (8 * w)) then
      let bs := elemBytes w xs
      let sa := wordOf (leAt a.pay 128 8)
      let sb := wordOf (leAt b.pay 128 8)
      let fl := if sbPoison sa || sbPoison sb then flagDerived else 0
      some { a with pay := bs ++ leBytes 8 (mkSide (crc32c bs) (sbVer sa) (sbFmt sa) fl).toNat }
    else none

/-- Combining is enabled on the die (R217). -/
def State.combineOn (s : State) (d : Nat) : Bool := bitOf (s.rg d .fab 0 0x20) 6

/-- Cellar-and-Trellis clocks of the hold window (FAB_CTL.WINDOW, units of 8 ns). -/
def State.windowTicks (s : State) (d : Nat) : Nat := s.fld d .fab 0 0x20 0 6 * 8 * 188 / 100

/-- The key under which a blend unit keeps the members of a merged request that has left: source module, die and tag. -/
def memberKey (r : FRec) : Nat := (r.srcMod * 8 + r.die) * 32768 + r.tag

/-- A merged request leaves the blend unit: its members are kept for the response when there are several. -/
def State.keepMembers (s : State) (d : Nat) (r : FRec) (ms : List FRec) : State :=
  if ms.length < 2 then s else s.updRouter d (fun k => { k with merged := smPut [] k.merged (memberKey r) ms })

/-- What the blend unit does with a request (R218): it holds it, merges it, or lets it pass. The second part is the
request that goes on, where one does. -/
def State.blend (s : State) (d cls : Nat) (r : FRec) : State × Option FRec :=
  match mergeKey cls r with
  | none => (s, some r)
  | some key =>
    if !s.combineOn d then (s, some r)
    else
      let k := s.router d
      match k.hot.find? (fun h => h.key = key) with
      | some h =>
        let rest := k.hot.filter (fun x => x.key ≠ key)
        if s.fld d .fab 0 0x20 0 6 = 0 then
          (s.putRouter d { k with hot := { h with idle := 0 } :: rest }, some r)
        else match h.req with
        | none =>
          (s.putRouter d { k with hot := { h with req := some r, members := [r], idle := 0 } :: rest }, none)
        | some a =>
          match mergeTwo a r with
          | some m =>
            let h1 : Hot := { h with req := some m, members := h.members ++ [r], idle := 0 }
            ((s.putRouter d { k with hot := h1 :: rest }).addRg d .fab 0 0x110 1, none)
          | none => (s.putRouter d { k with hot := { h with idle := 0 } :: rest }, some r)
      | none =>
        if k.recent.any (fun x => x.1 = key && decide (s.tick < x.2 + s.windowTicks d)) then
          let full := decide (64 ≤ k.hot.length)
          let old := if full then k.hot.getLast? else none
          let s1 := s.putRouter d { k with hot := { key := key } :: (if full then k.hot.dropLast else k.hot) }
          let s2 := if full then s1.addRg d .fab 0 0x138 1 else s1
          let s3 := match old with
            | some h => match h.req with
              | some a => ((s2.keepMembers d a h.members).forward d (h.key.2.2 % 8) a).1
              | none => s2
            | none => s2
          (s3, some r)
        else
          let keep := k.recent.filter (fun x => decide (s.tick < x.2 + s.windowTicks d))
          (s.putRouter d { k with recent := (key, s.tick) :: keep.take 63 }, some r)

/-! ### Tags and issue (R213, R215, R227) -/

/-- The lowest free tag of a die (R14). -/
def freeTag (tags : List (Nat × TagEnt)) : Nat :=
  ((List.range (tags.length + 1)).find? (fun n => !(tags.any (fun e => e.1 = n)))).getD 0

/-- Tag limit of a source (Table 11.6) and the tags it holds. -/
def State.underLimit (s : State) (d : Nat) (own : Owner) : Bool :=
  let tags := (s.router d).tags
  let eng (id : Nat) : Nat := match s.flight id with
    | some f => f.eng
    | none => 8
  match own with
  | .sig u _ _ _ =>
    decide ((tags.filter (fun e => match e.2.own with | .sig v _ _ _ => v / 4 = u / 4 | _ => false)).length < 512)
  | .eng id _ _ =>
    decide ((tags.filter (fun e => match e.2.own with | .eng j _ _ => eng j = eng id | _ => false)).length < 8192)
  | .chan _ _ _ =>
    decide ((tags.filter (fun e => match e.2.own with | .chan _ _ _ => true | _ => false)).length < 8192)
  | .proxy _ _ _ _ =>
    decide ((tags.filter (fun e => match e.2.own with | .proxy _ _ _ _ => true | _ => false)).length < 64)

/-- A bulk store: WRITE, REDSTORE or MCAST outside the control class (R203). -/
def bulkStore (cls : Nat) (r : FRec) : Bool := !ctrlClass cls && (r.op = opWrite || r.op = opRedstore || r.op = opMcast)

/-- Class in which a request travels (Tables 11.1, 11.4). -/
def reqClass (own : Owner) (r : FRec) : Nat :=
  match own with
  | .proxy _ _ _ _ => 7
  | _ => if r.op = opAtomic ∨ r.op = opSignal then 7 else 5

/-- A FLAG store must wait for an earlier bulk store of its die, context and destination (R213). -/
def State.flagBlocked (s : State) (d : Nat) (r : FRec) : Bool :=
  r.flag && (s.router d).tags.any (fun e =>
    bulkStore (reqClass e.2.own e.2.r) e.2.r && e.2.r.ctx = r.ctx && e.2.r.dstMod = r.dstMod)

/-- Key of a sequence counter: destination module and class (R227). -/
def seqKey (dst cls : Nat) : Nat := dst * 2 + b2n (cls = 7)

/-- The die's blend unit combines requests to a module: its own, and every one on a torus path (R220). -/
def State.blends (s : State) (d dst : Nat) : Bool := decide (dst = s.ownId d) || s.inTorus d dst

/-- Give a request its tag and sequence number and send it (R215, R227). A request without a route ends with UNREACHABLE
(R202, R224). -/
def State.launch (s : State) (d : Nat) (own : Owner) (r : FRec) : State :=
  let cls := reqClass own r
  let k := s.router d
  let tag := freeTag k.tags
  let q := smGet 0 k.seqs (seqKey r.dstMod cls)
  let r1 := { r with kind := 0, die := d, srcMod := s.ownId d, tag := tag, seq := q }
  let ent : TagEnt := { r := r1, own := own }
  let s1 := (s.putRouter d { k with tags := smIns k.tags tag ent,
                                    seqs := smPut 0 k.seqs (seqKey r.dstMod cls) ((q + 1) % 2 ^ 32) }).addRg d .fab 0 0x100 1
  let n := (s1.router d).tags.length
  let s2 := if s1.fld d .fab 0 0x48 16 16 < n then s1.setFld d .fab 0 0x48 16 16 n else s1
  let (s3, go) := if s.blends d r.dstMod then s2.blend d cls r1 else (s2, some r1)
  match go with
  | none => s3
  | some r2 =>
    if r.dstMod = s.ownId d then s3.updRouter d (fun x => { x with inq := x.inq ++ [(cls, r2)] })
    else
      let via := (s3.route d r2.dstMod (ctrlClass cls) cls).map (fun x => x.1 * 8 + x.2)
      let (s4, ok) := s3.forward d cls r2
      if ok then s4.updRouter d (fun x => { x with tags := x.tags.map (fun e =>
          if e.1 = tag then (e.1, { e.2 with via := via }) else e) })
      else
        let s5 := s4.raise d .fab 0 15 .ucc (8 + r1.dstMod * 256 + r1.ctx * 2 ^ 20 + r1.op * 2 ^ 24 + r1.seq * 2 ^ 32)
        (s5.updRouter d (fun x => { x with tags := x.tags.filter (fun e => e.1 ≠ tag) })).failOwner d ent 6

/-- A waiting request may be sent (R14, R212, R213, R215): the table and its source's limit have room, no earlier bulk
store holds a FLAG store, and no earlier control request of the die to the same module waits. -/
def State.mayLaunch (s : State) (d : Nat) (before : List (FRec × Owner)) (own : Owner) (r : FRec) : Bool :=
  let cls := reqClass own r
  decide ((s.router d).tags.length < 32768) && s.underLimit d own && !s.flagBlocked d r &&
    !(before.any (fun e => (cls = 7 && reqClass e.2 e.1 = 7 && e.1.dstMod = r.dstMod) ||
      (r.flag && bulkStore (reqClass e.2 e.1) e.1 && e.1.ctx = r.ctx && e.1.dstMod = r.dstMod)))

/-- Send the waiting requests of a die that may go, oldest first. -/
def State.pumpFab (d : Nat) : List (FRec × Owner) → List (FRec × Owner) → State → State
  | before, [], s => s.updRouter d (fun k => { k with waitq := before })
  | before, e :: rest, s =>
    if s.mayLaunch d before e.2 e.1 then State.pumpFab d before rest (s.launch d e.2 e.1)
    else State.pumpFab d (before ++ [e]) rest s

/-- Issue a fabric request of a die (R203). -/
def State.issue (s : State) (d : Nat) (own : Owner) (r : FRec) : State :=
  let q := (s.router d).waitq ++ [(r, own)]
  State.pumpFab d [] q (s.updRouter d (fun k => { k with waitq := [] }))

/-- A tag returns: its entry leaves the table, and waiting requests may go (R14). -/
def State.returnTag (s : State) (d tag : Nat) : State :=
  let s1 := s.updRouter d (fun k => { k with tags := k.tags.filter (fun e => e.1 ≠ tag) })
  State.pumpFab d [] (s1.router d).waitq (s1.updRouter d (fun k => { k with waitq := [] }))

/-! ### Counters and signals (R101–R103, R207) -/

/-- Offset of counter `i` of context `c` (Table 6.18). -/
def cntOff (c i : Nat) : Nat := 0x1000 + 0x800 * c + 8 * i

/-- Add to counter `i` of context `c` on die `d`, modulo 2^64 (R103). -/
def State.addCnt (s : State) (d c i n : Nat) : State := s.addRg d .seq 0 (cntOff c i) n

/-- A unit of a step signals a counter reference (R101, R103): SCOPE 0 and 1 inside the module, SCOPE 2 as a fabric
SIGNAL in the control class with FLAG. -/
def State.signal (s : State) (d c u : Nat) (defer : Bool) (idx tbase cref inc : Nat) : State :=
  let i := nbits cref 0 8
  let die := nbits cref 8 3
  match nbits cref 11 2 with
  | 0 => s.addCnt d c i inc
  | 1 => s.addCnt die c i inc
  | 2 =>
    if nbits cref 16 12 = s.ownId d then
      if die < s.nd then s.addCnt die (nbits cref 28 3) i inc
      else s.trap c { cause := 0x30, d := d, unit := 0x3F, defer := defer, idx := idx, tbase := tbase,
                      w2 := cref % 2 ^ 32 + 2 ^ 32, ts := s.time d }
    else s.issue d (.sig u defer idx tbase)
      { op := opSignal, flag := true, ctx := c, dstMod := nbits cref 16 12, addr := cref % 2 ^ 32 + 2 ^ 32 * (inc % 2 ^ 32) }
  | _ => s

end Sys2Proof.Machine
end

