-- ==== Sys2Proof/Machine/Operands.lean ====
section
/-! DEFINITION. Operand forms: the fields of a step (R118, R120), number formats (R23–R38), and tensors as units read them
(R35, R127, R129), with the checks of every line read (R24, R39, R58, R121, R420). -/

namespace Sys2Proof.Machine

/-! ### Fields of a step (Table 7.1) -/

/-- `n` bits from bit `lo` of step word `i`. -/
def sw (ws : List Word) (i lo n : Nat) : Nat := bits (ws.getD i 0) lo n

/-- A one-bit field of step word `i`. -/
def sb (ws : List Word) (i lo : Nat) : Bool := bitOf (ws.getD i 0) lo

/-- A signed field of step word `i`. -/
def si (ws : List Word) (i lo n : Nat) : Int := signedOf n (sw ws i lo n)

def stKind (ws : List Word) : Nat := sw ws 0 0 8
def stEnd (ws : List Word) : Bool := sb ws 0 8
def stRet (ws : List Word) : Bool := sb ws 0 9
def stWaitEn (ws : List Word) : Bool := sb ws 0 10
def stSigEn (ws : List Word) : Bool := sb ws 0 11
def stRec (ws : List Word) : Bool := sb ws 0 12
def stVchk (ws : List Word) : Bool := sb ws 0 13
def stVset (ws : List Word) : Bool := sb ws 0 14
def stWaitCause (ws : List Word) : Nat := sw ws 0 16 3
def stStagger (ws : List Word) : Nat := sw ws 0 19 5
def stLink (ws : List Word) : Nat := sw ws 0 24 24
def stVer (ws : List Word) : Nat := sw ws 0 48 16
def stWaitCref (ws : List Word) : Nat := sw ws 1 0 32
def stWaitVal (ws : List Word) : Nat := sw ws 1 32 32
def stSigCref (ws : List Word) : Nat := sw ws 2 0 32
/-- MASK of a compute step (Tables 7.4, 7.6, 7.7). -/
def stMask (ws : List Word) : Nat := sw ws 7 0 48
/-- The clusters of a step's mask in ascending logical order. -/
def stClusters (ws : List Word) : List Nat := onesOf (stMask ws) 48

/-- Version written into a destination line by a compute kind (R121). -/
def verCompute (ws : List Word) : Nat :=
  if stVset ws then (if stVchk ws then (stVer ws + 1) % 65536 else stVer ws) else 0

/-- Version written into a destination line by a racking kind that copies a line of version `v` (R121). -/
def verCopy (ws : List Word) (v : Nat) : Nat :=
  if stVset ws then (if stVchk ws then (stVer ws + 1) % 65536 else stVer ws) else v

/-- Line number of a Cellar line offset (R120). -/
def cloLine (clo : Nat) : Nat := cloAddr clo / 128

/-! ### Formats (Tables 2.1, 2.4, 2.6) -/

def fINT4 : Nat := 1
def fINT8 : Nat := 2
def fINT16 : Nat := 3
def fINT32 : Nat := 4
def fRAW32C : Nat := 5
def fMXFP4 : Nat := 0x10
def fE2M3 : Nat := 0x11
def fE3M2 : Nat := 0x12
def fMXINT8 : Nat := 0x13
def fBS16 : Nat := 0x20
def fBS8 : Nat := 0x21
def fBS16R : Nat := 0x22
def fSCALE : Nat := 0x30

/-- Plain integer format (R26). -/
def isPlain (f : Nat) : Bool := decide (1 ≤ f) && decide (f ≤ 4)

/-- Block-scaled format of a step operand (Table 2.1, BS16R left out). -/
def isBlock (f : Nat) : Bool := [fMXFP4, fE2M3, fE3M2, fMXINT8, fBS16, fBS8].contains f

/-- The format is one of the two MXFP6 forms. -/
def isFP6 (f : Nat) : Bool := f = fE2M3 || f = fE3M2

/-- Element bits (Tables 2.2, 2.4). -/
def elemBits (f : Nat) : Nat :=
  if f = fINT4 ∨ f = fMXFP4 then 4
  else if isFP6 f then 6
  else if f = fINT16 ∨ f = fBS16 then 16
  else if f = fINT32 then 32
  else if f = fRAW32C then 64
  else 8

/-- Elements of a block (R29, Table 2.1). -/
def blockLen (f : Nat) : Nat := if f = fBS16 ∨ f = fBS16R then 256 else 32

/-- Elements of one unit of a format, the granule of R129 (Table 2.6; one line for a plain format, R26, R27). -/
def granule (f : Nat) : Nat :=
  if isFP6 f then 512 else if f = fBS16 then 256 else 1024 / elemBits f

/-- Elements that `n` lines hold. -/
def elemsIn (f n : Nat) : Nat := n * 1024 / elemBits f

/-- A number rounded up to a multiple. -/
def roundUp (n m : Nat) : Nat := (n + m - 1) / m * m

/-- Lines that `n` elements occupy, in whole units of the format (R36). -/
def linesOf (f n : Nat) : Nat := roundUp n (granule f) * elemBits f / 1024

/-- Decode factor f of Table 2.4; `arr` for a matrix array. -/
def decodeF (arr : Bool) (f : Nat) : Nat :=
  if f = fMXFP4 then 1
  else if f = fE2M3 then 3
  else if f = fE3M2 then (if arr then 2 else 4)
  else if f = fMXINT8 then 6
  else if f = fBS16R then 8
  else 0

/-- Integer of an FP4 code (Table 2.5). -/
def fp4Int (c : Nat) : Int :=
  let m : Nat := [0, 1, 2, 3, 4, 6, 8, 12].getD (c % 8) 0
  if nbit c 3 then -(m : Int) else m

/-- Integer of an E2M3 code (R31). -/
def e2m3Int (c : Nat) : Int :=
  let e := nbits c 3 2
  let m := nbits c 0 3
  let mag := if e = 0 then m else (8 + m) * 2 ^ (e - 1)
  if nbit c 5 then -(mag : Int) else mag

/-- Integer of an E3M2 code in the conversion unit (R31). -/
def e3m2Int (c : Nat) : Int :=
  let e := nbits c 2 3
  let m := nbits c 0 2
  let mag := if e = 0 then m else (4 + m) * 2 ^ (e - 1)
  if nbit c 5 then -(mag : Int) else mag

/-- An E3M2 code that an 8-bit array lane cannot hold (R33). -/
def e3m2Bad (c : Nat) : Bool := decide ((e3m2Int c) % 4 ≠ 0)

/-- The integer an element code decodes to (R31, R26); an undecodable code in an array is taken as zero. -/
def decodeElem (arr : Bool) (f c : Nat) : Int :=
  if f = fMXFP4 then fp4Int c
  else if f = fE2M3 then e2m3Int c
  else if f = fE3M2 then (if arr then (if e3m2Bad c then 0 else e3m2Int c / 4) else e3m2Int c)
  else signedOf (elemBits f) c

/-! ### Tensors as a unit reads them -/

/-- An operand of a step: its operand code (Table 2.9), format, first element line, first scale line, lines per row, and
the exponent of a plain integer format. -/
structure Opnd where
  code : Nat := 0
  fmt : Nat := 0
  base : Nat := 0
  sbase : Nat := 0
  rstr : Nat := 0
  exp : Int := 0
deriving DecidableEq, Repr

/-- Blocks per row (R127). -/
def Opnd.bpr (o : Opnd) : Nat := elemsIn o.fmt o.rstr / blockLen o.fmt

/-- Number of the block that holds element `k` of row `r` (R127). -/
def Opnd.block (o : Opnd) (r k : Nat) : Nat := r * o.bpr + k / blockLen o.fmt

/-- Line that holds the lowest bit of element `k` of row `r` (Tables 2.2, 2.3, 2.6). -/
def Opnd.lineAt (o : Opnd) (r k : Nat) : Nat := o.base + r * o.rstr + k * elemBits o.fmt / 1024

/-- Scale line of block `b` (R35). -/
def Opnd.scaleLine (o : Opnd) (b : Nat) : Nat := o.sbase + b / 128

/-- Element lines of elements `k0 … k1 − 1` of row `r`. -/
def Opnd.rowLines (o : Opnd) (r k0 k1 : Nat) : List Nat :=
  if k1 ≤ k0 then []
  else
    let a := k0 * elemBits o.fmt / 1024
    let z := (k1 * elemBits o.fmt - 1) / 1024
    (List.range (z + 1 - a)).map (fun i => o.base + r * o.rstr + a + i)

/-- Blocks of elements `k0 … k1 − 1` of row `r`. -/
def Opnd.rowBlocks (o : Opnd) (r k0 k1 : Nat) : List Nat :=
  if k1 ≤ k0 ∨ !isBlock o.fmt then []
  else
    let a := k0 / blockLen o.fmt
    let z := (k1 - 1) / blockLen o.fmt
    (List.range (z + 1 - a)).map (fun i => r * o.bpr + a + i)

/-- A list without adjacent repeats. -/
def dedup : List Nat → List Nat
  | [] => []
  | x :: xs => if xs.head? = some x then dedup xs else x :: dedup xs

/-- The bytes from byte `off` of the region that starts at a line. -/
def State.bytesAt (s : State) (ln off n : Nat) : List Byte := smRange memDefault s.mem (128 * ln + off) n

/-- The code of element `k` of row `r` of an operand (Tables 2.2 and 2.6); RAW32C has its own reader. -/
def State.elemCode (s : State) (o : Opnd) (r k : Nat) : Nat :=
  let b := k * elemBits o.fmt
  nbits (leNat (s.bytesAt (o.base + r * o.rstr) (b / 8) 5)) (b % 8) (elemBits o.fmt)

/-- Scale code of block `b` of an operand; 0xFF in a poisoned line is taken as 0x00 (R35, R39). -/
def State.scaleCode (s : State) (o : Opnd) (b : Nat) : Nat :=
  let x := (s.byte (128 * o.scaleLine b + b % 128)).toNat
  if x = 255 then 0 else x

/-- Effective exponent of a block (R31). -/
def State.effExp (s : State) (arr : Bool) (o : Opnd) (b : Nat) : Int :=
  (s.scaleCode o b : Int) - 127 - decodeF arr o.fmt

/-- The decoded integer of an element in a matrix array (R31). -/
def State.arrInt (s : State) (o : Opnd) (r k : Nat) : Int := decodeElem true o.fmt (s.elemCode o r k)

/-- Mantissa and exponent of an element as the conversion unit folds it (R62, stage 1). -/
def State.cvuVal (s : State) (o : Opnd) (r k : Nat) : Int × Int :=
  if o.fmt = fRAW32C then
    let ln := o.base + r * o.rstr + k / 16
    let i := k % 16
    let main := signedOf 32 (leNat (s.bytesAt ln (4 * i) 4))
    let comp := leNat (s.bytesAt ln (64 + 2 * i) 2)
    (main * 65536 + comp, signedOf 8 (leNat (s.bytesAt ln 96 1)) - 16)
  else if isPlain o.fmt then (decodeElem false o.fmt (s.elemCode o r k), o.exp)
  else (decodeElem false o.fmt (s.elemCode o r k), s.effExp false o (o.block r k))

/-! ### Checks of lines read -/

/-- A detection by a unit: trap cause (Table 6.7), operand code, block, and words 2 and 3 without MORE. -/
structure Det where
  cause : Nat := 0
  operand : Nat := 0
  block : Nat := 0
  w2 : Nat := 0
  w3 : Nat := 0
deriving DecidableEq, Repr

/-- Order of simultaneous detections of one unit: operand code, block, cause (R40, R112). -/
def Det.before (a b : Det) : Bool :=
  decide (a.operand < b.operand) ||
    (decide (a.operand = b.operand) && (decide (a.block < b.block) ||
      (decide (a.block = b.block) && decide (a.cause ≤ b.cause))))

/-- The first of a list of detections. -/
def firstDet (ds : List Det) : Option Det :=
  ds.foldl (fun acc d => match acc with | none => some d | some a => if a.before d then some a else some d) none

/-- What a line read for arithmetic must be: format expected, the version expected where the operand is checked, and the
index that a mismatch records as BLOCK. -/
structure Want where
  fmt : Nat := 0
  ver : Option Nat := none
  code : Nat := 0
  block : Nat := 0
deriving DecidableEq, Repr

/-- Detections that a line read as such makes: unpopulated (R420), FORMAT_MISMATCH (R24, R39), SHARD_STALE (R121),
OPERAND_CRC (R58). -/
def State.lineDets (s : State) (w : Want) (ln : Nat) : List Det :=
  let a := 128 * ln
  if !s.served a then [{ cause := 9, w2 := 9, w3 := a }]
  else
    let l := s.line ln
    (if sbFmt l.sb ≠ w.fmt then
      [{ cause := 2, operand := w.code, block := w.block,
         w2 := w.block % 2 ^ 40 + w.fmt * 2 ^ 40 + sbFmt l.sb * 2 ^ 48, w3 := a }] else []) ++
    (match w.ver with
     | none => []
     | some v => if sbVer l.sb = v then [] else
        [{ cause := 7, operand := w.code, w2 := v + sbVer l.sb * 65536, w3 := a }]) ++
    (if sbPoison l.sb || l.crcOk then [] else
      [{ cause := 5, operand := w.code, w2 := w.fmt * 2 ^ 40, w3 := a }])

/-- NAN_SCALE in block `b` of an operand (R39): code 0xFF in a line that is not poisoned. -/
def State.nanDets (s : State) (o : Opnd) (b : Nat) : List Det :=
  let ln := o.scaleLine b
  if (s.byte (128 * ln + b % 128)).toNat = 255 && !sbPoison (s.sideOf ln) then
    [{ cause := 1, operand := o.code, block := b, w2 := b % 2 ^ 40 + o.fmt * 2 ^ 40, w3 := 128 * ln + b % 128 * 2 ^ 48 }]
  else []

/-- E3M2_RANGE at an element of an array operand (R33, Table 2.8). -/
def State.e3m2Dets (s : State) (o : Opnd) (r k : Nat) : List Det :=
  let ln := o.lineAt r k
  if o.fmt = fE3M2 && e3m2Bad (s.elemCode o r k) && !sbPoison (s.sideOf ln) then
    [{ cause := 3, operand := o.code, block := o.block r k, w2 := o.block r k % 2 ^ 40 + o.fmt * 2 ^ 40,
       w3 := 128 * ln + k * 6 / 8 % 128 * 2 ^ 48 }]
  else []

/-- Index that FORMAT_MISMATCH of an element line records: the first block in the line, or the line's index within the
operand for a plain integer format (Table 2.8). -/
def Opnd.lineIndex (o : Opnd) (ln : Nat) : Nat :=
  if isBlock o.fmt then
    let i := ln - o.base
    let r := i / max 1 o.rstr
    r * o.bpr + (i % max 1 o.rstr * 1024 + elemBits o.fmt - 1) / elemBits o.fmt / blockLen o.fmt
  else ln - o.base

/-- Lines that a unit reads of rows `rs`, elements `k0 … k1 − 1`: element lines and scale lines, each once in a row. -/
def Opnd.lines (o : Opnd) (rs : List Nat) (k0 k1 : Nat) : List Nat :=
  dedup (rs.flatMap (fun r => o.rowLines r k0 k1)) ++
    dedup (rs.flatMap (fun r => (o.rowBlocks r k0 k1).map o.scaleLine))

/-- Detections in reading rows `rs`, elements `k0 … k1 − 1`, of an operand; `arr` for a matrix array, `ver` for a
versioned operand. -/
def State.opDets (s : State) (arr : Bool) (ver : Option Nat) (o : Opnd) (rs : List Nat) (k0 k1 : Nat) : List Det :=
  dedup (rs.flatMap (fun r => o.rowLines r k0 k1)) |>.flatMap
      (fun ln => s.lineDets { fmt := o.fmt, ver := ver, code := o.code, block := o.lineIndex ln } ln)
    |> (· ++ (rs.flatMap (fun r => o.rowBlocks r k0 k1)).flatMap (fun b =>
      s.lineDets { fmt := fSCALE, ver := ver, code := o.code, block := b } (o.scaleLine b) ++ s.nanDets o b))
    |> (· ++ (if arr && o.fmt = fE3M2 then
        rs.flatMap (fun r => (List.range (k1 - k0)).flatMap (fun i => s.e3m2Dets o r (k0 + i))) else []))

/-- One of the lines is marked poisoned. -/
def State.anyPoison (s : State) (lns : List Nat) : Bool := lns.any (fun n => sbPoison (s.sideOf n))

/-- The lines of a list whose first read fails its CRC-32C and whose second read passes (R58): those the surroundings
name. -/
def glitches (env : Env) (lns : List Nat) : List Nat := lns.filter (fun n => env.glitch.contains (128 * n))

/-! ### Addresses of a step (R120, R420) -/

/-- A Cellar line offset names a populated line (R120). -/
def State.cloOk (s : State) (clo : Nat) : Bool := s.isCel (cloAddr clo)

/-- The named line of a field and the highest line it can reach are populated (R420); `hi` counts from the named line. -/
def State.fieldOk (s : State) (clo hi : Nat) : Bool := s.isCel (cloAddr clo) && s.isCel (cloAddr clo + 128 * hi)

end Sys2Proof.Machine
end

