-- ==== Sys2Proof/Machine/CvuOps.lean ====
section
/-! DEFINITION. The arithmetic of the conversion unit (R61–R84): draws, rotation, rounding, block scales, function tables
and the OPT update. Values are exact: an integer times a power of two. -/

namespace Sys2Proof.Machine

/-! ### Exact values -/

/-- An exact value m × 2^e. -/
structure Dy where
  m : Int := 0
  e : Int := 0
deriving DecidableEq, Repr

/-- m × 2^k rounded toward negative infinity, for an exponent of either sign. -/
def shiftFloor (m k : Int) : Int := if 0 ≤ k then m * 2 ^ k.toNat else m / 2 ^ (-k).toNat

/-- m × 2^k rounded toward zero. -/
def shiftTrunc (m k : Int) : Int := if 0 ≤ m then shiftFloor m k else -(shiftFloor (-m) k)

/-- m × 2^k rounded half to even. -/
def shiftEven (m k : Int) : Int :=
  if 0 ≤ k then m * 2 ^ k.toNat
  else
    let d : Int := 2 ^ (-k).toNat
    let q := m / d
    let r := m % d
    if 2 * r < d then q else if d < 2 * r then q + 1 else if q % 2 = 0 then q else q + 1

/-- Sum of two exact values. -/
def Dy.add (a b : Dy) : Dy :=
  if a.e ≤ b.e then { m := a.m + b.m * 2 ^ (b.e - a.e).toNat, e := a.e }
  else { m := a.m * 2 ^ (a.e - b.e).toNat + b.m, e := b.e }

/-- Negation of an exact value. -/
def Dy.neg (a : Dy) : Dy := { a with m := -a.m }

/-- Product of two exact values. -/
def Dy.mul (a b : Dy) : Dy := { m := a.m * b.m, e := a.e + b.e }

/-- The value in units of 2^g, rounded toward negative infinity. -/
def Dy.onGrid (a : Dy) (g : Int) : Int := shiftFloor a.m (a.e - g)

/-- Bits needed to write a magnitude. -/
def bitLen (n : Nat) : Nat := if n = 0 then 0 else Nat.log2 n + 1

/-- floor(log2 |a|) of a value that is not zero. -/
def Dy.ilog (a : Dy) : Int := (bitLen a.m.natAbs : Int) - 1 + a.e

/-- An integer limited to a range. -/
def clampInt (lo hi x : Int) : Int := if x < lo then lo else if hi < x then hi else x

/-! ### Stream generators (R71–R73) -/

/-- Rotate a 32-bit word left. -/
def rotl32 (x : BitVec 32) (n : Nat) : BitVec 32 := (x <<< n) ||| (x >>> (32 - n))

/-- One round of the draw function (R72). -/
def drawRound (ks : List (BitVec 32)) (x : BitVec 32 × BitVec 32) (r : Nat) : BitVec 32 × BitVec 32 :=
  let x0 := x.1 + x.2
  let x1 := rotl32 x.2 ([7, 19, 11, 25].getD (r % 4) 0) ^^^ x0
  if r % 4 = 3 then
    let n := r / 4 + 1
    (x0 + ks.getD (n % 3) 0, x1 + ks.getD ((n + 1) % 3) 0 + BitVec.ofNat 32 n)
  else (x0, x1)

/-- draw(k, c) (R72). -/
def draw (k c : Nat) : Nat :=
  let k0 := BitVec.ofNat 32 k
  let k1 := BitVec.ofNat 32 (k / 2 ^ 32)
  let x := (List.range 12).foldl (drawRound [k0, k1, k0 ^^^ k1 ^^^ 0x5eb1a7c3#32])
    (BitVec.ofNat 32 c + k0, BitVec.ofNat 32 (c / 2 ^ 32) + k1)
  (x.1 ^^^ rotl32 x.2 16).toNat

/-- The 16 bits of element `i` of a cluster's part (R73). -/
def draw16 (key c0 i : Nat) : Nat := nbits (draw key ((c0 + i / 2) % 2 ^ 63)) (16 * (i % 2)) 16

/-- The sign of absolute column `c` in the rotation diagonal (R69). -/
def rotSign (key ctr c : Nat) : Int := if nbit (draw key ((2 ^ 63 + ctr + c / 32) % 2 ^ 64)) (c % 32) then -1 else 1

/-- Group size of ROT (R69). -/
def rotSize (rot : Nat) : Nat := if rot = 0 then 1 else 4 ^ (rot + 1)

/-- A rotated group of columns that starts at column `c` (R69). -/
def rotGroup (key ctr c : Nat) (ws : List Int) : List Int :=
  let xs := ws.mapIdx (fun j w => rotSign key ctr (c + j) * w)
  (List.range ws.length).map (fun i =>
    (xs.mapIdx (fun j x => if popcount (Nat.land i j) 8 % 2 = 0 then x else -x)).foldl (· + ·) 0)

/-! ### Stages 5 to 8 (R62, R64–R68) -/

/-- A working value after stage 4, with the clamp of stage 2 and whether it derives from a poisoned line. -/
structure WV where
  w : Int := 0
  sat : Bool := false
  po : Bool := false
deriving DecidableEq, Repr

/-- Largest magnitude of an output format in units of its smallest quantum (Table 4.2). -/
def vmaxUnits (f : Nat) : Int :=
  if f = fINT4 then 7 else if f = fINT8 then 127 else if f = fINT16 then 32767 else if f = fINT32 then 2 ^ 31 - 1
  else if f = fMXFP4 then 12 else if f = fE2M3 then 60 else if f = fE3M2 then 112
  else if f = fBS16 ∨ f = fBS16R then 32767 else 127

/-- qmin of Table 4.2. -/
def qminOf (f : Nat) : Int :=
  if f = fMXFP4 then -1 else if f = fE2M3 then -3 else if f = fE3M2 then -2 else if f = fMXINT8 then -6 else 0

/-- mb of Table 4.2, for formats with a mantissa. -/
def mbOf (f : Nat) : Option Int :=
  if f = fMXFP4 then some 1 else if f = fE2M3 then some 3 else if f = fE3M2 then some 2 else none

/-- emax of Table 2.4. -/
def emaxOf (f : Nat) : Int :=
  if f = fMXFP4 ∨ f = fE2M3 then 2 else if f = fE3M2 then 4 else if f = fMXINT8 then 0
  else if f = fBS8 then 6 else 14

/-- The scale code of a block (R66). -/
def selectScale (f : Nat) (g : Int) (ws : List Int) : Nat :=
  let a := ws.foldl (fun m w => max m w.natAbs) 0
  if a = 0 then 0 else (clampInt 0 254 ((bitLen a : Int) - 1 + g - emaxOf f + 127)).toNat

/-- Stage 5: a working value on a grid 2^f coarser (R65); `r16` is the draw of stochastic rounding. -/
def roundTo (stoch : Bool) (w f : Int) (r16 : Nat) : Int :=
  if f ≤ 0 then w * 2 ^ (-f).toNat
  else if stoch then (w * 65536 + (r16 : Int) * 2 ^ f.toNat) / 2 ^ (f.toNat + 16)
  else shiftEven w (-f)

/-- Stages 5 and 6 of one element of a block with scale code `x`, in units of 2^(x − 127 + qmin); the flag says that stage
6 clamped it. -/
def quantElem (f : Nat) (stoch : Bool) (g : Int) (x : Nat) (w : Int) (r16 : Nat) : Int × Bool :=
  let b : Int := (x : Int) - 127
  let rel := match mbOf f with
    | none => qminOf f
    | some mb => if w = 0 then qminOf f else max ((bitLen w.natAbs : Int) - 1 + g - b - mb) (qminOf f)
  let q := roundTo stoch w (b + rel - g) r16
  let u := q * 2 ^ (rel - qminOf f).toNat
  let v := clampInt (-(vmaxUnits f)) (vmaxUnits f) u
  (v, decide (v ≠ u))

/-- Counts of one output block (R68): SAT and ZEROED. -/
structure BlkCnt where
  sat : Nat := 0
  zeroed : Nat := 0
deriving DecidableEq, Repr

/-- Quantise one block (R62 stages 5–7, R66, R67): its elements in units of the smallest quantum, its scale code, its
counts. -/
def quantBlock (f : Nat) (stoch : Bool) (g : Int) (ws : List WV) (rs : List Nat) : List Int × Nat × BlkCnt :=
  let x := selectScale f g (ws.map WV.w)
  let qs := List.zipWith (fun (w : WV) r => (w, quantElem f stoch g x w.w r)) ws rs
  let us := qs.map (fun q => q.2.1)
  (us, if us.all (· = 0) then 0 else x,
    { sat := (qs.filter (fun q => q.1.sat || q.2.2)).length
      zeroed := (qs.filter (fun q => q.1.w ≠ 0 && q.2.1 = 0)).length })

/-- Quantise a run of 32 elements of a plain integer output (R62 stages 5 and 6, R64). -/
def quantPlain (f : Nat) (stoch : Bool) (g outExp : Int) (ws : List WV) (rs : List Nat) : List Int × Nat × BlkCnt :=
  let qs := List.zipWith (fun (w : WV) r =>
    let q := roundTo stoch w.w (outExp - g) r
    (w, q, clampInt (-(vmaxUnits f) - 1) (vmaxUnits f) q)) ws rs
  (qs.map (fun q => q.2.2), 0,
    { sat := (qs.filter (fun q => q.1.sat || decide (q.2.1 ≠ q.2.2))).length
      zeroed := (qs.filter (fun q => q.1.w ≠ 0 && q.2.2 = 0)).length })

/-- The code of an element value in units of the smallest quantum (R31, R34). -/
def encodeElem (f : Nat) (u : Int) : Nat :=
  if f = fMXFP4 then
    let m := ((List.range 8).find? (fun c => fp4Int c = u.natAbs)).getD 0
    if u < 0 then m + 8 else m
  else if f = fE2M3 then
    let m := ((List.range 32).find? (fun c => e2m3Int c = u.natAbs)).getD 0
    if u < 0 then m + 32 else m
  else if f = fE3M2 then
    let m := ((List.range 32).find? (fun c => e3m2Int c = 4 * (u.natAbs : Int))).getD 0
    if u < 0 then m + 32 else m
  else unsignedOf (elemBits f) u

/-- Element codes of `b` bits as bytes (Tables 2.2 and 2.6). -/
def packCodes (b : Nat) (cs : List Nat) : List Byte :=
  leBytes (cs.length * b / 8) (cs.foldr (fun c acc => c + 2 ^ b * acc) 0)

/-- A list in pieces of `n`. -/
def chunksOf {α : Type} (n : Nat) : Nat → List α → List (List α)
  | 0, _ => []
  | _, [] => []
  | k + 1, xs => xs.take n :: chunksOf n k (xs.drop n)

/-- A list in pieces of `n`, the last one shorter. -/
def pieces {α : Type} (n : Nat) (xs : List α) : List (List α) := chunksOf n (xs.length / n + 1) xs

/-- Draws for a row of `n` elements whose first is element `i0` of the part, and zero for padding (R73). -/
def rowDraws (stoch : Bool) (key c0 i0 n pad : Nat) : List Nat :=
  (List.range n).map (fun i => if stoch then draw16 key c0 (i0 + i) else 0) ++ List.replicate pad 0

/-- A quantised output row: element codes, scale codes and block counts. -/
structure QRow where
  codes : List Nat := []
  scales : List Nat := []
  cnt : List BlkCnt := []
deriving DecidableEq, Repr

/-- Stages 5 to 8 of a padded output row (R62). -/
def quantRow (f : Nat) (stoch : Bool) (g outExp : Int) (ws : List WV) (rs : List Nat) : QRow :=
  let n := blockLen f
  let bs := List.zip (pieces n ws) (pieces n rs)
  let qs := bs.map (fun b =>
    if isBlock f then quantBlock f stoch g b.1 b.2 else quantPlain f stoch g outExp b.1 b.2)
  { codes := qs.flatMap (fun q => q.1.map (encodeElem f))
    scales := if isBlock f then qs.map (fun q => q.2.1) else []
    cnt := qs.map (fun q => q.2.2) }

/-! ### Function tables (R74–R77) -/

/-- A function table (R74). -/
structure FnTab where
  mode : Nat := 0
  segw : Nat := 0
  ofrac : Nat := 0
  tails : Nat := 0
  xmin : Int := 0
  tlo : Int := 0
  thi : Int := 0
  coef : List (Int × Int × Int) := []
deriving DecidableEq, Repr

/-- A function table from its seven lines (R74). -/
def fnTabOf (bs : List Byte) : FnTab :=
  { mode := leAt bs 0 1, segw := leAt bs 1 1, ofrac := leAt bs 2 1, tails := leAt bs 3 1
    xmin := signedOf 32 (leAt bs 4 4), tlo := signedOf 32 (leAt bs 8 4), thi := signedOf 32 (leAt bs 12 4)
    coef := (List.range 64).map (fun i => (signedOf 32 (leAt bs (128 + 12 * i) 4),
      signedOf 32 (leAt bs (132 + 12 * i) 4), signedOf 32 (leAt bs (136 + 12 * i) 4))) }

/-- A custom table that is refused when the step starts (R75). -/
def FnTab.bad (t : FnTab) : Bool :=
  decide (4 < t.mode) || decide (26 < t.segw) || t.tails % 4 = 3 || t.tails / 4 % 4 = 3 || decide (16 ≤ t.tails)

/-- Coefficient word of a standard table (R77): segments 48–63 of the reciprocal square root hold zero. -/
def stdCoef (fn i k : Nat) : BitVec 32 := if fn = 4 ∧ 48 ≤ i then 0 else Config.fnCoef fn i k

/-- A standard function table (Table 4.4); coefficients, output fraction and unstated tails are free values. -/
def stdTab (fn : Nat) : FnTab :=
  let o := (Config.fnFrac fn).val
  let tails := (Config.fnTails fn).toNat
  let cs := (List.range 64).map (fun i =>
    ((stdCoef fn i 0).toInt, (stdCoef fn i 1).toInt, (stdCoef fn i 2).toInt))
  match fn with
  | 1 => { mode := 1, segw := 10, ofrac := o, tails := tails, coef := cs }
  | 2 => { mode := 2, segw := 10, ofrac := o, tails := tails, xmin := 65536, tlo := (Config.fnTlo 2).toInt, coef := cs }
  | 3 => { mode := 3, segw := 10, ofrac := o, tails := tails, xmin := 65536, coef := cs }
  | 4 => { mode := 4, segw := 12, ofrac := o, tails := tails, xmin := 65536, coef := cs }
  | 5 => { segw := 13, ofrac := o, tails := 6, xmin := -262144, coef := cs }
  | 6 => { segw := 15, ofrac := o, tails := 6, xmin := -1048576, coef := cs }
  | 7 => { segw := 13, ofrac := o, xmin := -262144, tlo := -(2 ^ o), thi := 2 ^ o, coef := cs }
  | _ => { segw := 14, ofrac := o, xmin := -524288, thi := 2 ^ o, coef := cs }

/-- seg(u) for an exact u in units of 2^−16 (R75). -/
def FnTab.seg (t : FnTab) (u : Dy) : Int :=
  let d := u.add { m := -t.xmin }
  let i := (clampInt 0 63 (d.onGrid t.segw)).toNat
  let x := d.add { m := -((i : Int) * 2 ^ t.segw) }
  let c := t.coef.getD i (0, 0, 0)
  c.1 + shiftFloor (c.2.1 * x.m) (x.e - t.segw) + shiftFloor (c.2.2 * x.m * x.m) (2 * x.e - 2 * t.segw)

/-- The tail of kind `k` at `x`, in units of 2^−16 (Table 4.3). -/
def FnTab.tail (t : FnTab) (k : Nat) (x : Dy) (const : Int) : Dy :=
  if k = 0 then { m := const, e := -(t.ofrac : Int) } else if k = 1 then { x with e := x.e - 16 } else {}

/-- m truncated to 16 fraction bits, where |x| = m × 2^p (R75); x in units of 2^−16. -/
def mq16 (x : Dy) (p : Int) : Dy := { m := shiftFloor x.m.natAbs (x.e - p) }

/-- One table evaluation of x in units of 2^−16; none where the table gives no value (R75, R76). -/
def FnTab.eval (t : FnTab) (x : Dy) : Option Dy :=
  let o : Int := t.ofrac
  match t.mode with
  | 0 =>
    let xi := x.onGrid 0
    if xi < t.xmin then some (t.tail (t.tails % 4) x t.tlo)
    else if t.xmin + 64 * 2 ^ t.segw ≤ xi then some (t.tail (t.tails / 4 % 4) x t.thi)
    else some { m := t.seg x, e := -o }
  | 1 =>
    let i := x.onGrid 16
    some { m := t.seg (x.add { m := -(i * 65536) }), e := i - o }
  | 2 =>
    if x.m ≤ 0 then none
    else
      let p := x.ilog - 16
      some { m := p * 2 ^ t.ofrac + t.seg (mq16 x p), e := -o }
  | 3 =>
    if x.m = 0 then none
    else
      let p := x.ilog - 16
      let y := t.seg (mq16 x p)
      some { m := if x.m < 0 then -y else y, e := -p - o }
  | _ =>
    if x.m ≤ 0 then none
    else
      let p := (x.ilog - 16) / 2
      some { m := t.seg (mq16 x (2 * p)), e := -p - o }

/-- The substitute for a value the table does not give (R76). -/
def FnTab.substitute (t : FnTab) (outFmt : Nat) (outExp redExp : Int) : Dy :=
  if t.mode = 2 then { m := t.tlo, e := -(t.ofrac : Int) }
  else if outFmt = 0 then { m := 2 ^ 31 - 1, e := redExp }
  else if isPlain outFmt then { m := vmaxUnits outFmt, e := outExp }
  else { m := vmaxUnits outFmt, e := 127 + qminOf outFmt }

/-! ### The OPT update of one element (R81) -/

/-- The OPT parameter line (Table 4.5). -/
structure OptParam where
  b1 : Nat := 0
  b2 : Nat := 0
  bc1 : Dy := {}
  bc2 : Dy := {}
  lr : Dy := {}
  eps : Dy := {}
  wd : Dy := {}
deriving DecidableEq, Repr

/-- The parameters in a parameter line (R80). -/
def optParam (bs : List Byte) : OptParam :=
  { b1 := leAt bs 0 2, b2 := leAt bs 2 2
    bc1 := { m := leAt bs 4 2, e := signedOf 8 (leAt bs 6 1) - 15 }
    bc2 := { m := leAt bs 8 2, e := signedOf 8 (leAt bs 7 1) - 15 }
    lr := { m := leAt bs 10 2, e := signedOf 8 (leAt bs 12 1) - 16 }
    eps := { m := 1, e := signedOf 8 (leAt bs 13 1) }
    wd := { m := leAt bs 14 2, e := -16 } }

/-- First moment before it is quantised: b1 × m + (1 − b1) × g (R81). -/
def optM (p : OptParam) (m g : Dy) : Dy :=
  (Dy.mul { m := p.b1, e := -16 } m).add (Dy.mul { m := 65536 - (p.b1 : Int), e := -16 } g)

/-- Second moment before it is quantised: b2 × v + (1 − b2) × g × g (R81). -/
def optV (p : OptParam) (v g : Dy) : Dy :=
  (Dy.mul { m := p.b2, e := -16 } v).add (Dy.mul { m := 65536 - (p.b2 : Int), e := -16 } (g.mul g))

/-- 24 significant bits, toward zero (R81). -/
def trunc24 (a : Dy) : Dy :=
  let n := bitLen a.m.natAbs
  if n ≤ 24 then a else { m := shiftTrunc a.m (24 - (n : Int)), e := a.e + n - 24 }

/-- The weight update of one element (R81): the new weight before it is quantised, and whether DOMAIN and UNDERFLOW count.
`mn` and `vn` are the quantised moments, `ew` the effective exponent of W's block. -/
def optW (p : OptParam) (w mn vn : Dy) (ew : Int) : Dy × Bool × Bool :=
  let arg := (vn.mul p.bc2).add p.eps
  let dom := decide (arg.m ≤ 0)
  let h : Dy := if dom then { m := 32767, e := 127 } else ((stdTab 4).eval { arg with e := arg.e + 16 }).getD {}
  let u := trunc24 ((mn.mul p.bc1).mul h)
  let d := (p.lr.mul (u.add (p.wd.mul w))).neg
  let dq := shiftTrunc d.m (d.e - (ew - 16))
  (w.add { m := dq, e := ew - 16 }, dom, decide (d.m ≠ 0) && decide (dq = 0))

/-- Exact values on their common finest grid. -/
def commonGrid (xs : List Dy) : Int × List Int :=
  let g := xs.foldl (fun m x => if x.e < m then x.e else m) ((xs.headD {}).e)
  (g, xs.map (fun x => x.m * 2 ^ (x.e - g).toNat))

end Sys2Proof.Machine
end

