-- ==== Sys2Proof/Machine/ArrayOps.lean ====
section
/-! DEFINITION. The arithmetic of the matrix arrays (R42–R57): lane modes, depth tiles, accumulation, residues, draining. -/

namespace Sys2Proof.Machine

/-- A block-scaled format an array reads (Table 3.1). -/
def arrayBlock (f : Nat) : Bool := [fMXFP4, fE2M3, fE3M2, fMXINT8, fBS8].contains f

/-- Lane mode of a pair of formats (Table 3.1): 0 normal integer, 1 narrow integer, 2 normal block, 3 narrow block; none for
a pair that is not listed. -/
def laneMode (a w : Nat) : Option Nat :=
  if a = fINT4 ∧ w = fINT4 then some 1
  else if (a = fINT8 ∨ a = fINT4) ∧ (w = fINT8 ∨ w = fINT4) then some 0
  else if a = fMXFP4 ∧ w = fMXFP4 then some 3
  else if arrayBlock a && arrayBlock w then some 2
  else none

/-- Depth of a depth tile (Table 3.1). -/
def tileDepth (mode : Nat) : Nat := if mode = 1 ∨ mode = 3 then 256 else 128

/-- Lines per drained row (R127): 6 for RAW32C, 3 for INT32. -/
def drainLines (mode : Nat) : Nat := if 2 ≤ mode then 6 else 3

/-- Counts of Table 3.5 without MAC. -/
structure MmaCnt where
  sat : Nat := 0
  zeroed : Nat := 0
  inexact : Nat := 0
deriving DecidableEq, Repr

/-- Sum of two sets of counts. -/
def MmaCnt.add (a b : MmaCnt) : MmaCnt :=
  { sat := a.sat + b.sat, zeroed := a.zeroed + b.zeroed, inexact := a.inexact + b.inexact }

/-- wrap of R51 and R52 to `n` bits. -/
def wrapInt (n : Nat) (x : Int) : Int := (x + 2 ^ (n - 1)) % 2 ^ n - 2 ^ (n - 1)

/-- A value brought into the `n`-bit range: saturated, or wrapped where `wrap` (SATMODE 1). -/
def fitInt (wrap : Bool) (n : Nat) (x : Int) : Int :=
  if wrap then wrapInt n x else clampInt (-(2 ^ (n - 1))) (2 ^ (n - 1) - 1) x

/-- A value modulo 7, 0 to 6. -/
def mod7 (x : Int) : Nat := (x % 7).toNat

/-- 2^k modulo 7, for an exponent of either sign. -/
def pow2mod7 (k : Int) : Nat := 2 ^ (k % 3).toNat

/-- The accumulator of an element (R52): MAIN × 2^16 + COMP. -/
def Elem.acc (e : Elem) : Int := e.main.toInt * 65536 + (e.comp.toNat : Int)

/-- An element with an accumulator value and a shadow. -/
def accElem (t : Int) (shadow : Nat) : Elem :=
  { main := BitVec.ofInt 32 (t / 65536), comp := BitVec.ofInt 16 (t % 65536), shadow := shadow }

/-- One depth tile of an integer-mode element (R51, R57): `s` is the exact sum of its products. -/
def intAccum (wrap : Bool) (e : Elem) (s : Int) : Elem × MmaCnt :=
  let t := e.main.toInt + s
  if inRange 32 t then ({ e with main := BitVec.ofInt 32 t, shadow := (e.shadow + mod7 s) % 7 }, {})
  else
    let u := fitInt wrap 32 t
    ({ e with main := BitVec.ofInt 32 u, shadow := mod7 u }, { sat := 1 })

/-- One block of a depth tile (R52, R57): `p` the exact partial, `d` the shift. Its contribution, counts and shadow. -/
def blockTerm (wrap : Bool) (p d : Int) : Int × MmaCnt × Nat :=
  if p = 0 then (0, {}, 0)
  else if 47 < d then (0, { zeroed := 1 }, 0)
  else
    let dropped := decide (16 < d) && decide (p % 2 ^ (d - 16).toNat ≠ 0)
    let x := shiftFloor p (16 - d)
    let y := if inRange 48 x then x else fitInt wrap 48 x
    (y, { sat := if inRange 48 x then 0 else 1, inexact := b2n dropped },
      if inRange 48 x && decide (d ≤ 16) then mod7 p * pow2mod7 (16 - d) % 7 else mod7 y)

/-- One depth tile of a block-mode element (R52, R57): partials and shifts of its blocks. -/
def blockAccum (wrap : Bool) (e : Elem) (ps : List (Int × Int)) : Elem × MmaCnt :=
  let ts := ps.map (fun q => blockTerm wrap q.1 q.2)
  let s := ts.foldl (fun a q => a + q.1) 0
  let c := ts.foldl (fun a q => a.add q.2.1) ({} : MmaCnt)
  let sh := ts.foldl (fun a q => (a + q.2.2) % 7) e.shadow
  let t := e.acc + s
  if inRange 48 t then (accElem t sh, c)
  else
    let u := fitInt wrap 48 t
    (accElem u (mod7 u), c.add { sat := 1 })

/-- Exact sum of products over elements `k0 … k1 − 1` of row `r` of the activation and column `c` of the weight (R42). -/
def State.dot (s : State) (oa ow : Opnd) (r c k0 k1 : Nat) : Int :=
  (List.range (k1 - k0)).foldl (fun acc i => acc + s.arrInt oa r (k0 + i) * s.arrInt ow c (k0 + i)) 0

/-- One depth tile of element (r, c): elements `k0 … k1 − 1`, cut at the step's end `ke` (R44, R51, R52). -/
def State.tileElem (s : State) (mode : Nat) (wrap : Bool) (texp : Int) (oa ow : Opnd) (r c k0 k1 : Nat) (e : Elem) :
    Elem × MmaCnt :=
  if mode < 2 then intAccum wrap e (s.dot oa ow r c k0 k1)
  else
    blockAccum wrap e ((List.range ((k1 - k0 + 31) / 32)).map (fun b =>
      let lo := k0 + 32 * b
      let hi := min k1 (lo + 32)
      (s.dot oa ow r c lo hi, texp - (s.effExp true oa (oa.block r lo) + s.effExp true ow (ow.block c lo)))))

/-- Every depth tile of element (r, c) of a step with first element `k0` and depth `k` (R44). -/
def State.stepElem (s : State) (mode : Nat) (wrap : Bool) (texp : Int) (oa ow : Opnd) (k0 k r c : Nat) (e : Elem) :
    Elem × MmaCnt :=
  let kt := tileDepth mode
  (List.range ((k + kt - 1) / kt)).foldl (fun acc t =>
    let x := s.tileElem mode wrap texp oa ow r c (k0 + t * kt) (k0 + min k ((t + 1) * kt)) acc.1
    (x.1, acc.2.add x.2)) (e, {})

/-- An element of a tile; an unlisted one is clear. -/
def Tile.get (t : Tile) (r c : Nat) : Elem := smGet {} t.elems (r * 96 + c)

/-- A tile with an element replaced. -/
def Tile.put (t : Tile) (r c : Nat) (e : Elem) : Tile := { t with elems := smPut {} t.elems (r * 96 + c) e }

/-- A tile after a step: rows 0 to `m` − 1 against the array's columns, whose first is weight column `c0` (R42, R49). -/
def State.fillTile (s : State) (mode : Nat) (wrap : Bool) (oa ow : Opnd) (k0 k row0 c0 m : Nat) (t : Tile) :
    Tile × MmaCnt :=
  (List.range m).foldl (fun acc r => (List.range 96).foldl (fun acc c =>
    let x := s.stepElem mode wrap acc.1.texp oa ow k0 k (row0 + r) (c0 + c) (acc.1.get r c)
    (acc.1.put r c x.1, acc.2.add x.2)) acc) (t, {})

/-- The drained value of an element disagrees with its shadow (R57). -/
def Elem.residueBad (mode : Nat) (e : Elem) : Bool :=
  if 2 ≤ mode then decide (mod7 e.acc ≠ e.shadow) else decide (mod7 e.main.toInt ≠ e.shadow)

/-- The elements of rows 0 to `m` − 1 that disagree with their shadows, as row × 96 + column, in drain order (R49, R57). -/
def Tile.mismatches (t : Tile) (mode m : Nat) : List Nat :=
  (t.elems.filter (fun x => x.1 < m * 96 && x.2.residueBad mode)).map Prod.fst

/-- A drained line: line `j` of row `r` (R27, R49, Table 2.3). -/
def Tile.drainLine (t : Tile) (mode r j : Nat) : List Byte :=
  if 2 ≤ mode then
    let es := (List.range 16).map (fun i => t.get r (16 * j + i))
    padTo 128 (es.flatMap (fun e => leBytes 4 e.main.toNat) ++ es.flatMap (fun e => leBytes 2 e.comp.toNat) ++
      leBytes 1 (unsignedOf 8 t.texp))
  else (List.range 32).flatMap (fun i => leBytes 4 (t.get r (32 * j + i)).main.toNat)

/-- Format of a drained line (R49). -/
def drainFmt (mode : Nat) : Nat := if 2 ≤ mode then fRAW32C else fINT32

/-- Read array `a` of a cluster. -/
def Cluster.array (c : Cluster) (a : Nat) : Arr := smGet {} c.arr a

/-- A cluster with array `a` replaced. -/
def Cluster.setArray (c : Cluster) (a : Nat) (x : Arr) : Cluster := { c with arr := smPut {} c.arr a x }

/-- The tile an array filled last (R48). -/
def Arr.lastTile (x : Arr) : Tile := if x.last = some true then x.t1 else x.t0

/-- Put the tile filled last, and say which one it is. -/
def Arr.putTile (x : Arr) (which : Bool) (t : Tile) : Arr :=
  if which then { x with t1 := t, last := some true } else { x with t0 := t, last := some false }

/-- The tile a step with ACCUM = 0 takes: the one not filled last (R48); the first use takes T0. -/
def Arr.nextTile (x : Arr) : Bool := x.last = some false

/-- Weights of the last depth tile that register `p` (0 or 1) of the cells received: tile t loads register t mod 2 (R45). -/
def State.weightReg (s : State) (mode : Nat) (ow : Opnd) (k0 k c0 p : Nat) : Option (List (Nat × Int)) :=
  let kt := tileDepth mode
  let n := (k + kt - 1) / kt
  if n ≤ p then none
  else
    let t := if n % 2 = p % 2 then n - 2 else n - 1
    some (((List.range kt).flatMap (fun i => (List.range 96).map (fun c =>
      (i * 96 + c, if t * kt + i < k then s.arrInt ow (c0 + c) (k0 + t * kt + i) else 0)))).filter (fun x => x.2 ≠ 0))

/-- The exponent history of a ring line (R54, Table 3.4): valid entries as sequence number and exponent. -/
def ringEntries (bs : List Byte) : List (Nat × Int) :=
  (List.range 16).filterMap (fun i =>
    if nbit (leAt bs (8 * i + 1) 1) 0 then some (leAt bs (8 * i + 2) 6, signedOf 8 (leAt bs (8 * i) 1)) else none)

/-- Insert in falling order of sequence number. -/
def insSeq (x : Nat × Int) : List (Nat × Int) → List (Nat × Int)
  | [] => [x]
  | y :: r => if y.1 < x.1 then x :: y :: r else y :: insSeq x r

/-- The tile exponent from a ring (R55): the newest `win` entries' maximum plus the margin less 31, limited; the step's own
TEXP where no entry is valid. -/
def ringTexp (win : Nat) (margin : Nat) (texp : Int) (entries : List (Nat × Int)) : Int :=
  match (entries.foldr insSeq []).take win with
  | [] => texp
  | e :: r => clampInt (-128) 127 (r.foldl (fun m x => max m x.2) e.2 + margin - 31)

end Sys2Proof.Machine
end

