-- ==== Sys2Proof/Machine/Steps.lean ====
section
/-! DEFINITION. The fields of every step kind (Tables 7.4–7.14), the operands they name, and the refusals at issue (R119,
R144, R420, Table 7.15). -/

namespace Sys2Proof.Machine

/-! ### Kinds (Table 7.2) -/

def kNOP : Nat := 0
def kWAIT : Nat := 1
def kSIG : Nat := 2
def kSWAP : Nat := 3
def kFENCE : Nat := 4
def kTRAP : Nat := 5
def kMMA : Nat := 0x10
def kCONV : Nat := 0x11
def kELEM : Nat := 0x12
def kSTAT : Nat := 0x13
def kOPT : Nat := 0x14
def kRACK : Nat := 0x20
def kDECANT : Nat := 0x21
def kGATHER : Nat := 0x22
def kSCATTER : Nat := 0x23
def kDISPATCH : Nat := 0x24
def kCOMBINE : Nat := 0x25
def kMCAST : Nat := 0x26
def kREPLICA : Nat := 0x27
def kRED : Nat := 0x30
def kLAYOUT : Nat := 0x31
def kSNAP : Nat := 0x32

/-- A KIND of Table 7.2 that is not reserved. -/
def kindDefined (k : Nat) : Bool :=
  decide (k ≤ 5) || (decide (0x10 ≤ k) && decide (k ≤ 0x14)) || (decide (0x20 ≤ k) && decide (k ≤ 0x27)) ||
    (decide (0x30 ≤ k) && decide (k ≤ 0x32))

/-- A kind whose clusters the sequencer releases (R106). -/
def isCompute (k : Nat) : Bool := decide (0x10 ≤ k) && decide (k ≤ 0x14)

/-- A kind that runs on a racking engine (Table 7.3); SNAP runs on engine 7. -/
def isEngine (k : Nat) : Bool := (decide (0x20 ≤ k) && decide (k ≤ 0x27)) || k = kSNAP

/-- Engine of a step (Tables 7.8, 7.10, R142). -/
def stEng (ws : List Word) : Nat := if stKind ws = kSNAP then 7 else sw ws 2 32 3

/-! ### Operands -/

/-- Activation of an MMA (Table 7.4). -/
def mmaA (ws : List Word) : Opnd :=
  { code := 0, fmt := sw ws 2 32 8, base := cloLine (sw ws 3 0 25), sbase := cloLine (sw ws 3 25 25), rstr := sw ws 6 32 16 }

/-- Weight of an MMA (Table 7.4), columns as rows. -/
def mmaW (ws : List Word) : Opnd :=
  { code := 1, fmt := sw ws 2 40 8, base := cloLine (sw ws 4 0 25), sbase := cloLine (sw ws 4 25 25), rstr := sw ws 6 48 16 }

def mmaM (ws : List Word) : Nat := sw ws 3 50 9
def mmaWin (ws : List Word) : Nat := sw ws 3 59 5
def mmaCcols (ws : List Word) : Nat := sw ws 4 50 6
def mmaK (ws : List Word) : Nat := sw ws 6 0 18
def mmaK0 (ws : List Word) : Nat := 128 * sw ws 6 18 11
def mmaAccum (ws : List Word) : Bool := sb ws 2 61
def mmaDrain (ws : List Word) : Bool := sb ws 2 62

/-- Source of a CONV, ELEM or STAT (Table 7.6). -/
def cvSrc (ws : List Word) : Opnd :=
  { code := 2, fmt := sw ws 2 32 8, base := cloLine (sw ws 3 0 25), sbase := cloLine (sw ws 3 25 25), rstr := sw ws 6 48 16,
    exp := si ws 2 48 8 }

/-- Output of a CONV or ELEM (Table 7.6). -/
def cvDst (ws : List Word) : Opnd :=
  { fmt := sw ws 2 40 8, base := cloLine (sw ws 4 0 25), sbase := cloLine (sw ws 4 25 25), rstr := sw ws 7 48 16 }

def cvRowLen (ws : List Word) : Nat := sw ws 5 25 17
def cvRows (ws : List Word) : Nat := sw ws 5 42 17
def cvTranspose (ws : List Word) : Bool := stKind ws = kCONV && sb ws 4 56
def cvSplit (ws : List Word) : Bool := sb ws 4 57
/-- ROT of a CONV, ROWOP of an ELEM (Table 7.6). -/
def cvOp (ws : List Word) : Nat := sw ws 3 58 2
/-- FN of an ELEM (Table 7.6). -/
def elFn (ws : List Word) : Nat := sw ws 4 50 4
/-- BIAS of a CONV, REDOP of an ELEM (Table 7.6). -/
def cvRed (ws : List Word) : Nat := sw ws 4 54 2
/-- COLMUL of an ELEM (Table 7.6). -/
def elColmul (ws : List Word) : Bool := sb ws 4 56

/-- The vector list is read (Table 7.6). -/
def cvUsesList (ws : List Word) : Bool :=
  if stKind ws = kCONV then cvRed ws ≠ 0 else cvOp ws ≠ 0 || elColmul ws || cvRed ws ≠ 0 || elFn ws = 9

def optUnits (ws : List Word) : Nat := sw ws 7 48 16

/-- Operands of an OPT (Table 7.7): W, first moment, second moment, gradient; each is one long row. -/
def optOp (ws : List Word) (k : Nat) : Opnd :=
  let f := if k = 1 ∨ k = 2 then fBS8 else fBS16
  { code := 4 + k, fmt := f, base := cloLine (sw ws (3 + k) 0 25), sbase := cloLine (sw ws (3 + k) 25 25),
    rstr := linesOf f (256 * optUnits ws) }

/-- Quotient rounded up. -/
def ceilDiv (a b : Nat) : Nat := (a + b - 1) / b

/-- The part of rank `j` of `m` clusters of a CONV, ELEM or STAT (R129, R132), in source coordinates: rows r0 to r1, columns
c0 to c1. -/
def cvPart (ws : List Word) (m j : Nat) : Nat × Nat × Nat × Nat :=
  let rows := cvRows ws
  let len := cvRowLen ws
  if stKind ws ≠ kSTAT && cvSplit ws then
    let q := roundUp (ceilDiv len m) 512
    (0, rows, min len (j * q), min len (j * q + q))
  else
    let p := if cvTranspose ws then roundUp (ceilDiv rows m) (granule (cvDst ws).fmt) else ceilDiv rows m
    (min rows (j * p), min rows (j * p + p), 0, len)

/-- The units of rank `j` of `m` clusters of an OPT (R133). -/
def optPart (ws : List Word) (m j : Nat) : Nat × Nat :=
  let q := ceilDiv (optUnits ws) m
  (min (optUnits ws) (j * q), min (optUnits ws) (j * q + q))

/-- Column groups that the clusters of an MMA take (R127). -/
def mmaGroups (ws : List Word) : Nat := min (stClusters ws).length (mmaCcols ws)

/-- Highest activation row of an MMA (R127). -/
def mmaTopRow (ws : List Word) : Nat := ((stClusters ws).length - 1) / max 1 (mmaCcols ws) * mmaM ws + mmaM ws - 1

/-! ### Global addresses (R120, Table 7.9) -/

/-- Module identifier of a global address. -/
def gaMod (a : Nat) : Nat := nbits a 48 12
/-- Local address in a global address. -/
def gaLocal (a : Nat) : Nat := nbits a 0 48

/-- Where a global address points: 0 HBM or Cellar of this module, 1 its host window, 2 HBM or Cellar space of another module,
3 nowhere a racking kind may go on this module, 4 the same on another module. -/
def State.gaSide (s : State) (d a : Nat) : Nat :=
  let l := gaLocal a
  if gaMod a = s.ownId d then
    if s.isMem l then 0 else if s.inWindow (s.portDie d) l then 1 else 3
  else if l < celBase + 2 ^ 32 then 2 else 4

/-- The address of the highest line of a racking field (R420). -/
def rackTop (ws : List Word) (a str : Nat) : Nat :=
  a + 128 * ((sw ws 5 32 16 - 1) * str + (sw ws 5 0 20 - 1))

/-! ### Refusals at issue -/

/-- Bits of step words 2 to 7 that a kind defines, bits [31:0] of word 2 set aside (Tables 7.4–7.14). -/
def kindBits (k : Nat) : List Nat :=
  if k = kWAIT then [0x000FFFFF, 0, 0, 0, 0, 0]
  else if k = kSIG ∨ k = kTRAP then [0xFFFFFFFF, 0, 0, 0, 0, 0]
  else if k = kSWAP then [0x3FFFF, 0, 0, 0, 0, 2 ^ 48 - 1]
  else if k = kFENCE then [1, 0, 0, 0, 0, 0]
  else if k = kMMA then [0x7FFFFFFF, 2 ^ 64 - 1, 2 ^ 56 - 1, 2 ^ 50 - 1, 2 ^ 64 - 1 - 7 * 2 ^ 29, 2 ^ 64 - 1]
  else if k = kCONV ∨ k = kELEM then
    [0xFFFFFFFF, 2 ^ 64 - 1, 2 ^ 58 - 1, 2 ^ 59 - 1, 2 ^ 64 - 1, 2 ^ 64 - 1]
  else if k = kSTAT then
    [0x00FF00FF, 2 ^ 50 - 1, 2 ^ 25 - 1, 2 ^ 59 - 2 ^ 25, 2 ^ 64 - 1, 2 ^ 48 - 1]
  else if k = kOPT then [2 ^ 25 - 1, 2 ^ 54 - 1, 2 ^ 50 - 1, 2 ^ 50 - 1, 2 ^ 50 - 1, 2 ^ 64 - 1]
  else if k = kRACK ∨ k = kDECANT ∨ k = kMCAST ∨ k = kREPLICA then
    [0xF, 2 ^ 60 - 1, 2 ^ 60 - 1, 2 ^ 20 - 1 + (2 ^ 16 - 1) * 2 ^ 32, 2 ^ 64 - 1, 0]
  else if k = kGATHER ∨ k = kSCATTER then [0xF, 2 ^ 48 - 1, 2 ^ 25 - 1, 2 ^ 36 - 1, 0, 0]
  else if k = kDISPATCH ∨ k = kCOMBINE then [0x0FFFFF07, 2 ^ 50 - 1, 2 ^ 50 - 1, 2 ^ 45 - 1, 2 ^ 48 - 1, 0]
  else if k = kRED then [0xFF7F, 2 ^ 48 - 1, 2 ^ 48 - 1, 2 ^ 32 - 1, 0, 0]
  else if k = kSNAP then [0, 2 ^ 48 - 1, 2 ^ 41 - 1, 2 ^ 36 - 1, 0, 0]
  else [0, 0, 0, 0, 0, 0]

/-- A reserved bit of the step is set (R119). -/
def reservedSet (ws : List Word) : Bool :=
  sb ws 0 15 ||
    (List.zip (List.range 6) (kindBits (stKind ws))).any (fun x =>
      let v := (ws.getD (x.1 + 2) 0).toNat
      let w := if x.1 = 0 then v / 2 ^ 32 else v
      decide (Nat.lor w x.2 ≠ x.2))

/-- A counter reference in use that is refused (Table 7.15, 0x05). -/
def State.crefBad (s : State) (d cref : Nat) (wait : Bool) : Bool :=
  nbits cref 13 3 ≠ 0 || nbit cref 31 || nbits cref 11 2 = 3 || (wait && nbits cref 11 2 ≠ 0) ||
    ((nbits cref 11 2 = 1 || (nbits cref 11 2 = 2 && nbits cref 16 12 = s.ownId d)) && decide (s.nd ≤ nbits cref 8 3))

/-- A condition with its REASON. -/
def rsn (b : Bool) (r : Nat) : List Nat := if b then [r] else []

/-- A value in a range. -/
def between (lo hi x : Nat) : Bool := decide (lo ≤ x) && decide (x ≤ hi)

/-- Formats a CONV, ELEM or STAT reads (Table 7.6). -/
def cvInOk (f : Nat) : Bool := between 1 5 f || isBlock f
/-- Formats a CONV writes (Table 7.6). -/
def cvOutOk (f : Nat) : Bool := between 1 4 f || isBlock f

/-- A stride is too short for `n` elements, or is not whole triples of MXFP6 lines (R127, R129). -/
def strideBad (f rstr n : Nat) : Bool := (isFP6 f && rstr % 3 ≠ 0) || decide (elemsIn f rstr < n)

/-- The highest element line and scale line of an operand, to element `last` of row `r` (R420), are populated, as are the
lines its fields name. -/
def State.opndOk (s : State) (o : Opnd) (r last : Nat) : Bool :=
  s.isCel (128 * o.base) && s.isCel (128 * (o.base + r * o.rstr + ((last + 1) * elemBits o.fmt - 1) / 1024)) &&
    (!isBlock o.fmt || (s.isCel (128 * o.sbase) && s.isCel (128 * o.scaleLine (o.block r last))))

/-- Refusals of an MMA beside the common ones (R43, R127, Table 7.4). -/
def State.refuseMma (s : State) (ws : List Word) : List Nat :=
  let a := mmaA ws
  let w := mmaW ws
  let k0 := mmaK0 ws
  let k := mmaK ws
  rsn (!(between 1 256 (mmaM ws) && between 1 48 (mmaCcols ws) && between 1 131072 k && decide (a.rstr ≠ 0) &&
      decide (w.rstr ≠ 0) && (mmaAccum ws || decide (mmaWin ws ≤ 16)) &&
      (!mmaDrain ws || decide (sw ws 7 48 16 ≠ 0)))) 8 ++
  match laneMode a.fmt w.fmt with
  | none => [7]
  | some mode =>
    let top := mmaTopRow ws
    let cols := 384 * mmaGroups ws - 1
    let n := drainLines mode
    rsn ((decide (mode < 2) && decide (k0 ≠ 0) && !mmaAccum ws) || (mode % 2 = 1 && k0 / 128 % 2 = 1)) 8 ++
    rsn (strideBad a.fmt a.rstr (k0 + k) || strideBad w.fmt w.rstr (k0 + k)) 0xA ++
    rsn (!(s.opndOk a top (k0 + k - 1) && s.opndOk w cols (k0 + k - 1) &&
      (!mmaDrain ws || s.fieldOk (sw ws 5 0 25) ((4 * mmaGroups ws - 1) * n + top * sw ws 7 48 16 + n - 1)) &&
      (mmaAccum ws || mmaWin ws = 0 || s.cloOk (sw ws 5 25 25)))) 9

/-- Refusals of a CONV or ELEM beside the common ones (R70, R128–R131). -/
def State.refuseCv (s : State) (ws : List Word) : List Nat :=
  let conv := stKind ws = kCONV
  let i := cvSrc ws
  let o := cvDst ws
  let len := cvRowLen ws
  let rows := cvRows ws
  let writes := o.fmt ≠ 0
  let outLen := if cvTranspose ws then rows else len
  let outRows := if cvTranspose ws then len else rows
  rsn (!(cvInOk i.fmt && (cvOutOk o.fmt || (!conv && o.fmt = 0)))) 7 ++
  rsn (!(between 1 65536 len && decide (rows ≠ 0) && decide (sw ws 6 32 16 ≠ 0) && decide (i.rstr ≠ 0) &&
      (!writes || decide (o.rstr ≠ 0)) && (if conv then cvRed ws ≠ 3 else (cvOp ws ≠ 3 && decide (elFn ws ≤ 9))))) 8 ++
  rsn (strideBad i.fmt i.rstr len || (writes && strideBad o.fmt o.rstr (roundUp outLen (granule o.fmt)))) 0xA ++
  rsn (!(s.opndOk i (rows - 1) (len - 1) &&
      (!writes || s.opndOk o (outRows - 1) (roundUp outLen (granule o.fmt) - 1)) &&
      (!cvUsesList ws || s.cloOk (sw ws 5 0 25)))) 9 ++
  rsn (conv && cvOp ws ≠ 0 && (len % rotSize (cvOp ws) ≠ 0 || i.fmt = fINT32)) 0xB ++
  rsn ((conv && cvTranspose ws && cvSplit ws) || (!conv && o.fmt = 0 && cvRed ws = 0) ||
      (!conv && (cvOp ws ≠ 0 || cvRed ws ≠ 0) && cvSplit ws)) 0xC

/-- Refusals of a STAT beside the common ones (R132). -/
def State.refuseStat (s : State) (ws : List Word) : List Nat :=
  let i := cvSrc ws
  rsn (!cvInOk i.fmt) 7 ++
  rsn (!(between 1 65536 (cvRowLen ws) && decide (cvRows ws ≠ 0) && decide (i.rstr ≠ 0))) 8 ++
  rsn (strideBad i.fmt i.rstr (cvRowLen ws)) 0xA ++
  rsn (!(s.opndOk i (cvRows ws - 1) (cvRowLen ws - 1) && s.cloOk (sw ws 4 0 25))) 9

/-- Refusals of an OPT beside the common ones (R133). -/
def State.refuseOpt (s : State) (ws : List Word) : List Nat :=
  rsn (optUnits ws = 0) 8 ++
  rsn (!((List.range 4).all (fun k => s.opndOk (optOp ws k) 0 (256 * optUnits ws - 1)) && s.cloOk (sw ws 2 32 25))) 9

/-- Refusals of a RACK, DECANT, MCAST or REPLICA beside the common ones (R120, R135, R420, Table 7.9). -/
def State.refuseMove (s : State) (d : Nat) (ws : List Word) : List Nat :=
  let k := stKind ws
  let a := sw ws 3 0 64
  let b := if k = kMCAST then gaLocal (sw ws 4 0 64) + s.ownId d * 2 ^ 48 else sw ws 4 0 64
  let x := s.gaSide d a
  let y := s.gaSide d b
  let top (g side str : Nat) : Bool :=
    (side = 0 && !s.isMem (rackTop ws (gaLocal g) str)) || (side = 1 && !s.inWindow (s.portDie d) (rackTop ws (gaLocal g) str))
  let remote (t : Nat) : Bool := t = 2 || t = 4
  rsn (!(between 1 1048575 (sw ws 5 0 20) && between 1 65535 (sw ws 5 32 16))) 8 ++
  rsn (a % 128 ≠ 0 || b % 128 ≠ 0 || top a x (sw ws 6 0 32) || top b y (sw ws 6 32 32)) 9 ++
  (if k = kRACK then rsn (remote x && remote y) 0x11 ++ rsn (!(x % 2 = 0 && x ≠ 4 && y % 2 = 0 && y ≠ 4)) 9
   else if k = kDECANT then
     rsn (remote x || remote y) 0x11 ++ rsn (!((x = 0 && y = 1) || (x = 1 && y = 0)) && !(remote x || remote y)) 9
   else if k = kMCAST then rsn (remote x) 0x11 ++ rsn ((!remote x && x ≠ 0) || y ≠ 0) 9
   else rsn (gaMod a = s.ownId d || remote y) 0x11 ++
     rsn ((gaMod a ≠ s.ownId d && (gaLocal a ≠ gaLocal b || x = 4)) || (!remote y && y ≠ 0)) 9) ++
  rsn (stVchk ws && k ≠ kREPLICA && x ≠ 0) 0x10

/-- Refusals of a GATHER or SCATTER beside the common ones (R137). -/
def State.refuseList (s : State) (ws : List Word) : List Nat :=
  let base := sw ws 3 0 48
  let n := sw ws 5 0 20
  let run := sw ws 5 20 16
  rsn (n = 0 || run = 0) 8 ++
  rsn (base % 128 ≠ 0 || !s.isMem base || !s.isMem (base + 128 * (n * run - 1)) ||
    !s.fieldOk (sw ws 4 0 25) ((8 * n - 1) / 128)) 9

/-- Blocks per token row of a DISPATCH or COMBINE, 0 for plain formats (R139). -/
def tokBpr (ws : List Word) : Nat :=
  let f := sw ws 2 40 8
  if isBlock f then elemsIn f (sw ws 2 48 8) / blockLen f else 0

/-- Refusals of a DISPATCH or COMBINE beside the common ones (R138, R139). -/
def State.refuseTok (s : State) (ws : List Word) : List Nat :=
  let f := sw ws 2 40 8
  let rl := sw ws 2 48 8
  let n := sw ws 5 25 20
  let topk := sw ws 2 56 4
  let row := if stKind ws = kDISPATCH then (n - 1) / max 1 topk else n - 1
  rsn (!(between 2 3 f || isBlock f)) 7 ++
  rsn (rl = 0 || !between 1 8 topk || n = 0 || sw ws 6 0 16 = 0 || sw ws 6 16 16 = 0) 8 ++
  rsn ((isFP6 f && rl % 3 ≠ 0) || (isBlock f && elemsIn f rl % blockLen f ≠ 0)) 0xA ++
  rsn (!(s.fieldOk (sw ws 3 0 25) ((row + 1) * rl - 1) &&
      (!isBlock f || s.fieldOk (sw ws 3 25 25) (((row + 1) * tokBpr ws - 1) / 128)) &&
      s.fieldOk (sw ws 4 0 25) ((2 * n - 1) / 128) && s.fieldOk (sw ws 4 25 25) ((2 * n - 1) / 128) &&
      s.fieldOk (sw ws 5 0 25) ((64 * sw ws 6 0 16 - 1) / 128))) 9

/-- Refusals of a RED beside the common ones (Table 7.12). -/
def State.refuseRed (s : State) (ws : List Word) : List Nat :=
  let size := sw ws 2 36 3
  let bytes := bucketBytes size
  let bad (a : Nat) : Bool := a % bytes ≠ 0 || !s.isMem a || !s.isMem (a + bytes - 128)
  rsn (size = 7) 8 ++ rsn (bad (sw ws 3 0 48) || bad (sw ws 4 0 48)) 9

/-- Lines of a SNAP part from its DST: die parts of 128 lines, and the extension of die 0 (R274). -/
def snapTop (d : Nat) (ws : List Word) : Nat :=
  let nh := sw ws 4 25 16
  let ext := ceilDiv nh 16 + nh + sw ws 5 25 11
  if d = 0 ∧ ext ≠ 0 then 1024 + ext - 1 else 128 * d + 112

/-- Refusals of a SNAP beside the common ones (R142, R274). -/
def State.refuseSnap (s : State) (d : Nat) (ws : List Word) : List Nat :=
  let dst := sw ws 3 0 48
  let nh := sw ws 4 25 16
  let nc := sw ws 5 25 11
  rsn (dst % 128 ≠ 0 || !s.inWindow (s.portDie d) dst || !s.inWindow (s.portDie d) (dst + 128 * snapTop d ws) ||
    (d = 0 && ((nh ≠ 0 && !s.fieldOk (sw ws 4 0 25) ((8 * nh - 1) / 128)) ||
      (nc ≠ 0 && !s.fieldOk (sw ws 5 0 25) (nc - 1))))) 9

/-- A kind without a versioned operand, or REPLICA (Table 7.3, R136). -/
def noVersion (k : Nat) : Bool :=
  !(isCompute k || k = kRACK || k = kDECANT || k = kMCAST || k = kSCATTER)

/-- PARTITION of a context on a die (Table 6.15). -/
def State.partition (s : State) (d c : Nat) : Nat := s.fld d .seq 0 (0x108 + 0x40 * c) 0 48

/-- The clusters of a context's partition on a die that are not marked absent (R114, R392). -/
def State.present (s : State) (d c : Nat) : Nat :=
  (onesOf (s.partition d c) 48).foldl (fun n l => if s.modc.absent.contains (d * 64 + l) then n else n + 2 ^ l) 0

/-- The refusal conditions a step at the head of a queue meets (R119, Table 7.15); `ret` says that the queue's return
register is full. -/
def State.refusals (s : State) (d c : Nat) (ret : Bool) (ws : List Word) : List Nat :=
  let k := stKind ws
  if !kindDefined k then [1]
  else
    let part := s.present d c
    rsn (reservedSet ws) 2 ++
    rsn (isCompute k && decide (16 < stStagger ws)) 3 ++
    rsn (decide (4 < stWaitCause ws)) 4 ++
    rsn ((stWaitEn ws && s.crefBad d (stWaitCref ws) true) || (stSigEn ws && s.crefBad d (stSigCref ws) false)) 5 ++
    rsn ((isCompute k && (stMask ws = 0 || decide (Nat.lor (stMask ws) part ≠ part))) ||
      (k = kSWAP && Nat.land (sw ws 2 32 18) 0x8018 ≠ 0 && decide (Nat.lor (stMask ws) part ≠ part))) 6 ++
    rsn (stRet ws && !ret) 0xF ++
    rsn (stVchk ws && noVersion k) 0x10 ++
    rsn (k = kSWAP && Nat.land (sw ws 2 32 18) 0x6000 ≠ 0) 0x12 ++
    (if k = kMMA then s.refuseMma ws
     else if k = kCONV ∨ k = kELEM then s.refuseCv ws
     else if k = kSTAT then s.refuseStat ws
     else if k = kOPT then s.refuseOpt ws
     else if k = kRACK ∨ k = kDECANT ∨ k = kMCAST ∨ k = kREPLICA then s.refuseMove d ws
     else if k = kGATHER ∨ k = kSCATTER then s.refuseList ws
     else if k = kDISPATCH ∨ k = kCOMBINE then s.refuseTok ws
     else if k = kRED then s.refuseRed ws
     else if k = kSNAP then s.refuseSnap d ws
     else [])

/-- The lowest of a list of REASONs. -/
def lowest : List Nat → Option Nat
  | [] => none
  | x :: r => some (r.foldl min x)

/-! ### Versioned operands and units (Table 7.3) -/

/-- First and last line that a step reads from its versioned operand (R121). -/
def versionLines (ws : List Word) : Nat × Nat :=
  let k := stKind ws
  if k = kMMA then
    let w := mmaW ws
    (w.lineAt 0 (mmaK0 ws), w.base + (384 * mmaGroups ws - 1) * w.rstr + ((mmaK0 ws + mmaK ws) * elemBits w.fmt - 1) / 1024)
  else if k = kOPT then
    let w := optOp ws 0
    (w.base, w.base + 4 * optUnits ws - 1)
  else if k = kSCATTER then
    let b := sw ws 3 0 48 / 128
    (b, b + sw ws 5 0 20 * sw ws 5 20 16 - 1)
  else if isCompute k then
    let i := cvSrc ws
    (i.base, i.base + (cvRows ws - 1) * i.rstr + (cvRowLen ws * elemBits i.fmt - 1) / 1024)
  else
    let a := gaLocal (sw ws 3 0 64)
    (a / 128, rackTop ws a (sw ws 6 0 32) / 128)

/-- The units of a step that signal (Table 7.3): four arrays a cluster for MMA, the clusters for CONV, ELEM and OPT, one for
every other kind. -/
def stUnits (ws : List Word) : List Nat :=
  let k := stKind ws
  if k = kMMA then (stClusters ws).flatMap (fun l => [4 * l, 4 * l + 1, 4 * l + 2, 4 * l + 3])
  else if k = kCONV ∨ k = kELEM ∨ k = kOPT then stClusters ws
  else [0]

end Sys2Proof.Machine
end

