-- ==== Sys2Proof/Machine/SeqOps.lean ====
section
/-! DEFINITION. The sequencer as every step uses it: heads, wait conditions, slots, residency, arbitration, version checks,
links, the end of units, step records, and detections of compute units (R93–R123, R158). -/

namespace Sys2Proof.Machine

/-! ### Queues and heads -/

/-- A queue of a context: deferred where `q`. -/
def Ctx.queue (x : Ctx) (q : Bool) : Queue := if q then x.defer else x.main

/-- A context with a queue replaced. -/
def Ctx.setQueue (x : Ctx) (q : Bool) (y : Queue) : Ctx := if q then { x with defer := y } else { x with main := y }

/-- Change a queue of a context on a die. -/
def State.updQueue (s : State) (d c : Nat) (q : Bool) (g : Queue → Queue) : State :=
  s.updCtx d c (fun x => x.setQueue q (g (x.queue q)))

/-- The step at the head of a queue, where it has been fetched: its index and words (R94, R98). -/
def Queue.headStep (y : Queue) : Option (Nat × List Word) :=
  if y.atEnd then none else y.win.find? (fun e => e.1 = y.head)

/-- The head step of a queue of a context on a die. -/
def State.head (s : State) (d c : Nat) (q : Bool) : Option (Nat × List Word) := ((s.ctx d c).queue q).headStep

/-- Steps of a context in flight on a die. -/
def State.inFlight (s : State) (d c : Nat) : List Flight := s.flights.filter (fun f => f.d = d && f.c = c)

/-! ### Conditions of issue (R96) -/

/-- The wait condition of a step is met (R102). -/
def State.waitMet (s : State) (d c : Nat) (ws : List Word) : Bool :=
  !stWaitEn ws ||
    decide ((bits (s.rg d .seq 0 (cntOff c (nbits (stWaitCref ws) 0 8))) 0 32 + 2 ^ 32 - stWaitVal ws) % 2 ^ 32 < 2 ^ 31)

/-- A step in flight holds or uses the arrays of a cluster. -/
def Flight.onArrays (f : Flight) (l : Nat) : Bool := stKind f.ws = kMMA && f.units.any (fun u => u / 4 = l)

/-- A step in flight holds or uses the conversion unit of a cluster. -/
def Flight.onCvu (f : Flight) (l : Nat) : Bool :=
  isCompute (stKind f.ws) && stKind f.ws ≠ kMMA && nbit (stMask f.ws) l && (stKind f.ws = kSTAT || f.units.contains l)

/-- An engine step that has not sent its last request (R124). -/
def State.unsent (s : State) (f : Flight) : Bool :=
  !f.todo.isEmpty || (s.router f.d).waitq.any (fun e => match e.2 with | .eng id _ _ => id = f.id | _ => false)

/-- The issue slot of every unit a step names is empty (R96, R124, R140): a slot is full while a second step waits behind
the one that runs. -/
def State.slotFree (s : State) (d c : Nat) (ws : List Word) : Bool :=
  let k := stKind ws
  let mine := s.flights.filter (fun f => f.d = d)
  if k = kMMA then (stClusters ws).all (fun l => decide ((mine.filter (fun f => f.onArrays l)).length ≤ 1))
  else if isCompute k then (stClusters ws).all (fun l => decide ((mine.filter (fun f => f.onCvu l)).length ≤ 1))
  else if isEngine k then
    decide ((mine.filter (fun f => isEngine (stKind f.ws) && stEng f.ws = stEng ws && s.unsent f)).length ≤ 1)
  else if k = kRED then decide ((s.chan d c (sw ws 2 32 4)).accepted.length < 4)
  else true

/-- Clusters on which a step's context must be resident: its mask, or the clusters of a SWAP that names a cluster block. -/
def useMask (ws : List Word) : Nat :=
  if isCompute (stKind ws) then stMask ws
  else if stKind ws = kSWAP ∧ Nat.land (sw ws 2 32 18) 0x8018 ≠ 0 then stMask ws
  else 0

/-- An array of the cluster holds an open tile (R50). -/
def Cluster.hasOpen (x : Cluster) : Bool := x.arr.any (fun a => a.2.isOpen)

/-- The step a context would issue next on a die: the main head once its wait is met, else the deferred head where the
policy lets it issue (R99). -/
def State.nextHead (s : State) (d c : Nat) : Option (List Word) :=
  let x := s.ctx d c
  if x.st ≠ .running then none
  else match s.head d c false, s.head d c true with
    | some m, e =>
      if s.waitMet d c m.2 then some m.2
      else if bitOf (s.rg d .seq 0 (0x100 + 0x40 * c)) 2 then none
      else match e with
        | some y => if s.waitMet d c y.2 then some y.2 else none
        | none => none
    | none, some y => if x.main.atEnd && s.waitMet d c y.2 then some y.2 else none
    | none, none => none

/-- A context wants a cluster: its next step names it and another context, or none, is resident there (R114). -/
def State.wants (s : State) (d c l : Nat) : Bool :=
  match s.nextHead d c with
  | none => false
  | some ws => nbit (useMask ws) l && decide ((s.cl d l).resident ≠ some c)

/-- A context is READY on a die (Table 6.1). -/
def State.isReady (s : State) (d c : Nat) : Bool := (List.range 48).any (fun l => s.wants d c l)

/-- STATE of SEQ_CTX_STATE (Table 6.1). -/
def State.ctxCode (s : State) (d c : Nat) : Nat :=
  match (s.ctx d c).st with
  | .idle => 0
  | .running => if s.isReady d c then 1 else 2
  | .stopped => 3
  | .trapped => 4

/-- A context may issue to a cluster: it is resident there, and its quantum has not expired in favour of another that wants
the cluster; an open tile may still be closed (R50, R114). -/
def State.mayUse (s : State) (d c l : Nat) : Bool :=
  let x := s.cl d l
  x.resident = some c &&
    (!x.expired || x.hasOpen || !(List.range 8).any (fun e => e ≠ c && s.wants d e l))

/-- What holds the steps that name a cluster (R116, R314, R334, R336, R363, R390): none, 5 POWER or 6 THERMAL. -/
def State.clHold (s : State) (d l : Nat) : Option Nat :=
  match s.serving d l with
  | none => some 5
  | some p =>
    if bitOf (s.rg d .thm 0 (0x10400 + 8 * p)) 5 then some 6
    else if s.fld d .pwr 0 (0x10100 + 8 * p) 10 2 ≠ 0 || (s.ph d p).target.isSome || (s.cl d l).held then some 5
    else none

/-- A FENCE with BOTH or a SNAP at a head holds both queues until the steps issued before it have completed (R142, R143). -/
def State.holdsBoth (s : State) (d c : Nat) (ws : List Word) : Bool :=
  ((stKind ws = kFENCE && sb ws 2 32) || stKind ws = kSNAP) && s.waitMet d c ws && !(s.inFlight d c).isEmpty

/-- A head is held by a FENCE, SNAP or LAYOUT rule (R141–R143). -/
def State.fenced (s : State) (d c : Nat) (q : Bool) (ws : List Word) : Bool :=
  let k := stKind ws
  (k = kFENCE && (s.inFlight d c).any (fun f => sb ws 2 32 || f.defer = q)) ||
    (k = kSNAP && !(s.inFlight d c).isEmpty) ||
    (match s.head d c (!q) with | some y => s.holdsBoth d c y.2 | none => false)

/-- A LAYOUT waits for buckets accepted under the present generation (R141). -/
def State.layoutHeld (s : State) (d c : Nat) (ws : List Word) : Bool :=
  stKind ws = kLAYOUT && (List.range 16).any (fun h => !(s.chan d c h).accepted.isEmpty)

/-- Slots, residency and cluster holds let a step issue (R96). -/
def State.unitsFree (s : State) (d c : Nat) (ws : List Word) : Bool :=
  s.slotFree d c ws && (onesOf (useMask ws) 48).all (fun l => s.mayUse d c l && (s.clHold d l).isNone)

/-- A head is held by its wait condition; a LAYOUT that waits for its buckets counts as such (R99, R141). -/
def State.waitHeld (s : State) (d c : Nat) (ws : List Word) : Bool := !s.waitMet d c ws || s.layoutHeld d c ws

/-- The policy lets a queue issue now (R99). -/
def State.policyOk (s : State) (d c : Nat) (q : Bool) : Bool :=
  !q || (s.ctx d c).main.atEnd ||
    (!bitOf (s.rg d .seq 0 (0x100 + 0x40 * c)) 2 &&
      (match s.head d c false with
       | some m => s.waitHeld d c m.2 && s.unitsFree d c m.2 && !s.fenced d c false m.2
       | none => false))

/-- The head of a queue is issuable, its version check set aside (R96, R99, R119). -/
def State.issuable (s : State) (d c : Nat) (q : Bool) : Bool :=
  (s.ctx d c).st = .running &&
    (match s.head d c q with
     | none => false
     | some y =>
       (s.refusals d c ((s.ctx d c).queue q).ret.isSome y.2).isEmpty && !s.waitHeld d c y.2 && s.unitsFree d c y.2 &&
         !s.fenced d c q y.2 && s.policyOk d c q)

/-- PRIORITY of a context on a die (Table 6.15). -/
def State.prio (s : State) (d c : Nat) : Nat := s.fld d .seq 0 (0x100 + 0x40 * c) 0 2

/-- The queue that issues next on a die (R97). -/
def State.winner (s : State) (d : Nat) : Option (Nat × Bool) :=
  let order := (List.range 8).map (fun i => ((s.die d).lastCtx + 1 + i) % 8)
  let cand := (order.flatMap (fun c => [(c, false), (c, true)])).filter (fun x => s.issuable d x.1 x.2)
  cand.foldl (fun acc x => match acc with
    | none => some x
    | some y => if s.prio d y.1 < s.prio d x.1 then some x else some y) none

/-! ### Moves of a queue (R98, R109, R110) -/

/-- A queue after its head has issued (R94, R110). -/
def Queue.advance (y : Queue) (ws : List Word) : Queue :=
  let z := { y with win := y.win.filter (fun e => e.1 ≠ y.head), back := none }
  match stRet ws, y.ret with
  | true, some r => { z with head := r, ret := none, back := some r }
  | _, _ => if stEnd ws then { z with atEnd := true } else { z with head := y.head + 1 }

/-- The head of a queue issues: the queue moves on and its context has issued last (R97, R98). -/
def State.advance (s : State) (d c : Nat) (q : Bool) (ws : List Word) : State :=
  (s.updQueue d c q (fun y => y.advance ws)).updDie d (fun x => { x with lastCtx := c })

/-- A queue follows a link (R109, R110). -/
def Queue.follow (y : Queue) (target : Nat) : Queue :=
  { y with head := target, ret := some y.head, back := none,
           win := y.win.filter (fun e => decide (target ≤ e.1) && decide (e.1 < target + 32)) }

/-- The trap record of a detection by the sequencer at a queue's step. -/
def State.seqRec (s : State) (d c : Nat) (q : Bool) (idx cause w2 w3 : Nat) : TrapRec :=
  { cause := cause, d := d, unit := 0x3E, defer := q, idx := idx, tbase := ((s.ctx d c).queue q).base, w2 := w2, w3 := w3,
    ts := s.time d }

/-- A step is refused at issue (R100, R119): ILLEGAL_STEP, and the trap. -/
def State.refuseStep (s : State) (d c : Nat) (q : Bool) (idx reason : Nat) : State :=
  (s.raise d .seq 0 13 .ucc (seqLog 6 c idx q)).trap c (s.seqRec d c q idx 9 reason 0)

/-- A version check fails at issue, or a WAIT times out (R109, R110): the queue follows its link, or the context traps.
`bit` and `code` are those of Tables 6.10 and 6.12 with and without the link taken. -/
def State.linkEvent (s : State) (d c : Nat) (q : Bool) (idx link : Nat) (linked trapped : Nat × Cls × Nat)
    (r : TrapRec) : State :=
  let y := (s.ctx d c).queue q
  let log (x : Nat × Cls × Nat) : State := s.raise d .seq 0 x.1 x.2.1 (seqLog x.2.2 c idx q)
  if link = 0xFFFFFF ∨ y.ret.isSome ∨ (r.cause = 7 ∧ y.back = some idx) then (log trapped).trap c r
  else (log linked).updQueue d c q (fun z => z.follow link)

/-- The lines of a step's version check that fail (R121): each with the version found. -/
def State.staleLines (s : State) (ws : List Word) : List (Nat × Nat) :=
  if !stVchk ws then []
  else
    let x := versionLines ws
    ([x.1, x.2].map (fun n => (n, sbVer (s.sideOf n)))).filter (fun e => e.2 ≠ stVer ws)

/-! ### What a step row finds -/

/-- What stands in the way of a step row. -/
inductive Gate where
  /-- No such step stands at the head of the queue, or a condition of R96–R99 holds it: nothing happens. -/
  | held
  /-- The table line was rewritten (R95). -/
  | rewritten
  /-- The step is refused (R119). -/
  | refused (idx reason : Nat)
  /-- Its version check fails (R109): index, line, version found, and the step's words. -/
  | stale (idx ln ver : Nat) (ws : List Word)
  /-- It issues: index and words. -/
  | go (idx : Nat) (ws : List Word)
deriving DecidableEq, Repr

/-- The words of step `idx` of a table as memory holds them (R118). -/
def State.stepWords (s : State) (base idx : Nat) : List Word :=
  (List.range 8).map (fun i => wordOf (leNat (smRange memDefault s.mem (base + 64 * idx + 8 * i) 8)))

/-- The gate of the step row of kind `k` at a queue's head; a reserved KIND answers to the row of NOP (R119). -/
def State.gate (s : State) (d c : Nat) (q : Bool) (k : Nat) : Gate :=
  let x := s.ctx d c
  if !(s.live d && decide (c < 8) && x.st = .running) then .held
  else match s.head d c q with
  | none => .held
  | some (idx, ws) =>
    if !(stKind ws = k || (k = kNOP && !kindDefined (stKind ws))) then .held
    else if s.stepWords (x.queue q).base idx ≠ ws then .rewritten
    else match lowest (s.refusals d c (x.queue q).ret.isSome ws) with
    | some r => .refused idx r
    | none =>
      if s.winner d ≠ some (c, q) then .held
      else match s.staleLines ws with
      | (n, v) :: _ => .stale idx n v ws
      | [] => .go idx ws

/-- Close a step row: what every kind does alike where it does not issue, and `run` where it does. -/
def State.stepRow (s : State) (d c : Nat) (q : Bool) (k : Nat) (run : Nat → List Word → State → State) :
    Host.Outcome State Fault Refusal :=
  match s.gate d c q k with
  | .held => .next s
  | .rewritten => .fault .tableRewritten
  | .refused idx r => .next (s.refuseStep d c q idx r)
  | .stale idx n v ws => .next (s.linkEvent d c q idx (stLink ws) (8, .ucc, 1) (8, .ucc, 1)
      (s.seqRec d c q idx 7 (stVer ws + v * 65536) (128 * n)))
  | .go idx ws => .next (run idx ws s)

/-- The same for a step that reads and writes lines the host may hold: it waits at the head while the host answers the
snoops its accesses call for (R289, R290). -/
def State.memRow (s : State) (d c : Nat) (q : Bool) (k : Nat) (acc : List Word → State → List (Nat × Nat))
    (run : Nat → List Word → State → State) : Host.Outcome State Fault Refusal :=
  s.stepRow d c q k (fun idx ws t =>
    match t.waits (acc ws t) with
    | [] => run idx ws t
    | w => t.snoopAll w)

/-! ### Flights, signals and records (R103, R122, R123, R158) -/

/-- A step goes into flight: its unit list, figures and lines. -/
def State.fly (s : State) (f : Flight) : State :=
  { s with flights := s.flights ++ [{ f with id := s.nextId }], nextId := s.nextId + 1 }

/-- The flight of a step that issues at a queue's head. -/
def State.newFlight (s : State) (d c : Nat) (q : Bool) (idx : Nat) (ws : List Word) : Flight :=
  { id := s.nextId, d := d, c := c, defer := q, idx := idx, tbase := ((s.ctx d c).queue q).base, ws := ws,
    units := stUnits ws }

/-- Word 0 of a step record (Table 8.6). -/
def recWord0 (f : Flight) : Nat :=
  f.idx % 2 ^ 24 + stKind f.ws * 2 ^ 32 + b2n f.defer * 2 ^ 40 + f.d * 2 ^ 41 + f.c * 2 ^ 44

/-- The issuing die writes a step record (R122, R158): it travels to die 0, which keeps the order of arrival. -/
def State.record (s : State) (f : Flight) : State :=
  s.updHc f.c (fun x => { x with recs := x.recs ++
    [([recWord0 f, s.time f.d] ++ f.figs ++ List.replicate (6 - f.figs.length) 0).map wordOf] })

/-- A unit of a step signals (R103); `inc` is 1 but for SIG. A signal counts against the limit of its cluster (Table 11.6),
whose arrays are units 4l to 4l + 3; 248 stands for every unit outside the clusters. -/
def State.unitSignal (s : State) (f : Flight) (u inc : Nat) : State :=
  let v := if stKind f.ws = kMMA then u else if isCompute (stKind f.ws) then 4 * u else 248
  if stSigEn f.ws then s.signal f.d f.c v f.defer f.idx f.tbase (stSigCref f.ws) inc else s

/-- A step whose every unit has ended leaves flight: the record, and POISONED of the completion entry (R122, R156). -/
def State.retire (s : State) (f : Flight) : State :=
  let s1 := if f.poisoned then s.updHc f.c (fun x => { x with poisoned := true }) else s
  (if stRec f.ws && !f.failed then s1.record f else s1).dropFlight f.id

/-- A unit of a step in flight ends: it signals unless the step has failed (R39, R59, R103). -/
def State.endUnit (s : State) (f : Flight) (u : Nat) : State :=
  let s1 := if f.failed then s else s.unitSignal f u 1
  let g := { f with units := f.units.erase u }
  if g.units.isEmpty then s1.retire g else s1.updFlight f.id (fun _ => g)

/-- A step that issues and completes at once (unit "issue", or the die): it signals and writes its record (R123). -/
def State.instant (s : State) (d c : Nat) (q : Bool) (idx : Nat) (ws : List Word) (inc : Nat) (figs : List Nat) : State :=
  let f := { s.newFlight d c q idx ws with figs := figs }
  let s1 := (s.advance d c q ws).unitSignal f 248 inc
  if stRec ws then s1.record f else s1

/-! ### Detections of compute units -/

/-- STAT bit and log code of a detection in the arrays of a cluster (Tables 3.6, 3.8). -/
def mmaCause (cause : Nat) : Nat × Nat := (7 + cause, cause)

/-- STAT bit and log code of a detection in a conversion unit (Tables 4.6, 4.8). -/
def cvuCause (cause : Nat) : Nat × Nat :=
  if cause = 6 then (10, 3) else if cause = 5 then (11, 4) else (7 + cause, cause)

/-- A compute unit of logical cluster `l` detects a cause in a step in flight (R39, R59): status and log of the detecting
block, or of SEQ for SHARD_STALE and ILLEGAL_STEP, the end of the step, and the trap. `x` holds the further log bits. -/
def State.unitTrap (s : State) (f : Flight) (l : Nat) (x : Nat) (t : Det) : State :=
  let log := f.c * 2 ^ 24 + f.idx * 2 ^ 32 + x
  let s1 :=
    if t.cause = 7 then s.raise f.d .seq 0 8 .ucc (seqLog 1 f.c f.idx f.defer)
    else if t.cause = 9 then s.raise f.d .seq 0 13 .ucc (seqLog 6 f.c f.idx f.defer)
    else if stKind f.ws = kMMA then
      s.raise f.d .mma l (mmaCause t.cause).1 .ucc ((mmaCause t.cause).2 + log)
    else s.raise f.d .cvu l (cvuCause t.cause).1 .ucc ((cvuCause t.cause).2 + t.operand * 2 ^ 16 + log)
  let s2 := (s1.failFlight f.id).trap f.c (f.det s t.cause l t.operand t.block t.w2 t.w3)
  if (stKind f.ws = kMMA && t.cause = 4) || (isCompute (stKind f.ws) && stKind f.ws ≠ kMMA && t.cause = 6) then
    s2.residueEvent f.d l else s2

/-- Corrected CRC failures of operand lines of a cluster (R58). -/
def State.glitchLog (s : State) (f : Flight) (l n : Nat) : State :=
  if n = 0 then s
  else if stKind f.ws = kMMA then s.raise f.d .mma l 13 .ce (6 + f.c * 2 ^ 24 + f.idx * 2 ^ 32)
  else s.raise f.d .cvu l 12 .ce (5 + f.c * 2 ^ 24 + f.idx * 2 ^ 32)

/-- A step is refused when it starts on its unit, which is in logical cluster `l` (R112, R144). -/
def State.refuseStart (s : State) (f : Flight) (l reason : Nat) : State :=
  ((s.raise f.d .seq 0 13 .ucc (seqLog 6 f.c f.idx f.defer)).failFlight f.id).trap f.c (f.det s 9 l 0 0 reason 0)

/-- A line written by a step in flight: the line, the step's list, and whether it is poisoned. -/
def State.stepWrite (s : State) (fid ln : Nat) (l : Line) : State :=
  (s.writeAt (128 * ln) l).updFlight fid (fun f =>
    { f with lines := if f.lines.contains ln then f.lines else f.lines ++ [ln], poisoned := f.poisoned || sbPoison l.sb })

/-- Bytes that a step in flight merges into a line (R125, R175). -/
def State.stepMerge (s : State) (fid ln mask : Nat) (bs : List Byte) (side : Word) : State :=
  let t := s.mergeAt (128 * ln) mask bs side
  t.updFlight fid (fun f =>
    { f with lines := if f.lines.contains ln then f.lines else f.lines ++ [ln],
             poisoned := f.poisoned || sbPoison (t.sideOf ln) })

end Sys2Proof.Machine
end

