-- ==== Sys2Proof/Machine/SwapOps.lean ====
section
/-! DEFINITION. Shadow sets and SWAPs (R115, R117, R163, R164, R179, R402). -/

namespace Sys2Proof.Machine

/-- The access codes of the register at a place; none defined there reads as all RO. -/
def placeDef (p : Part) (o : Option RegLoc) : RegDef :=
  match o with
  | none => {}
  | some l => (regDef p l.d l.b l.f).getD {}

/-- The access codes of the register at a local address; none defined there reads as all RO. -/
def defAt (p : Part) (a : Nat) : RegDef := placeDef p (locOf a)

/-- A place lies in the window of instance `i` of block `b` on die `d`. -/
def placeIn (d : Nat) (b : Blk) (i : Nat) (o : Option RegLoc) : Bool :=
  match o with
  | none => false
  | some l => decide (l.d = d) && decide (l.b = b) && decide (l.i = i)

/-- The address lies in the window of instance `i` of block `b` on die `d`. -/
def inBlock (d : Nat) (b : Blk) (i a : Nat) : Bool := placeIn d b i (locOf a)

/-- Addresses of a block instance whose shadow or active value is not the reset value. -/
def State.touched (s : State) (d : Nat) (b : Blk) (i : Nat) : List Nat :=
  dedup ((s.shadow.map Prod.fst ++ s.regs.map Prod.fst).filter (inBlock d b i))

/-- The shadow value of a register differs from its active value (R163). -/
def State.differs (s : State) (a : Nat) : Bool :=
  decide ((s.reg a ^^^ s.shad a) &&& (defAt s.part a).rws ≠ 0)

/-- PENDING of a block instance (Table 24.2). -/
def State.swapPending (s : State) (d : Nat) (b : Blk) (i : Nat) : Bool := (s.touched d b i).any s.differs

/-- Copy the shadow fields of one register into its active fields. -/
def State.copyReg (s : State) (a : Nat) : State :=
  let m := (defAt s.part a).rws
  s.setReg a ((s.reg a &&& ~~~ m) ||| (s.shad a &&& m))

/-- Copy the shadow fields of a list of registers (R163). -/
def State.copyRegs (s : State) (as : List Nat) : State := forEach as (fun a t => t.copyReg a) s

/-- Set a field that the hardware advances: the shadow follows where no write waits in it (R71, Table 4.12). -/
def State.setLive (s : State) (a : Nat) (v : Word) : State :=
  let s1 := if s.differs a then s else s.setShad a v
  s1.setReg a v

/-- Key and counter of generator `g` of a cluster, as they are active (R71). -/
def State.srgKey (s : State) (d l g : Nat) : Nat := (s.rg d .srg l (0x40 + 16 * g)).toNat
/-- Counter of generator `g` of a cluster. -/
def State.srgCtr (s : State) (d l g : Nat) : Nat := (s.rg d .srg l (0x48 + 16 * g)).toNat

/-- `n` bits from bit `lo` of the shadow value of a register. -/
def State.sfld (s : State) (d : Nat) (b : Blk) (i f lo n : Nat) : Nat := bits (s.shad (regAddr d b i f)) lo n

/-- The shadow set of a block instance holds a value its chapter calls unswappable (Tables 9.8, 9.9, 11.14, 12.9, 12.10,
16.12, 18.8, 18.11, 19.6; R231, R241). -/
def State.unswappable (s : State) (d : Nat) (b : Blk) (i : Nat) : Bool :=
  let f := s.sfld d b i
  match b with
  | .cel => f 0x20 0 2 = 3 || decide (48 < f 0x30 0 6 + f 0x30 8 6 + f 0x30 16 6 + f 0x30 24 6) || (List.range 8).any (fun n => f (0x48 + 16 * n) 0 2 = 3)
  | .fab => decide (32 < f 0x20 0 6) || f 0x30 0 2 = 3 || f 0x38 0 10 = 0 || decide (1000 < f 0x38 0 10)
  | .mac => f 0x20 0 2 = 3 || !between 64 9216 (f 0x20 8 14) || (f 0x20 0 2 = 2 && f 0x20 3 1 = 0) ||
      !between 4 10 (f 0x60 50 4) || !between 4 10 (f 0x68 50 4) || decide (f 0x28 0 16 < f 0x28 16 16) ||
      decide (1024 * s.fld d .cel 0 0x30 0 6 < 7 * (f 0x28 0 16 + f 0x28 32 16) + f 0x28 48 16)
  | .agl => f 0x20 16 16 = 0 || f 0x20 32 16 = 0 || !between 12 40 (f 0x28 40 6) ||
      !(f 0x30 28 6 = 0 || between 12 39 (f 0x30 28 6))
  | .clk => f 0x20 0 8 = 0
  | .tim => f 0x20 0 2 = 3 || !(f 0x20 24 8 = 0 || between 249 255 (f 0x20 24 8))
  | .pwr => !between 1 100 (f 0x20 16 8) || f 0x20 24 8 = 0
  | _ => false

/-- Every context is IDLE, STOPPED or TRAPPED on the die. -/
def State.noneRuns (s : State) (d : Nat) : Bool := (List.range 8).all (fun c => (s.ctx d c).st ≠ .running)

/-- The cluster holds no step (R114, R402): no flight on its arrays or its conversion unit. -/
def State.clEmpty (s : State) (d l : Nat) : Bool :=
  !(s.flights.any (fun f => f.d = d && (f.onArrays l || f.onCvu l)))

/-- A racking, fabric or link transfer of the die is outstanding (R179). -/
def State.transfers (s : State) (d : Nat) : Bool :=
  !(s.router d).tags.isEmpty || !(s.router d).waitq.isEmpty ||
    s.flights.any (fun f => f.d = d && isEngine (stKind f.ws)) ||
    (s.linkDies.any (fun pd => (s.link pd).hreqs.any (fun r => r.d = d)))

/-- The block instance is at its quiescent point (Table 24.3); a cluster whose shadow sets hold an incoming context's image
waits for that context's SWAP (R115, log entry 13). -/
def State.quiescent (s : State) (d : Nat) (b : Blk) (i : Nat) : Bool :=
  match b with
  | .mma | .cvu | .srg => s.clEmpty d i && !(s.cl d i).hasOpen && (s.cl d i).preload.isNone
  | .cel => s.noneRuns d && !s.transfers d && (s.cel d).flush.isNone
  | .fab => (s.router d).tags.isEmpty && (s.router d).waitq.isEmpty && (s.router d).heldq.isEmpty &&
      (s.router d).hot.all (fun h => h.req.isNone) && s.noneRuns d
  | .mac => !(s.port d i).hostTx
  | .agl => (s.link d).hreqs.isEmpty
  | _ => true

/-- Lines of a range of cached lines written back (R170): they are no longer dirty, and CEL_CNT_WB counts them. -/
def State.cleanLines (s : State) (d : Nat) (p : Nat → Bool) : State :=
  let n := ((s.cel d).cache.filter (fun e => e.2 && p e.1)).length
  (s.updCel d (fun x => { x with cache := x.cache.map (fun e => if p e.1 then (e.1, false) else e) })).addRg d .cel 0 0x210 n

/-- Cached lines dropped. -/
def State.dropLines (s : State) (d : Nat) (p : Nat → Bool) : State :=
  s.updCel d (fun x => { x with cache := x.cache.filter (fun e => !p e.1) })

/-- Write scratchpad lines `lo … hi − 1` of a die as zero-filled lines (R167, R179). -/
def State.zeroScratch (s : State) (d lo hi : Nat) : State :=
  let a := celBase / 128 + d * 0x400000
  { s with mem := s.mem.filter (fun e => !(decide (128 * (a + lo) ≤ e.1) && decide (e.1 < 128 * (a + hi)))),
           side := s.side.filter (fun e => !(decide (a + lo ≤ e.1) && decide (e.1 < a + hi))) }

/-- The lines of each cache set keep the `ways` used last; the others leave, dirty ones written back first (R179). -/
def State.fitWays (s : State) (d ways : Nat) : State :=
  let excess (n : Nat) : Bool :=
    let same := (s.cel d).cache.filter (fun e => bankOf (128 * e.1) = bankOf (128 * n) && setOf (128 * e.1) = setOf (128 * n))
    !((same.take ways).any (fun e => e.1 = n))
  (s.cleanLines d excess).dropLines d excess

/-- The SWAP of a Cellar (R179): ways change sides, ranges that leave WRITE_BACK are written back, ranges that become
STREAM are invalidated, and the new fields become active. -/
def State.celSwap (s : State) (d : Nat) : State :=
  let old := s.spLines d
  let as := s.touched d .cel 0
  let t := s.copyRegs as
  let new := t.spLines d
  let wasWb (n : Nat) : Bool := s.policy (128 * n) = 0 && t.policy (128 * n) ≠ 0
  let toStream (n : Nat) : Bool := s.policy (128 * n) ≠ 2 && t.policy (128 * n) = 2
  let t1 := (t.cleanLines d (fun n => wasWb n)).dropLines d toStream
  let t2 := t1.fitWays d (t1.fld d .cel 0 0x28 0 4)
  t2.zeroScratch d (min old new) (max old new)

/-- Registers of context `c` that a SWAP of SEQ makes active when the context is IDLE, STOPPED or TRAPPED (R117). -/
def seqCtxRegs (d c : Nat) : List Nat :=
  [0x100, 0x108, 0x118, 0x120].map (fun f => regAddr d .seq 0 (f + 0x40 * c))

/-- Ring registers of context `c` (R163). -/
def seqRingRegs (c : Nat) : List Nat := [0x600, 0x608, 0x610].map (fun f => regAddr 0 .seq 0 (f + 0x40 * c))

/-- The marks that a SWAP request of SEQ for context `c` leaves on a die: its own fields, and on die 0 its ring fields. -/
def seqMarks (d c : Nat) : List Nat :=
  regAddr d .seq 0 (0x100 + 0x40 * c) :: (if d = 0 then [regAddr 0 .seq 0 (0x600 + 0x40 * c)] else [])

/-- PROD and CONS of a context (Table 8.8). -/
def State.prod (s : State) (c : Nat) : Nat := s.fld 0 .seq 0 (0x618 + 0x40 * c) 0 32
/-- CONS of a context (Table 8.8). -/
def State.cons (s : State) (c : Nat) : Nat := s.fld 0 .seq 0 (0x618 + 0x40 * c) 32 32

/-- Make a SEQ request: SEQ_CTL becomes active at once, and the marks of the contexts wait (R117). -/
def State.seqRequest (s : State) (d : Nat) (cs : List Nat) : State :=
  let s1 := s.copyReg (regAddr d .seq 0 0x20)
  s1.updDie d (fun x => { x with swapReq := x.swapReq ++
    (cs.flatMap (seqMarks d)).filter (fun a => !x.swapReq.contains a) })

/-- Take a mark from the requests of a die. -/
def State.unmark (s : State) (d a : Nat) : State :=
  s.updDie d (fun x => { x with swapReq := x.swapReq.filter (fun b => b ≠ a) })

/-- One mark of a SEQ request: its fields are copied when the context allows it (R117, R163); a ring shadow set with a SIZE_LOG2
outside 4–16 is not copied, and CONFIG_BUSY is set (Table 8.8). -/
def State.seqMark (s : State) (d c : Nat) : State :=
  let a := regAddr d .seq 0 (0x100 + 0x40 * c)
  let r := regAddr 0 .seq 0 (0x600 + 0x40 * c)
  let req := (s.die d).swapReq
  let s1 := if req.contains a && (s.ctx d c).st ≠ .running then (s.copyRegs (seqCtxRegs d c)).unmark d a else s
  if d = 0 && req.contains r && (s.ctx 0 c).st = .idle && decide (s.prod c = s.cons c) then
    let s2 := s1.unmark 0 r
    if between 4 16 (bits (s.shad r) 0 5) then s2.copyRegs (seqRingRegs c) else s2.configBusy 0 .seq 0
  else s1

/-- The address that marks a requested SWAP of a block instance: its SWAP register. -/
def swapMark (d : Nat) (b : Blk) (i : Nat) : Nat := regAddr d b i 0x18

/-- The block has shadow fields (Tables 24.3, 24.8). -/
def hasShadow (b : Blk) : Bool :=
  match b with
  | .trl | .thm | .saf | .sec | .eng => false
  | _ => true

/-- Request a SWAP of a block instance at its next quiescent point (R163, R401). -/
def State.requestSwap (s : State) (d : Nat) (b : Blk) (i : Nat) : State :=
  if !hasShadow b then s
  else if b = .seq then s.seqRequest d (List.range 8)
  else s.updDie d (fun x => { x with swapReq := if x.swapReq.contains (swapMark d b i) then x.swapReq
                                                else x.swapReq ++ [swapMark d b i] })

/-- Copy the shadow set of a block instance now; an unswappable set is not copied, and CONFIG_BUSY is set (R163, R402). -/
def State.swapNow (s : State) (d : Nat) (b : Blk) (i : Nat) : State :=
  let s1 := s.unmark d (swapMark d b i)
  if s1.unswappable d b i then s1.configBusy d b i
  else if b = .cel then s1.celSwap d
  else s1.copyRegs (s1.touched d b i)

/-- A requested SWAP takes effect where the block is at its quiescent point (R163). -/
def State.doSwap (s : State) (d : Nat) (b : Blk) (i : Nat) : State :=
  if b = .seq then forEach (List.range 8) (fun c t => t.seqMark d c) s
  else if (s.die d).swapReq.contains (swapMark d b i) && s.quiescent d b i then s.swapNow d b i
  else s

/-- An RWS write to a cluster block is refused from the start of a preload until its SWAP (R115). -/
def State.preloadLocked (s : State) (d : Nat) (b : Blk) (i : Nat) : Bool :=
  (match b with | .mma | .cvu | .srg => true | _ => false) && (s.cl d i).preload.isSome

end Sys2Proof.Machine
end

