-- ==== Sys2Proof/Machine/Control.lean ====
section
/-! DEFINITION. The control steps and LAYOUT (R141, R143). -/

namespace Sys2Proof.Machine

/-- NOP: it waits and signals as its common fields say (R143); a reserved KIND is refused by this row too (R119). -/
def execNop (d c : Nat) (q : Bool) (s : State) : Host.Outcome State Fault Refusal :=
  s.stepRow d c q kNOP (fun idx ws t => t.instant d c q idx ws 1 [])

/-- WAIT: it holds its queue until its wait condition is met (R143). -/
def execWait (d c : Nat) (q : Bool) (s : State) : Host.Outcome State Fault Refusal :=
  s.stepRow d c q kWAIT (fun idx ws t => t.instant d c q idx ws 1 [])

/-- SIG: it adds SIG_INC to SIG_CREF at issue (R143). -/
def execSig (d c : Nat) (q : Bool) (s : State) : Host.Outcome State Fault Refusal :=
  s.stepRow d c q kSIG (fun idx ws t => t.instant d c q idx ws (sw ws 2 32 32) [])

/-- Instances of a block that a SWAP step names: the clusters of its mask, or every instance of the die (R143). -/
def swapInsts (ws : List Word) (b : Blk) : List Nat :=
  match b with
  | .mma | .cvu | .srg => stClusters ws
  | _ => List.range b.insts

/-- The block instances that a SWAP step names, SEQ left out (R143). -/
def swapNamed (ws : List Word) : List (Blk × Nat) :=
  (Blk.all.filter (fun b => b ≠ .seq && hasShadow b && nbit (sw ws 2 32 18) b.pos)).flatMap
    (fun b => (swapInsts ws b).map (fun i => (b, i)))

/-- Issue a SWAP step (R143): every named block is asked to swap; SEQ receives the request of R117 for the context. -/
def State.swapStep (s : State) (d c : Nat) (q : Bool) (idx : Nat) (ws : List Word) : State :=
  let named := swapNamed ws
  let f := { s.newFlight d c q idx ws with lines := named.map (fun x => swapMark d x.1 x.2) }
  let s1 := if nbit (sw ws 2 32 18) 0 then s.seqRequest d [c] else s
  (forEach named (fun x t => t.requestSwap d x.1 x.2) (s1.advance d c q ws)).fly f

/-- SWAP: it requests a SWAP in the named blocks; its unit completes when they have swapped (R143). -/
def execSwap (d c : Nat) (q : Bool) (s : State) : Host.Outcome State Fault Refusal :=
  s.stepRow d c q kSWAP (fun idx ws t => t.swapStep d c q idx ws)

/-- FENCE: it issues once the steps it waits for have completed (R143). -/
def execFence (d c : Nat) (q : Bool) (s : State) : Host.Outcome State Fault Refusal :=
  s.stepRow d c q kFENCE (fun idx ws t => t.instant d c q idx ws 1 [])

/-- TRAP: it traps its context with TRAP_STEP, which has no error class, and never signals (R111, R143). -/
def execTrap (d c : Nat) (q : Bool) (s : State) : Host.Outcome State Fault Refusal :=
  s.stepRow d c q kTRAP (fun idx ws t =>
    let r := t.seqRec d c q idx 0x0B (sw ws 2 32 32) 0
    ((t.advance d c q ws).raise d .seq 0 14 .none (seqLog 7 c idx q)).trap c r)

/-- Issue a LAYOUT step (R141): the die's copy of the context's layout generation rises by one, modulo 2^16. -/
def State.layoutStep (s : State) (d c : Nat) (q : Bool) (idx : Nat) (ws : List Word) : State :=
  let g := (s.fld d .seq 0 (0x130 + 0x40 * c) 0 16 + 1) % 65536
  (s.setFld d .seq 0 (0x130 + 0x40 * c) 0 16 g).instant d c q idx ws 1 [g]

/-- LAYOUT: it raises the layout generation once no bucket of an older one is accepted (R141). -/
def execLayout (d c : Nat) (q : Bool) (s : State) : Host.Outcome State Fault Refusal :=
  s.stepRow d c q kLAYOUT (fun idx ws t => t.layoutStep d c q idx ws)

end Sys2Proof.Machine
end

