-- ==== Sys2Proof/Machine/Matrix.lean ====
section
/-! DEFINITION. The MMA step (R42–R60, R126, R127). -/

namespace Sys2Proof.Machine

/-- Put a detection behind those that come before it (R40, R112). -/
def insDet (x : Nat × Det) : List (Nat × Det) → List (Nat × Det)
  | [] => [x]
  | y :: r => if y.2.before x.2 then y :: insDet x r else x :: y :: r

/-- Detections in order, each with its further log bits. -/
def sortDets (xs : List (Nat × Det)) : List (Nat × Det) := xs.foldl (fun acc x => insDet x acc) []

/-- A unit's first detection, as a list, with log bits. -/
def firstOf (x : Nat) (ds : List Det) : List (Nat × Det) :=
  match firstDet ds with
  | none => []
  | some t => [(x, t)]

/-- What an MMA step works with on one die. -/
structure MmaJob where
  f : Flight
  mode : Nat
  texp : Int
  ringPo : Bool
  env : Env

/-- The step's words. -/
def MmaJob.ws (j : MmaJob) : List Word := j.f.ws
/-- Row group of a rank (R127). -/
def mmaRow0 (ws : List Word) (rank : Nat) : Nat := rank / mmaCcols ws * mmaM ws
/-- First weight column of array `a` of a rank (R127). -/
def mmaCol0 (ws : List Word) (rank a : Nat) : Nat := 384 * (rank % mmaCcols ws) + 96 * a
/-- Activation rows of a rank. -/
def mmaRows (ws : List Word) (rank : Nat) : List Nat := (List.range (mmaM ws)).map (fun r => mmaRow0 ws rank + r)
/-- Weight columns of array `a` of a rank. -/
def mmaCols (ws : List Word) (rank a : Nat) : List Nat := (List.range 96).map (fun c => mmaCol0 ws rank a + c)
/-- Activation lines of a rank. -/
def mmaALines (ws : List Word) (rank : Nat) : List Nat :=
  (mmaA ws).lines (mmaRows ws rank) (mmaK0 ws) (mmaK0 ws + mmaK ws)
/-- Weight lines of array `a` of a rank. -/
def mmaWLines (ws : List Word) (rank a : Nat) : List Nat :=
  (mmaW ws).lines (mmaCols ws rank a) (mmaK0 ws) (mmaK0 ws + mmaK ws)

/-- Line number of line `j` of output row `r` of array `a` of a rank (R49, R127). -/
def mmaOutLine (ws : List Word) (mode rank a r j : Nat) : Nat :=
  cloLine (sw ws 5 0 25) + (4 * (rank % mmaCcols ws) + a) * drainLines mode + (mmaRow0 ws rank + r) * sw ws 7 48 16 + j

/-- Ranks and clusters of a step's mask. -/
def ranked (ws : List Word) : List (Nat × Nat) := (List.range (stClusters ws).length).zip (stClusters ws)

/-- Version a unit expects in every line of the versioned operand (R121). -/
def verWant (ws : List Word) : Option Nat := if stVchk ws then some (stVer ws) else none

/-- Detections of the activation lines of a cluster (R41). -/
def State.mmaADets (s : State) (ws : List Word) (rank : Nat) : List Det :=
  s.opDets true none (mmaA ws) (mmaRows ws rank) (mmaK0 ws) (mmaK0 ws + mmaK ws)

/-- Detections of the weight lines of an array (R41). -/
def State.mmaWDets (s : State) (ws : List Word) (rank a : Nat) : List Det :=
  s.opDets true (verWant ws) (mmaW ws) (mmaCols ws rank a) (mmaK0 ws) (mmaK0 ws + mmaK ws)

/-- The detections of a cluster in order: its activation stage's first, and each array's first (R41, R112). -/
def State.mmaDets (s : State) (ws : List Word) (rank : Nat) : List (Nat × Det) :=
  sortDets (firstOf 0 (s.mmaADets ws rank) ++
    (List.range 4).flatMap (fun a => firstOf (16 * a) (s.mmaWDets ws rank a)))

/-- The accesses of an MMA step: lines read, and lines written whole (R289). -/
def mmaAccess (ws : List Word) : List (Nat × Nat) :=
  let mode := (laneMode (mmaA ws).fmt (mmaW ws).fmt).getD 0
  (ranked ws).flatMap (fun x =>
    (mmaALines ws x.1).map (fun n => (0, n)) ++ (List.range 4).flatMap (fun a =>
      (mmaWLines ws x.1 a).map (fun n => (0, n)) ++
        (if mmaDrain ws then (List.range (mmaM ws)).flatMap (fun r =>
          (List.range (drainLines mode)).map (fun j => (1, mmaOutLine ws mode x.1 a r j))) else []))) ++
  (if mmaAccum ws ∨ mmaWin ws = 0 then [] else [(0, cloLine (sw ws 5 25 25))])

/-- The tile exponent an MMA with ACCUM = 0 adopts (R55): exponent, and whether the ring poisons the output. -/
def State.mmaTexp (s : State) (ws : List Word) : Int × Bool :=
  if mmaAccum ws ∨ mmaWin ws = 0 then (si ws 2 48 8, false)
  else
    let l := s.line (cloLine (sw ws 5 25 25))
    if sbPoison l.sb || sbFmt l.sb ≠ 0 then (si ws 2 48 8, true)
    else (ringTexp (mmaWin ws) (sw ws 2 56 4) (si ws 2 48 8) (ringEntries l.bytes), false)

/-- The tile an array fills, before it does (R48). -/
def Arr.startTile (x : Arr) (accum : Bool) (texp : Int) (mode : Nat) : Tile :=
  if accum then x.lastTile else { texp := texp, mode := mode }

/-- The shadow of the tile's elements that a residue error of the surroundings hits goes wrong (R57). -/
def Tile.hit (t : Tile) (env : Env) (l a : Nat) : Tile :=
  (env.residue.filter (fun e => e.1 = l && e.2.1 = a)).foldl (fun t e =>
    let x := t.get (e.2.2 / 96) (e.2.2 % 96)
    t.put (e.2.2 / 96) (e.2.2 % 96) { x with shadow := (x.shadow + 1) % 7 }) t

/-- INJECT_RESIDUE inverts the shadow of element (0, 0) of the tile that drains (Table 3.11). -/
def Tile.invert (t : Tile) (on : Bool) : Tile :=
  if on then
    let x := t.get 0 0
    t.put 0 0 { x with shadow := 7 - x.shadow }
  else t

/-- Drain rows 0 to `n` − 1 of a tile, in order, up to the first line that is not populated (R49, R420); the second part is
that line. -/
def State.drainRows (j : MmaJob) (rank a : Nat) (t : Tile) : List (Nat × Nat) → State → State × Option Nat
  | [], s => (s, none)
  | (r, k) :: rest, s =>
    let ln := mmaOutLine j.ws j.mode rank a r k
    if !s.served (128 * ln) then (s, some ln)
    else State.drainRows j rank a t rest (s.stepWrite j.f.id ln
      (mkLine (t.drainLine j.mode r k) (verCompute j.ws) (drainFmt j.mode) (if t.poison then flagDerived else 0)))

/-- Run one array of an MMA step (R48–R57), reading operands as they stood in `s0`. The counts come back with the state. -/
def State.mmaArray (s0 : State) (j : MmaJob) (rank l a : Nat) (s : State) : State × MmaCnt :=
  let ws := j.ws
  let cl := s.cl j.f.d l
  let x := cl.array a
  let which := if mmaAccum ws then x.last = some true else x.nextTile
  let ow := mmaW ws
  let c0 := mmaCol0 ws rank a
  let po := s0.anyPoison (mmaALines ws rank ++ mmaWLines ws rank a) || j.ringPo
  let t0 := x.startTile (mmaAccum ws) j.texp j.mode
  let (t1, cnt) := s0.fillTile j.mode (sb ws 2 60) (mmaA ws) ow (mmaK0 ws) (mmaK ws) (mmaRow0 ws rank) c0 (mmaM ws) t0
  let t2 := ({ t1 with poison := t0.poison || po }).hit j.env l a
  let t3 := t2.invert (mmaDrain ws && x.inject)
  let y := x.putTile which t3
  let y1 : Arr := { y with isOpen := !mmaDrain ws, inject := x.inject && !mmaDrain ws,
                           w0 := (s0.weightReg j.mode ow (mmaK0 ws) (mmaK ws) c0 0).getD x.w0,
                           w1 := (s0.weightReg j.mode ow (mmaK0 ws) (mmaK ws) c0 1).getD x.w1 }
  let s1 := s.updCl j.f.d l (fun z => z.setArray a y1)
  if !mmaDrain ws then (s1, cnt)
  else
    let bad := t3.mismatches j.mode (mmaM ws)
    let rows := match bad with | [] => mmaM ws | e :: _ => e / 96 + 1
    let order := (List.range rows).flatMap (fun r => (List.range (drainLines j.mode)).map (fun k => (r, k)))
    match State.drainRows j rank a t3 order s1 with
    | (s2, some ln) => (s2.unitTrap j.f l (16 * a + 64 * b2n which) { cause := 9, w2 := 9, w3 := 128 * ln }, cnt)
    | (s2, none) =>
      match bad with
      | [] => (s2, cnt)
      | e :: more =>
        let place := a + 4 * b2n which + e / 96 * 256 + e % 96 * 65536
        let log := 16 * a + 64 * b2n which + e / 96 * 256 + e % 96 * 65536
        ((s2.unitTrap j.f l log { cause := 4, w2 := place }).moreTraps j.f.c more.length, cnt)

/-- The counters and limits of a cluster at the end of an MMA step (R56, Tables 3.10, 3.12). -/
def State.mmaCount (s : State) (d l : Nat) (mac : Nat) (c : MmaCnt) : State :=
  let s1 := (((s.addRg d .mma l 0x30 mac).addRg d .mma l 0x38 c.sat).addRg d .mma l 0x40 c.zeroed).addRg d .mma l 0x48 c.inexact
  let s2 := if s1.fld d .mma l 0x20 0 32 < c.sat then s1.cause d .mma l 14 .none else s1
  if s2.fld d .mma l 0x20 32 32 < c.zeroed then s2.cause d .mma l 15 .none else s2

/-- MAC of one cluster (Table 3.5): four arrays, M rows in each depth tile. -/
def mmaMac (ws : List Word) (mode : Nat) : Nat :=
  4 * mmaM ws * ceilDiv (mmaK ws) (tileDepth mode) * (if mode % 2 = 1 then 24576 else 12288)

/-- Run the arrays of a cluster that met no detection (R42). -/
def State.mmaCluster (s0 : State) (j : MmaJob) (rank l : Nat) (x : State × MmaCnt × Nat) : State × MmaCnt × Nat :=
  if !(s0.mmaADets j.ws rank).isEmpty then x
  else
    let ok := (List.range 4).filter (fun a => (s0.mmaWDets j.ws rank a).isEmpty)
    let r := ok.foldl (fun (acc : State × MmaCnt) a =>
      let y := s0.mmaArray j rank l a acc.1
      (y.1, acc.2.add y.2)) (x.1, {})
    let mac := mmaMac j.ws j.mode * ok.length / 4
    (r.1.mmaCount j.f.d l mac r.2, x.2.1.add r.2, x.2.2 + mac)

/-- The first logical cluster of the mask with an array on which a step with ACCUM = 1 is refused when it starts (R48, R127). -/
def State.mmaNoTile (s : State) (d : Nat) (ws : List Word) (mode : Nat) : Option Nat :=
  if !mmaAccum ws then none
  else (stClusters ws).find? (fun l => (List.range 4).any (fun a =>
    let x := (s.cl d l).array a
    x.last.isNone || x.lastTile.mode ≠ mode))

/-- A step that has failed has every line it wrote marked poisoned (R59). -/
def State.settleFail (s : State) (id : Nat) : State :=
  match s.flight id with
  | some f => if f.failed then s.failFlight id else s
  | none => s

/-- Report the detections that the units of a cluster made in reading operands (R39, R59), and the corrected reads (R58). -/
def State.reportDets (s : State) (f : Flight) (l : Nat) (ds : List (Nat × Det)) (ce : Nat) : State :=
  forEach ds (fun x t => t.unitTrap f l x.1 x.2) (s.glitchLog f l ce)

/-- Issue an MMA step whose ring, if it reads one, is sound (R42, R48, R55). -/
def State.mmaRun (s : State) (d c : Nat) (q : Bool) (idx : Nat) (ws : List Word) (env : Env) : State :=
  let mode := (laneMode (mmaA ws).fmt (mmaW ws).fmt).getD 0
  let f := s.newFlight d c q idx ws
  let te := s.mmaTexp ws
  let j : MmaJob := { f := f, mode := mode, texp := te.1, ringPo := te.2, env := env }
  let s1 := (s.advance d c q ws).fly f
  match s1.mmaNoTile d ws mode with
  | some l => s1.refuseStart f l 0xE
  | none =>
    let s2 := forEach (ranked ws) (fun x t => t.reportDets f x.2 (s.mmaDets ws x.1)
      ((glitches env (mmaALines ws x.1)).length +
        ((List.range 4).map (fun a => (glitches env (mmaWLines ws x.1 a)).length)).sum)) s1
    let r := (ranked ws).foldl (fun acc x => s.mmaCluster j x.1 x.2 acc) (s2, ({} : MmaCnt), 0)
    (r.1.updFlight f.id (fun g => { g with figs := [r.2.1.sat, r.2.1.zeroed, r.2.1.inexact, r.2.2] })).settleFail f.id

/-- A line the sequencer reads fails its CRC-32C on both reads, or is unsuitable (R55, R94, R403): STEP_CRC, and the
trap. -/
def State.stepCrc (s : State) (d c : Nat) (q : Bool) (idx a : Nat) : State :=
  (s.raise d .seq 0 11 .ucc (seqLog 4 c idx q)).trap c (s.seqRec d c q idx 0x0A 0 a)

/-- Such a line passes on its second read (R55, R94). -/
def State.stepCrcCe (s : State) (d c : Nat) (q : Bool) (idx : Nat) : State :=
  s.raise d .seq 0 12 .ce (seqLog 5 c idx q)

/-- Issue an MMA step: the sequencer reads the ring first, with the checks of R58 (R55). -/
def State.mmaIssue (s : State) (d c : Nat) (q : Bool) (idx : Nat) (ws : List Word) (env : Env) : State :=
  if mmaAccum ws ∨ mmaWin ws = 0 then s.mmaRun d c q idx ws env
  else
    let ln := cloLine (sw ws 5 25 25)
    let l := s.line ln
    if !sbPoison l.sb && !l.crcOk then s.stepCrc d c q idx (128 * ln)
    else (if env.glitch.contains (128 * ln) then s.stepCrcCe d c q idx else s).mmaRun d c q idx ws env

/-- MMA: it is released to its clusters and streams activations through the arrays into output tiles (R42, R126). -/
def execMma (d c : Nat) (q : Bool) (env : Env) (s : State) : Host.Outcome State Fault Refusal :=
  s.memRow d c q kMMA (fun ws _ => mmaAccess ws) (fun idx ws t => t.mmaIssue d c q idx ws env)

end Sys2Proof.Machine
end

