-- ==== Sys2Proof/Machine/Convert.lean ====
section
/-! DEFINITION. The conversion-unit steps CONV, ELEM, STAT and OPT (R61–R84, R128–R133). -/

namespace Sys2Proof.Machine

/-! ### What a conversion unit writes -/

/-- Figures of a cluster's part of a step (R68, Table 8.6). -/
structure CvFig where
  sat : Nat := 0
  zeroed : Nat := 0
  maxSat : Nat := 0
  maxZeroed : Nat := 0
  blocks : Nat := 0
  elems : Nat := 0
  last : Nat := 0
deriving DecidableEq, Repr

/-- Figures of two parts together (R158). -/
def CvFig.add (a b : CvFig) : CvFig :=
  { sat := a.sat + b.sat, zeroed := a.zeroed + b.zeroed, maxSat := max a.maxSat b.maxSat,
    maxZeroed := max a.maxZeroed b.maxZeroed, blocks := a.blocks + b.blocks, elems := a.elems + b.elems,
    last := a.last + b.last }

/-- Figures of the counts of output blocks (R68). -/
def figOf (cs : List BlkCnt) : CvFig :=
  { sat := (cs.map BlkCnt.sat).sum, zeroed := (cs.map BlkCnt.zeroed).sum,
    maxSat := cs.foldl (fun m c => max m c.sat) 0, maxZeroed := cs.foldl (fun m c => max m c.zeroed) 0,
    blocks := (cs.filter (fun c => c.sat ≠ 0 || c.zeroed ≠ 0)).length }

/-- Figures as words 2 to 7 of a step record (Table 8.6). -/
def CvFig.words (x : CvFig) : List Nat :=
  [x.sat, x.zeroed, x.maxSat % 2 ^ 32 + 2 ^ 32 * (x.maxZeroed % 2 ^ 32), x.blocks, x.elems, x.last]

/-- A write of a unit: a whole line, or bytes merged into one. -/
inductive Put where
  | line (ln : Nat) (l : Line)
  | merge (ln mask : Nat) (bs : List Byte) (side : Word)
deriving DecidableEq, Repr

/-- Line number of a write. -/
def Put.ln : Put → Nat
  | .line n _ => n
  | .merge n _ _ _ => n

/-- Do a list of writes in order, up to the first line that is not populated (R420); the second part is that line. -/
def State.doPuts (fid : Nat) : List Put → State → State × Option Nat
  | [], s => (s, none)
  | p :: rest, s =>
    if !s.served (128 * p.ln) then (s, some p.ln)
    else State.doPuts fid rest (match p with
      | .line n l => s.stepWrite fid n l
      | .merge n m bs sd => s.stepMerge fid n m bs sd)

/-- Flags of a written line, from whether an input line it derives from is poisoned (R39, R376). -/
def poFlags (po : Bool) : Nat := if po then flagDerived else 0

/-- The scale bytes of consecutive blocks from block `b0`, as byte-masked writes (R67). -/
def scalePuts (sbase b0 ver : Nat) (xs : List (Nat × Bool)) : List Put :=
  let es := (List.range xs.length).zip xs
  let lns := dedup (es.map (fun e => sbase + (b0 + e.1) / 128))
  lns.map (fun n =>
    let mine := es.filter (fun e => sbase + (b0 + e.1) / 128 = n)
    let bs := mine.foldl (fun acc e => spliceAt acc ((b0 + e.1) % 128) [BitVec.ofNat 8 e.2.1]) (List.replicate 128 (0 : Byte))
    let mask := mine.foldl (fun acc e => acc + 2 ^ ((b0 + e.1) % 128)) 0
    .merge n mask bs (mkSide 0 ver fSCALE (poFlags (mine.any (fun e => e.2.2)))))

/-- Poison of elements spread over pieces of `n` (R39): an element derives from every element of its block. -/
def spread (n : Nat) (ps : List Bool) : List Bool :=
  (pieces n ps).flatMap (fun p => List.replicate p.length (p.any id))

/-- What an emitted output needs: output operand, rounding, working grid, OUT_EXP, version, generator key and counter. -/
structure EmitPar where
  o : Opnd
  stoch : Bool
  g : Int
  outExp : Int
  ver : Nat
  key : Nat
  c0 : Nat
deriving DecidableEq, Repr

/-- Write one output row from column `col0`: stages 5 to 8 (R62). `i` is the index of its first element in the part. -/
def emitRow (p : EmitPar) (orow col0 i : Nat) (ws : List WV) : List Put × CvFig :=
  let f := p.o.fmt
  let pad := roundUp ws.length (granule f) - ws.length
  let q := quantRow f p.stoch p.g p.outExp (ws ++ List.replicate pad ({} : WV)) (rowDraws p.stoch p.key p.c0 i ws.length pad)
  let po := (if isBlock f then spread (blockLen f) (ws.map WV.po) else ws.map WV.po) ++ List.replicate pad false
  let bytes := packCodes (elemBits f) q.codes
  let ln0 := p.o.lineAt orow col0
  let lns := (List.range (bytes.length / 128)).map (fun k =>
    let u := 128 * 8 * k / elemBits f / granule f
    Put.line (ln0 + k) (mkLine ((bytes.drop (128 * k)).take 128) p.ver f
      (poFlags (((po.drop (u * granule f)).take (granule f)).any id))))
  let xs := q.scales.zip ((pieces (blockLen f) po).map (fun b => b.any id))
  (lns ++ (if isBlock f then scalePuts p.o.sbase (p.o.block orow col0) p.ver xs else []),
    { figOf q.cnt with elems := ws.length })

/-- Write the output rows of a part in order: row, first column, values after stage 4. -/
def emitRows (p : EmitPar) : Nat → List (Nat × Nat × List WV) → List Put × CvFig
  | _, [] => ([], {})
  | i, (r, c, ws) :: rest =>
    let a := emitRow p r c i ws
    let b := emitRows p (i + ws.length) rest
    (a.1 ++ b.1, a.2.add b.2)

/-! ### Vector lists (R130) -/

/-- An entry of a vector list: first line, first scale line, format, exponent. -/
structure VecEnt where
  base : Nat := 0
  sbase : Nat := 0
  fmt : Nat := 0
  exp : Int := 0
deriving DecidableEq, Repr

/-- Line number of the vector list of a step. -/
def vecLine (ws : List Word) : Nat := cloLine (sw ws 5 0 25)

/-- Entry `e` of a step's vector list (R130). -/
def State.vecEnt (s : State) (ws : List Word) (e : Nat) : VecEnt :=
  let bs := s.bytesAt (vecLine ws) (32 * e) 10
  { base := cloLine (leAt bs 0 4 % 2 ^ 25), sbase := cloLine (leAt bs 4 4 % 2 ^ 25), fmt := leAt bs 8 1,
    exp := signedOf 8 (leAt bs 9 1) }

/-- The vector an entry names, of `n` elements. -/
def VecEnt.opnd (v : VecEnt) (code n : Nat) : Opnd :=
  { code := code, fmt := v.fmt, base := v.base, sbase := v.sbase, rstr := linesOf v.fmt n, exp := v.exp }

/-- Entries of the vector list that a step uses, with the number of elements each holds (R130); 0 elements stand for the seven
lines of a table. -/
def vecUsed (ws : List Word) : List (Nat × Nat) :=
  if stKind ws = kCONV then (if cvRed ws ≠ 0 then [(0, cvRowLen ws)] else [])
  else
    (if cvOp ws ≠ 0 then [(0, cvRows ws)] else []) ++ (if elColmul ws then [(1, cvRowLen ws)] else []) ++
      (if elFn ws = 9 then [(2, 0)] else []) ++ (if cvRed ws ≠ 0 then [(3, cvRows ws)] else [])

/-- The refusals at step start that the vector list calls for (R75, R130). -/
def State.vecRefusals (s : State) (ws : List Word) : List Nat :=
  (vecUsed ws).flatMap (fun x =>
    let v := s.vecEnt ws x.1
    let okFmt :=
      if x.1 = 2 then decide (v.fmt = 0)
      else if x.1 = 3 then decide (v.fmt = fINT32)
      else if stKind ws = kCONV then decide (v.fmt = if cvRed ws = 1 then fINT32 else fBS16)
      else v.fmt = fINT32 || v.fmt = fBS16
    if !okFmt then [7]
    else if x.1 = 2 then
      rsn (!(s.isCel (128 * v.base) && s.isCel (128 * (v.base + 6)))) 9 ++
        rsn (fnTabOf (s.bytesAt v.base 0 896)).bad 0xD
    else rsn (!s.opndOk (v.opnd 0 x.2) 0 (x.2 - 1)) 9)

/-- Detections in reading the vector list and what it names, for rows `r0 … r1 − 1` and columns `c0 … c1 − 1` (R84). -/
def State.vecDets (s : State) (ws : List Word) (r0 r1 c0 c1 : Nat) : List Det :=
  if !cvUsesList ws then []
  else
    s.lineDets { fmt := 0, code := 0xA } (vecLine ws) ++
    (vecUsed ws).flatMap (fun x =>
      let v := s.vecEnt ws x.1
      if x.1 = 0 then
        if stKind ws = kCONV then s.opDets false none (v.opnd 3 x.2) [0] c0 c1
        else s.opDets false none (v.opnd 0xB x.2) [0] r0 r1
      else if x.1 = 1 then s.opDets false none (v.opnd 0xC x.2) [0] c0 c1
      else if x.1 = 2 then (List.range 7).flatMap (fun i => s.lineDets { fmt := 0, code := 0xD, block := i } (v.base + i))
      else [])

/-- Lines that hold an element and its scale. -/
def Opnd.elemLines (o : Opnd) (r k : Nat) : List Nat :=
  o.rowLines r k (k + 1) ++ (if isBlock o.fmt then [o.scaleLine (o.block r k)] else [])

/-- An element derives from a poisoned line. -/
def State.elemPo (s : State) (o : Opnd) (r k : Nat) : Bool := s.anyPoison (o.elemLines r k)

/-- An element as an exact value (R31, R62). -/
def State.cvuDy (s : State) (o : Opnd) (r k : Nat) : Dy :=
  let x := s.cvuVal o r k
  { m := x.1, e := x.2 }

/-! ### CONV (R62–R70) -/

/-- OSHIFT, RND, RND_GEN, OUT_EXP and OMUL of a CONV or ELEM (Table 7.6). -/
def cvOshift (ws : List Word) : Int := si ws 3 50 7
def cvRnd (ws : List Word) : Bool := sb ws 3 57
def cvGen (ws : List Word) : Nat := sw ws 3 60 4
def cvOutExp (ws : List Word) : Int := si ws 2 56 8
def cvOmul (ws : List Word) : Nat := sw ws 6 32 16

/-- Stages 1 to 3 of one element of a CONV (R62): `bv` is its bias element. -/
def convElem (ws : List Word) (x : Int × Int) (bv : Option Dy) (po : Bool) : WV :=
  let g := cvOutExp ws - 24
  let w := shiftFloor (x.1 * (cvOmul ws : Int)) (x.2 + cvOshift ws - 15 - g)
  let lim : Int := 2 ^ 62 - 1
  let w1 := clampInt (-lim) lim w
  { w := w1 + (match bv with | none => 0 | some b => b.onGrid g), sat := decide (w1 ≠ w), po := po }

/-- Stage 4: groups of columns rotated, poison spread over each group (R69). -/
def convRotate (ws : List Word) (key c0 : Nat) (vs : List WV) : List WV :=
  if cvOp ws = 0 then vs
  else
    let n := rotSize (cvOp ws)
    let gs := pieces n vs
    (List.zip (List.range gs.length) gs).flatMap (fun x =>
      let rot := rotGroup key (sw ws 6 0 32) (c0 + n * x.1) (x.2.map WV.w)
      let po := x.2.any WV.po
      List.zipWith (fun (v : WV) w => { v with w := w, po := po }) x.2 rot)

/-- Row `r`, columns `c0 … c1 − 1` of a CONV's source after stage 4. `lp` says that the vector list is poisoned. -/
def State.convRow (s : State) (ws : List Word) (d l : Nat) (lp : Bool) (c0 c1 r : Nat) : List WV :=
  let o := cvSrc ws
  let b := (s.vecEnt ws 0).opnd 3 (cvRowLen ws)
  let vs := (List.range (c1 - c0)).map (fun i =>
    let k := c0 + i
    if cvRed ws = 0 then convElem ws (s.cvuVal o r k) none (s.elemPo o r k)
    else convElem ws (s.cvuVal o r k) (some (s.cvuDy b 0 k)) (s.elemPo o r k || s.elemPo b 0 k || lp))
  convRotate ws (s.srgKey d l (sw ws 4 50 4)) c0 vs

/-- The parameters with which a cluster emits (R62, R73). -/
def State.emitPar (s : State) (ws : List Word) (d l : Nat) (g : Int) : EmitPar :=
  { o := cvDst ws, stoch := cvRnd ws, g := g, outExp := cvOutExp ws, ver := verCompute ws,
    key := s.srgKey d l (cvGen ws), c0 := s.srgCtr d l (cvGen ws) }

/-- What a cluster writes in a CONV step, its part in source coordinates (R62, R129). -/
def State.convPart (s : State) (ws : List Word) (d l : Nat) (part : Nat × Nat × Nat × Nat) : List Put × CvFig :=
  let (r0, r1, c0, c1) := part
  let lp := cvUsesList ws && s.anyPoison [vecLine ws]
  let g : Int := cvOutExp ws - 24 - (if cvOp ws = 0 then 0 else (cvOp ws : Int) + 1)
  let rows := (List.range (r1 - r0)).map (fun i => s.convRow ws d l lp c0 c1 (r0 + i))
  let out :=
    if cvTranspose ws then
      (List.range (c1 - c0)).map (fun c => (c0 + c, r0, rows.map (fun v => v.getD c {})))
    else (List.range (r1 - r0)).map (fun i => (r0 + i, c0, rows.getD i []))
  emitRows (s.emitPar ws d l g) 0 (if r0 < r1 ∧ c0 < c1 then out else [])

/-! ### ELEM (R78, R79) -/

/-- The function an ELEM evaluates: none for the identity (R77). -/
def State.elTab (s : State) (ws : List Word) : Option FnTab :=
  if elFn ws = 0 then none
  else if elFn ws = 9 then some (fnTabOf (s.bytesAt (s.vecEnt ws 2).base 0 896))
  else some (stdTab (elFn ws))

/-- Stages 1 to 6 of one element of an ELEM (R78): value, and whether it counts in DOMAIN. `rv` and `cv` are its vector
elements. -/
def elemVal (ws : List Word) (tab : Option FnTab) (redExp : Int) (x : Dy) (rv cv : Option Dy) : Dy × Bool :=
  let x1 := match rv with
    | none => x
    | some v => if cvOp ws = 1 then x.add v.neg else x.mul v
  let x2 : Dy := { m := x1.m * (cvOmul ws : Int), e := x1.e + cvOshift ws - 15 + 16 }
  let exact := match tab with | none => false | some t => t.mode ≠ 0
  let x3 : Dy := if exact then x2 else { m := x2.onGrid 0 }
  let x4 := x3.add { m := si ws 6 0 32 }
  let y := match tab with
    | none => some { x4 with e := x4.e - 16 }
    | some t => t.eval x4
  let y1 := match y, tab with
    | some v, _ => v
    | none, some t => t.substitute (cvDst ws).fmt (cvOutExp ws) redExp
    | none, none => {}
  (match cv with | none => y1 | some v => y1.mul v, y.isNone)

/-- A row of an ELEM after stage 6: values, poison, and DOMAIN counts. -/
def State.elemRow (s : State) (ws : List Word) (ap : Bool) (tab : Option FnTab) (redExp : Int) (c0 c1 r : Nat) :
    List (Dy × Bool) × Nat :=
  let o := cvSrc ws
  let rv := (s.vecEnt ws 0).opnd 0xB (cvRows ws)
  let cv := (s.vecEnt ws 1).opnd 0xC (cvRowLen ws)
  let xs := (List.range (c1 - c0)).map (fun i =>
    let k := c0 + i
    let v := elemVal ws tab redExp (s.cvuDy o r k) (if cvOp ws = 0 then none else some (s.cvuDy rv 0 r))
      (if elColmul ws then some (s.cvuDy cv 0 k) else none)
    (v.1, ap || s.elemPo o r k || (cvOp ws ≠ 0 && s.elemPo rv 0 r) || (elColmul ws && s.elemPo cv 0 k), v.2))
  (xs.map (fun x => (x.1, x.2.1)), (xs.filter (fun x => x.2.2)).length)

/-- Absolute value. -/
def Dy.abs (a : Dy) : Dy := { a with m := a.m.natAbs }

/-- The greater of two values. -/
def Dy.max (a b : Dy) : Dy := if (a.add b.neg).m < 0 then b else a

/-- The row reduction of an ELEM, on the grid of RED_EXP before its clamp (R79). -/
def redVal (op : Nat) (redExp : Int) (xs : List Dy) : Int :=
  let t : Dy := if op = 1 then xs.foldl (fun m x => m.max x.abs) {}
    else if op = 2 then xs.foldl Dy.add {} else xs.foldl (fun a x => a.add (x.mul x)) {}
  shiftEven t.m (t.e - redExp)

/-- What a cluster writes in an ELEM step (R78, R79). -/
def State.elemPart (s : State) (ws : List Word) (d l : Nat) (part : Nat × Nat × Nat × Nat) : List Put × CvFig :=
  let (r0, r1, c0, c1) := part
  let tab := s.elTab ws
  let red := s.vecEnt ws 3
  let ap := (cvUsesList ws && s.anyPoison [vecLine ws]) ||
    (elFn ws = 9 && s.anyPoison ((List.range 7).map (fun i => (s.vecEnt ws 2).base + i)))
  let g := cvOutExp ws - 24
  let rows := (List.range (r1 - r0)).map (fun i => (r0 + i, s.elemRow ws ap tab red.exp c0 c1 (r0 + i)))
  let rows := if c0 < c1 then rows else []
  let e := if (cvDst ws).fmt = 0 then ([], {})
    else emitRows (s.emitPar ws d l g) 0
      (rows.map (fun x => (x.1, c0, x.2.1.map (fun y => { w := y.1.onGrid g, po := y.2 }))))
  let reds := if cvRed ws = 0 then [] else rows.map (fun x =>
    let v := redVal (cvRed ws) red.exp (x.2.1.map Prod.fst)
    let u := clampInt (-(2 ^ 31)) (2 ^ 31 - 1) v
    (x.1, u, decide (u ≠ v), x.2.1.any Prod.snd))
  let puts := reds.map (fun x =>
    let off := 4 * (x.1 % 32)
    Put.merge (red.base + x.1 / 32) (15 * 2 ^ off) (spliceAt (List.replicate 128 0) off (leBytes 4 (unsignedOf 32 x.2.1)))
      (mkSide 0 (verCompute ws) fINT32 (poFlags x.2.2.2)))
  (e.1 ++ puts, { e.2 with sat := e.2.sat + (reds.filter (fun x => x.2.2.1)).length,
                           last := (rows.map (fun x => x.2.2)).sum })

/-! ### OPT (R80–R82) -/

/-- A block quantised from exact values (R62 stages 5–7, R81): values in units of 2^(scale code − 127), scale code,
counts. -/
def quantExact (f : Nat) (xs : List Dy) (rs : List Nat) : List Int × Nat × BlkCnt :=
  let c := commonGrid xs
  quantBlock f true c.1 (c.2.map (fun w => { w := w })) rs

/-- Quantised elements as exact values. -/
def quantDys (q : List Int × Nat × BlkCnt) : List Dy := q.1.map (fun v => { m := v, e := (q.2.1 : Int) - 127 })

/-- Line number of the OPT parameter line (Table 7.7). -/
def optParamLine (ws : List Word) : Nat := cloLine (sw ws 2 32 25)

/-- What a cluster writes for unit `u` of an OPT step, the first element of the unit being element `i` of its part
(R81, R82, R133): its moments before its weights. -/
def State.optUnit (s : State) (ws : List Word) (p : OptParam) (key c0 i u : Nat) : List Put × CvFig :=
  let ow := optOp ws 0
  let om := optOp ws 1
  let ov := optOp ws 2
  let og := optOp ws 3
  let ks := List.range 256
  let col (o : Opnd) : List Dy := ks.map (fun e => s.cvuDy o 0 (256 * u + e))
  let d0 := ks.map (fun e => draw key ((c0 + 2 * (i + e)) % 2 ^ 63))
  let rw := ks.map (fun e => draw key ((c0 + 2 * (i + e) + 1) % 2 ^ 63) % 65536)
  let gs := col og
  let w := col ow
  let qm := (pieces 32 ((List.zipWith (optM p) (col om) gs).zip (d0.map (fun x => x % 65536)))).map (fun b =>
    quantExact fBS8 (b.map Prod.fst) (b.map Prod.snd))
  let qv := (pieces 32 ((List.zipWith (optV p) (col ov) gs).zip (d0.map (fun x => x / 65536 % 65536)))).map (fun b =>
    quantExact fBS8 (b.map Prod.fst) (b.map Prod.snd))
  let mn := qm.flatMap quantDys
  let vn := qv.flatMap quantDys
  let ew := s.effExp false ow u
  let up := ks.map (fun e => optW p (w.getD e {}) (mn.getD e {}) (vn.getD e {}) ew)
  let qw := quantExact fBS16 (up.map Prod.fst) rw
  let pp := s.anyPoison [optParamLine ws]
  let inPo (o : Opnd) (a z : Nat) : Bool := s.anyPoison (o.lines [0] (256 * u + a) (256 * u + z))
  let mPo (o : Opnd) (k : Nat) : Bool := pp || inPo o (128 * k) (128 * k + 128) || inPo og (128 * k) (128 * k + 128)
  let wPo := inPo ow 0 256 || mPo om 0 || mPo om 1 || mPo ov 0 || mPo ov 1
  let ver := verCompute ws
  let put8 (o : Opnd) (q : List (List Int × Nat × BlkCnt)) : List Put :=
    (List.range 2).map (fun k => Put.line (o.base + 2 * u + k)
      (mkLine (packCodes 8 (((q.drop (4 * k)).take 4).flatMap (fun b => b.1.map (encodeElem fBS8)))) ver fBS8
        (poFlags (mPo o k)))) ++
    scalePuts o.sbase (8 * u) ver ((List.range 8).map (fun k => ((q.getD k ([], 0, {})).2.1, mPo o (k / 4))))
  let putW := (List.range 4).map (fun k => Put.line (ow.base + 4 * u + k)
      (mkLine (packCodes 16 (((qw.1.drop (64 * k)).take 64).map (encodeElem fBS16))) ver fBS16 (poFlags wPo))) ++
    scalePuts ow.sbase u ver [(qw.2.1, wPo)]
  let fig := figOf (qm.map (fun b => b.2.2) ++ qv.map (fun b => b.2.2) ++ [qw.2.2])
  (put8 om qm ++ put8 ov qv ++ putW,
    { fig with elems := 256, last := (up.filter (fun x => x.2.2)).length })

/-- DOMAIN counts of unit `u` of an OPT step (R81): elements whose reciprocal square root has no argument above zero. -/
def State.optDomain (s : State) (ws : List Word) (p : OptParam) (key c0 i u : Nat) : Nat :=
  let ov := optOp ws 2
  let og := optOp ws 3
  let ks := List.range 256
  let col (o : Opnd) : List Dy := ks.map (fun e => s.cvuDy o 0 (256 * u + e))
  let d0 := ks.map (fun e => draw key ((c0 + 2 * (i + e)) % 2 ^ 63) / 65536 % 65536)
  let qv := (pieces 32 ((List.zipWith (optV p) (col ov) (col og)).zip d0)).map (fun b =>
    quantExact fBS8 (b.map Prod.fst) (b.map Prod.snd))
  ((qv.flatMap quantDys).filter (fun v => ((v.mul p.bc2).add p.eps).m ≤ 0)).length

/-- What a cluster writes in an OPT step, and its DOMAIN count. -/
def State.optPuts (s : State) (ws : List Word) (d l u0 u1 : Nat) : List Put × CvFig × Nat :=
  let p := optParam (s.line (optParamLine ws)).bytes
  let key := s.srgKey d l (sw ws 3 50 4)
  let c0 := s.srgCtr d l (sw ws 3 50 4)
  (List.range (u1 - u0)).foldl (fun acc k =>
    let x := s.optUnit ws p key c0 (256 * k) (u0 + k)
    (acc.1 ++ x.1, acc.2.1.add x.2, acc.2.2 + s.optDomain ws p key c0 (256 * k) (u0 + k))) ([], {}, 0)

/-! ### Issue -/

/-- What one cluster does in a conversion step: its detections, its lines read, its writes and figures, its DOMAIN and
UNDERFLOW counts and the draws it takes. -/
structure CvWork where
  dets : List Det
  reads : List Nat
  puts : List Put
  fig : CvFig
  domain : Nat
  underflow : Nat
  gen : Nat
  draws : Nat

/-- Lines of the vector list and of what it names that a part reads (R84). -/
def State.vecReads (s : State) (ws : List Word) (r0 r1 c0 c1 : Nat) : List Nat :=
  if !cvUsesList ws then []
  else vecLine ws :: (vecUsed ws).flatMap (fun x =>
    let v := s.vecEnt ws x.1
    if x.1 = 0 ∧ stKind ws ≠ kCONV then (v.opnd 0xB x.2).lines [0] r0 r1
    else if x.1 ≤ 1 then (v.opnd 3 x.2).lines [0] c0 c1
    else if x.1 = 2 then (List.range 7).map (fun i => v.base + i)
    else [])

/-- The work of rank `j` of `m` clusters in a CONV or ELEM step (R129). -/
def State.cvWork (s : State) (ws : List Word) (d l m j : Nat) : CvWork :=
  let part := cvPart ws m j
  let (r0, r1, c0, c1) := part
  let rows := (List.range (r1 - r0)).map (fun i => r0 + i)
  let w := if stKind ws = kCONV then s.convPart ws d l part else s.elemPart ws d l part
  { dets := s.vecDets ws r0 r1 c0 c1 ++ s.opDets false (verWant ws) (cvSrc ws) rows c0 c1
    reads := s.vecReads ws r0 r1 c0 c1 ++ (cvSrc ws).lines rows c0 c1
    puts := w.1, fig := w.2, domain := if stKind ws = kELEM then w.2.last else 0, underflow := 0
    gen := cvGen ws, draws := if cvRnd ws then ceilDiv w.2.elems 2 else 0 }

/-- The work of rank `j` of `m` clusters in an OPT step (R133). -/
def State.optWork (s : State) (ws : List Word) (d l m j : Nat) : CvWork :=
  let (u0, u1) := optPart ws m j
  let w := s.optPuts ws d l u0 u1
  { dets := s.lineDets { fmt := 0, code := 0xE } (optParamLine ws) ++ (List.range 4).flatMap (fun k =>
      s.opDets false (if k = 0 then verWant ws else none) (optOp ws k) [0] (256 * u0) (256 * u1))
    reads := optParamLine ws :: (List.range 4).flatMap (fun k => (optOp ws k).lines [0] (256 * u0) (256 * u1))
    puts := w.1, fig := w.2.1, domain := w.2.2, underflow := w.2.1.last, gen := sw ws 3 50 4, draws := 2 * w.2.1.elems }

/-- The work of every cluster of a step. -/
def State.cvJobs (s : State) (ws : List Word) (d : Nat) : List (Nat × CvWork) :=
  let m := (stClusters ws).length
  (ranked ws).map (fun x => (x.2, if stKind ws = kOPT then s.optWork ws d x.2 m x.1 else s.cvWork ws d x.2 m x.1))

/-- Accesses of a conversion step (R289). -/
def cvAccess (ws : List Word) (d : Nat) (s : State) : List (Nat × Nat) :=
  (s.cvJobs ws d).flatMap (fun x => x.2.reads.map (fun n => (0, n)) ++
    x.2.puts.map (fun p => match p with | .line n _ => (1, n) | .merge n _ _ _ => (2, n)))

/-- Counters and limits of a cluster at the end of a conversion step (R68, Tables 4.10, 4.11). -/
def State.cvCount (s : State) (d l : Nat) (w : CvWork) : State :=
  let s1 := ((((s.addRg d .cvu l 0x38 w.fig.elems).addRg d .cvu l 0x40 w.fig.sat).addRg d .cvu l 0x48 w.fig.zeroed).addRg
    d .cvu l 0x50 w.domain).addRg d .cvu l 0x58 w.underflow
  let s2 := if s1.fld d .cvu l 0x20 0 32 < w.fig.sat then s1.cause d .cvu l 13 .none else s1
  if s2.fld d .cvu l 0x20 32 32 < w.fig.zeroed then s2.cause d .cvu l 14 .none else s2

/-- Residue errors of the surroundings on the lanes of a conversion unit (R83). -/
def cvResidues (env : Env) (l : Nat) : List Nat := (env.residue.filter (fun e => e.1 = l)).map (fun e => e.2.1)

/-- Run one cluster's part of a conversion step: it writes unless it made a detection (R83). -/
def State.cvCluster (f : Flight) (env : Env) (s : State) (x : Nat × CvWork) : State :=
  let l := x.1
  if !x.2.dets.isEmpty then s
  else match cvResidues env l with
  | lane :: more =>
    (s.unitTrap f l (lane % 128 * 256) { cause := 6, w2 := lane % 128 }).moreTraps f.c more.length
  | [] =>
    match State.doPuts f.id x.2.puts s with
    | (t, some ln) => t.unitTrap f l 0 { cause := 9, w2 := 9, w3 := 128 * ln }
    | (t, none) => t.cvCount f.d l x.2

/-- The generators advance when the step completes (R73, R82). -/
def State.cvAdvance (s : State) (d : Nat) (x : Nat × CvWork) : State :=
  if x.2.draws = 0 then s
  else s.setLive (regAddr d .srg x.1 (0x48 + 16 * x.2.gen)) (wordOf ((s.srgCtr d x.1 x.2.gen + x.2.draws) % 2 ^ 63))

/-- Issue a CONV, ELEM or OPT step (R62, R78, R81). -/
def State.cvIssue (s : State) (d c : Nat) (q : Bool) (idx : Nat) (ws : List Word) (env : Env) : State :=
  let f := s.newFlight d c q idx ws
  let s1 := (s.advance d c q ws).fly f
  let vl := (stKind ws = kCONV || stKind ws = kELEM) && cvUsesList ws
  let vecBad := vl && !(s.lineDets { fmt := 0, code := 0xA } (vecLine ws)).isEmpty
  match lowest (if vl && !vecBad then s.vecRefusals ws else []) with
  | some r => s1.refuseStart f ((stClusters ws).headD 0) r
  | none =>
    let jobs := s.cvJobs ws d
    let s2 := forEach jobs (fun x t => t.reportDets f x.1 (firstOf 0 x.2.dets) (glitches env x.2.reads).length) s1
    let s3 := jobs.foldl (fun t x => State.cvCluster f env t x) s2
    let ok := jobs.filter (fun x => x.2.dets.isEmpty)
    let fig := ok.foldl (fun a x => a.add x.2.fig) ({} : CvFig)
    let s4 := (s3.updFlight f.id (fun g => { g with figs := fig.words })).settleFail f.id
    match s4.flight f.id with
    | some g => if g.failed then s4 else forEach jobs (fun x t => t.cvAdvance d x) s4
    | none => s4

/-- CONV: it folds, scales, biases, rotates, rounds, saturates and encodes a tensor on each cluster of its mask (R62). -/
def execConv (d c : Nat) (q : Bool) (env : Env) (s : State) : Host.Outcome State Fault Refusal :=
  s.memRow d c q kCONV (fun ws t => cvAccess ws d t) (fun idx ws t => t.cvIssue d c q idx ws env)

/-- ELEM: it evaluates one function per element, with a row operation, a column vector and a row reduction (R78). -/
def execElem (d c : Nat) (q : Bool) (env : Env) (s : State) : Host.Outcome State Fault Refusal :=
  s.memRow d c q kELEM (fun ws t => cvAccess ws d t) (fun idx ws t => t.cvIssue d c q idx ws env)

/-- OPT: it updates weights and moments from the reduced gradient (R81). -/
def execOpt (d c : Nat) (q : Bool) (env : Env) (s : State) : Host.Outcome State Fault Refusal :=
  s.memRow d c q kOPT (fun ws t => cvAccess ws d t) (fun idx ws t => t.cvIssue d c q idx ws env)

/-! ### STAT (R54, R132) -/

/-- The least exponent A with |x| < 2^A, from −128 to 127 (R54). -/
def aexpOf (x : Dy) : Int := if x.m = 0 then -128 else clampInt (-128) 127 (x.ilog + 1)

/-- AEXP of a cluster's part of a STAT (R132). -/
def State.statPart (s : State) (ws : List Word) (m j : Nat) : Int :=
  let (r0, r1, c0, c1) := cvPart ws m j
  (List.range (r1 - r0)).foldl (fun a i => (List.range (c1 - c0)).foldl (fun a k =>
    max a (aexpOf (s.cvuDy (cvSrc ws) (r0 + i) (c0 + k)))) a) (-128)

/-- Detections of a cluster's part of a STAT, and its lines. -/
def State.statReads (s : State) (ws : List Word) (m j : Nat) : List Det × List Nat :=
  let (r0, r1, c0, c1) := cvPart ws m j
  let rows := (List.range (r1 - r0)).map (fun i => r0 + i)
  (s.opDets false (verWant ws) (cvSrc ws) rows c0 c1, (cvSrc ws).lines rows c0 c1)

/-- Issue a STAT step: its clusters measure; the ring update follows (R61, R132). -/
def State.statIssue (s : State) (d c : Nat) (q : Bool) (idx : Nat) (ws : List Word) (env : Env) : State :=
  let m := (stClusters ws).length
  let f := s.newFlight d c q idx ws
  let parts := (ranked ws).map (fun x => (x.2, s.statReads ws m x.1, s.statPart ws m x.1))
  let a := parts.foldl (fun a x => max a x.2.2) (-128)
  let po := parts.any (fun x => s.anyPoison x.2.1.2)
  let s1 := (s.advance d c q ws).fly { f with aexp := some a, poisoned := po, figs := [unsignedOf 8 a, sw ws 6 0 48] }
  let s2 := forEach parts (fun x t => t.reportDets f x.1 (firstOf 0 x.2.1.1) (glitches env x.2.1.2).length) s1
  forEach parts (fun x t => match cvResidues env x.1, x.2.1.1 with
    | lane :: more, [] => (t.unitTrap f x.1 (lane % 128 * 256) { cause := 6, w2 := lane % 128 }).moreTraps c more.length
    | _, _ => t) s2

/-- STAT: its clusters measure the amax exponent of a tensor (R54, R79, R132). -/
def execStat (d c : Nat) (q : Bool) (env : Env) (s : State) : Host.Outcome State Fault Refusal :=
  s.memRow d c q kSTAT (fun ws t => (ranked ws).flatMap (fun x =>
    (t.statReads ws (stClusters ws).length x.1).2.map (fun n => (0, n)))) (fun idx ws t => t.statIssue d c q idx ws env)

/-- The ring line after the update of one die (R132). -/
def ringUpdate (bs : List Byte) (seq : Nat) (a : Int) : List Byte :=
  let i := seq % 16
  let old := signedOf 8 (leAt bs (8 * i) 1)
  let same := nbit (leAt bs (8 * i + 1) 1) 0 && leAt bs (8 * i + 2) 6 = seq
  spliceAt bs (8 * i) (leBytes 1 (unsignedOf 8 (if same then max old a else a)) ++ [1] ++ leBytes 6 seq)

/-- The ring update of a STAT step in flight, one read-modify-write of the whole line (R132). -/
def State.statRing (s : State) (f : Flight) (env : Env) : State :=
  if f.failed then s.endUnit f 0
  else
    let ln := cloLine (sw f.ws 4 0 25)
    if !s.served (128 * ln) then
      let s1 := s.unitTrap f 0x3E 0 { cause := 9, w2 := 9, w3 := 128 * ln }
      s1.endUnit { f with failed := true } 0
    else match s.waits [(2, ln)] with
    | x :: _ => s.snoopAll [x]
    | [] =>
      let l := s.line ln
      let bad := !sbPoison l.sb && !l.crcOk
      let fl := if bad then flagPoison else Nat.lor (sbFlags l.sb) (poFlags f.poisoned)
      let s1 := if env.glitch.contains (128 * ln) && !bad then
        s.raise f.d .seq 0 12 .ce (seqLog 5 f.c f.idx f.defer) else s
      let s2 := s1.stepWrite f.id ln
        (mkLine (ringUpdate l.bytes (sw f.ws 6 0 48) (f.aexp.getD (-128))) (verCompute f.ws) 0 fl)
      s2.endUnit { f with poisoned := f.poisoned || decide (fl % 2 = 1) } 0

end Sys2Proof.Machine
end

