-- ==== Sys2Proof/Machine/EngOps.lean ====
section
/-! DEFINITION. What a racking engine does with a piece of its work (R120, R134–R139, R145, R274). -/

namespace Sys2Proof.Machine

/-- The global address of a local address of this module (R120). -/
def State.ownGa (s : State) (d a : Nat) : Nat := a + s.ownId d * 2 ^ 48

/-- Add to word `k` of a flight's figures. -/
def State.addFig (s : State) (fid k n : Nat) : State :=
  s.updFlight fid (fun f => { f with figs := f.figs.set k (f.figs.getD k 0 + n) })

/-- Lines moved: ENG_CNT_LINES and the first figure of the step record (Tables 8.6, 24.7). -/
def State.moved (s : State) (f : Flight) (n : Nat) : State := (s.addRg f.d .eng f.eng 0x20 n).addFig f.id 0 n

/-- REMOTE_FAIL of line or entry `i` with a fabric status (Table 7.16). -/
def State.remoteFail (s : State) (f : Flight) (i st ga : Nat) : State :=
  s.engTrap f 0x21 9 (f.eng + i % 2 ^ 24 * 256 + st * 2 ^ 32) ga

/-- HOST_FAIL of line `i` with a link status (Table 7.16). -/
def State.hostFail (s : State) (f : Flight) (i st la : Nat) : State :=
  s.engTrap f 0x22 10 (f.eng + i % 2 ^ 24 * 256 + st * 2 ^ 32) la

/-- RACK_CRC of line or entry `i` (Table 7.16). -/
def State.rackCrc (s : State) (f : Flight) (i ga : Nat) : State := s.engTrap f 0x20 8 (f.eng + i % 2 ^ 24 * 256) ga

/-- Corrected second reads of an engine (R145). -/
def State.rackCe (s : State) (f : Flight) (n : Nat) : State :=
  if n = 0 then s else s.raise f.d .eng f.eng 13 .ce (6 + f.c * 2 ^ 24 + f.idx * 2 ^ 32)

/-- An engine reads a line of this module (R145, R121): none where the read traps. -/
def State.engRead (s : State) (f : Flight) (env : Env) (i a : Nat) (ver : Option Nat) : State × Option Line :=
  if !s.served a then (s.remoteFail f i 1 (s.ownGa f.d a), none)
  else
    let l := s.line (a / 128)
    let stale := match ver with | none => false | some v => decide (sbVer l.sb ≠ v)
    let bad := !sbPoison l.sb && !l.crcOk
    let s1 := s.rackCe f (if bad then 0 else (glitches env [a / 128]).length)
    let s2 := if stale then
      s1.unitTrap f (0x30 + f.eng) 0 { cause := 7, w2 := ver.getD 0 + sbVer l.sb * 65536, w3 := a } else s1
    let s3 := if bad then s2.rackCrc f i (s.ownGa f.d a) else s2
    (s3, if stale || bad then none else some l)

/-- A line with the version that a copy of it takes (R121). -/
def copyLine (ws : List Word) (l : Line) : Line := { l with sb := withBits l.sb 32 16 (verCopy ws (sbVer l.sb)) }

/-- REPLICA counts a copied line whose version is not VER (R136). -/
def State.noteStale (s : State) (f : Flight) (l : Line) : State :=
  if stKind f.ws = kREPLICA && sbVer l.sb ≠ stVer f.ws then s.addFig f.id 1 1 else s

/-- Write a copied line at a local address of this module (R134): REMOTE_FAIL where it is not populated (R420). -/
def State.engPut (s : State) (f : Flight) (i a : Nat) (l : Line) : State :=
  if !s.served a then s.remoteFail f i 1 (s.ownGa f.d a)
  else ((s.noteStale f l).stepWrite f.id (a / 128) (copyLine f.ws l)).moved f 1

/-- A request of an engine goes out: it is waited for (R215). -/
def State.engSend (s : State) (f : Flight) (i : Nat) (act : LineAct) (r : FRec) : State :=
  (s.updFlight f.id (fun g => { g with wait := g.wait + 1 })).issue f.d (.eng f.id i act) { r with ctx := f.c }

/-- Payload of a WRITE or MCAST record (Table 12.6). -/
def payWrite (l : Line) (mask : Nat) : List Byte := padTo 128 l.bytes ++ leBytes 8 l.sb.toNat ++ leBytes 16 mask

/-- The result of a host request: a request that is not sent fails the step (R288, R420). -/
def State.hostSent (s : State) (f : Flight) (i la : Nat) (r : State × Option Nat) : State :=
  match r.2 with
  | some st => s.hostFail f i st la
  | none => r.1.updFlight f.id (fun g => { g with wait := g.wait + 1 })

/-- Version an engine expects of its source lines (Table 7.3). -/
def engVer (ws : List Word) : Option Nat := if stVchk ws && stKind ws ≠ kREPLICA then some (stVer ws) else none

/-- Copy one line (R134, R136). -/
def State.eCopy (s : State) (f : Flight) (env : Env) (i src dst : Nat) (flag : Bool) : State :=
  let own := s.ownId f.d
  let k := stKind f.ws
  let la := gaLocal src
  let lb := gaLocal dst
  if gaMod src ≠ own then
    s.engSend f i (.line lb) { op := opRead, dstMod := gaMod src, addr := src % 2 ^ 60 }
  else if k = kDECANT && !s.isMem la then
    s.hostSent f i la (s.hostRead f.d la (.eng f.id i (.line lb)))
  else match s.engRead f env i la (engVer f.ws) with
  | (t, none) => t
  | (t, some l) =>
    if gaMod dst ≠ own then
      (t.engSend f i .none
        { op := if k = kMCAST then opMcast else opWrite, flag := flag, dstMod := gaMod dst, src := la / 128 + 1,
          addr := if k = kMCAST then lb + sw f.ws 4 48 12 * 2 ^ 48 else dst % 2 ^ 60,
          pay := payWrite (copyLine f.ws l) (2 ^ 128 - 1) }).moved f 1
    else if k = kDECANT && !t.isMem lb then
      (t.hostSent f i lb (t.hostWrite f.d lb (some (la / 128)) (copyLine f.ws l) (.eng f.id i .none))).moved f 1
    else t.engPut f i lb l

/-- A run of bytes cut at line boundaries: offset within the run, length (R139). -/
def byteRuns (off n : Nat) : List (Nat × Nat) :=
  let first := min n (128 - off % 128)
  let rest := n - first
  (if first = 0 then [] else [(0, first)]) ++
    (List.range ((rest + 127) / 128)).map (fun k => (first + 128 * k, min 128 (rest - 128 * k)))

/-- Bytes placed in a line of zeros at an offset, with their mask. -/
def placed (off : Nat) (bs : List Byte) : List Byte × Nat :=
  (spliceAt (List.replicate 128 0) off bs, (2 ^ bs.length - 1) * 2 ^ off)

/-- Merge bytes that an engine copied into a line of this module (R139, R175): they carry the sideband of their source. -/
def State.engMerge (s : State) (f : Flight) (i a : Nat) (bs : List Byte) (side : Word) : State :=
  if !s.served a then s.remoteFail f i 1 (s.ownGa f.d (a / 128 * 128))
  else
    let p := placed (a % 128) bs
    s.stepMerge f.id (a / 128) p.2 p.1 side

/-- Sideband of scale bytes copied from a line (R121, R139). -/
def scaleSide (ws : List Word) (sb : Word) : Word := mkSide 0 (verCopy ws (sbVer sb)) (sbFmt sb) (sbFlags sb)

/-- The bytes of one run go to where they belong, where the line that holds them was read (R139). -/
def State.ePlaceRun (s : State) (f : Flight) (i la b n : Nat) (x : State × Option Line) : State :=
  match x.2 with
  | none => x.1
  | some l =>
    let bs := s.bytesAt 0 la n
    let side := scaleSide f.ws l.sb
    if gaMod b = s.ownId f.d then x.1.engMerge f i (gaLocal b) bs side
    else
      let p := placed (gaLocal b % 128) bs
      x.1.engSend f i .none { op := opWrite, dstMod := gaMod b, addr := b / 128 * 128 % 2 ^ 60,
                              pay := payWrite { bytes := p.1, sb := withBits side 0 32 (crc32c p.1).toNat } p.2 }

/-- Copy one run of scale bytes (R139): `a` a source byte address and `b` a destination byte address, both global; the source
run lies in this module. -/
def State.ePutRun (f : Flight) (env : Env) (i a b n : Nat) (s : State) : State :=
  s.ePlaceRun f i (gaLocal a) b n (s.engRead f env i (gaLocal a / 128 * 128) none)

/-- Fetch one run of scale bytes that lies in one line of another module (R139). -/
def State.eGetRun (f : Flight) (i a b n : Nat) (s : State) : State :=
  s.engSend f i (.bytes (gaLocal b) (gaLocal a % 128) n) { op := opRead, dstMod := gaMod a, addr := a / 128 * 128 % 2 ^ 60 }

/-- Copy scale bytes (R139): byte `soff` of a region to byte `doff` of another, cut where either crosses a line. -/
def State.ePart (s : State) (f : Flight) (env : Env) (i src soff dst doff n : Nat) : State :=
  let runs := (byteRuns (gaLocal src + soff) n).flatMap (fun x =>
    (byteRuns (gaLocal dst + doff + x.1) x.2).map (fun y => (x.1 + y.1, y.2)))
  forEach runs (fun x t =>
    if ((t.flight f.id).getD f).failed then t
    else if gaMod src = s.ownId f.d then State.ePutRun f env i (src + soff + x.1) (dst + doff + x.1) x.2 t
    else State.eGetRun f i (src + soff + x.1) (dst + doff + x.1) x.2 t) s

/-- Write a line of the engine's own making at a global address (R139). -/
def State.eLine (s : State) (f : Flight) (i dst : Nat) (l : Line) : State :=
  if gaMod dst = s.ownId f.d then
    if s.served (gaLocal dst) then s.stepWrite f.id (gaLocal dst / 128) l else s.remoteFail f i 1 dst
  else s.engSend f i .none { op := opWrite, dstMod := gaMod dst, addr := dst % 2 ^ 60, pay := payWrite l (2 ^ 128 - 1) }

/-- One piece of an engine's work. -/
def State.eact (s : State) (f : Flight) (env : Env) : EAct → State
  | .copy i src dst flag => s.eCopy f env i src dst flag
  | .part i src soff dst doff n => s.ePart f env i src soff dst doff n
  | .count i v dst => s.eLine f i dst (mkLine (padTo 128 (leBytes 4 v)) (verCompute f.ws) 0 0)
  | .sig cref => s.signal f.d f.c 248 f.defer f.idx f.tbase cref 1
  | .zero i dst nl sdst doff n =>
    let s1 := forEach (List.range nl) (fun k t =>
      if ((t.flight f.id).getD f).failed then t
      else t.eLine f i (s.ownGa f.d (dst + 128 * k)) (mkLine (List.replicate 128 0) (verCompute f.ws) (sw f.ws 2 40 8) 0)) s
    forEach (byteRuns (sdst + doff) n) (fun x t =>
      if ((t.flight f.id).getD f).failed then t
      else t.engMerge f i (sdst + doff + x.1) (List.replicate x.2 0) (mkSide 0 (verCompute f.ws) fSCALE 0)) s1
  | .snap la bs side => s.hostSent f 0 la (s.hostWrite f.d la none { bytes := bs, sb := side } (.eng f.id 0 .none))
  | .header la bs =>
    let b := spliceAt bs 40 (leBytes 8 (s.time f.d))
    s.hostSent f 0 la (s.hostWrite f.d la none (mkLine b 0 0 0) (.eng f.id 0 .none))

/-- A list of an engine's work in order, up to the piece that ends the step. -/
def State.eacts (fid : Nat) (env : Env) : List EAct → State → State
  | [], s => s
  | a :: r, s =>
    match s.flight fid with
    | none => s
    | some f => if f.failed then s else State.eacts fid env r (s.eact f env a)

/-- Work that an engine held back goes out once everything it sent before is answered (R134, R274). -/
def State.flushTodo (s : State) (fid : Nat) (env : Env) : State :=
  match s.flight fid with
  | none => s
  | some f =>
    if f.failed || f.wait ≠ 0 || f.todo.isEmpty then s
    else State.eacts fid env f.todo (s.updFlight fid (fun g => { g with todo := [] }))

/-- A line that an engine asked for arrives (R134, R139). -/
def State.engArrive (s : State) (fid i : Nat) (act : LineAct) (l : Line) : State :=
  match s.flight fid with
  | none => s
  | some f =>
    if f.failed then s
    else match act with
    | .none => s
    | .line dst => s.engPut f i dst l
    | .bytes dst off n => s.engMerge f i dst ((l.bytes.drop off).take n) (scaleSide f.ws l.sb)

/-- A local line that the arrival writes, with its kind of access (R289). -/
def LineAct.access : LineAct → List (Nat × Nat)
  | .none => []
  | .line dst => [(1, dst / 128)]
  | .bytes dst _ _ => [(2, dst / 128)]

/-- A response for an engine is counted, and work it held back may go. -/
def State.engAnswered (s : State) (fid : Nat) : State :=
  (s.updFlight fid (fun f => { f with wait := f.wait - 1 })).flushTodo fid {}

/-- Lines of this module that a piece of work reads and writes (R289). -/
def State.actAccess (s : State) (d : Nat) : EAct → List (Nat × Nat)
  | .copy _ src dst _ =>
    (if gaMod src = s.ownId d ∧ s.isMem (gaLocal src) then [(0, gaLocal src / 128)] else []) ++
      (if gaMod dst = s.ownId d ∧ s.isMem (gaLocal dst) then [(1, gaLocal dst / 128)] else [])
  | .part _ src soff dst doff n =>
    (if gaMod src = s.ownId d then (byteRuns (gaLocal src + soff) n).map (fun x => (0, (gaLocal src + soff + x.1) / 128)) else []) ++
      (if gaMod dst = s.ownId d then (byteRuns (gaLocal dst + doff) n).map (fun x => (2, (gaLocal dst + doff + x.1) / 128)) else [])
  | .count _ _ dst => if gaMod dst = s.ownId d then [(1, gaLocal dst / 128)] else []
  | .sig _ => []
  | .zero _ dst nl sdst doff n =>
    (List.range nl).map (fun k => (1, dst / 128 + k)) ++ (byteRuns (sdst + doff) n).map (fun x => (2, (sdst + doff + x.1) / 128))
  | .snap _ _ _ => []
  | .header _ _ => []

end Sys2Proof.Machine
end

