-- ==== Sys2Proof/Machine/Racking.lean ====
section
/-! DEFINITION. The racking steps and SNAP (R134–R139, R142, R208, R274, R275). -/

namespace Sys2Proof.Machine

/-- What a racking step is to do: the work it sends at once, what it holds back until that is answered, the trap that ends it
instead, the control lines it reads, and further effects on memory. -/
structure EngPlan where
  acts : List EAct := []
  held : List EAct := []
  stop : Option (Nat × Nat × Nat × Nat) := none
  control : List Nat := []
  slots : List Nat := []
  figs : List Nat := [0]
deriving DecidableEq, Repr

/-- Local line addresses of rows of lines (R134). -/
def rackLines (ws : List Word) (a str : Nat) : List Nat :=
  (List.range (sw ws 5 32 16)).flatMap (fun r => (List.range (sw ws 5 0 20)).map (fun j => a + 128 * (r * str + j)))

/-- FLAG of a racking step (Tables 7.8, R137). -/
def engFlag (ws : List Word) : Bool := sb ws 2 35

/-- The copies of a list, the last one marked with FLAG where the step says so. -/
def copies (flag : Bool) (xs : List (Nat × Nat × Nat)) : List EAct :=
  (List.range xs.length).zip xs |>.map (fun x =>
    EAct.copy x.2.1 x.2.2.1 x.2.2.2 (flag && decide (x.1 + 1 = xs.length)))

/-- RACK, DECANT and REPLICA (R134): with FLAG, a last line that must be fetched is held back until the others are
written. -/
def State.movePlan (s : State) (d : Nat) (ws : List Word) : EngPlan :=
  let a := sw ws 3 0 64
  let b := sw ws 4 0 64
  let xs := (rackLines ws a (sw ws 6 0 32)).zip (rackLines ws b (sw ws 6 32 32))
  let acts := copies (engFlag ws) ((List.range xs.length).zip xs)
  let fetch := gaMod a ≠ s.ownId d || !s.isMem (gaLocal a)
  if engFlag ws && fetch then { acts := acts.dropLast, held := acts.drop (acts.length - 1), figs := [0, 0] }
  else { acts := acts, figs := if stKind ws = kREPLICA then [0, 0] else [0] }

/-- A control line of an engine that is not fit to be read: not populated, poisoned, or failing its CRC (R145). -/
def State.ctlBad (s : State) (d i ln : Nat) : Option (Nat × Nat × Nat × Nat) :=
  if !s.served (128 * ln) then some (0x21, i, 1, s.ownGa d (128 * ln))
  else
    let l := s.line ln
    if sbPoison l.sb || !l.crcOk then some (0x20, i, 0, s.ownGa d (128 * ln)) else none

/-- The members of a multicast group (R208): none where the group is not usable. -/
def groupMembers (bs : List Byte) : Option (List Nat) :=
  let es := (List.range 64).map (fun i => leAt bs (2 * i) 2)
  let ms := (es.filter (fun e => nbit e 15)).map (fun e => e % 4096)
  if es.any (fun e => nbits e 12 3 ≠ 0) || ms.isEmpty then none else some ms

/-- MCAST (R208): each source line goes to each member, in ascending entry order. -/
def State.mcastPlan (s : State) (d : Nat) (ws : List Word) : EngPlan :=
  let g := sw ws 4 48 12
  let b := gaLocal (sw ws 4 0 64)
  let gl := (s.rg d .fab 0 0x40).toNat % 2 ^ 48 / 128 + g
  if 256 ≤ g then { stop := some (0x21, 0, 7, sw ws 4 0 64) }
  else match s.ctlBad d 0 gl with
  | some x => { stop := some x, control := [gl] }
  | none =>
    match groupMembers (s.line gl).bytes with
    | none => { stop := some (0x21, 0, 7, sw ws 4 0 64), control := [gl] }
    | some ms =>
      let xs := (rackLines ws (sw ws 3 0 64) (sw ws 6 0 32)).zip (rackLines ws b (sw ws 6 32 32))
      let n := xs.length
      { acts := ((List.range n).zip xs).flatMap (fun x => ms.map (fun m =>
          EAct.copy x.1 x.2.1 (x.2.2 + m * 2 ^ 48) (engFlag ws && decide (x.1 + 1 = n))))
        control := [gl] }

/-- Entries of the index list of a GATHER or SCATTER (R137): number and global address. -/
def State.listEntries (s : State) (ws : List Word) : List (Nat × Nat) :=
  (List.range (sw ws 5 0 20)).map (fun i => (i, leNat (s.bytesAt (cloLine (sw ws 4 0 25)) (8 * i) 8)))

/-- Lines of the index list. -/
def listLines (ws : List Word) : List Nat :=
  (List.range ((sw ws 5 0 20 + 15) / 16)).map (fun k => cloLine (sw ws 4 0 25) + k)

/-- An entry that breaks R120. -/
def gaBroken (a : Nat) : Bool := a % 128 ≠ 0 || nbits a 60 4 ≠ 0

/-- Of a list of copies, the last to each destination module goes to the end with FLAG (R137). -/
def flagLast (xs : List (Nat × Nat × Nat)) : List EAct × List EAct :=
  let ms := (xs.map (fun x => gaMod x.2.2)).eraseDups
  let isLast (k : Nat) (x : Nat × Nat × Nat) : Bool := !((xs.drop (k + 1)).any (fun y => gaMod y.2.2 = gaMod x.2.2))
  let ks := (List.range xs.length).zip xs
  ((ks.filter (fun y => !isLast y.1 y.2)).map (fun y => EAct.copy y.2.1 y.2.2.1 y.2.2.2 false),
    (if ms.isEmpty then [] else ks.filter (fun y => isLast y.1 y.2)).map (fun y => EAct.copy y.2.1 y.2.2.1 y.2.2.2 true))

/-- GATHER and SCATTER (R137). -/
def State.listPlan (s : State) (d : Nat) (ws : List Word) : EngPlan :=
  let gather := stKind ws = kGATHER
  let run := sw ws 5 20 16
  let base := s.ownGa d (sw ws 3 0 48)
  let lns := listLines ws
  match ((List.range lns.length).zip lns).findSome? (fun x => s.ctlBad d (16 * x.1) x.2) with
  | some x => { stop := some x, control := lns }
  | none =>
    let es := s.listEntries ws
    let good := es.takeWhile (fun e => !gaBroken e.2)
    let bad := (es.drop good.length).head?
    let xs := good.flatMap (fun e => (List.range run).map (fun j =>
      let l := base + 128 * (e.1 * run + j)
      let r := e.2 + 128 * j
      (e.1 * run + j, if gather then (r, l) else (l, r))))
    let stop := bad.map (fun e => (0x21, e.1, 1, e.2))
    if engFlag ws then
      let p := flagLast xs
      if stop.isSome then { acts := p.1, stop := stop, control := lns }
      else if gather then { acts := p.1, held := p.2, control := lns }
      else { acts := p.1 ++ p.2, control := lns }
    else { acts := copies false xs, stop := stop, control := lns }

/-! ### DISPATCH and COMBINE (R138, R139) -/

/-- Route entry `i` as an unsigned number (R139). -/
def State.routeAt (s : State) (ws : List Word) (i : Nat) : Nat := leNat (s.bytesAt (cloLine (sw ws 4 0 25)) (2 * i) 2)
/-- Slot entry `i`. -/
def State.slotAt (s : State) (ws : List Word) (i : Nat) : Nat := leNat (s.bytesAt (cloLine (sw ws 4 25 25)) (2 * i) 2)
/-- A field of the expert table entry of expert `e` (Table 7.11). -/
def State.expAt (s : State) (ws : List Word) (e off n : Nat) : Nat :=
  leNat (s.bytesAt (cloLine (sw ws 5 0 25)) (64 * e + off) n)
/-- Line of the expert table entry of expert `e`. -/
def expLine (ws : List Word) (e : Nat) : Nat := cloLine (sw ws 5 0 25) + e / 2
/-- Line of route entry `i`. -/
def routeLine (ws : List Word) (i : Nat) : Nat := cloLine (sw ws 4 0 25) + i / 64
/-- Line of slot entry `i`. -/
def slotLine (ws : List Word) (i : Nat) : Nat := cloLine (sw ws 4 25 25) + i / 64

def tokN (ws : List Word) : Nat := sw ws 5 25 20
def tokRl (ws : List Word) : Nat := sw ws 2 48 8
def tokTopk (ws : List Word) : Nat := sw ws 2 56 4
def tokExp (ws : List Word) : Nat := sw ws 6 0 16
def tokCap (ws : List Word) : Nat := sw ws 6 16 16
def tokRank (ws : List Word) : Nat := sw ws 6 32 16
/-- Local address of row `t` of the step's own list. -/
def tokRow (ws : List Word) (t : Nat) : Nat := 128 * (cloLine (sw ws 3 0 25) + t * tokRl ws)
/-- Local address of the step's own scale bytes. -/
def tokScale (ws : List Word) : Nat := 128 * cloLine (sw ws 3 25 25)

/-- The state of a DISPATCH or COMBINE loop. -/
structure TokLoop where
  cnt : List (Nat × Nat) := []
  slots : List Nat := []
  acts : List EAct := []
  dropped : Nat := 0
  overflow : Nat := 0
  sent : Nat := 0
  stop : Option (Nat × Nat × Nat × Nat) := none
deriving DecidableEq, Repr

/-- One route entry of a DISPATCH (R139). -/
def State.dispatchEntry (s : State) (d : Nat) (ws : List Word) (t : TokLoop) (i : Nat) : TokLoop :=
  if t.stop.isSome then t
  else match (if i % 64 = 0 then s.ctlBad d i (routeLine ws i) else none) with
  | some x => { t with stop := some x }
  | none =>
    let e := s.routeAt ws i
    if e = 0xFFFF then { t with slots := t.slots ++ [0xFFFF], dropped := t.dropped + 1 }
    else if tokExp ws ≤ e then { t with stop := some (0x23, i, e, 0) }
    else
      let k := smGet 0 t.cnt e
      let t1 := { t with cnt := smPut 0 t.cnt e (k + 1) }
      if tokCap ws ≤ k then { t1 with slots := t.slots ++ [0xFFFF], overflow := t.overflow + 1 }
      else match s.ctlBad d i (expLine ws e) with
      | some x => { t1 with stop := some x }
      | none =>
        let base := s.expAt ws e 0 8
        let sbase := s.expAt ws e 8 8
        let row := tokRank ws * tokCap ws + k
        let src := i / tokTopk ws
        if gaBroken base then { t1 with stop := some (0x21, i, 1, base) }
        else if tokBpr ws ≠ 0 && gaBroken sbase then { t1 with stop := some (0x21, i, 1, sbase) }
        else
          let lines := (List.range (tokRl ws)).map (fun j =>
            EAct.copy i (s.ownGa d (tokRow ws src + 128 * j)) (base + 128 * (row * tokRl ws + j)) false)
          let part := if tokBpr ws = 0 then [] else
            [EAct.part i (s.ownGa d (tokScale ws)) (src * tokBpr ws) sbase (row * tokBpr ws) (tokBpr ws)]
          { t1 with slots := t.slots ++ [k], acts := t.acts ++ lines ++ part, sent := t.sent + 1 }

/-- The count line and signal of an expert at the end of a DISPATCH (R139). -/
def State.dispatchEnd (s : State) (d : Nat) (ws : List Word) (t : TokLoop) (e : Nat) : TokLoop :=
  if t.stop.isSome then t
  else match s.ctlBad d (tokN ws) (expLine ws e) with
  | some x => { t with stop := some x }
  | none =>
    let cbase := s.expAt ws e 16 8
    if gaBroken cbase then { t with stop := some (0x21, tokN ws, 1, cbase) }
    else { t with acts := t.acts ++ [.count (tokN ws) (min (smGet 0 t.cnt e) (tokCap ws)) (cbase + 128 * tokRank ws),
                                     .sig (s.expAt ws e 40 4)] }

/-- DISPATCH (R139). -/
def State.dispatchPlan (s : State) (d : Nat) (ws : List Word) : EngPlan :=
  let t := (List.range (tokN ws)).foldl (s.dispatchEntry d ws) {}
  let t := (List.range (tokExp ws)).foldl (s.dispatchEnd d ws) t
  { acts := t.acts, stop := t.stop, slots := t.slots, figs := [t.sent, t.dropped, t.overflow]
    control := (List.range ((tokN ws + 63) / 64)).map (fun k => routeLine ws (64 * k)) ++
      (List.range ((tokExp ws + 1) / 2)).map (fun k => expLine ws (2 * k)) }

/-- One entry of a COMBINE (R139). -/
def State.combineEntry (s : State) (d : Nat) (ws : List Word) (t : TokLoop) (i : Nat) : TokLoop :=
  if t.stop.isSome then t
  else match (if i % 64 = 0 then (s.ctlBad d i (routeLine ws i)).orElse (fun _ => s.ctlBad d i (slotLine ws i)) else none) with
  | some x => { t with stop := some x }
  | none =>
    let k := s.slotAt ws i
    let e := s.routeAt ws i
    if k = 0xFFFF then
      { t with acts := t.acts ++ [.zero i (tokRow ws i) (tokRl ws) (tokScale ws) (i * tokBpr ws) (tokBpr ws)],
               dropped := t.dropped + 1 }
    else if tokCap ws ≤ k then { t with stop := some (0x24, i, k, 0) }
    else if tokExp ws ≤ e then { t with stop := some (0x23, i, e, 0) }
    else match s.ctlBad d i (expLine ws e) with
    | some x => { t with stop := some x }
    | none =>
      let rb := s.expAt ws e 24 8
      let rs := s.expAt ws e 32 8
      let row := tokRank ws * tokCap ws + k
      if gaBroken rb then { t with stop := some (0x21, i, 1, rb) }
      else if tokBpr ws ≠ 0 && gaBroken rs then { t with stop := some (0x21, i, 1, rs) }
      else
        let lines := (List.range (tokRl ws)).map (fun j =>
          EAct.copy i (rb + 128 * (row * tokRl ws + j)) (s.ownGa d (tokRow ws i + 128 * j)) false)
        let part := if tokBpr ws = 0 then [] else
          [EAct.part i rs (row * tokBpr ws) (s.ownGa d (tokScale ws)) (i * tokBpr ws) (tokBpr ws)]
        { t with acts := t.acts ++ lines ++ part, sent := t.sent + 1 }

/-- COMBINE (R139). -/
def State.combinePlan (s : State) (d : Nat) (ws : List Word) : EngPlan :=
  let t := (List.range (tokN ws)).foldl (s.combineEntry d ws) {}
  { acts := t.acts, stop := t.stop, figs := [t.sent, t.dropped]
    control := (List.range ((tokN ws + 63) / 64)).flatMap (fun k => [routeLine ws (64 * k), slotLine ws (64 * k)]) ++
      (List.range ((tokExp ws + 1) / 2)).map (fun k => expLine ws (2 * k)) }

/-! ### SNAP (R142, R274, R275) -/

/-- Clusters that lie in the PARTITION of more than one context of a die (R115). -/
def State.sharedCl (s : State) (d l : Nat) : Bool :=
  decide (2 ≤ ((List.range 8).filter (fun c => nbit (s.partition d c) l)).length)

/-- Local address of the context image entry of a cluster (R403). -/
def State.imageAddr (s : State) (d c l : Nat) : Nat := s.fld d .seq 0 (0x120 + 0x40 * c) 7 41 * 128 + 384 * l

/-- A cluster's generators as a SNAP of context `c` writes them come from the image: the cluster is shared and another context is
resident (R275). -/
def State.snapFromImage (s : State) (d c l : Nat) : Bool :=
  nbit (s.partition d c) l && s.sharedCl d l && decide ((s.cl d l).resident ≠ some c)

/-- The 256 bytes of a cluster's generators in a snapshot (Table 14.4). -/
def State.snapGen (s : State) (d c l : Nat) : List Byte :=
  if !nbit (s.partition d c) l then List.replicate 256 0
  else if s.snapFromImage d c l then s.bytesAt (s.imageAddr d c l / 128 + 1) 0 256
  else (List.range 16).flatMap (fun g => leBytes 8 (s.srgKey d l g) ++ leBytes 8 (s.srgCtr d l g))

/-- The header line of a die part, its TIMESTAMP apart (Table 14.6); `y` is the context after the SNAP has issued. -/
def State.snapHeader (s : State) (d c : Nat) (q : Bool) (idx : Nat) (ws : List Word) (y : Ctx) : List Byte :=
  padTo 128 (leBytes 2 1 ++ leBytes 1 d ++ leBytes 1 c ++ leBytes 2 (s.fld d .seq 0 (0x130 + 0x40 * c) 0 16) ++ leBytes 2 0 ++
    leBytes 6 (s.partition d c) ++ leBytes 2 0 ++ leBytes 4 (s.cons c) ++ leBytes 4 (y.snaps + 1) ++
    leBytes 4 (idx % 2 ^ 24 + b2n q * 2 ^ 31) ++ leBytes 4 (y.main.head % 2 ^ 24) ++ leBytes 4 (y.defer.head % 2 ^ 24) ++
    leBytes 4 0 ++ leBytes 8 0 ++ leBytes 2 (if d = 0 then sw ws 4 25 16 else 0) ++
    leBytes 2 (if d = 0 then sw ws 5 25 11 else 0) ++ leBytes 12 0 ++
    (List.range 16).flatMap (fun h => leBytes 2 (s.chanOrd d c h)))

/-- Lines of this module that a SNAP reads: images, and on die 0 its list, rings and cursor lines. -/
def State.snapReads (s : State) (d c : Nat) (ws : List Word) : List Nat × List Nat :=
  let imgs := ((List.range 48).filter (s.snapFromImage d c)).flatMap (fun l =>
    [s.imageAddr d c l / 128 + 1, s.imageAddr d c l / 128 + 2])
  let nh := sw ws 4 25 16
  let list := (List.range ((nh + 15) / 16)).map (fun k => cloLine (sw ws 4 0 25) + k)
  if d = 0 then (list, imgs ++ (List.range nh).map (fun i =>
      cloLine (leNat (s.bytesAt (cloLine (sw ws 4 0 25)) (8 * i) 8) % 2 ^ 25)) ++
    (List.range (sw ws 5 25 11)).map (fun k => cloLine (sw ws 5 0 25) + k))
  else ([], imgs)

/-- A line of a snapshot that the engine makes itself: format 0x00. -/
def snapNew (la : Nat) (bs : List Byte) : EAct := .snap la (padTo 128 bs) (mkSide (crc32c (padTo 128 bs)) 0 0 0)

/-- SNAP (R274). -/
def State.snapPlan (s : State) (d c : Nat) (q : Bool) (idx : Nat) (ws : List Word) (y : Ctx) : EngPlan :=
  let dst := sw ws 3 0 48 + 0x4000 * d
  let ext := sw ws 3 0 48 + 0x20000
  let nh := sw ws 4 25 16
  let ni := (nh + 15) / 16
  let rd := s.snapReads d c ws
  match (((List.range rd.1.length).zip rd.1).findSome? (fun x => s.ctlBad d (16 * x.1) x.2)).orElse (fun _ =>
      rd.2.findSome? (fun n => if s.served (128 * n) then
          (if sbPoison (s.sideOf n) || (s.line n).crcOk then none else some (0x20, 0, 0, s.ownGa d (128 * n)))
        else some (0x21, 0, 1, s.ownGa d (128 * n)))) with
  | some x => { stop := some x, control := rd.1 ++ rd.2 }
  | none =>
    let cnts := (List.range 256).flatMap (fun i => leBytes 8 (s.rg d .seq 0 (cntOff c i)).toNat)
    let gens := (List.range 48).flatMap (s.snapGen d c)
    let part := (pieces 128 (cnts ++ gens)).filter (fun b => !b.isEmpty)
    let a := ((List.range part.length).zip part).map (fun x => snapNew (dst + 128 * (x.1 + 1)) x.2)
    let b := if d ≠ 0 then [] else
      (List.range ni).map (fun k => snapNew (ext + 128 * k)
        (s.bytesAt (cloLine (sw ws 4 0 25)) (128 * k) (min 128 (8 * nh - 128 * k)))) ++
      ((List.range (rd.2.length - (rd.2.length - nh - sw ws 5 25 11))).zip (rd.2.drop (rd.2.length - nh - sw ws 5 25 11))).map
        (fun x => EAct.snap (ext + 128 * (ni + x.1)) (s.line x.2).bytes (s.sideOf x.2))
    { acts := a ++ b, held := [.header dst (s.snapHeader d c q idx ws y)], control := rd.1 ++ rd.2,
      figs := [128 * (a.length + b.length + 1)] }

/-! ### Issue -/

/-- The plan of a racking step or SNAP. -/
def State.engPlan (s : State) (d c : Nat) (q : Bool) (idx : Nat) (ws : List Word) : EngPlan :=
  let k := stKind ws
  if k = kMCAST then s.mcastPlan d ws
  else if k = kGATHER ∨ k = kSCATTER then s.listPlan d ws
  else if k = kDISPATCH then s.dispatchPlan d ws
  else if k = kCOMBINE then s.combinePlan d ws
  else if k = kSNAP then s.snapPlan d c q idx ws ((s.advance d c q ws).ctx d c)
  else s.movePlan d ws

/-- Slot list lines that a DISPATCH writes (R139). -/
def State.slotWrites (s : State) (fid : Nat) (ws : List Word) (slots : List Nat) : State :=
  let lns := pieces 64 slots
  forEach ((List.range lns.length).zip lns) (fun x t =>
    if x.2.isEmpty then t
    else
      let p := placed 0 (x.2.flatMap (leBytes 2))
      let ln := slotLine ws (64 * x.1)
      if t.served (128 * ln) then t.stepMerge fid ln p.2 p.1 (mkSide 0 (verCompute ws) fINT16 0) else t) s

/-- The trap that ends a racking step: cause, index, status or value, global address (Table 7.16). -/
def State.engStop (s : State) (f : Flight) (x : Nat × Nat × Nat × Nat) : State :=
  let (cause, i, v, ga) := x
  if cause = 0x20 then s.rackCrc f i ga
  else if cause = 0x21 then s.remoteFail f i v ga
  else s.engTrap f cause (cause - 0x18) (i % 2 ^ 20 + v * 2 ^ 32) 0

/-- Issue a racking step: its engine reads what it needs and sends its requests (R124, R134). -/
def State.engIssue (s : State) (d c : Nat) (q : Bool) (idx : Nat) (ws : List Word) (env : Env) : State :=
  let p := s.engPlan d c q idx ws
  let f := { s.newFlight d c q idx ws with figs := p.figs, todo := p.held }
  let s1 := ((s.advance d c q ws).fly f).rackCe f (glitches env p.control).length
  let s2 := State.eacts f.id env p.acts (s1.slotWrites f.id ws p.slots)
  let s3 := match p.stop with
    | none => s2
    | some x => if ((s2.flight f.id).getD f).failed then s2 else s2.engStop f x
  (s3.flushTodo f.id env).settleFail f.id

/-- Lines of this module that a racking step reads and writes (R289). -/
def State.engAccess (s : State) (d c : Nat) (q : Bool) (ws : List Word) : List (Nat × Nat) :=
  let p := s.engPlan d c q 0 ws
  p.control.map (fun n => (0, n)) ++ (p.acts ++ p.held).flatMap (s.actAccess d) ++
    (pieces 64 p.slots |> fun x => (List.range x.length).map (fun k => (2, slotLine ws (64 * k))))

/-- The row of a racking kind. -/
def State.engRow (s : State) (d c : Nat) (q : Bool) (k : Nat) (env : Env) : Host.Outcome State Fault Refusal :=
  s.memRow d c q k (fun ws t => t.engAccess d c q ws) (fun idx ws t => t.engIssue d c q idx ws env)

/-- RACK: it copies lines between HBM and Cellar, on this module and another (R134). -/
def execRack (d c : Nat) (q : Bool) (env : Env) (s : State) : Host.Outcome State Fault Refusal := s.engRow d c q kRACK env
/-- DECANT: it copies lines between the host window and HBM or Cellar (R136). -/
def execDecant (d c : Nat) (q : Bool) (env : Env) (s : State) : Host.Outcome State Fault Refusal := s.engRow d c q kDECANT env
/-- GATHER: it moves runs of lines from listed addresses to a base range (R137). -/
def execGather (d c : Nat) (q : Bool) (env : Env) (s : State) : Host.Outcome State Fault Refusal := s.engRow d c q kGATHER env
/-- SCATTER: it moves runs of lines from a base range to listed addresses (R137). -/
def execScatter (d c : Nat) (q : Bool) (env : Env) (s : State) : Host.Outcome State Fault Refusal := s.engRow d c q kSCATTER env
/-- DISPATCH: it sends token rows to the experts of a route list (R139). -/
def execDispatch (d c : Nat) (q : Bool) (env : Env) (s : State) : Host.Outcome State Fault Refusal :=
  s.engRow d c q kDISPATCH env
/-- COMBINE: it brings each expert's result back into token order (R139). -/
def execCombine (d c : Nat) (q : Bool) (env : Env) (s : State) : Host.Outcome State Fault Refusal := s.engRow d c q kCOMBINE env
/-- MCAST: it copies lines to every member of a multicast group (R208). -/
def execMcast (d c : Nat) (q : Bool) (env : Env) (s : State) : Host.Outcome State Fault Refusal := s.engRow d c q kMCAST env
/-- REPLICA: it copies lines that stand at the same local address of another module (R136). -/
def execReplica (d c : Nat) (q : Bool) (env : Env) (s : State) : Host.Outcome State Fault Refusal := s.engRow d c q kREPLICA env
/-- SNAP: it writes the die's part of the snapshot record through engine 7 (R142, R274). -/
def execSnap (d c : Nat) (q : Bool) (env : Env) (s : State) : Host.Outcome State Fault Refusal := s.engRow d c q kSNAP env

end Sys2Proof.Machine
end

