-- ==== Sys2Proof/Machine/Sequencer.lean ====
section
/-! DEFINITION. What the sequencer does beside issuing: table fetch (R94), ends of units (R103), timeouts (R109), trap records
(R111, R112), control (R113), counters (R104) and the sharing of clusters (R114, R115, R403). -/

namespace Sys2Proof.Machine

/-! ### Table fetch (R94) -/

/-- The index a queue's next prefetch is for: the lowest within 32 steps of the head that has not been fetched, and not beyond
a fetched step that ends the queue. -/
def Queue.nextFetch (y : Queue) : Option Nat :=
  if y.atEnd then none
  else
    let stopAt := (y.win.filter (fun e => stEnd e.2)).foldl (fun m e => min m e.1) (y.head + 31)
    ((List.range 32).map (fun k => y.head + k)).find? (fun i => decide (i ≤ stopAt) && !(y.win.any (fun e => e.1 = i)))

/-- The steps of a table line enter the prefetch window (R94). -/
def State.enterSteps (s : State) (d c : Nat) (q : Bool) (ln : Nat) : State :=
  s.updQueue d c q (fun y =>
    let cand := ((List.range 32).map (fun k => y.head + k)).filter (fun i =>
      decide ((y.base + 64 * i) / 128 = ln) && !(y.win.any (fun e => e.1 = i)))
    { y with win := y.win ++ cand.map (fun i => (i, s.stepWords y.base i)) })

/-- TABLE_FETCH: the sequencer reads a table line and checks it (R94). -/
def State.tableFetch (s : State) (d c : Nat) (q : Bool) (env : Env) : State :=
  let x := s.ctx d c
  let y := x.queue q
  if !(s.live d && decide (c < 8) && x.st = .running) then s
  else match y.nextFetch with
  | none => s
  | some i =>
    let ln := (y.base + 64 * i) / 128
    let l := s.line ln
    if s.served (128 * ln) && s.mustWait 0 ln then s.sendSnoop 0 ln
    else if !s.served (128 * ln) || sbPoison l.sb || !l.crcOk then s.stepCrc d c q i (128 * ln)
    else
      let s1 := if env.glitch.contains (128 * ln) then s.stepCrcCe d c q i else s
      (s1.touchRead (128 * ln)).enterSteps d c q ln

/-- TABLE_FETCH (R94). -/
def execTableFetch (d c : Nat) (q : Bool) (env : Env) (s : State) : Host.Outcome State Fault Refusal :=
  .next (s.tableFetch d c q env)

/-! ### CLEAR (R113, R155) -/

/-- No step of the context is in flight on any die. -/
def State.noFlights (s : State) (c : Nat) : Bool := !(s.flights.any (fun f => f.c = c))

/-- The trap of a context has been recorded and its entry posted, or it has not trapped. -/
def State.trapSettled (s : State) (c : Nat) : Bool :=
  (s.hc c).trap.isNone || ((s.hc c).trapDone && (s.hc c).phase = .none)

/-- A context leaves a descriptor on a die: both queues, windows and return registers are empty (R113). -/
def Ctx.cleared (_ : Ctx) : Ctx := {}

/-- A CLEAR that waited takes its context to IDLE once no step is in flight: a STOPPED descriptor is posted CLEARED, and the
trap record is armed again (R113, R155). -/
def State.settleClear (s : State) (c : Nat) : State :=
  let h := s.hc c
  if !(h.clearing && s.noFlights c && s.trapSettled c) then s
  else
    let s1 := forEach s.allDies (fun d t => t.updCtx d c Ctx.cleared) s
    s1.updHc c (fun x =>
      let y := { x with clearing := false, trap := none, more := 0, trapDone := false }
      if x.phase = .running then { y with phase := .ended, status := 3 } else y)

/-- STOP of a context on every die (R113). -/
def State.doStop (s : State) (c : Nat) : State :=
  forEach s.allDies (fun d t => t.updCtx d c (fun x => if x.st = .running then { x with st := .stopped } else x)) s

/-- RESUME of a context on every die (R113). -/
def State.doResume (s : State) (c : Nat) : State :=
  if (s.hc c).clearing then s
  else forEach s.allDies (fun d t => t.updCtx d c (fun x => if x.st = .stopped then { x with st := .running } else x)) s

/-- CLEAR of a context on every die (R113). -/
def State.doClear (s : State) (c : Nat) : State :=
  if s.allDies.any (fun d => (s.ctx d c).st = .stopped || (s.ctx d c).st = .trapped) then
    (s.updHc c (fun x => { x with clearing := true })).settleClear c
  else s

/-- STOP: it halts issue at the next step boundary (R113). -/
def execStop (c : Nat) (s : State) : Host.Outcome State Fault Refusal := .next (if c < 8 then s.doStop c else s)
/-- RESUME: it returns a STOPPED context to RUNNING (R113). -/
def execResume (c : Nat) (s : State) : Host.Outcome State Fault Refusal := .next (if c < 8 then s.doResume c else s)
/-- CLEAR: it takes a TRAPPED or STOPPED context to IDLE (R113). -/
def execClear (c : Nat) (s : State) : Host.Outcome State Fault Refusal := .next (if c < 8 then s.doClear c else s)

/-! ### Ends of units (R103, R123) -/

/-- A unit of a flight may end now: its work is done, no earlier step holds the unit, and the blocks a SWAP named have
swapped. -/
def State.unitMayEnd (s : State) (f : Flight) (u : Nat) : Bool :=
  let k := stKind f.ws
  let before := (s.flights.takeWhile (fun g => g.id ≠ f.id)).filter (fun g => g.d = f.d)
  f.units.contains u &&
    (if k = kMMA then !(before.any (fun g => stKind g.ws = kMMA && g.units.contains u))
     else if k = kSTAT then false
     else if isCompute k then !(before.any (fun g => g.onCvu u))
     else if isEngine k then f.wait = 0 && f.todo.isEmpty
     else if k = kSWAP then f.lines.all (fun a => !(s.die f.d).swapReq.contains a)
     else false)

/-- A SNAP that completes is counted (R274). -/
def State.countSnap (s : State) (f : Flight) : State :=
  if stKind f.ws = kSNAP && !f.failed then s.updCtx f.d f.c (fun x => { x with snaps := x.snaps + 1 }) else s

/-- A unit of a step in flight ends (R103). -/
def State.unitComplete (s : State) (d fid u : Nat) : State :=
  match s.flight fid with
  | none => s
  | some f => if f.d = d && s.live d && s.unitMayEnd f u then ((s.countSnap f).endUnit f u).settleClear f.c else s

/-- STAT_RING_UPDATE: a STAT step in flight writes its ring entry and completes (R132). -/
def execStatRingUpdate (d fid : Nat) (env : Env) (s : State) : Host.Outcome State Fault Refusal :=
  .next (match s.flight fid with
    | none => s
    | some f => if f.d = d && stKind f.ws = kSTAT && s.live d then (s.statRing f env).settleClear f.c else s)

/-- UNIT_COMPLETE: a unit completes once its writes are visible, and signals its counter (R103). -/
def execUnitComplete (d fid u : Nat) (s : State) : Host.Outcome State Fault Refusal := .next (s.unitComplete d fid u)

/-! ### WAIT_TIMEOUT (R109) -/

/-- The condition of a WAIT step is still unmet TIMEOUT µs after it reached its head (R109). -/
def State.waitTimeout (s : State) (d c : Nat) (q : Bool) : State :=
  let x := s.ctx d c
  if !(s.live d && x.st = .running) then s
  else match s.head d c q with
  | none => s
  | some (idx, ws) =>
    if stKind ws = kWAIT && sw ws 2 32 20 ≠ 0 && !s.waitMet d c ws &&
        (s.refusals d c (x.queue q).ret.isSome ws).isEmpty then
      let cv := bits (s.rg d .seq 0 (cntOff c (nbits (stWaitCref ws) 0 8))) 0 32
      s.linkEvent d c q idx (stLink ws) (10, .ce, 3) (9, .ucc, 2)
        (s.seqRec d c q idx 8 (stWaitVal ws) (stWaitCref ws + cv * 2 ^ 32))
    else s

/-- WAIT_TIMEOUT (R109). -/
def execWaitTimeout (d c : Nat) (q : Bool) (s : State) : Host.Outcome State Fault Refusal := .next (s.waitTimeout d c q)

/-! ### Trap records (R111, R112) -/

/-- The 64 bytes of a trap record (R112, Tables 2.8, 6.7). -/
def trapBytes (c : Nat) (r : TrapRec) (more : Nat) : List Byte :=
  leBytes 8 (r.cause % 256 + c % 8 * 256 + r.d % 8 * 4096 + r.unit % 64 * 65536 + r.operand % 256 * 2 ^ 24 + r.idx % 2 ^ 32 * 2 ^ 32) ++
    leBytes 8 (r.tbase % 2 ^ 48) ++ leBytes 8 (r.w2 % 2 ^ 56 + more * 2 ^ 56) ++ leBytes 8 r.w3 ++ leBytes 8 r.ts ++ leBytes 24 0

/-- Write the record at SEQ_CTX_TRAP_ADDR of die 0, where that names a line that exists (R111). -/
def State.putTrap (s : State) (c : Nat) (bs : List Byte) : State :=
  let a := s.fld 0 .seq 0 (0x118 + 0x40 * c) 7 41 * 128
  if s.isMem a then
    if s.served a then s.mergeAt a (2 ^ 64 - 1) (padTo 128 bs) (mkSide 0 0 0 0) else s
  else if s.inWindow (s.portDie 0) a then (s.hostMerge 0 c 0 a (2 ^ 64 - 1) (padTo 128 bs) (.trap c)).1
  else s

/-- TRAP_RECORD: die 0 writes the record once the steps in flight have ended, and the descriptor ends TRAPPED (R111); after a stop
in order nothing is posted (R384). -/
def State.trapRecord (s : State) (c : Nat) : State :=
  let h := s.hc c
  match h.trap with
  | none => s
  | some r =>
    if h.trapDone || !s.noFlights c || !s.live 0 || s.halted then s
    else
      let a := s.fld 0 .seq 0 (0x118 + 0x40 * c) 7 41 * 128
      if s.served a && s.mustWait 2 (a / 128) then s.sendSnoop 2 (a / 128)
      else (s.putTrap c (trapBytes c r h.more)).updHc c (fun x =>
        let y := { x with trapDone := true }
        if x.phase = .running then { y with phase := .ended, status := 2, cause := r.cause } else y)

/-- TRAP_RECORD (R111). -/
def execTrapRecord (c : Nat) (s : State) : Host.Outcome State Fault Refusal := .next (s.trapRecord c)

/-! ### SEQ_CNT (R104) -/

/-- A write of a counter: refused while its context runs (R104). The second part is true where it is refused. -/
def State.cntWrite (s : State) (d c i : Nat) (v : Word) : State × Bool :=
  if (s.ctx d c).st = .running then (s.configBusy d .seq 0, true) else (s.setRg d .seq 0 (cntOff c i) v, false)

/-- SEQ_CNT_WRITE (R104). -/
def execSeqCntWrite (d c i : Nat) (v : Word) (s : State) : Host.Outcome State Fault Refusal :=
  .next (if s.live d && decide (c < 8) && decide (i < 256) then (s.cntWrite d c i v).1 else s)

/-! ### Sharing clusters (R114, R115, R403) -/

/-- QUANTUM of a context on a die, µs (Table 6.15). -/
def State.quantum (s : State) (d c : Nat) : Nat := s.fld d .seq 0 (0x100 + 0x40 * c) 8 12

/-- QUANTUM_EXPIRY: the resident context's quantum has passed; 0 gives no expiry (R114). -/
def State.quantumExpiry (s : State) (d l : Nat) : State :=
  match (s.cl d l).resident with
  | none => s
  | some c => if s.live d && s.quantum d c ≠ 0 then s.updCl d l (fun x => { x with expired := true }) else s

/-- QUANTUM_EXPIRY (R114). -/
def execQuantumExpiry (d l : Nat) (s : State) : Host.Outcome State Fault Refusal := .next (s.quantumExpiry d l)

/-- The incoming context of a cluster: the READY context of highest priority that wants it, in round-robin order after the
resident one (R114). -/
def State.incoming (s : State) (d l : Nat) : Option Nat :=
  let cur := (s.cl d l).resident
  let order := (List.range 8).map (fun i => ((cur.getD 7) + 1 + i) % 8)
  (order.filter (fun c => decide (some c ≠ cur) && s.wants d c l)).foldl (fun acc c => match acc with
    | none => some c
    | some b => if s.prio d b < s.prio d c then some c else some b) none

/-- Line numbers of a cluster's entry in a context image (R403). -/
def State.imageLines (s : State) (d c l : Nat) : List Nat :=
  let n := s.imageAddr d c l / 128
  [n, n + 1, n + 2]

/-- The first image line that cannot be used (R403). -/
def State.imageBad (s : State) (d c l : Nat) : Option Nat :=
  (s.imageLines d c l).find? (fun n =>
    !(s.isCel (128 * n) && s.served (128 * n)) || sbPoison (s.sideOf n) || !(s.line n).crcOk)

/-- The trap of a context whose image line fails (R403): the record names its main queue's head. -/
def State.imageTrap (s : State) (d c a : Nat) : State := s.stepCrc d c false (s.ctx d c).main.head a

/-- Load a cluster's entry of a context image into the cluster's shadow sets (R115, Table 24.4). -/
def State.loadImage (s : State) (d c l : Nat) : State :=
  let bs := s.bytesAt (s.imageAddr d c l / 128) 0 384
  let w (off : Nat) : Word := wordOf (leAt bs off 8)
  let s1 := (s.setShad (regAddr d .mma l 0x20) (w 0)).setShad (regAddr d .cvu l 0x20) (w 8)
  let s2 := forEach (List.range 16) (fun g t =>
    (t.setShad (regAddr d .srg l (0x40 + 16 * g)) (w (128 + 16 * g))).setShad (regAddr d .srg l (0x48 + 16 * g)) (w (136 + 16 * g))) s1
  s2.updCl d l (fun x => { x with preload := some c })

/-- The lines of a cluster's active set as an image entry (Table 24.4). -/
def State.imageEntry (s : State) (d l : Nat) : List (List Byte) :=
  let r (b : Blk) (f : Nat) : List Byte := leBytes 8 (s.rg d b l f).toNat
  let gens := (List.range 16).flatMap (fun g => r .srg (0x40 + 16 * g) ++ r .srg (0x48 + 16 * g))
  [padTo 128 (r .mma 0x20 ++ r .cvu 0x20), gens.take 128, gens.drop 128]

/-- Write a cluster's active set back to the outgoing context's image, up to a line that is not populated, which traps the
context (R115, R403). -/
def State.saveImage (s : State) (d c l : Nat) : State :=
  match (s.imageLines d c l).find? (fun n => !(s.isCel (128 * n) && s.served (128 * n))) with
  | some n => s.imageTrap d c (128 * n)
  | none => forEach ((s.imageLines d c l).zip (s.imageEntry d l)) (fun x t => t.writeAt (128 * x.1) (mkLine x.2 0 0 0)) s

/-- Load the incoming context's image with its checks (R115, R403). -/
def State.preloadNow (s : State) (d l c : Nat) (env : Env) : State :=
  match s.imageBad d c l with
  | some n => s.imageTrap d c (128 * n)
  | none =>
    let ce := (glitches env (s.imageLines d c l)).isEmpty
    (if ce then s else s.stepCrcCe d c false (s.ctx d c).main.head).loadImage d c l

/-- CONTEXT_PRELOAD: the incoming context's image enters the shadow sets ahead of the switch (R115). -/
def State.contextPreload (s : State) (d l : Nat) (env : Env) : State :=
  let x := s.cl d l
  if !(s.live d && decide (l < 48) && x.preload.isNone && s.sharedCl d l) then s
  else match s.incoming d l with
  | none => s
  | some c =>
    match s.waits ((s.imageLines d c l).map (fun n => (0, n))) with
    | [] => s.preloadNow d l c env
    | w => s.snoopAll w

/-- CONTEXT_PRELOAD (R115). -/
def execContextPreload (d l : Nat) (env : Env) (s : State) : Host.Outcome State Fault Refusal :=
  .next (s.contextPreload d l env)

/-- A cluster may change its resident context (R114): it is empty, holds no open tile, and its resident context is gone, halted,
or past its quantum. -/
def State.maySwitch (s : State) (d l : Nat) : Bool :=
  let x := s.cl d l
  s.clEmpty d l && !x.hasOpen &&
    (match x.resident with
     | none => true
     | some c => (s.ctx d c).st ≠ .running || x.expired)

/-- The cluster changes hands: the outgoing active set is written back, the shadow sets become active (R115). -/
def State.switchNow (s : State) (d l c : Nat) : State :=
  let s1 := if s.sharedCl d l then
      let t := match (s.cl d l).resident with | some o => s.saveImage d o l | none => s
      ((t.copyRegs (t.touched d .mma l)).copyRegs (t.touched d .cvu l)).copyRegs (t.touched d .srg l)
    else s
  s1.updCl d l (fun x => { x with resident := some c, preload := none, expired := false })

/-- CONTEXT_SWITCH: at a step boundary the incoming context takes the cluster (R114). -/
def State.contextSwitch (s : State) (d l : Nat) (env : Env) : State :=
  if !(s.live d && decide (l < 48) && s.maySwitch d l) then s
  else
    let pre := (s.cl d l).preload
    let inc := match pre with
      | some p => if s.wants d p l then some p else s.incoming d l
      | none => s.incoming d l
    match inc with
    | none => s
    | some c =>
      if !s.sharedCl d l then s.switchNow d l c
      else
        let out := match (s.cl d l).resident with | some o => s.imageLines d o l | none => []
        match s.waits ((if pre = some c then [] else (s.imageLines d c l).map (fun n => (0, n))) ++ out.map (fun n => (1, n))) with
        | [] =>
          let t := if pre = some c then s else s.preloadNow d l c env
          if (t.cl d l).preload = some c then t.switchNow d l c else t
        | w => s.snoopAll w

/-- CONTEXT_SWITCH (R114). -/
def execContextSwitch (d l : Nat) (env : Env) (s : State) : Host.Outcome State Fault Refusal :=
  .next (s.contextSwitch d l env)

end Sys2Proof.Machine
end

