-- ==== Sys2Proof/Machine/HomeOps.lean ====
section
/-! DEFINITION. What the home of a line does with a fabric request or a link atomic (R201, R204–R208, R227, R261), and how
responses travel (R210, R217, R219). -/

namespace Sys2Proof.Machine

/-- FAB_ELOG of a cause (Table 11.12). -/
def fabLog (cause port mod ctx op seq : Nat) : Nat :=
  cause + port * 16 + mod * 256 + ctx * 2 ^ 20 + op * 2 ^ 24 + seq * 2 ^ 32

/-- A cause met at the home of a request (Tables 11.10, 11.12): NAN_SCALE 1, FORMAT_MISMATCH 2, PAYLOAD_CRC 3. -/
def State.homeCause (s : State) (hd cause : Nat) (r : FRec) : State :=
  s.raise hd .fab 0 (7 + cause) .ucc (fabLog cause 0 r.srcMod r.ctx r.op r.seq)

/-- A line held by the host or by nobody: the accesses a request makes to memory (R289). -/
def FRec.access (r : FRec) : List (Nat × Nat) :=
  let ln := gaLocal r.addr / 128
  if r.op = opRead then [(0, ln)]
  else if r.op = opWrite ∨ r.op = opMcast then [(if leAt r.pay 136 16 = 2 ^ 128 - 1 then 1 else 2, ln)]
  else if r.op = opAtomic then [(2, ln)]
  else if r.op = opRedstore then
    let n := if r.stat = 0x20 then 4 else if r.stat = 0x22 then 6 else 1
    (List.range n).map (fun i => (2, ln + i)) ++ (if n = 1 then [] else [(2, leAt r.pay (136 * n) 8 / 128)])
  else []

/-- New value of a word under an ATOMIC (R206). -/
def atomicNew (kind : Nat) (old x y : Word) : Word :=
  if kind = 0 then old + x
  else if kind = 1 then x
  else if kind = 2 then (if old = x then y else old)
  else if old.slt x then x else old

/-- An ATOMIC at the home (R206): status of Table 11.3 and the old value; `r` names the request in the home's log. A line whose CRC
fails twice is written poisoned. -/
def State.atomicAt (s : State) (a w kind : Nat) (x y : Word) (r : FRec) : State × Nat × Word :=
  let l := s.line (a / 128)
  if sbPoison l.sb then (s, 3, 0)
  else if !l.crcOk then ((s.poisonLine (a / 128)).homeCause (homeDie a) 3 r, 3, 0)
  else
    let old := wordOf (leAt l.bytes (8 * w) 8)
    let bs := spliceAt l.bytes (8 * w) (leBytes 8 (atomicNew kind old x y).toNat)
    (s.writeAt a (mkLine bs (sbVer l.sb) (sbFmt l.sb) (sbFlags l.sb)), 0, old)

/-- Lines of a REDSTORE unit (Table 11.2); none for a format outside the table. -/
def redLines (fmt : Nat) : Nat :=
  if fmt = fINT32 ∨ fmt = fINT16 then 1 else if fmt = fBS16 then 4 else if fmt = fBS16R then 6 else 0

/-- Line `i` of a payload of `n` lines (Table 13.5). -/
def payLine (pay : List Byte) (n i : Nat) : Line :=
  { bytes := padTo 128 ((pay.drop (128 * i)).take 128), sb := wordOf (leAt pay (128 * n + 8 * i) 8) }

/-- The integers of a unit's bytes (R31, R37, Table 2.6). -/
def unitVals (fmt : Nat) (bs : List Byte) : List Int :=
  if fmt = fINT32 then intElems 4 32 bs
  else if fmt = fINT16 then intElems 2 64 bs
  else if fmt = fBS16 then intElems 2 256 bs
  else List.zipWith (fun q r => q * 256 + (r : Int)) (intElems 2 256 bs) ((List.range 256).map (fun i => leAt bs (512 + i) 1))

/-- A unit's bytes from its integers. -/
def unitBytes (fmt : Nat) (xs : List Int) : List Byte :=
  if fmt = fINT32 then elemBytes 4 xs
  else if fmt = fINT16 ∨ fmt = fBS16 then elemBytes 2 xs
  else elemBytes 2 (xs.map (fun x => x / 256)) ++ xs.map (fun x => BitVec.ofNat 8 (x % 256).toNat)

/-- Largest magnitude of a block unit's element (R64). -/
def unitMax (fmt : Nat) : Int := if fmt = fBS16R then 2 ^ 23 - 1 else 32767

/-- A scale code that is read: 0xFF, which only a poisoned line may hold here, is taken as 0x00 (R39). -/
def scaleRead (x : Nat) : Nat := if x = 255 then 0 else x

/-- The exact sum of two blocks with scale codes `xa` and `xb`: exponent of its grid, and the integers (R31, R205). -/
def blockSum (fmt xa xb : Nat) (as bs : List Int) : Int × List Int :=
  let ea : Int := (xa : Int) - 127 - decodeF false fmt
  let eb : Int := (xb : Int) - 127 - decodeF false fmt
  let g := min ea eb
  (g, List.zipWith (fun a b => a * 2 ^ (ea - g).toNat + b * 2 ^ (eb - g).toNat) as bs)

/-- Round a sum half-to-even onto a block format (R66, R88, R205): scale code, integers, clamps. -/
def redRound (fmt : Nat) (g : Int) (ws : List Int) : Nat × List Int × Nat :=
  let x := selectScale fmt g ws
  let rs := ws.map (fun w => shiftEven w (g - ((x : Int) - 127 - decodeF false fmt)))
  let cs := rs.map (clampInt (-(unitMax fmt)) (unitMax fmt))
  (if cs.all (· = 0) then 0 else x, cs, (List.zip rs cs).countP (fun p => p.1 ≠ p.2))

/-- Why a REDSTORE's check fails (R24, R39, R205): NAN_SCALE 1 or FORMAT_MISMATCH 2, payload before target. -/
def redCheck (fmt : Nat) (pay tgt : List Line) (sl : Option Line) (px tx : Nat) : Option Nat :=
  let poP := pay.any (fun l => sbPoison l.sb)
  if pay.any (fun l => sbFmt l.sb ≠ fmt) then some 2
  else if sl.isSome && px = 255 && !poP then some 1
  else if tgt.any (fun l => sbFmt l.sb ≠ fmt) || (match sl with | some l => sbFmt l.sb ≠ fSCALE | none => false) then some 2
  else match sl with
    | some l => if tx = 255 && !sbPoison l.sb then some 1 else none
    | none => none

/-- The channel of this module on whose region A a REDSTORE acts: die, context, channel, index of the unit (R259, R263). -/
def State.regionOf (s : State) (a fmt : Nat) : Option (Nat × Nat × Nat × Nat) :=
  let unit := 128 * redLines fmt
  (s.allDies.flatMap (fun d => (List.range 8).flatMap (fun c => (List.range 16).map (fun h => (d, c, h))))).findSome? (fun x =>
    let ch := s.chan x.1 x.2.1 x.2.2
    match ch.accepted.head? with
    | none => none
    | some b =>
      let w := s.fld x.1 .fab 0 (rchOff x.2.1 x.2.2) 20 28 * 2 ^ 20
      if ch.phase ≠ 0 && decide (w ≤ a) && decide (a < w + (if ch.fmt = fBS16 then 3 * bucketBytes b.size / 2 else bucketBytes b.size))
      then some (x.1, x.2.1, x.2.2, (a - w) / unit) else none)

/-- Level of the child of a channel that runs on a module (R250). -/
def Chan.levelFrom (ch : Chan) (bseq mod : Nat) : Nat :=
  let p := treePos ch.nranks ch.rank bseq
  ((List.range 12).find? (fun k => smGet 0 ch.ids ((p + 2 ^ k + bseq) % max 1 ch.nranks) = mod)).getD 0

/-- A channel notes a REDSTORE applied to its region A: its clamps, and the digest of what arrived (R259, R263). -/
def State.noteRed (s : State) (a sat : Nat) (r : FRec) (unit : List Byte) : State :=
  match s.regionOf a r.stat with
  | none => s
  | some (d, c, h, i) =>
    let ch := s.chan d c h
    let k := ch.levelFrom ((ch.accepted.head?.map (·.bseq)).getD 0) r.srcMod
    s.putChan d c h { ch with sat := ch.sat + sat,
                              digRecv := smPut 0 ch.digRecv k (Nat.xor (smGet 0 ch.digRecv k) (digestUnit i unit)) }

/-- A REDSTORE at the home (R205, R261): its status. `alu` says that the two copies of the adders disagree (R379). -/
def State.redstoreAt (s : State) (r : FRec) (alu : Bool) : State × Nat :=
  let fmt := r.stat
  let n := redLines fmt
  let a := gaLocal r.addr / 128 * 128
  let hd := homeDie a
  let blk := decide (1 < n)
  let sa := leAt r.pay (136 * n) 8 % 2 ^ 48
  let px := leAt r.pay (136 * n + 8) 1
  if n = 0 then (s.homeCause 0 2 r, 4)
  else if !((List.range n).all (fun i => s.served (a + 128 * i)) && (!blk || s.served sa)) then (s, 1)
  else
    let pay := (List.range n).map (payLine r.pay n)
    if pay.any (fun l => !sbPoison l.sb && !l.crcOk) then (s.homeCause hd 3 r, 2)
    else
      let tgt := (List.range n).map (fun i => s.line (a / 128 + i))
      let sl := if blk then some (s.line (sa / 128)) else none
      let tx := (s.byte sa).toNat
      match redCheck fmt pay tgt sl px tx with
      | some c => ((forEach (List.range n) (fun i t => t.poisonLine (a / 128 + i)) s).homeCause hd c r, 4)
      | none =>
        let pv := unitVals fmt (pay.flatMap Line.bytes)
        let tv := unitVals fmt (tgt.flatMap Line.bytes)
        let po := (pay ++ tgt ++ sl.toList).any (fun l => sbPoison l.sb)
        let fl := if alu then flagPoison else if po then flagDerived else 0
        let res : Nat × List Int × Nat :=
          if blk then let g := blockSum fmt (scaleRead px) (scaleRead tx) pv tv; redRound fmt g.1 g.2
          else
            let ws := List.zipWith (· + ·) pv tv
            let cs := ws.map (clampInt (-(vmaxUnits fmt) - 1) (vmaxUnits fmt))
            (0, cs, (List.zip ws cs).countP (fun p => p.1 ≠ p.2))
        let bs := unitBytes fmt res.2.1
        let s1 := forEach (List.range n) (fun i t =>
          t.writeAt (a + 128 * i) (mkLine ((bs.drop (128 * i)).take 128) (sbVer ((tgt.getD i zeroLine).sb)) fmt fl)) s
        let s2 := match sl with
          | none => s1
          | some l => s1.mergeAt sa (2 ^ (sa % 128)) (spliceAt (List.replicate 128 0) (sa % 128) [BitVec.ofNat 8 res.1])
              (mkSide 0 (sbVer l.sb) fSCALE fl)
        let s3 := s2.addRg hd .fab 0 0x130 res.2.2
        let s4 := s3.noteRed a res.2.2 r (pay.flatMap Line.bytes ++ (if blk then [BitVec.ofNat 8 px] else []))
        (if alu then s4.raise hd .saf 0 9 .ucc (2 + a * 65536) else s4, 0)

/-- A WRITE or an MCAST record at the home (R204, R175): its status; one of the control class carries no sideband of its own
(R209). -/
def State.writeFab (s : State) (cls : Nat) (r : FRec) : State × Nat :=
  let a := gaLocal r.addr / 128 * 128
  let l := payLine (r.pay.take 136) 1 0
  let mask := leAt r.pay 136 16
  if !s.served a then (s, 1)
  else if mask = 2 ^ 128 - 1 ∧ !ctrlClass cls then (s.writeAt a l, 0)
  else if !sbPoison l.sb && !l.crcOk then (s.homeCause (homeDie a) 3 r, 2)
  else if ctrlClass cls then ((s.touchWrite a true).mergeBare (a / 128) mask l.bytes, 0)
  else (s.mergeAt a mask l.bytes l.sb, 0)

/-- A SIGNAL at its target (R207, R103): its status; it is applied whatever the context's state is. -/
def State.signalAt (s : State) (r : FRec) : State × Nat :=
  let cref := r.addr % 2 ^ 32
  let die := nbits cref 8 3
  if s.live die then (s.addCnt die (nbits cref 28 3) (nbits cref 0 8) (r.addr / 2 ^ 32), 0) else (s, 1)

/-- CTRL_UE (R379, R380): FTL, the die stops in order. -/
def State.ctrlUe (s : State) (d : Nat) : State := s.raise d .saf 0 11 .ftl 4

/-! ### Responses (R210, R219, R227) -/

/-- The response to a request (Table 12.5): it names the issuing die and tag. -/
def respTo (r : FRec) (own st : Nat) (pay : List Byte) : FRec :=
  { kind := 1, op := r.op, ctx := r.ctx, die := r.die, akind := r.akind, srcMod := own, word := r.word, dstMod := r.srcMod, tag := r.tag,
    seq := r.seq, stat := st, pay := pay }

/-- Class of the response to a request of a class (Table 11.4). -/
def respClass (cls : Nat) : Nat := if ctrlClass cls then 6 else 3

/-- Responses for the members of a merged request, in the order of their arrival (R217, R219). -/
def memberResps (r : FRec) : Nat → List FRec → List FRec
  | _, [] => []
  | v, m :: ms =>
    { r with dstMod := m.srcMod, die := m.die, tag := m.tag, seq := m.seq, ctx := m.ctx,
             pay := if r.op = opAtomic && r.stat = 0 then leBytes 8 v else r.pay } ::
      memberResps r ((v + leAt m.pay 0 8) % 2 ^ 64) ms

/-- The key under which a blend unit of this module holds the members of the request that a response answers. -/
def respKey (r : FRec) : Nat := (r.dstMod * 8 + r.die) * 32768 + r.tag

/-- The responses a response stands for: those of the members that a blend unit of this module merged (R217), else itself. -/
def State.memberList (s : State) (r : FRec) : List FRec :=
  match s.allDies.find? (fun d => !(smGet [] (s.router d).merged (respKey r)).isEmpty) with
  | none => [r]
  | some d => memberResps r (leAt r.pay 0 8) (smGet [] (s.router d).merged (respKey r))

/-- A response splits: the kept members of its merged request leave the blend unit (R217). -/
def State.splitResp (s : State) (r : FRec) : State × List FRec :=
  match s.allDies.find? (fun d => !(smGet [] (s.router d).merged (respKey r)).isEmpty) with
  | none => (s, [r])
  | some d => (s.updRouter d (fun k => { k with merged := smPut [] k.merged (respKey r) [] }), s.memberList r)

/-- A response is handed to its issuing die on this module, or sent onward; one without a route is lost, and its request is sent
again (R227). -/
def State.sendResp (s : State) (d cls : Nat) (r : FRec) : State :=
  if r.dstMod = s.ownId d then s.updRouter r.die (fun k => { k with inq := k.inq ++ [(cls, r)] })
  else (s.forward d cls r).1

/-- A response arrives at a router of this module (R217, R219). -/
def State.takeResp (s : State) (d cls : Nat) (r : FRec) : State :=
  let x := s.splitResp r
  forEach x.2 (fun m t => t.sendResp d cls m) x.1

/-- Key of the window of applied numbers of a source die and class (R227). -/
def winKey (cls : Nat) (r : FRec) : Nat := (r.srcMod * 8 + r.die) * 2 + b2n (ctrlClass cls)

/-- The window of applied numbers of a request's source; the module keeps one, at die 0 (log entry 16). -/
def State.window (s : State) (cls : Nat) (r : FRec) : List (Nat × FRec) := smGet [] (s.router 0).applied (winKey cls r)

/-- The response that a request already applied received (R227). -/
def State.applied? (s : State) (cls : Nat) (r : FRec) : Option FRec := ((s.window cls r).find? (fun x => x.1 = r.seq)).map Prod.snd

/-- A control request arrives after a gap in its source's numbers, or behind the window (R227). -/
def State.outOfOrder (s : State) (cls : Nat) (r : FRec) : Bool :=
  ctrlClass cls && decide (r.seq ≠ (match (s.window cls r).head? with | none => 0 | some x => (x.1 + 1) % 2 ^ 32))

/-- The number a response answers is applied: it is kept with its response in the window of its source (R227). -/
def State.noteApplied (s : State) (cls : Nat) (q : FRec) : State :=
  let key := (q.dstMod * 8 + q.die) * 2 + b2n (ctrlClass cls)
  s.updRouter 0 (fun k => { k with applied := smPut [] k.applied key (((q.seq, q) :: smGet [] k.applied key).take 1024) })

/-- A request has been applied, or refused, at the home: its number and response are kept, with those of every member merged in
this module, and the response is sent. -/
def State.finish (s : State) (d cls : Nat) (r : FRec) (st : Nat) (pay : List Byte) : State :=
  let resp := { respTo r (s.ownId d) st pay with src := if r.op = opRead && st = 0 then gaLocal r.addr / 128 + 1 else 0 }
  (forEach (s.memberList resp) (fun q t => t.noteApplied cls q) s).takeResp d (respClass cls) resp

end Sys2Proof.Machine
end

