-- ==== Sys2Proof/Machine/PortOps.lean ====
section
/-! DEFINITION. The Ethernet ports as their commands use them: hop retry (R226), end-to-end retry (R227), port state (R233,
R234), transit lines and flow control (R241), gates (R243), frame contents (R238, R239) and host queues (R245). -/

namespace Sys2Proof.Machine

/-! ### Registers of a port -/

/-- Add to MAC_CNT_k (Table 12.11). -/
def State.macCnt (s : State) (d p k n : Nat) : State := s.addRg d .mac (p % 4) (0x100 + 8 * k) n

/-- MAC_CFG.MODE. -/
def State.macMode (s : State) (d p : Nat) : Nat := s.fld d .mac (p % 4) 0x20 0 2

/-- LINK = DIRECT (R231). -/
def State.direct (s : State) (d p : Nat) : Bool := decide (s.fld d .mac (p % 4) 0x20 3 1 = 0)

/-- MAC_CFG.MAX_FRAME. -/
def State.maxFrame (s : State) (d p : Nat) : Nat := s.fld d .mac (p % 4) 0x20 8 14

/-- The port, or half of a port in MODE 2, exists on a die that runs. -/
def State.portLive (s : State) (d p : Nat) : Bool :=
  s.live d && (decide (p < 4 && s.macMode d p ≠ 0) || decide (p < 8 && s.macMode d p = 2))

/-- MAC_ELOG of a cause (Table 12.8). -/
def macLog (cause lane peer port : Nat) : Nat := cause + lane * 256 + peer * 65536 + port * 2 ^ 32

/-- Module port number of a die's port (Table 12.6). -/
def modPort (d p : Nat) : Nat := 4 * d + p

/-! ### Records that are not sent on -/

/-- A request without a route ends with UNREACHABLE, a response without one is lost (R202, R224, R227). -/
def State.noRoute (s : State) (d cls : Nat) (r : FRec) : State :=
  if r.kind = 0 then s.takeResp d (respClass cls) (respTo r (s.ownId d) 6 []) else s

/-- Send a record onward, or end it for want of a route. -/
def State.forwardOr (s : State) (d cls : Nat) (r : FRec) : State :=
  let x := s.forward d cls r
  if x.2 then x.1 else x.1.noRoute d cls r

/-! ### End-to-end retry (R227) -/

/-- A request of a die fails: its issuer learns the status and its tag returns (R210, R228). -/
def State.failTag (s : State) (d tag st : Nat) : State :=
  match (s.router d).tags.find? (fun e => e.1 = tag) with
  | none => s
  | some e => (s.failOwner d e.2 st).returnTag d tag

/-- FAB_ELOG of a cause for a request of this module (Table 11.12). -/
def reqLog (cause : Nat) (r : FRec) : Nat := fabLog cause 0 r.dstMod r.ctx r.op r.seq

/-- A request of a die is sent again on TC1, or fails with TIMEOUT after the last retransmission (R227). -/
def State.resend (s : State) (d tag : Nat) : State :=
  match (s.router d).tags.find? (fun e => e.1 = tag) with
  | none => s
  | some (_, t) =>
    if t.tries < s.fld d .fab 0 0x38 16 3 then
      let r := { t.r with retx := true }
      let s1 := (s.raise d .fab 0 12 .ce (reqLog 5 t.r)).addRg d .fab 0 0x120 1
      let ctrl := decide (r.op = opSignal ∨ r.op = opAtomic)
      let via := if r.dstMod = s.ownId d then none else (s1.route d r.dstMod ctrl 1).map (fun x => x.1 * 8 + x.2)
      let s2 := s1.updRouter d (fun k => { k with tags := k.tags.map (fun e =>
        if e.1 = tag then (tag, { t with r := r, tries := t.tries + 1, via := via }) else e) })
      if r.dstMod = s.ownId d then s2.updRouter d (fun k => { k with inq := k.inq ++ [(1, r)] })
      else
        let x := s2.forward d 1 r
        if x.2 then x.1 else (x.1.raise d .fab 0 15 .ucc (reqLog 8 r)).failTag d tag 6
    else (s.raise d .fab 0 13 .ucc (reqLog 6 t.r)).failTag d tag 5

/-- The tag of a request of this module, where it still holds one. -/
def State.tagOf (s : State) (r : FRec) : Option (Nat × Nat) :=
  s.allDies.findSome? (fun d =>
    if r.kind = 0 && r.srcMod = s.ownId d && r.die = d && (s.router d).tags.any (fun e => e.1 = r.tag && e.2.r.seq = r.seq)
    then some (d, r.tag) else none)

/-! ### Hop retry (R226) -/

/-- The sender takes a cumulative acknowledgement: frames up to it leave the window (R226). -/
def State.ackTo (s : State) (d p h : Nat) : State :=
  let u := (s.port d p).unacked
  match (List.range u.length).find? (fun i => (u.getD i {}).hseq = h) with
  | none => s
  | some i => s.updPort d p (fun k => { k with unacked := k.unacked.drop (i + 1), tries := 0 })

/-- The acknowledgement a port sends: the number of the last frame it accepted (Table 12.4). -/
def Port.ackNow (k : Port) : Option Nat := some ((k.rxNext + 2047) % 2048)

/-- A frame leaves a port: TX_FRAMES and TX_BYTES, FCS included. -/
def State.sendFrame (s : State) (d p : Nat) (f : Frame) (len : Nat) : State :=
  ((s.emit (.frame d p f)).macCnt d p 2 1).macCnt d p 3 len

/-- A record's bytes in a frame: its header and its payload, padded to 8 bytes (R238). -/
def recWire (r : FRec) : Nat := 24 + (r.pay.length + 7) / 8 * 8

/-- Bytes of a fabric frame with its FCS, padded (R238). -/
def frameLen (rs : List FRec) : Nat := max 64 (rs.foldl (fun n r => n + recWire r) 30)

/-- Frames from a number onward leave again with the present acknowledgement, each logged (R226). -/
def State.resendFrames (s : State) (d p h : Nat) : State :=
  let k := s.port d p
  let fs := (k.unacked.dropWhile (fun f => f.hseq ≠ h)).map (fun f => { f with hack := k.ackNow })
  let s1 := forEach fs (fun f t =>
    ((t.raise d .fab 0 11 .ce (4 + p % 4 * 16)).addRg d .fab 0 0x118 1).sendFrame d p f (frameLen f.recs)) s
  if fs.isEmpty then s1 else s1.updPort d p (fun x => { x with ackDue := false })

/-- Control requests sent on a port are neither answered nor retransmitted (R224). -/
def State.viaOpen (s : State) (d p : Nat) : Bool :=
  s.allDies.any (fun e => (s.router e).tags.any (fun t =>
    t.2.via = some (d * 8 + p) && ctrlClass (reqClass t.2.own t.2.r)))

/-- A port goes down (R224, R226, R233): LINK_DOWN; its records take other routes, the requests in its unacknowledged frames
return to their sources, and control traffic for its direction is held while earlier control requests are open. -/
def State.portDown (s : State) (d p : Nat) : State :=
  let k := s.port d p
  let s1 := (s.setFld d .mac (p % 4) 0 16 1 0).raise d .fab 0 14 .ucc (7 + p % 4 * 16)
  let s2 := s1.putPort d p { peer := k.peer, gates := k.gates, gcl := k.gcl }
  let s3 := forEach ((k.unacked.flatMap Frame.recs).filterMap s.tagOf) (fun x t => t.resend x.1 x.2) s2
  let s4 := if (s.portRole d p).isSome && s3.viaOpen d p then
      (s3.updRouter d (fun x => { x with failed := x.failed.filter (· ≠ p) ++ [p] })).setFld d .fab 0 0 16 1 1
    else s3
  forEach k.txq (fun x t => t.forwardOr d x.1 x.2) s4

/-- The oldest frame is sent again, or the port goes down after eight tries without success (R226). -/
def State.retryFrom (s : State) (d p h : Nat) : State :=
  if (s.port d p).unacked.any (fun f => f.hseq = h) then
    if 8 ≤ (s.port d p).tries then s.portDown d p
    else (s.updPort d p (fun k => { k with tries := k.tries + 1 })).resendFrames d p h
  else s

/-- The receiver asks for retransmission from the frame it expects, once until that frame arrives (R226). -/
def State.askAgain (s : State) (d p : Nat) : State :=
  let k := s.port d p
  if !s.direct d p || k.naked then s
  else s.putPort d p { k with naked := true, ctlq := k.ctlq ++ [{ kind := 2, op := 1, pay := leBytes 2 k.rxNext }] }

/-! ### Transit lines and priority flow control (R241) -/

/-- Transit lines held by frames of a class that a port received. -/
def Port.heldOf (k : Port) (cls : Nat) : Nat := (k.held.filter (fun e => e.1 = cls)).foldl (fun n e => n + e.2.1) 0

/-- Transit lines held at a port. -/
def Port.heldAll (k : Port) : Nat := k.held.foldl (fun n e => n + e.2.1) 0

/-- Send a PFC frame for a class, counted in PFC_TX. -/
def State.sendPfc (s : State) (d p cls quanta : Nat) : State := (s.emit (.pfc d p cls quanta)).macCnt d p 10 1

/-- MAC_PFC.XOFF and XON. -/
def State.xoff (s : State) (d p : Nat) : Nat := s.fld d .mac (p % 4) 0x28 0 16
def State.xon (s : State) (d p : Nat) : Nat := s.fld d .mac (p % 4) 0x28 16 16

/-- A frame's lines are held until its last record is taken; at XOFF the port pauses the class (R241). -/
def State.holdLines (s : State) (d p cls n : Nat) (r : FRec) : State :=
  let s1 := s.updPort d p (fun k => { k with held := k.held ++ [(cls, n, r)] })
  if cls ≠ 0 && decide (s1.xoff d p ≤ (s1.port d p).heldOf cls) && !(s1.port d p).pausing.contains cls then
    (s1.updPort d p (fun k => { k with pausing := k.pausing ++ [cls] })).sendPfc d p cls 0xFFFF
  else s1

/-- A pausing class whose count has fallen below XON is released (R241). -/
def State.releasePfc (s : State) (d p : Nat) : State :=
  forEach ((s.port d p).pausing.filter (fun c => decide ((s.port d p).heldOf c < s.xon d p)))
    (fun c t => (t.updPort d p (fun k => { k with pausing := k.pausing.filter (· ≠ c) })).sendPfc d p c 0) s

/-- A record is taken by its consumer: the lines of the frame that brought it last are free (R241). -/
def State.freeTransit (s : State) (r : FRec) : State :=
  forEach (s.allDies.flatMap (fun d => (List.range 8).map (fun p => (d, p)))) (fun x t =>
    if (t.port x.1 x.2).held.any (fun e => e.2.2 = r) then
      (t.updPort x.1 x.2 (fun k => { k with held := k.held.filter (fun e => e.2.2 ≠ r) })).releasePfc x.1 x.2
    else t) s

/-- A PFC frame arrives: its classes are paused, or released by a time of zero; `ts` holds class and time (R241). -/
def State.takePfc (s : State) (d p : Nat) (ts : List (Nat × Nat)) : State :=
  (forEach ts (fun x t => t.updPort d p (fun k =>
    { k with paused := if x.2 = 0 then k.paused.filter (· ≠ x.1) else k.paused.filter (· ≠ x.1) ++ [x.1] })) s).macCnt d p 11 1

/-! ### Gates (R243) -/

/-- The segments of a gate cycle: start within the cycle, and gate states; the list is cut at the cycle's end. -/
def State.gateSegs (s : State) (d p : Nat) : List (Nat × Nat) :=
  let cyc := s.fld d .mac (p % 4) 0x80 32 32
  let n := min 256 (s.fld d .mac (p % 4) 0x80 0 9)
  ((List.range n).foldl (fun (a : Nat × List (Nat × Nat)) i =>
    (a.1 + s.fld d .mac (p % 4) (0x800 + 8 * i) 8 32,
      a.2 ++ [(a.1, s.fld d .mac (p % 4) (0x800 + 8 * i) 0 8)])) (0, [])).2.filter (fun x => x.1 < max 1 cyc)

/-- Gate states now: every gate is open with an empty list or before the list starts. -/
def State.gatesNow (s : State) (d p : Nat) : Nat := if s.fld d .mac (p % 4) 0x80 0 9 = 0 then 255 else (s.port d p).gates

/-- Nanoseconds until a class's gate next closes; none where it stays open. -/
def State.gateLeft (s : State) (d p cls : Nat) : Option Nat :=
  let cyc := s.fld d .mac (p % 4) 0x80 32 32
  let base := (s.rg d .mac (p % 4) 0x88).toNat
  let segs := s.gateSegs d p
  if s.fld d .mac (p % 4) 0x80 0 9 = 0 ∨ cyc = 0 ∨ s.time d < base then none
  else
    let x := (s.time d - base) % cyc
    match segs.find? (fun e => decide (x < e.1) && !nbit e.2 cls) with
    | some e => some (e.1 - x)
    | none => (segs.find? (fun e => !nbit e.2 cls)).map (fun e => cyc + e.1 - x)

/-- Wire time of a frame, ns: 200 bytes per ns in MODE 1, 100 in a half of MODE 2 (R242). -/
def State.wireNs (s : State) (d p len : Nat) : Nat :=
  let b := if s.macMode d p = 2 then 100 else 200
  (len + b - 1) / b

/-- A frame of a class may start: its gate is open until its last bit has left, and its class is not paused (R240, R243). -/
def State.mayStart (s : State) (d p cls len : Nat) : Bool :=
  nbit (s.gatesNow d p) cls && !(s.port d p).paused.contains cls &&
    (match s.gateLeft d p cls with | none => true | some n => decide (s.wireNs d p len ≤ n))

/-! ### Frame contents (R238, R239) -/

/-- The big-endian number in `n` bytes (IEEE 802.3 order, PRESUMED, log entry 17). -/
def beAt (bs : List Byte) (off n : Nat) : Nat := ((bs.drop off).take n).foldl (fun a b => a * 256 + b.toNat) 0

/-- A record from its header and payload (Table 12.5). -/
def recOf (h pay : List Byte) : FRec :=
  let b0 := leAt h 0 1
  let b1 := leAt h 1 1
  { kind := b0 % 4, flag := nbit b0 2, retx := nbit b0 3, op := b0 / 16, ctx := b1 % 8, die := nbits b1 3 3, akind := b1 / 64,
    srcMod := leAt h 2 2 % 4096, word := leAt h 2 2 / 4096, dstMod := leAt h 4 2 % 4096, tag := leAt h 6 2 % 32768,
    seq := leAt h 8 4, stat := leAt h 12 1, addr := leAt h 16 8, pay := pay }

/-- Payload bytes a record must have (Table 12.6); none for a reserved operation code or format. -/
def recLen (r : FRec) : Option Nat :=
  if r.kind = 0 then
    if r.op = opRead ∨ r.op = opSignal then some 0
    else if r.op = opWrite ∨ r.op = opMcast then some 152
    else if r.op = opAtomic then some 16
    else if r.op = opRedstore then
      let n := redLines r.stat
      if n = 0 then none else if n = 1 then some 136 else some (136 * n + 16)
    else none
  else if r.kind = 1 then
    if r.op = 0 ∨ 6 < r.op then none
    else if r.stat ≠ 0 then some 0
    else if r.op = opRead then some 136
    else if r.op = opAtomic then some 8
    else some 0
  else if r.kind = 2 then
    if r.op = 1 then some 2 else if r.op = 2 then some 3 else if r.op = 3 then some 1 else if r.op = 4 then some 0 else none
  else none

/-- The records of a frame; none where R239 or R261 drops it. Link-control payloads may be padded to 8 bytes within PLEN (DEDUCED). -/
def parseRecs : Nat → List Byte → Option (List FRec)
  | 0, _ => some []
  | n + 1, bs =>
    if bs.length < 24 then none
    else
      let plen := leAt bs 14 2
      let r := recOf (bs.take 24) ((bs.drop 24).take plen)
      let ok := match recLen r with
        | some k => decide (plen = k) || (r.kind = 2 && decide (k ≤ plen) && decide (plen ≤ 8))
        | none => false
      let step := 24 + (plen + 7) / 8 * 8
      if !ok || decide (bs.length < step) then none
      else (parseRecs n (bs.drop step)).map (r :: ·)

/-- Header length, EtherType and PCP of a frame; an untagged frame has no PCP (R236, R238). -/
def frameHead (bs : List Byte) : Nat × Nat × Option Nat :=
  if beAt bs 12 2 = 0x8100 then (18, beAt bs 16 2, some (leAt bs 14 1 / 32)) else (14, beAt bs 12 2, none)

/-- The address filter of host frames (R237). -/
def State.passes (s : State) (d p : Nat) (bs : List Byte) : Bool :=
  let dst := beAt bs 0 6
  bitOf (s.rg d .mac (p % 4) 0x20) 6 || decide (dst = s.fld d .mac (p % 4) 0x30 0 48) || nbit dst 40

/-- Fabric address of a module on a port (R238). -/
def State.fabAddr (s : State) (d p m : Nat) : Nat := s.fld d .mac (p % 4) 0x38 12 36 * 4096 + m % 4096

/-! ### Host queues (R245) -/

/-- Bytes written from a line's start: the bytes beyond them stay, format code 0x00, version 0, a new CRC-32C (R236). -/
def State.putBytes (s : State) (a : Nat) (bs : List Byte) : State :=
  if s.isMem a then s.putLine (a / 128) (mkLine (bs ++ (s.line (a / 128)).bytes.drop bs.length) 0 0 0) else s

/-- Write a frame into lines from an address on. -/
def State.putFrame (s : State) (a : Nat) : Nat → List Byte → State
  | 0, _ => s
  | n + 1, bs => if bs.isEmpty then s else (s.putBytes a (bs.take 128)).putFrame (a + 128) n (bs.drop 128)

/-- Read `n` bytes from an address. -/
def State.bytesFrom (s : State) (a n : Nat) : List Byte := smRange memDefault s.mem a n

/-- A frame goes into the next slot of the receive queue, or is dropped (R245). -/
def State.hostReceive (s : State) (d p cls : Nat) (bs : List Byte) : State :=
  let q := s.rg d .mac (p % 4) 0x60
  let x := s.rg d .mac (p % 4) 0x70
  let n := 2 ^ bits q 50 4
  if !bitOf q 54 || decide ((bits x 0 16 + 65536 - bits x 16 16) % 65536 = n) then
    (s.macCnt d p 9 1).setStat d .mac (p % 4) (bitMask 13)
  else
    let slot := bits x 0 16 % n
    let da := cloAddr (bits q 25 25) + 8 * slot
    let desc := leBytes 8 (bs.length % 16384 + cls * 16384)
    let s1 := s.putFrame (cloAddr (bits q 0 25 + 72 * slot)) 73 bs
    let s2 := if s1.isMem da then
        s1.mergeBare (da / 128) (255 * 2 ^ (da % 128)) (spliceAt (List.replicate 128 0) (da % 128) desc)
      else s1
    (s2.setFld d .mac (p % 4) 0x70 0 16 (bits x 0 16 + 1)).setStat d .mac (p % 4) (bitMask 14)

/-- The next transmit slot of a port: address of the frame, LEN, TC, and whether its descriptor is good (R245). -/
def State.hostSlot (s : State) (d p : Nat) : Option (Nat × Nat × Nat × Bool) :=
  let q := s.rg d .mac (p % 4) 0x68
  let x := s.rg d .mac (p % 4) 0x70
  if 4 ≤ p ∨ !bitOf q 54 ∨ bits x 32 16 = bits x 48 16 then none
  else
    let slot := bits x 48 16 % 2 ^ bits q 50 4
    let w := leNat (s.bytesFrom (cloAddr (bits q 25 25) + 8 * slot) 8)
    some (cloAddr (bits q 0 25 + 72 * slot), nbits w 0 14, nbits w 14 3,
      decide (w / 2 ^ 17 = 0) && decide (nbits w 0 14 + 4 ≤ s.maxFrame d p))

/-- TX_CONS advances (R245). -/
def State.txCons (s : State) (d p : Nat) : State :=
  s.setFld d .mac (p % 4) 0x70 48 16 (s.fld d .mac (p % 4) 0x70 48 16 + 1)

/-! ### Bring-up and the spare lane (R233–R235) -/

/-- A port comes up: sequence and acknowledgement are 0, UP and PORT_UP (R233). -/
def State.portUpNow (s : State) (d p peer : Nat) : State :=
  let k := s.port d p
  let k1 : Port := { txq := k.txq, ctlq := k.ctlq, peer := peer, gates := k.gates, gcl := k.gcl }
  ((s.putPort d p k1).setFld d .mac (p % 4) 0 16 1 1).setStat d .mac (p % 4) (bitMask 12)

/-- The neighbour's identifier and module port number that Table 12.2 and FAB_TOPO call for on a torus port (R232). -/
def State.peerWanted (s : State) (d p : Nat) : Option (Nat × Nat) :=
  match s.portRole d p with
  | none => none
  | some (k, pos) =>
    let own := s.ownId d
    let n := s.dim d k
    let c (j : Nat) : Nat := if j = k then (s.coord d j own + (if pos then 1 else n - 1)) % n else s.coord d j own
    some (c 0 + s.dim d 0 * (c 1 + s.dim d 1 * c 2), modPort (if pos then d + s.nd / 2 else d - s.nd / 2) p)

/-- A torus port is not cabled as its peer's HELLO should say (R233); a module outside the torus has no such ports. -/
def State.miscabled (s : State) (d p peer port : Nat) : Bool :=
  match s.peerWanted d p with
  | none => false
  | some w => decide (w ≠ (peer, port))

/-- The receive lanes that carry data now: the halves of MODE 2 use lanes 0–3 and 4–7; a lane moved to the spare is not used. -/
def State.lanesUsed (s : State) (d p : Nat) : List Nat :=
  let sp := s.fld d .mac (p % 4) 0x50 0 4
  (if sp = 15 then [] else [8]) ++
    (List.range 8).filter (fun l => l ≠ sp && (s.macMode d p ≠ 2 || decide (l / 4 = p / 4)))

/-- The spare receive lane can be switched in (R234, R235). -/
def State.spareFree (s : State) (d p : Nat) : Bool :=
  s.direct d p && decide (s.macMode d p = 1) && decide (s.fld d .mac (p % 4) 0x50 0 4 = 15) && (s.port d p).rxMove.isNone

/-- A switch-in of the spare receive lane starts: SPARE_REQ leaves for the other end (Table 12.3, t1). -/
def State.moveLane (s : State) (d p lane : Nat) : State :=
  s.updPort d p (fun k => { k with rxMove := some lane, ctlq := k.ctlq ++ [{ kind := 2, op := 3, pay := leBytes 1 lane }] })

/-- Both halves of a port in MODE 2, else the port (R231). -/
def State.halves (s : State) (d p : Nat) : List Nat := if s.macMode d p = 2 then [p % 4, p % 4 + 4] else [p % 4]

/-- A port that is up goes down, and trains anew (R233). -/
def State.retrainPort (s : State) (d p : Nat) : State :=
  let s1 := forEach (s.halves d p) (fun q t => if s.portUp d p then t.portDown d q else t) s
  forEach (s.halves d p) (fun q t => t.updPort d q (fun k => { k with trained := false })) s1

end Sys2Proof.Machine
end

