-- ==== Sys2Proof/Machine/Rings.lean ====
section
/-! DEFINITION. Work rings, doorbells, descriptors and completions (R146–R160, R166). -/

namespace Sys2Proof.Machine

/-! ### Rings and doorbells (R146–R149, R166) -/

/-- SIZE_LOG2 of a context's rings (Table 8.8). -/
def State.ringSize (s : State) (c : Nat) : Nat := s.fld 0 .seq 0 (0x600 + 0x40 * c) 0 5

/-- Local address of work slot `i` mod 2^SIZE_LOG2 (R146, R147). -/
def State.workSlot (s : State) (c i : Nat) : Nat :=
  s.fld 0 .seq 0 (0x600 + 0x40 * c) 12 36 * 4096 + 64 * (i % 2 ^ s.ringSize c)

/-- Local address of completion slot `i` mod 2^SIZE_LOG2 (R146, R147). -/
def State.doneSlot (s : State) (c i : Nat) : Nat :=
  s.fld 0 .seq 0 (0x608 + 0x40 * c) 12 36 * 4096 + 32 * (i % 2 ^ s.ringSize c)

/-- A store of `p` to SEQ_DB_PROD_c is accepted (R148). -/
def State.dbAccepts (s : State) (c p : Nat) : Bool :=
  decide ((p + 2 ^ 32 - s.prod c) % 2 ^ 32 ≤ 2 ^ s.ringSize c) && decide ((p + 2 ^ 32 - s.cons c) % 2 ^ 32 ≤ 2 ^ s.ringSize c)

/-- A doorbell store (R148): it sets PROD, or is counted and recorded in SEQ_DB_REJECT. -/
def State.doorbell (s : State) (c : Nat) (p : BitVec 32) : State :=
  if s.dbAccepts c p.toNat then s.setFld 0 .seq 0 (0x618 + 0x40 * c) 0 32 p.toNat
  else
    let n := s.fld 0 .seq 0 (0x8010 + 0x1000 * c) 0 32
    s.setRg 0 .seq 0 (0x8010 + 0x1000 * c) (wordOf (min (n + 1) (2 ^ 32 - 1) + p.toNat * 2 ^ 32))

/-- DOORBELL: a store to a context's doorbell page reaches die 0 (R148). -/
def execDoorbell (c : Nat) (p : BitVec 32) (s : State) : Host.Outcome State Fault Refusal :=
  .next (if s.live 0 && decide (c < 8) then s.doorbell c p else s)

/-- The context is IDLE on every die. -/
def State.allIdle (s : State) (c : Nat) : Bool := s.allDies.all (fun d => (s.ctx d c).st = .idle)

/-- A ring reset (Table 8.8): PROD and CONS become 0, or the write is refused. The second part is true where it is refused. -/
def State.ringReset (s : State) (c : Nat) : State × Bool :=
  if s.allIdle c && decide (s.prod c = s.cons c) then (s.setRg 0 .seq 0 (0x618 + 0x40 * c) 0, false)
  else (s.configBusy 0 .seq 0, true)

/-- SEQ_RING_RESET (R166). -/
def execSeqRingReset (c : Nat) (s : State) : Host.Outcome State Fault Refusal :=
  .next (if s.live 0 && decide (c < 8) then (s.ringReset c).1 else s)

/-! ### Start of a descriptor (R149–R154) -/

/-- Module energy of partition `k`, µJ (R355). -/
def State.energyPart (s : State) (k : Nat) : Nat := (s.rg 0 .mod 0 (0x100 + 8 * k)).toNat

/-- Energy of the four partitions of a context (R355). -/
def State.ctxEnergy (s : State) (c : Nat) : List Nat := (List.range 4).map (fun q => s.energyPart (4 * c + q))

/-- Idle counters of a context summed over the dies (R116). -/
def State.ctxIdle (s : State) (c : Nat) : List Nat :=
  (List.range 8).map (fun k => s.allDies.foldl (fun n d => n + (s.rg d .seq 0 (0x400 + 0x40 * c + 8 * k)).toNat) 0)

/-- A descriptor is refused (R154): it is to be posted REFUSED with the lowest failing REASON. -/
def State.refuseDesc (s : State) (c reason : Nat) : State :=
  s.updHc c (fun x => { x with phase := .ended, status := 4, cause := reason })

/-- DESCRIPTOR_FETCH: die 0 reads descriptor CONS once (R149); a read that the link does not take is refused with REASON 6. -/
def State.descFetch (s : State) (c : Nat) : State :=
  if !(s.live 0 && decide (c < 8) && s.allIdle c && (s.hc c).phase = .none && decide (s.prod c ≠ s.cons c)) then s
  else
    let s1 := s.updHc c (fun x => { trap := x.trap, more := x.more, trapDone := x.trapDone, clearing := x.clearing,
                                    phase := .descRead, startNs := s.time 0 })
    match s1.hostRead 0 (s1.workSlot c (s1.cons c) / 128 * 128) (.desc c) with
    | (t, none) => t
    | (t, some _) => t.refuseDesc c 6

/-- DESCRIPTOR_FETCH (R149). -/
def execDescriptorFetch (c : Nat) (s : State) : Host.Outcome State Fault Refusal := .next (s.descFetch c)

/-- Conditions of Table 8.3 that the descriptor's own fields meet. -/
def State.descReasons (s : State) (ws : List Word) : List Nat :=
  let dir := sw ws 1 0 48
  let rep := sw ws 2 0 48
  rsn (sw ws 0 33 31 ≠ 0 || sw ws 1 48 16 ≠ 0 || sw ws 3 17 47 ≠ 0 || (ws.drop 4).any (fun w => w ≠ 0)) 1 ++
    rsn (dir % 128 ≠ 0 || !s.isMem dir) 2 ++
    rsn (sw ws 2 48 16 ≠ 0 && (rep % 128 ≠ 0 || !s.inWindow (s.portDie 0) rep)) 3 ++
    rsn (decide (256 < sw ws 3 0 8 + sw ws 3 8 9)) 5

/-- The descriptor of a context arrives, or its read fails (R151, R154); the directory is read next where no condition of its
own fields fails. -/
def State.descArrive (s : State) (c : Nat) (ok : Bool) (ws : List Word) : State :=
  if (s.hc c).phase ≠ .descRead then s
  else if !ok then s.refuseDesc c 6
  else
    let rs := s.descReasons ws
    let s1 := s.updHc c (fun x => { x with
      phase := .dirWait, dseq := sw ws 0 0 32, irq := sb ws 0 32, dir := sw ws 1 0 48, rep := sw ws 2 0 48,
      repLines := if rs.contains 3 then 0 else sw ws 2 48 16, clrBase := sw ws 3 0 8, clrCount := sw ws 3 8 9 })
    match lowest rs with
    | some r => s1.refuseDesc c r
    | none => s1

/-- DESCRIPTOR_ARRIVE: the host's answer to the descriptor read reaches die 0 (R154). -/
def execDescriptorArrive (c : Nat) (ok : Bool) (ws : List Word) (s : State) : Host.Outcome State Fault Refusal :=
  .next (if s.live 0 && decide (c < 8) && decide ((s.hc c).phase = .descRead) then
    (s.updLink (s.portDie 0) (fun k => { k with hreqs := k.hreqs.filter (fun r => r.own ≠ .desc c) })).descArrive c ok
      ((List.range 8).map (fun i => ws.getD i 0))
    else s)

/-- Entry `e` of a directory line (Table 8.2). -/
def dirEntry (bs : List Byte) (e : Nat) : Nat := leAt bs (8 * e) 8

/-- Conditions of Table 8.3 that the directory meets, for the dies of the part (R152). -/
def State.dirReasons (s : State) (bs : List Byte) : List Nat :=
  let es := (List.range (2 * s.nd)).map (dirEntry bs)
  rsn (es.any (fun x => nbits x 48 15 ≠ 0)) 1 ++
    rsn (es.any (fun x => !nbit x 63 && (x % 2 ^ 48 % 64 ≠ 0 || !s.isMem (x % 2 ^ 48)))) 4

/-- A queue at the base that a directory entry gives (R94, Table 8.2). -/
def queueOf (x : Nat) : Queue := if nbit x 63 then {} else { atEnd := false, base := x % 2 ^ 48 }

/-- Counters CLR_BASE onward of a context become zero on every die (R153). -/
def State.clearCounters (s : State) (c : Nat) : State :=
  let h := s.hc c
  forEach s.allDies (fun d t =>
    forEach (List.range h.clrCount) (fun k u => u.setRg d .seq 0 (cntOff c (h.clrBase + k)) 0) t) s

/-- A descriptor starts (R153): counters are cleared, every die receives its bases, and the context runs. -/
def State.startDesc (s : State) (c : Nat) (bs : List Byte) : State :=
  let s1 := forEach s.allDies (fun d t => t.putCtx d c
    { st := .running, main := queueOf (dirEntry bs (2 * d)), defer := queueOf (dirEntry bs (2 * d + 1)) }) (s.clearCounters c)
  s1.updHc c (fun x => { x with phase := .running, energy0 := s.ctxEnergy c, idle0 := s.ctxIdle c })

/-- The directory line is read and checked (R152–R154); `env` tells a first read that fails and is corrected. -/
def State.dirArrive (s : State) (c : Nat) : State :=
  let h := s.hc c
  if !(s.live 0 && h.phase = .dirWait && s.allIdle c) then s
  else if s.served h.dir && s.mustWait 0 (h.dir / 128) then s.sendSnoop 0 (h.dir / 128)
  else
    let l := s.line (h.dir / 128)
    if !s.served h.dir || sbPoison l.sb || !l.crcOk then s.refuseDesc c 6
    else
      let s1 := s.touchRead h.dir
      match lowest (s.dirReasons l.bytes) with
      | some r => s1.refuseDesc c r
      | none => s1.startDesc c l.bytes

/-- DIRECTORY_ARRIVE (R153); a corrected first read has no log of its own. -/
def execDirectoryArrive (c : Nat) (_env : Env) (s : State) : Host.Outcome State Fault Refusal :=
  .next (if decide (c < 8) then s.dirArrive c else s)

/-! ### The end of a descriptor (R94, R155–R157) -/

/-- A SCOPE 2 SIGNAL of the context has no response yet (R94). -/
def State.signalsOut (s : State) (c : Nat) : Bool :=
  s.allDies.any (fun d =>
    (s.router d).tags.any (fun e => (match e.2.own with | .sig _ _ _ _ => true | _ => false) && e.2.r.ctx = c) ||
    (s.router d).waitq.any (fun e => (match e.2 with | .sig _ _ _ _ => true | _ => false) && e.1.ctx = c))

/-- The descriptor of a context is complete (R94). -/
def State.descDone (s : State) (c : Nat) : Bool :=
  s.allDies.all (fun d =>
    let x := s.ctx d c
    (x.st = .running || x.st = .stopped) && x.main.atEnd && x.defer.atEnd) &&
    s.noFlights c && !s.signalsOut c

/-- DESCRIPTOR_COMPLETE: the context returns to IDLE and the descriptor is to be posted DONE (R94, R155). -/
def State.descComplete (s : State) (c : Nat) : State :=
  if s.live 0 && (s.hc c).phase = .running && (s.hc c).trap.isNone && s.descDone c then
    (forEach s.allDies (fun d t => t.updCtx d c Ctx.cleared) s).updHc c (fun x => { x with phase := .ended, status := 1, clearing := false })
  else s

/-- DESCRIPTOR_COMPLETE (R94). -/
def execDescriptorComplete (c : Nat) (s : State) : Host.Outcome State Fault Refusal :=
  .next (if decide (c < 8) then s.descComplete c else s)

/-- Write bytes of a posting at a host-window address: a whole line, or a masked store (R155, R288). A write that the link does
not take is not waited for (log entry 14). -/
def State.postPut (s : State) (c a : Nat) (bs : List Byte) : State :=
  let ln := a / 128 * 128
  let r := if bs.length = 128 then s.hostWrite 0 ln none (mkLine bs 0 0 0) (.post c)
    else let p := placed (a % 128) bs
      s.hostMerge 0 c 1 ln p.2 p.1 (.post c)
  match r.2 with
  | some _ => r.1
  | none => r.1.updHc c (fun x => { x with acks := x.acks + 1 })

/-- The bytes of a step record (R158). -/
def recBytes (ws : List Word) : List Byte := ws.flatMap (fun w => leBytes 8 w.toNat)

/-- Records that the report has room for (R157). -/
def HCtx.kept (h : HCtx) : List (List Word) := if h.status = 4 then [] else h.recs.take (2 * (h.repLines - 1))

/-- The header line of a report (Table 8.5). -/
def HCtx.header (h : HCtx) (idle : List Nat) : List Byte :=
  let z (xs : List Nat) : List Nat := if h.status = 4 then xs.map (fun _ => 0) else xs
  (z h.energy).flatMap (leBytes 8) ++ (z (List.zipWith (fun a b => a - b) idle h.idle0 ++ List.replicate (8 - h.idle0.length) 0)).flatMap (leBytes 8) ++
    leBytes 8 h.startNs ++ leBytes 8 h.endNs ++ leBytes 16 0

/-- Write the report: step records two to a line from line 1, then the header (R155, R157). -/
def State.writeReport (s : State) (c : Nat) : State :=
  let h := s.hc c
  if h.repLines = 0 then s
  else
    let n := h.kept.length
    let s1 := forEach (List.range ((n + 1) / 2)) (fun k t =>
      t.postPut c (h.rep + 128 * (k + 1)) (((h.kept.drop (2 * k)).take 2).flatMap recBytes)) s
    s1.postPut c h.rep (h.header (s.ctxIdle c))

/-- Energy of a context's partitions since its descriptor started, µJ modulo 2^64 (R355); none for a descriptor that did not
start. -/
def State.descEnergy (s : State) (c : Nat) : List Nat :=
  List.zipWith (fun a b => (a + 2 ^ 64 - b) % 2 ^ 64) (s.ctxEnergy c) (s.hc c).energy0 ++
    List.replicate (4 - (s.hc c).energy0.length) 0

/-- DESCRIPTOR_POST: die 0 begins to post, and writes the report (R155, step 1). -/
def State.descPost (s : State) (c : Nat) : State :=
  let h := s.hc c
  if !(s.live 0 && decide (c < 8) && h.phase = .ended) then s
  else
    let s1 := s.updHc c (fun x => { x with
      phase := .report, endNs := s.time 0, energy := s.descEnergy c, acks := 0,
      trunc := x.status ≠ 4 && decide (2 * (x.repLines - 1) < x.recs.length) })
    s1.writeReport c

/-- DESCRIPTOR_POST (R155). -/
def execDescriptorPost (c : Nat) (s : State) : Host.Outcome State Fault Refusal := .next (s.descPost c)

/-- Word 0 of a completion entry (Table 8.4). -/
def State.entryWord0 (s : State) (c : Nat) : Nat :=
  let h := s.hc c
  let i := s.cons c
  i + h.status * 2 ^ 32 + h.cause % 256 * 2 ^ 40 + c * 2 ^ 48 + (i / 2 ^ s.ringSize c + 1) % 2 * 2 ^ 52 +
    b2n h.trunc * 2 ^ 53 + b2n h.poisoned * 2 ^ 54

/-- The 32 bytes of a completion entry (R156). -/
def State.entryBytes (s : State) (c : Nat) : List Byte :=
  let h := s.hc c
  leBytes 8 (s.entryWord0 c) ++ leBytes 8 (h.dseq + h.kept.length * 2 ^ 32) ++
    leBytes 8 (h.energy.foldl (· + ·) 0) ++ leBytes 8 (h.endNs - h.startNs)

/-- COMPLETION_ENTRY_WRITE: once the report is visible, the entry is written as one store (R155, step 2). -/
def State.entryWrite (s : State) (c : Nat) : State :=
  let h := s.hc c
  if !(s.live 0 && decide (c < 8) && h.phase = .report && h.acks = 0) then s
  else (s.updHc c (fun x => { x with phase := .entry })).postPut c (s.doneSlot c (s.cons c)) (s.entryBytes c)

/-- COMPLETION_ENTRY_WRITE (R156). -/
def execCompletionEntryWrite (c : Nat) (s : State) : Host.Outcome State Fault Refusal := .next (s.entryWrite c)

/-- CONS_WRITE_BACK: once the entry is acknowledged, CONS advances and is written back (R147, R155, step 3). -/
def State.consBack (s : State) (c : Nat) : State :=
  let h := s.hc c
  if !(s.live 0 && decide (c < 8) && h.phase = .entry && h.acks = 0) then s
  else
    let v := (s.cons c + 1) % 2 ^ 32
    let s1 := (s.setFld 0 .seq 0 (0x618 + 0x40 * c) 32 32 v).updHc c (fun x => { x with phase := .cons })
    let a := s.fld 0 .seq 0 (0x610 + 0x40 * c) 3 45 * 8
    if a = 0 then s1 else s1.postPut c a (leBytes 8 v)

/-- CONS_WRITE_BACK (R155). -/
def execConsWriteBack (c : Nat) (s : State) : Host.Outcome State Fault Refusal := .next (s.consBack c)

/-- The posting calls for the completion vector (R154, R111, Table 8.1). -/
def State.wantsVector (s : State) (c : Nat) : Bool :=
  let h := s.hc c
  h.status = 4 || (h.status = 2 && !bitOf (s.rg 0 .seq 0 8) 15) || ((h.status = 1 || h.status = 3) && h.irq)

/-- COMPLETION_VECTOR: once the write-back is acknowledged, the vector is sent (R155, step 4, R160), and the descriptor is no
longer in hand. -/
def State.postVector (s : State) (c : Nat) : State :=
  let h := s.hc c
  if !(s.live 0 && decide (c < 8) && h.phase = .cons && h.acks = 0) then s
  else
    let s1 := if s.wantsVector c then s.queueIntr 0 (1 + c) else s
    (s1.updHc c (fun x => { trap := x.trap, more := x.more, trapDone := x.trapDone, clearing := x.clearing })).settleClear c

/-- COMPLETION_VECTOR (R155). -/
def execCompletionVector (c : Nat) (s : State) : Host.Outcome State Fault Refusal := .next (s.postVector c)

/-- A write of a posting ends, however it ends (R155, log entry 14). -/
def State.postAnswered (s : State) (c : Nat) : State := s.updHc c (fun x => { x with acks := x.acks - 1 })

end Sys2Proof.Machine
end

