-- ==== Sys2Proof/Machine/AglOps.lean ====
section
/-! DEFINITION. The Aigraic Link's own work: answers to module requests (R286, R288, R293), snoop answers (R289, R290), replay and
the link states (R280–R284). -/

namespace Sys2Proof.Machine

/-- AGL_ELOG of a cause (Table 16.11). -/
def aglLog (cause opc tag fseq : Nat) : Nat := cause + opc % 256 * 256 + tag % 65536 * 65536 + fseq % 4096 * 2 ^ 32

/-- The port logs a cause; AGL_ELOG_ADDR takes the address of the message concerned with the log (Table 16.12). -/
def State.aglRaise (s : State) (d bit cause : Nat) (c : Cls) (opc tag fseq addr : Nat) : State :=
  let s1 := if bitOf (s.rg d .agl 0 0x10) 7 then s else s.setRg d .agl 0 0x50 (wordOf addr)
  s1.raise d .agl 0 bit c (aglLog cause opc tag fseq)

/-- The die carries a port and runs (Table 1.1). -/
def State.aglLive (s : State) (d : Nat) : Bool := s.live d && s.linkDies.contains d

/-! ### Answers to module requests (R286, R288) -/

/-- A masked write of a kept line: the merged line is written whole, with a new check value (R288); `own` is the write's owner. -/
def State.mergeBack (s : State) (q : HReq) (mask : Nat) (bs : List Byte) (l : Line) (own : HOwner) : State × Option Nat :=
  let m := mergeBytes mask 0 (padTo 128 l.bytes) (padTo 128 bs)
  s.hostWrite q.d q.la none (mkLine m (sbVer l.sb) (sbFmt l.sb) (sbFlags l.sb)) own

/-- A posting's write, or a trap record's, ends: code 1 or 0 of a masked write's owner (R155, R111). -/
def State.ownerEnd (s : State) (c k : Nat) : State := if k = 1 then s.postAnswered c else s

/-- A module request ends with a status and, where the answer carries one, a line (R293). -/
def State.hostEnd (s : State) (q : HReq) (st : Nat) (l : Line) : State :=
  match q.own with
  | .desc c =>
    let off := s.workSlot c (s.cons c) % 128
    s.descArrive c (st = 0 && !sbPoison l.sb) ((List.range 8).map (fun i => wordOf (leAt l.bytes (off + 8 * i) 8)))
  | .post c => s.postAnswered c
  | .trap _ => s
  | .sec => s
  | .eng fid i act =>
    match s.flight fid with
    | none => s
    | some f =>
      if st = 0 then (s.engArrive fid i act l).engAnswered fid
      else (s.updFlight fid (fun g => { g with wait := g.wait - 1 })).hostFail f i st q.la
  | .merge _ c k mask bs =>
    if st ≠ 0 then s.ownerEnd c k
    else
      let r := s.mergeBack q mask bs l (if k = 1 then .post c else .trap c)
      match r.2 with
      | some _ => r.1.ownerEnd c k
      | none => r.1

/-- Lines of this module that the answer to a request writes (R289). -/
def HReq.access (q : HReq) : List (Nat × Nat) := match q.own with | .eng _ _ act => act.access | _ => []

/-- A module request leaves the table and ends. -/
def State.endReq (s : State) (d : Nat) (q : HReq) (st : Nat) (l : Line) : State :=
  (s.updLink d (fun k => { k with hreqs := k.hreqs.filter (fun r => r.tag ≠ q.tag) })).hostEnd q st l

/-- The line that the answer to a M_RD returns (R288): a kept line with its sideband, checked; another takes a new sideband. The
first part is the status of the request; the answer to a write returns no line. -/
def State.dataLine (s : State) (d : Nat) (q : HReq) (st : Nat) (bs : List Byte) (sb : Word) : Nat × Line :=
  if st ≠ 0 then (st, zeroLine)
  else if q.opc = 0x11 && s.isKept d (q.la / 128 * 128) then
    let l : Line := { bytes := padTo 128 bs, sb := sb }
    if sbPoison sb || l.crcOk then (0, if fmtReserved (sbFmt sb) then hostLine bs sb else { l with sb := withBits sb 56 8 (sbFlags sb % 4) })
    else (2, l)
  else (0, mkLine (padTo 128 bs) 0 0 0)

/-- A response answers a module request of the port (R286, R294): one that answers none is late. An answer that writes a line the
host holds waits for its snoop; the second part says that it waits. -/
def State.answerReq (s : State) (d tag st : Nat) (bs : List Byte) (sb : Word) : State × Bool :=
  match (s.link d).hreqs.find? (fun q => q.tag = tag) with
  | none => (s.aglCnt d 4 1, false)
  | some q =>
    let x := s.dataLine d q st bs sb
    let w := if x.1 = 0 then s.waits (HReq.access q) else []
    if w.isEmpty then (s.endReq d q x.1 x.2, false) else (s.snoopAll w, true)

/-! ### Snoop answers (R289, R290) -/

/-- The outstanding snoop of a port with a tag. -/
def State.snoopOf (s : State) (d tag : Nat) : Option Snoop := (s.link d).snoops.find? (fun x => x.tag = tag)

/-- A snoop is answered; returned data of an E line is written to the line first, unless a full-line write waits (Table 16.6). -/
def State.snoopAnswer (s : State) (d : Nat) (x : Snoop) (data : Option (List Byte × Word)) : State :=
  let s1 := match data with
    | some b => if x.excl && !x.discard then s.writeAt (128 * x.ln) (hostLine b.1 b.2) else s
    | none => s
  s1.endSnoop d x

/-- SNP_TIMEOUT (R290): the entry is removed; an E line is written poisoned. -/
def State.snoopLate (s : State) (d : Nat) (x : Snoop) : State :=
  let s1 := s.aglRaise d 14 7 .ucc (if x.inv then 0x21 else 0x22) x.tag 0 (128 * x.ln)
  let s2 := if x.excl then s1.poisonLine x.ln else s1
  s2.updLink d (fun k => { k with snoops := k.snoops.filter (fun y => y.tag ≠ x.tag),
                                  filter := k.filter.filter (fun e => e.1 ≠ x.ln) })

/-- RSP_TIMEOUT (R294): the request ends with TIMEOUT. -/
def State.reqLate (s : State) (d tag : Nat) : State :=
  match (s.link d).hreqs.find? (fun q => q.tag = tag) with
  | none => s
  | some q => (s.aglRaise d 13 6 .ucc q.opc tag 0 (s.hostAddr d q.la)).endReq d q 6 zeroLine

/-! ### Link states (R280–R283) -/

/-- A port goes DOWN (R283): module requests end with LINK_DOWN, interrupt messages not yet sent are lost, the snoop filter empties
and its E lines are written poisoned; accesses that waited for a snoop may go on. -/
def State.linkDown (s : State) (d : Nat) : State :=
  let k := s.link d
  let lost := k.intrq.length + (k.sendq.filter (fun m => m.opc = 0x15)).length
  let s1 := ((s.setLk d lkDown).putLink d { nextTag := k.nextTag, stalled := k.stalled }).aglCnt d 9 lost
  let s2 := forEach (k.filter.filter Prod.snd) (fun e t => t.poisonLine e.1) s1
  forEach k.hreqs (fun q t => t.hostEnd q 7 zeroLine) s2

/-- LINK_DOWN: the port is lost (R283). -/
def State.linkLost (s : State) (d : Nat) : State := (s.aglRaise d 11 4 .ucc 0 0 0 0).linkDown d

/-- An UP port retrains: replay buffers and sequence numbers are kept (R283, Table 16.1). -/
def State.linkRetrain (s : State) (d : Nat) : State :=
  if s.lkState d = lkUp then
    ((((s.setLk d lkRetrain).updLink d (fun k => { k with keep := true, fails := 0, partMsg := [] })).aglCnt d 3 1).aglRaise d 9 2
      .ce 0 0 (s.link d).fseq 0)
  else s

/-- PROTOCOL on a port that is UP: the slot stream can no longer be parsed, and it retrains (R286). -/
def State.linkProtocol (s : State) (d : Nat) (m : LMsg) : State :=
  (s.aglRaise d 12 5 .ucc m.opc m.tag ((s.link d).rxNext) m.addr).linkRetrain d

/-- Unacknowledged flits leave again, each logged (R283); a flit replayed eight times takes the port to RETRAIN. -/
def State.replay (s : State) (d : Nat) : State :=
  let k := s.link d
  if k.unacked.isEmpty then s
  else if 8 ≤ k.replays then s.linkRetrain d
  else forEach k.unacked (fun f t =>
    let m := f.msg.getD {}
    ((t.aglRaise d 8 1 .ce m.opc m.tag f.fseq m.addr).aglCnt d 2 1).emitFlit d { f with fack := (t.link d).ackNow })
    (s.putLink d { k with replays := k.replays + 1 })

/-- Take an acknowledgement: every DATA flit up to it leaves the replay buffer (R283). -/
def State.linkAck (s : State) (d fack : Nat) : State :=
  let u := (s.link d).unacked
  match (List.range u.length).find? (fun i => (u.getD i {}).fseq = fack) with
  | none => s
  | some i =>
    let s1 := s.updLink d (fun k => { k with unacked := k.unacked.drop (i + 1), replays := 0 })
    State.pumpLink d (s1.link d).sendq.length s1

/-- A NAK (R283): replay from the flit after FACK. -/
def State.linkNak (s : State) (d fack : Nat) : State :=
  if s.aglLive d && decide (s.lkState d = lkUp) then (s.linkAck d fack).replay d else s

/-- The port index in an INIT flit: 0 for H0, 1 for H1 (R284). -/
def portIndex (d : Nat) : Nat := if d = 0 then 0 else 1

/-- The port enters ALIGN and sends its INIT flit (Table 16.2, t2): 8,192 REQ slots, 0 SNP slots, 8,192 RSP slots (R284). -/
def State.linkAlign (s : State) (d : Nat) (x8 half : Bool) : State :=
  let s1 := ((s.setLk d lkAlign).setFld d .agl 0 0x40 3 1 (b2n x8)).setFld d .agl 0 0x40 4 1 (b2n half)
  let s2 := if x8 then s1.aglRaise d 10 3 .ce 0 0 0 0 else s1
  let bs := [1, 0] ++ leBytes 1 (portIndex d) ++ leBytes 1 (if x8 then 8 else 16) ++ leBytes 2 8192 ++ leBytes 2 0 ++ leBytes 2 8192
  s2.emitFlit d { ftype := 3, init := bs }

/-- A training attempt fails (R280, R283): a retrain from UP is tried three times, then the port is lost. -/
def State.trainFails (s : State) (d : Nat) : State :=
  let k := s.link d
  if !k.keep then s.setLk d lkDown
  else if 3 ≤ k.fails + 1 then s.linkLost d
  else (s.putLink d { k with fails := k.fails + 1 }).setLk d lkRetrain

/-- Lane training ends; `lanes` has a bit for each of the 16 lanes that trained (R280). -/
def State.lanesTrained (s : State) (d lanes : Nat) : State :=
  if !(s.aglLive d && (s.lkState d = lkTrain || s.lkState d = lkRetrain)) then s
  else
    let x8 := bitOf (s.rg d .agl 0 0x20) 2
    if lanes % 65536 = 65535 then s.linkAlign d false false
    else if x8 && decide (lanes % 256 = 255) then s.linkAlign d true false
    else if x8 && decide (lanes / 256 % 256 = 255) then s.linkAlign d true true
    else s.trainFails d

/-- A host INIT is checked (R284): the port comes UP, or stays in ALIGN with PROTOCOL. After a retrain from UP the sequence numbers
and replay buffer are kept and replay resumes (Table 16.1). -/
def State.linkInit (s : State) (d proto side cr cs cp : Nat) : State :=
  if !(s.aglLive d && s.lkState d = lkAlign) then s
  else if proto ≠ 1 ∨ side = 0 ∨ cr < 1024 ∨ cs < 1024 ∨ cp < 1024 then s.aglRaise d 12 5 .ucc 0 0 0 0
  else
    let k := s.link d
    let k1 := if k.keep then { k with keep := false, fails := 0, replays := 0 }
      else { k with fseq := 0, rxNext := 0, unacked := [], replays := 0, fails := 0, credit := (cr, cs, cp), owed := (0, 0, 0), partMsg := [] }
    let s1 := ((s.putLink d k1).setLk d lkUp).setStat d .agl 0 (bitMask 15)
    let s2 := if k.keep then s1.replay d else s1
    State.pumpLink d (s2.link d).sendq.length s2

/-- The port starts to train (Table 16.2, t0): it is DOWN and enabled. -/
def State.linkTrain (s : State) (d : Nat) : State :=
  if s.aglLive d && s.lkState d = lkDown && bitOf (s.rg d .agl 0 0x20) 0 then s.setLk d lkTrain else s

/-- AGL_CMD.RETRAIN (R296). -/
def State.aglRetrain (s : State) (d : Nat) : State := if s.aglLive d then s.linkRetrain d else s

/-- AGL_CMD.DOWN (R296): the effects of R283. -/
def State.aglDown (s : State) (d : Nat) : State := if s.aglLive d then s.linkDown d else s

end Sys2Proof.Machine
end

