-- ==== Sys2Proof/Machine/Reduction.lean ====
section
/-! DEFINITION. The reduction channels (R140, R247–R265). -/

namespace Sys2Proof.Machine

/-! ### Geometry of a bucket on a channel (R247, R250, R251) -/

/-- What a channel works on. -/
structure RedJob where
  d : Nat
  c : Nat
  h : Nat
  b : Bucket
  ch : Chan
deriving DecidableEq, Repr

/-- The active bucket of a channel. -/
def State.redJob (s : State) (d c h : Nat) : Option RedJob :=
  let ch := s.chan d c h
  match ch.accepted.head? with
  | some b => if ch.phase = 0 then none else some ⟨d, c, h, b, ch⟩
  | none => none

/-- Bytes of element lines, u. -/
def RedJob.u (j : RedJob) : Nat := bucketBytes j.b.size
/-- Chunks, n. -/
def RedJob.n (j : RedJob) : Nat := bucketChunks j.b.size
/-- The bucket is BS16. -/
def RedJob.blk (j : RedJob) : Bool := j.ch.fmt = fBS16
/-- Tree position, p. -/
def RedJob.pos (j : RedJob) : Nat := treePos j.ch.nranks j.ch.rank j.b.bseq
/-- Levels, l. -/
def RedJob.lev (j : RedJob) : Nat := treeLevels j.ch.nranks
/-- Trailing zeros of the position; l at the root. -/
def RedJob.tz (j : RedJob) : Nat :=
  if j.pos = 0 then j.lev else ((List.range 13).find? (fun k => nbit j.pos k)).getD 0
/-- Levels at which the position receives, kin. -/
def RedJob.kin (j : RedJob) : List Nat := (List.range j.tz).filter (fun k => decide (j.pos + 2 ^ k < j.ch.nranks))
/-- Rank at a position. -/
def RedJob.rankAt (j : RedJob) (p : Nat) : Nat := (p + j.b.bseq) % max 1 j.ch.nranks
/-- Module of the rank at a position. -/
def RedJob.modAt (j : RedJob) (p : Nat) : Nat := smGet 0 j.ch.ids (j.rankAt p)
/-- Module of the level-k child. -/
def RedJob.child (j : RedJob) (k : Nat) : Nat := j.modAt (j.pos + 2 ^ k)
/-- Module of the parent. -/
def RedJob.parent (j : RedJob) : Nat := j.modAt (j.pos - 2 ^ j.tz)
/-- The position sends up into the root's region B. -/
def RedJob.lastUp (j : RedJob) : Bool := decide (j.pos ≠ 0) && decide (j.tz + 1 = j.lev)

/-- First byte of a channel's work area (Table 13.12). -/
def State.workBase (s : State) (d c h : Nat) : Nat := s.fld d .fab 0 (rchOff c h) 20 28 * 2 ^ 20

/-- Line number of the header line (Table 13.2). -/
def State.hdrLine (s : State) (j : RedJob) : Nat := (s.workBase j.d j.c j.h + 7 * j.u / 4) / 128

/-- Lines of chunk `k` of a partial at a region's first byte: element lines and, for BS16, the scale line (Table 13.2). -/
def RedJob.partLines (j : RedJob) (w k : Nat) : List Nat :=
  if j.blk then (List.range 768).map (fun i => w / 128 + 768 * k + i) ++ [(w + 3 * j.u / 2) / 128 + k]
  else (List.range 512).map (fun i => w / 128 + 512 * k + i)

/-- Units of a chunk: blocks, or lines. -/
def RedJob.units (j : RedJob) (k : Nat) : List Nat :=
  let n := if j.blk then 128 else 512
  (List.range n).map (fun i => n * k + i)

/-- Line numbers of unit `i` of a partial. -/
def RedJob.partUnit (j : RedJob) (w i : Nat) : List Nat :=
  if j.blk then (List.range 6).map (fun q => w / 128 + 6 * i + q) else [w / 128 + i]

/-- Line numbers of unit `i` of a bucket's source or result. -/
def RedJob.resUnit (j : RedJob) (a i : Nat) : List Nat :=
  if j.blk then (List.range 4).map (fun q => a / 128 + 4 * i + q) else [a / 128 + i]

/-- The bytes of a run of lines. -/
def State.linesBytes (s : State) (ns : List Nat) : List Byte := ns.flatMap (fun n => (s.line n).bytes)

/-- The first line of a list that a channel cannot use (R253, R264, R420): its number, and whether it is populated. -/
def State.badLine (s : State) (ns : List Nat) : Option (Nat × Bool) :=
  (ns.find? (fun n => !s.served (128 * n) || (!sbPoison (s.sideOf n) && !(s.line n).crcOk))).map (fun n => (n, s.served (128 * n)))

/-- The trap for such a line: RED_FAIL with status ADDR, or RED_CRC (Table 13.8). -/
def State.redLineTrap (s : State) (j : RedJob) (level : Nat) (x : Nat × Bool) : State :=
  if x.2 then s.redTrap j.d j.c j.h j.b.fid 0x3D level 0 (j.h + level * 16) (128 * x.1)
  else s.redFail j.d j.c j.h j.b.fid level 1 (s.ownGa j.d (128 * x.1))

/-- A format cause of a channel (R39, R247): FAB_STAT and FAB_ELOG of the die, operand code 0x08. -/
def State.redFormat (s : State) (j : RedJob) (cause block w2 w3 : Nat) : State :=
  let f := (s.flight j.b.fid).getD {}
  (s.raise j.d .fab 0 (7 + cause) .ucc (fabLog cause 0 (s.ownId j.d) j.c opRedstore 0)).trap j.c (f.det s cause 0x3F 8 block w2 w3)

/-! ### RED and the start of a bucket (R140, R248, R249, R251) -/

/-- The bucket a RED step hands over, tagged with the context's layout generation (R140). -/
def State.redBucket (s : State) (d c : Nat) (ws : List Word) : Bucket :=
  { fid := s.nextId, size := sw ws 2 36 3, rgroup := sw ws 2 40 8, src := sw ws 3 0 48, dst := sw ws 4 0 48, bseq := sw ws 5 0 32,
    gen := s.fld d .seq 0 (0x130 + 0x40 * c) 0 16 }

/-- Issue a RED step (R140). -/
def State.redIssue (s : State) (d c : Nat) (q : Bool) (idx : Nat) (ws : List Word) : State :=
  ((s.advance d c q ws).fly (s.newFlight d c q idx ws)).updChan d c (sw ws 2 32 4)
    (fun x => { x with accepted := x.accepted ++ [s.redBucket d c ws] })

/-- RED: it hands a filled bucket to a reduction channel (R140). -/
def execRed (d c : Nat) (q : Bool) (s : State) : Host.Outcome State Fault Refusal :=
  s.stepRow d c q kRED (fun idx ws t => t.redIssue d c q idx ws)

/-- A reduction group descriptor (Table 13.1). -/
structure RedGroup where
  valid : Bool
  nranks : Nat
  rank : Nat
  list : Nat
  rsvd : Bool
deriving DecidableEq, Repr

/-- Local address of the descriptor of a group (R249). -/
def State.groupAddr (s : State) (d g : Nat) : Nat := s.fld d .fab 0 0x50 7 41 * 128 + 16 * g

/-- The descriptor at a local address. -/
def State.groupAt (s : State) (a : Nat) : RedGroup :=
  let bs := s.bytesAt (a / 128) (a % 128) 16
  let w0 := leAt bs 0 2
  let w1 := leAt bs 2 2
  { valid := nbit w0 15, nranks := nbits w0 0 13, rank := nbits w1 0 12, list := leAt bs 8 6,
    rsvd := nbits w0 13 2 ≠ 0 || nbits w1 12 4 ≠ 0 || leAt bs 4 4 ≠ 0 || leAt bs 14 2 ≠ 0 }

/-- The ranks whose list entries a bucket needs: its own, its children's and its parent's (R249, R250). -/
def RedJob.need (j : RedJob) : List Nat :=
  j.ch.rank :: (j.kin.map (fun k => j.rankAt (j.pos + 2 ^ k)) ++ (if j.pos = 0 then [] else [j.rankAt (j.pos - 2 ^ j.tz)]))

/-- Entry `i` of a rank list. -/
def State.rankEntry (s : State) (list i : Nat) : Nat := leNat (s.bytesAt (list / 128) (list % 128 + 2 * i) 2)

/-- The check of a group that fails first (Table 13.8): 1 VALID, 2 RANK, 3 identifier, 4 reserved bit. -/
def State.groupCheck (s : State) (g : RedGroup) (j : RedJob) : Option Nat :=
  if !g.valid then some 1
  else if g.nranks ≤ g.rank then some 2
  else if nbits (s.rankEntry g.list g.rank) 0 12 ≠ s.ownId j.d then some 3
  else if g.rsvd || j.need.any (fun i => nbits (s.rankEntry g.list i) 12 4 ≠ 0) then some 4
  else none

/-- The work area does not serve a bucket of a SIZE (R251). -/
def State.workBad (s : State) (d c h size : Nat) : Bool :=
  let wl := s.fld d .fab 0 (rchOff c h) 0 4
  let base := s.workBase d c h
  !between 2 8 wl || decide (wl < size + 2) || base % 2 ^ (20 + wl) ≠ 0

/-- The lines a bucket's start reads (R289). -/
def State.startLines (s : State) (d : Nat) (b : Bucket) (j : RedJob) (g : RedGroup) : List Nat :=
  let a := s.groupAddr d b.rgroup
  dedup ([a / 128] ++ (if g.valid && decide (g.rank < g.nranks) then j.need.map (fun i => (g.list + 2 * i) / 128) else []) ++ [b.src / 128])

/-- The trap checks at a bucket's start, lowest cause first (R112, R248, R249, R251): cause, words 2 and 3. -/
def State.startTraps (s : State) (j : RedJob) (g : RedGroup) (prev : Option (Nat × Nat)) : List (Nat × Nat × Nat) :=
  let o := s.chanOrd j.d j.c j.h
  (match s.groupCheck g j with
   | some k => [(0x39, j.h + j.b.rgroup * 256 + k * 65536, s.groupAddr j.d j.b.rgroup)]
   | none => []) ++
  (if prev = some (j.b.bseq, j.b.gen) then [(0x3A, j.h + 15 * 16 + o * 65536, j.b.bseq)] else []) ++
  (if s.workBad j.d j.c j.h j.b.size then
    [(0x3C, j.h + j.b.size * 256, (s.rg j.d .fab 0 (rchOff j.c j.h)).toNat)] else [])

/-- The format of a bucket's first line is one the channel takes, or the bucket traps (R247). -/
def State.startFormat (s : State) (j : RedJob) (o : Option (Nat × Bool)) : State :=
  match o with
  | some x => s.redLineTrap j 0xE x
  | none =>
    if j.ch.fmt = fBS16 ∨ j.ch.fmt = fINT32 ∨ j.ch.fmt = fINT16 then s
    else s.redFormat j 2 0 (fBS16 * 2 ^ 40 + j.ch.fmt * 2 ^ 48) j.b.src

/-- The first of a list of traps is taken, the others are counted; without one the format is looked at (R112). -/
def State.startOr (s : State) (j : RedJob) (l : List (Nat × Nat × Nat)) : State :=
  match l with
  | (cause, w2, w3) :: r => (s.redTrap j.d j.c j.h j.b.fid cause (w2 / 16) 0 w2 w3).moreTraps j.c r.length
  | [] => s.startFormat j (s.badLine [j.b.src / 128])

/-- A line that the bucket's checks read is not populated, or the checks follow. -/
def State.startChecks (s : State) (j : RedJob) (l : List (Nat × Nat × Nat)) (o : Option Nat) : State :=
  match o with
  | some n => s.redFail j.d j.c j.h j.b.fid 0xE 1 (s.ownGa j.d (128 * n))
  | none => s.startOr j l

/-- A bucket starts (R247–R251): ORD, BSEQ, the group, the work area and the format of its first line. -/
def State.startBucket (s : State) (d c h : Nat) (b : Bucket) : State :=
  let prev := (s.chan d c h).prev
  let o := (s.chanOrd d c h + 1) % 65536
  let s1 := s.setRg d .fab 0 (rchOff c h + 0x10) (withBits (withBits (s.rg d .fab 0 (rchOff c h + 0x10)) 16 16 o) 32 32 b.bseq)
  let g := s.groupAt (s.groupAddr d b.rgroup)
  let ch0 : Chan := { accepted := (s.chan d c h).accepted, phase := 1, prev := prev, nranks := g.nranks, rank := g.rank }
  let j0 : RedJob := ⟨d, c, h, b, ch0⟩
  let ids := j0.need.foldl (fun m i => smIns m i (nbits (s.rankEntry g.list i) 0 12)) []
  let fmt := sbFmt (s.sideOf (b.src / 128))
  let ch := { ch0 with ids := if g.valid && decide (g.rank < g.nranks) then ids else [], fmt := fmt }
  let j : RedJob := ⟨d, c, h, b, ch⟩
  let s2 := s1.putChan d c h ch
  s2.startChecks j (s2.startTraps j g prev) ((s.startLines d b j0 g).find? (fun n => !s.served (128 * n)))

/-- BUCKET_START: the channel starts its next accepted bucket (R248). -/
def State.bucketStart (s : State) (d c h : Nat) : State :=
  let ch := s.chan d c h
  match ch.accepted.head? with
  | none => s
  | some b =>
    if !(s.live d && decide (c < 8) && decide (h < 16) && ch.phase = 0) then s
    else
      let g := s.groupAt (s.groupAddr d b.rgroup)
      let j : RedJob := ⟨d, c, h, b, { nranks := g.nranks, rank := g.rank }⟩
      match s.waits (((s.startLines d b j g).filter (fun n => s.served (128 * n))).map (fun n => (0, n))) with
      | [] => s.startBucket d c h b
      | w => s.snoopAll w

/-- BUCKET_START (R248). -/
def execBucketStart (d c h : Nat) (s : State) : Host.Outcome State Fault Refusal := .next (s.bucketStart d c h)

/-! ### Load (R253) -/

/-- What stops the load of a chunk, in the order in which it is read. -/
inductive LoadBad where
  | line (x : Nat × Bool)
  | format (cause block w2 w3 : Nat)
deriving DecidableEq, Repr

/-- A line read in the load of a chunk, of format `x`: not usable, or of another format (R24, R253). -/
def loadBad (fmt block ln x : Nat) (o : Option (Nat × Bool)) : Option LoadBad :=
  match o with
  | some y => some (.line y)
  | none => if x = fmt then none else some (.format 2 block (block % 2 ^ 40 + fmt * 2 ^ 40 + x * 2 ^ 48) (128 * ln))

/-- One line read in the load of a chunk: not usable, or of another format (R24, R253). -/
def State.loadLine (s : State) (fmt block ln : Nat) : Option LoadBad :=
  loadBad fmt block ln (sbFmt (s.sideOf ln)) (s.badLine [ln])

/-- The first thing that stops the load of chunk `k`: its scale line, then each unit's scale byte and lines. -/
def State.loadBad (s : State) (j : RedJob) (k : Nat) : Option LoadBad :=
  let sl := (j.b.src + j.u) / 128 + k
  let nan (i : Nat) : List (Option LoadBad) :=
    if j.blk && (s.byte (128 * sl + i % 128)).toNat = 255 && !sbPoison (s.sideOf sl) then
      [some (.format 1 i (i % 2 ^ 40 + fBS16 * 2 ^ 40) (128 * sl + i % 128 * 2 ^ 48))] else []
  ((if j.blk then [s.loadLine fSCALE (128 * k) sl] else []) ++
    (j.units k).flatMap (fun i => nan i ++ (j.resUnit j.b.src i).map (fun n => s.loadLine j.ch.fmt i n))).findSome? id

/-- Sum of squares of a unit, in the channel's unit (R262). -/
def sqUnit (blk : Bool) (fmt x : Nat) (bs : List Byte) : Nat :=
  ((unitVals fmt bs).foldl (fun n v => n + v.natAbs * v.natAbs) 0) * (if blk then 2 ^ (2 * x) else 1)

/-- Scale code of block `i` in a scale region. -/
def State.scaleAt (s : State) (base i : Nat) : Nat := scaleRead (s.byte (base + i)).toNat

/-- Load one unit into region A (R253). -/
def State.loadUnit (j : RedJob) (w : Nat) (s : State) (i : Nat) : State :=
  let src := j.resUnit j.b.src i
  let bs := s.linesBytes src
  if j.blk then
    let x := s.scaleAt (j.b.src + j.u) i
    let po := s.anyPoison src || sbPoison (s.sideOf ((j.b.src + j.u + i) / 128))
    let out := unitBytes fBS16R ((unitVals fBS16 bs).map (fun q => q * 256))
    (forEach (List.range 6) (fun q t =>
      t.writeAt (w + 768 * i + 128 * q) (mkLine ((out.drop (128 * q)).take 128) 0 fBS16R (if po then flagDerived else 0))) s).updChan
        j.d j.c j.h (fun x' => { x' with lsq := x'.lsq + sqUnit true fBS16 x bs })
  else
    (s.writeAt (w + 128 * i) (s.line (j.b.src / 128 + i))).updChan j.d j.c j.h
      (fun x' => { x' with lsq := x'.lsq + sqUnit false j.ch.fmt 0 bs })

/-- Load chunk `k` (R253). -/
def State.loadChunk (s : State) (j : RedJob) (k : Nat) : State :=
  let w := s.workBase j.d j.c j.h
  let s1 := (j.units k).foldl (State.loadUnit j w) s
  let s2 :=
    if j.blk then
      let l := s.line ((j.b.src + j.u) / 128 + k)
      s1.writeAt (w + 3 * j.u / 2 + 128 * k) (mkLine (l.bytes.map (fun x => if x = 255 then 0 else x)) 0 fSCALE
        (if sbPoison l.sb then flagDerived else 0))
    else s1
  s2.updChan j.d j.c j.h (fun x => { x with loaded := k + 1 })

/-! ### The header line and the plan of a step (R252, R254–R256) -/

/-- Word `i` of the header line. -/
def State.hdrWord (s : State) (j : RedJob) (i : Nat) : Nat := leAt (s.line (s.hdrLine j)).bytes (8 * i) 8

/-- COUNT that a header word counts for, or none for RED_MISMATCH (R252). -/
def State.hdrCount (s : State) (j : RedJob) (i : Nat) : Option Nat :=
  let v := s.hdrWord j i
  let o := s.chanOrd j.d j.c j.h
  let x := nbits v 48 16
  if x = o then
    (if nbits v 32 16 = j.b.gen ∧ nbits v 16 16 = j.b.bseq % 65536 then some (min (nbits v 0 16) j.n) else none)
  else if x = (o + 65535) % 65536 ∨ x = (o + 1) % 65536 then some 0
  else none

/-- Header words that the channel reads at its position: ARRIVED of its children, GO and DOWN of its parent. -/
def RedJob.words (j : RedJob) : List Nat :=
  j.kin ++ (if j.pos = 0 then [] else (if j.lastUp then [] else [13]) ++ [12])

/-- The first word read that is a RED_MISMATCH. -/
def State.hdrBad (s : State) (j : RedJob) : Option Nat := j.words.find? (fun i => (s.hdrCount j i).isNone)

/-- A word's count; zero for one the position does not read. -/
def State.cnt (s : State) (j : RedJob) (i : Nat) : Nat := (s.hdrCount j i).getD 0

/-- Leading chunks for which ready(j, k) holds (R254). -/
def State.readyAt (s : State) (j : RedJob) (k : Nat) : Nat :=
  (j.kin.filter (fun m => decide (m < k))).foldl (fun n m => min n (s.cnt j m)) j.ch.loaded

/-- Leading chunks that are final at this position: ready(j, ku), or ready(j, l) at the root. -/
def State.finalAt (s : State) (j : RedJob) : Nat := s.readyAt j j.tz

/-- Leading chunks that may be sent up now (R254, step 2). -/
def State.upTo (s : State) (j : RedJob) : Nat :=
  if j.pos = 0 then j.ch.up else if j.lastUp then s.finalAt j else min (s.finalAt j) (s.cnt j 13)

/-- Leading result chunks that the rank holds after this step (R256). -/
def State.heldTo (s : State) (j : RedJob) : Nat := if j.pos = 0 then s.finalAt j else s.cnt j 12

/-- Chunks from `a` to `b − 1`. -/
def span (a b : Nat) : List Nat := (List.range (b - a)).map (fun i => a + i)

/-- Lines that a step of the channel reads and writes on this module (R289). -/
def State.redAccess (s : State) (j : RedJob) : List (Nat × Nat) :=
  let w := s.workBase j.d j.c j.h
  (0, s.hdrLine j) ::
    (if (s.hdrBad j).isSome then []
     else
      (span j.ch.up (s.upTo j)).flatMap (fun k => (j.partLines w k).map (fun n => (0, n))) ++
      (if j.pos = 0 then (span j.ch.res (s.heldTo j)).flatMap (fun k =>
        (j.partLines w k ++ (if j.ch.nranks = 1 then [] else j.partLines (w + 2 * j.u) k)).map (fun n => (0, n)) ++
          (chunkLines j.ch.fmt j.b.size j.b.dst k).map (fun n => (1, n))) else []) ++
      (span j.ch.fwd (s.heldTo j)).flatMap (fun k => (chunkLines j.ch.fmt j.b.size j.b.dst k).map (fun n => (0, n))))

/-! ### Stores to partners (R252, R254, R256) -/

/-- The channel still works on the bucket of a job. -/
def State.redOn (s : State) (j : RedJob) : Bool :=
  match s.redJob j.d j.c j.h with
  | some x => x.b.fid = j.b.fid
  | none => false

/-- A store of the channel goes out at a LEVEL (Table 13.8). -/
def State.redSend (s : State) (j : RedJob) (level : Nat) (r : FRec) : State :=
  (s.updChan j.d j.c j.h (fun x => { x with wait := x.wait + 1 })).issue j.d (.chan j.h level j.b.fid)
    { r with ctx := j.c, addr := r.addr % 2 ^ 48 + r.dstMod * 2 ^ 48 }

/-- A WRITE of one whole line to the same place, or another, of a partner. -/
def State.redWrite (s : State) (j : RedJob) (level mod a n : Nat) : State :=
  s.redSend j level { op := opWrite, dstMod := mod, addr := a, src := n + 1, pay := payWrite (s.line n) (2 ^ 128 - 1) }

/-- A SWAP of a header word of a partner (Table 13.3). -/
def State.redSwap (s : State) (j : RedJob) (level mod word count : Nat) (flag : Bool) : State :=
  let v := count + j.b.bseq % 65536 * 2 ^ 16 + j.b.gen * 2 ^ 32 + s.chanOrd j.d j.c j.h * 2 ^ 48
  s.redSend j level { op := opAtomic, flag := flag, akind := 1, word := word, dstMod := mod, addr := 128 * s.hdrLine j,
                      pay := leBytes 8 v ++ leBytes 8 0 }

/-- The payload of a REDSTORE of unit `i` of region A (Table 13.5). -/
def State.redPay (s : State) (j : RedJob) (w i : Nat) : List Byte :=
  let ns := j.partUnit w i
  s.linesBytes ns ++ ns.flatMap (fun n => leBytes 8 (s.sideOf n).toNat) ++
    (if j.blk then leBytes 8 (w + 3 * j.u / 2 + i) ++ leBytes 1 (s.scaleAt (w + 3 * j.u / 2) i) ++ leBytes 7 0 else [])

/-- The bytes of a unit of a partial as its digest takes them (R263). -/
def State.partDigest (s : State) (j : RedJob) (w i : Nat) : Nat :=
  digestUnit i (s.linesBytes (j.partUnit w i) ++ (if j.blk then leBytes 1 (s.scaleAt (w + 3 * j.u / 2) i) else []))

/-- Send chunk `k` up (R254, steps 3 and 4). -/
def State.sendUp (j : RedJob) (s : State) (k : Nat) : State :=
  let w := s.workBase j.d j.c j.h
  let lv := j.tz
  if !s.redOn j then s
  else match s.badLine (j.partLines w k) with
  | some x => s.redLineTrap j lv x
  | none =>
    let dg := (j.units k).foldl (fun x i => Nat.xor x (s.partDigest j w i)) 0
    let s1 :=
      if j.lastUp then
        (j.partLines w k).foldl (fun t n => t.redWrite j lv j.parent (128 * n + 2 * j.u) n) s
      else (j.units k).foldl (fun t i => t.redSend j lv
        { op := opRedstore, dstMod := j.parent, stat := if j.blk then fBS16R else j.ch.fmt,
          addr := 128 * ((j.partUnit w i).headD 0), src := (j.partUnit w i).headD 0 + 1, pay := s.redPay j w i }) s
    (s1.redSwap j lv j.parent lv (k + 1) true).updChan j.d j.c j.h (fun x => { x with up := k + 1, digUp := Nat.xor x.digUp dg })

/-- GO to the children (R254, step 1). -/
def State.sendGo (j : RedJob) (s : State) (k : Nat) : State :=
  let n := s.readyAt j k
  if j.pos = 0 && k + 1 = j.lev then s
  else if smGet 0 j.ch.goSent k < n then
    (s.redSwap j k (j.child k) 13 n false).updChan j.d j.c j.h (fun x => { x with goSent := smPut 0 x.goSent k n })
  else s

/-! ### The root (R255) and the way down (R256) -/

/-- The result of one block at the root: element bytes, scale code, clamps, poison (R255). -/
def State.rootBlock (s : State) (j : RedJob) (w i : Nat) : List Byte × Nat × Nat × Bool :=
  let wb := w + 2 * j.u
  let two := decide (1 < j.ch.nranks)
  let a := unitVals fBS16R (s.linesBytes (j.partUnit w i))
  let xa := s.scaleAt (w + 3 * j.u / 2) i
  let b := if two then unitVals fBS16R (s.linesBytes (j.partUnit wb i)) else a.map (fun _ => 0)
  let xb := if two then s.scaleAt (wb + 3 * j.u / 2) i else xa
  let g := blockSum fBS16R xa xb a b
  let key := (s.rg j.d .fab 0 (0x200 + 8 * j.c)).toNat
  let q := quantBlock fBS16 true g.1 (g.2.map (fun v => { w := v }))
    ((List.range 256).map (fun e => draw16 key (j.b.bseq * 2 ^ 24) (256 * i + e)))
  let po := s.anyPoison (j.partUnit w i ++ [(w + 3 * j.u / 2 + i) / 128] ++
    (if two then j.partUnit wb i ++ [(wb + 3 * j.u / 2 + i) / 128] else []))
  (elemBytes 2 q.1, q.2.1, q.2.2.sat, po)

/-- The result of one line of a plain-integer bucket at the root. -/
def State.rootLine (s : State) (j : RedJob) (w i : Nat) : List Byte × Nat × Nat × Bool :=
  let wb := w + 2 * j.u
  let two := decide (1 < j.ch.nranks)
  let a := unitVals j.ch.fmt (s.linesBytes (j.partUnit w i))
  let ws := if two then List.zipWith (· + ·) a (unitVals j.ch.fmt (s.linesBytes (j.partUnit wb i))) else a
  let cs := ws.map (clampInt (-(vmaxUnits j.ch.fmt) - 1) (vmaxUnits j.ch.fmt))
  (unitBytes j.ch.fmt cs, 0, (List.zip ws cs).countP (fun p => p.1 ≠ p.2),
    s.anyPoison (j.partUnit w i ++ (if two then j.partUnit wb i else [])))

/-- Version of the result's lines (R121). -/
def State.redVer (s : State) (j : RedJob) : Nat := verCompute ((s.flight j.b.fid).getD {}).ws

/-- Write chunk `k` of the result at the root (R255); `alu` says that the two copies of the rounding disagree (R379). -/
def State.rootChunk (j : RedJob) (alu : Bool) (s : State) (k : Nat) : State :=
  let w := s.workBase j.d j.c j.h
  let wb := w + 2 * j.u
  let two := decide (1 < j.ch.nranks)
  if !s.redOn j then s
  else match s.badLine (j.partLines w k ++ (if two then j.partLines wb k else [])) with
  | some x => s.redLineTrap j j.lev x
  | none => match (chunkLines j.ch.fmt j.b.size j.b.dst k).find? (fun n => !s.served (128 * n)) with
  | some n => s.redLineTrap j j.lev (n, false)
  | none =>
    let ver := s.redVer j
    let fl (po : Bool) : Nat := if alu then flagPoison else if po then flagDerived else 0
    let rs := (j.units k).map (fun i => (i, if j.blk then s.rootBlock j w i else s.rootLine j w i))
    let dg := if two then (j.units k).foldl (fun x i => Nat.xor x (s.partDigest j wb i)) 0 else 0
    let s1 := rs.foldl (fun t r => ((j.resUnit j.b.dst r.1).zip (List.range 4)).foldl (fun t' n =>
      t'.writeAt (128 * n.1) (mkLine ((r.2.1.drop (128 * n.2)).take 128) ver j.ch.fmt (fl r.2.2.2.2))) t) s
    let s2 := if j.blk then s1.writeAt (j.b.dst + j.u + 128 * k)
        (mkLine (rs.map (fun r => BitVec.ofNat 8 r.2.2.1)) ver fSCALE (fl (rs.any (fun r => r.2.2.2.2)))) else s1
    let s3 := if alu then s2.raise j.d .saf 0 9 .ucc (2 + (j.b.dst + 65536 * k) * 65536) else s2
    s3.updChan j.d j.c j.h (fun x => { x with
      res := k + 1, sat := x.sat + rs.foldl (fun n r => n + r.2.2.2.1) 0,
      digRecv := if two then smPut 0 x.digRecv (j.lev - 1) (Nat.xor (smGet 0 x.digRecv (j.lev - 1)) dg) else x.digRecv })

/-- Read result chunk `k` once: the squared norm, the digest, and its copies to the children (R256, R263). -/
def State.sendDown (j : RedJob) (s : State) (k : Nat) : State :=
  let ns := chunkLines j.ch.fmt j.b.size j.b.dst k
  if !s.redOn j then s
  else match s.badLine ns with
  | some x => s.redLineTrap j 0xF x
  | none =>
    let unit (i : Nat) : List Byte := s.linesBytes (j.resUnit j.b.dst i)
    let sc (i : Nat) : Nat := s.scaleAt (j.b.dst + j.u) i
    let dg := (j.units k).foldl (fun x i => Nat.xor x (digestUnit i (unit i ++ (if j.blk then leBytes 1 (sc i) else [])))) 0
    let sq := (j.units k).foldl (fun x i => x + sqUnit j.blk j.ch.fmt (sc i) (unit i)) 0
    let s1 := j.kin.reverse.foldl (fun t m =>
      (ns.foldl (fun t' n => t'.redWrite j 0xF (j.child m) (128 * n) n) t).redSwap j 0xF (j.child m) 12 (k + 1) true) s
    s1.updChan j.d j.c j.h (fun x => { x with
      fwd := k + 1, res := max x.res (k + 1), rsq := x.rsq + sq, digDown := Nat.xor x.digDown dg,
      poisoned := x.poisoned || s.anyPoison ns })

/-- PHASE after a step (Table 13.12). -/
def State.redPhase (s : State) (d c h : Nat) : State :=
  match s.redJob d c h with
  | none => s
  | some j => s.updChan d c h (fun x => { x with
      phase := if x.fwd = j.n then 4 else if x.loaded < j.n then 1 else if x.res = 0 then 2 else 3 })

/-- Everything that the header lines allow is sent or written (R254–R256). -/
def State.redWork (s : State) (j : RedJob) (alu : Bool) : State :=
  let s1 := j.kin.foldl (State.sendGo j) s
  let s2 := (span j.ch.up (s.upTo j)).foldl (State.sendUp j) s1
  let s3 := if j.pos = 0 then (span j.ch.res (s.heldTo j)).foldl (fun t k => State.rootChunk j (alu && k = j.ch.res) t k) s2 else s2
  let s4 := if s3.redOn j && j.pos ≠ 0 then s3.updChan j.d j.c j.h (fun x => { x with res := s.heldTo j }) else s3
  ((span j.ch.fwd (s.heldTo j)).foldl (State.sendDown j) s4).redPhase j.d j.c j.h

/-- A step of the protocol whose header line stands in memory: a word of it that is not a count traps (R252). -/
def State.redCounts (s : State) (j : RedJob) (alu : Bool) (o : Option Nat) : State :=
  match o with
  | some i => s.redTrap j.d j.c j.h j.b.fid 0x3A i 0 (j.h + i * 16 + s.chanOrd j.d j.c j.h * 65536) (s.hdrWord j i)
  | none => s.redWork j alu

/-- A step of the protocol: a header line that cannot be read traps. -/
def State.redHeader (s : State) (j : RedJob) (alu : Bool) (o : Option (Nat × Bool)) : State :=
  match o with
  | some x => s.redLineTrap j 0 x
  | none => s.redCounts j alu (s.hdrBad j)

/-- A step of the protocol (R252, R254–R256): the header is read, and everything it allows is sent or written. -/
def State.redStep (s : State) (j : RedJob) (alu : Bool) : State := s.redHeader j alu (s.badLine [s.hdrLine j])

/-- CHANNEL_HEADER_UPDATE: the channel acts on its header line (R252). -/
def State.headerUpdate (s : State) (d c h : Nat) (alu : Bool) : State :=
  match s.redJob d c h with
  | none => s
  | some j =>
    if !s.live d then s
    else match s.waits (s.redAccess j) with
    | [] => s.redStep j alu
    | w => s.snoopAll w

/-- CHANNEL_HEADER_UPDATE (R252). -/
def execChannelHeaderUpdate (d c h : Nat) (_env : Env) (alu : Bool) (s : State) : Host.Outcome State Fault Refusal :=
  .next (s.headerUpdate d c h alu)

/-- CHUNK_LOADED: the next chunk of SRC enters region A, and what it allows follows (R253, R254). -/
def State.chunkLoaded (s : State) (d c h : Nat) : State :=
  match s.redJob d c h with
  | none => s
  | some j =>
    let k := j.ch.loaded
    if !(s.live d && decide (k < j.n)) then s
    else
      let w := s.workBase d c h
      match s.waits ((chunkLines j.ch.fmt j.b.size j.b.src k).map (fun n => (0, n)) ++ (j.partLines w k).map (fun n => (1, n))) with
      | x :: r => s.snoopAll (x :: r)
      | [] => match s.loadBad j k with
        | some (.line x) => s.redLineTrap j 0xE x
        | some (.format cause block w2 w3) => s.redFormat j cause block w2 w3
        | none => match (j.partLines w k).find? (fun n => !s.served (128 * n)) with
          | some n => s.redLineTrap j 0xE (n, false)
          | none => ((s.loadChunk j k).redPhase d c h).headerUpdate d c h false

/-- CHUNK_LOADED (R253); a corrected first read has no log in the FAB block. -/
def execChunkLoaded (d c h : Nat) (_env : Env) (s : State) : Host.Outcome State Fault Refusal := .next (s.chunkLoaded d c h)

/-! ### The end of a bucket (R256, R262, R263) and timeouts (R252) -/

/-- The 48-bit form of a sum of squares in units of 2^e (Table 13.6). -/
def normForm (n : Nat) (e : Int) : Nat :=
  if n = 0 then 0
  else
    let k : Int := (bitLen n : Int) - 38
    (shiftFloor (n : Int) (-k)).toNat + unsignedOf 10 (k + e) * 2 ^ 38

/-- Words 2 to 6 of a RED step's record (R262, Table 8.6). -/
def RedJob.figs (j : RedJob) : List Nat :=
  let e : Int := if j.blk then -254 else 0
  [j.b.bseq + j.b.gen * 2 ^ 32, normForm j.ch.lsq e, normForm j.ch.rsq e, j.u / (if j.ch.fmt = fINT32 then 4 else 2), j.ch.sat]

/-- BUCKET_COMPLETE: every chunk is in DST and every store is answered (R256): the digest entry, the signal, the record. -/
def State.bucketComplete (s : State) (d c h : Nat) : State :=
  match s.redJob d c h with
  | none => s
  | some j =>
    let dig := s.fld d .fab 0 (rchOff c h + 8) 7 41 * 128 + 128 * (s.chanOrd d c h % 64)
    if !(s.live d && decide (j.ch.fwd = j.n) && decide (j.ch.wait = 0)) then s
    else if s.isMem dig && s.mustWait 1 (dig / 128) then s.sendSnoop 1 (dig / 128)
    else
      let s1 := (s.writeDigest d c h true).updChan d c h (fun x => { accepted := x.accepted.tail, prev := some (j.b.bseq, j.b.gen) })
      match s1.flight j.b.fid with
      | none => s1
      | some f => (s1.endUnit { f with figs := j.figs, poisoned := f.poisoned || j.ch.poisoned } 0).settleClear c

/-- BUCKET_COMPLETE (R256). -/
def execBucketComplete (d c h : Nat) (s : State) : Host.Outcome State Fault Refusal := .next (s.bucketComplete d c h)

/-- The channel waits on a header word (R252). -/
def State.waitsOn (s : State) (j : RedJob) (i : Nat) : Bool :=
  j.words.contains i &&
    (if i = 12 then decide (s.cnt j 12 < j.n)
     else if i = 13 then decide (j.ch.up < j.n) && decide (s.cnt j 13 ≤ j.ch.up)
     else decide (s.cnt j i < j.n))

/-- RED_TIMEOUT: a header word that the channel waits on has not changed for FAB_RCTL.TIMEOUT ms (R252). -/
def State.redTimeout (s : State) (d c h i : Nat) : State :=
  match s.redJob d c h with
  | none => s
  | some j =>
    if !(s.live d && decide (s.fld d .fab 0 0x58 0 16 ≠ 0) && s.waitsOn j i) then s
    else s.redTrap d c h j.b.fid 0x3B i 0 (h + i * 16 + s.chanOrd d c h * 65536) (s.hdrWord j i)

/-- RED_TIMEOUT (R252). -/
def execRedTimeout (d c h w : Nat) (s : State) : Host.Outcome State Fault Refusal := .next (s.redTimeout d c h w)

/-- A store of a channel is answered OK (R256). -/
def State.redAnswered (s : State) (d c h fid : Nat) : State :=
  match s.redJob d c h with
  | none => s
  | some j => if j.b.fid = fid then s.updChan d c h (fun x => { x with wait := x.wait - 1 }) else s

end Sys2Proof.Machine
end

