-- ==== Sys2Proof/Machine/Fabric.lean ====
section
/-! DEFINITION. The fabric's commands: requests at their home, responses at their issuer, combining, and the two retry levels
(R204–R228). -/

namespace Sys2Proof.Machine

/-! ### Requests at the home -/

/-- Two records are one but for the model's own note of where a payload was read. -/
def sameRec (a b : FRec) : Bool := decide ({ a with src := 0 } = { b with src := 0 })

/-- Class of a request at its home: that of the frame that brought it, TC1 read as the class of its operation (R227), a record
that no frame brought likewise. -/
def State.homeClass (s : State) (d : Nat) (r : FRec) : Nat :=
  let std := if r.op = opAtomic ∨ r.op = opSignal then 7 else 5
  match (s.router d).inq.find? (fun e => sameRec e.2 r) with
  | some e => if e.1 = 1 then std else e.1
  | none => std

/-- The router hands a record for this module over: its transit lines are free (R241). -/
def State.takeRec (s : State) (d : Nat) (r : FRec) : State :=
  match (s.router d).inq.find? (fun e => sameRec e.2 r) with
  | none => s
  | some e => (s.updRouter d (fun k => { k with inq := k.inq.erase e })).freeTransit e.2

/-- A request is one for this die's router to serve. -/
def State.forHome (s : State) (d : Nat) (r : FRec) : Bool :=
  s.live d && decide (r.kind = 0) && decide (r.dstMod = s.ownId d)

/-- A request at its home (R201, R227): refused where ACCEPT is 0, answered again where it was applied, discarded behind a gap,
held while the host must give a line up (R289), else applied by `f`, whose status and payload the response carries; a
request applied counts at the die that holds it. -/
def State.serve (s : State) (d hd : Nat) (r : FRec) (f : Nat → State → State × Nat × List Byte) : State :=
  let cls := s.homeClass d r
  if !s.forHome d r then s
  else match s.applied? cls r with
  | some old => ((s.takeRec d r).addRg d .fab 0 0x128 1).takeResp d (respClass cls) old
  | none =>
    if s.outOfOrder cls r then s.takeRec d r
    else if !bitOf (s.rg d .fab 0 0x20) 7 then (s.takeRec d r).finish d cls r 8 []
    else if !(s.waits (FRec.access r)).isEmpty then s.snoopAll (s.waits (FRec.access r))
    else
      let x := f cls (s.takeRec d r)
      let s1 := if x.2.1 = 0 then x.1.addRg hd .fab 0 0x108 1 else x.1
      s1.finish d cls r x.2.1 x.2.2

/-- READ at the home (R204). -/
def State.readFab (s : State) (r : FRec) : State × Nat × List Byte :=
  let a := gaLocal r.addr / 128 * 128
  if s.served a then
    let l := s.readAt a
    (s.touchRead a, 0, padTo 128 l.bytes ++ leBytes 8 l.sb.toNat)
  else (s, 1, [])

/-- The serving die of a request's line, or the entry die (R201). -/
def State.homeOf (s : State) (d : Nat) (r : FRec) : Nat :=
  if s.isMem (gaLocal r.addr) then homeDie (gaLocal r.addr) else d

/-- READ (R204): the home returns the line and its sideband. -/
def execRead (d : Nat) (r : FRec) (s : State) : Host.Outcome State Fault Refusal :=
  .next (if r.op = opRead then s.serve d (s.homeOf d r) r (fun _ t => t.readFab r) else s)

/-- A WRITE at its home carries nothing back. -/
def State.doWrite (s : State) (r : FRec) (cls : Nat) : State × Nat × List Byte := ((s.writeFab cls r).1, (s.writeFab cls r).2, [])

/-- WRITE (R204), and the WRITE that an MCAST sends to a member (R208). -/
def execWrite (d : Nat) (r : FRec) (s : State) : Host.Outcome State Fault Refusal :=
  .next (if r.op = opWrite ∨ r.op = opMcast then
    s.serve d (s.homeOf d r) r (fun cls t => t.doWrite r cls)
  else s)

/-- A REDSTORE at its home carries nothing back. -/
def State.doRedstore (s : State) (r : FRec) (alu : Bool) : State × Nat × List Byte :=
  ((s.redstoreAt r alu).1, (s.redstoreAt r alu).2, [])

/-- REDSTORE (R205): the payload is added into the target unit. -/
def execRedstore (d : Nat) (r : FRec) (alu : Bool) (s : State) : Host.Outcome State Fault Refusal :=
  .next (if r.op = opRedstore then
    s.serve d (s.homeOf d r) r (fun _ t => t.doRedstore r alu)
  else s)

/-- An ATOMIC at its home carries the old value back where it ends OK. -/
def State.doAtomic (s : State) (r : FRec) : State × Nat × List Byte :=
  let a := gaLocal r.addr / 128 * 128
  if s.served a then
    let x := s.atomicAt a r.word r.akind (wordOf (leAt r.pay 0 8)) (wordOf (leAt r.pay 8 8)) r
    (x.1, x.2.1, if x.2.1 = 0 then leBytes 8 x.2.2.toNat else [])
  else (s, 1, [])

/-- ATOMIC (R206); adders that disagree stop the home die (R379). A first read that fails alone changes nothing. -/
def State.atomicRow (s : State) (d : Nat) (r : FRec) (alu : Bool) : State :=
  if r.op ≠ opAtomic then s
  else if alu && s.forHome d r then (s.takeRec d r).ctrlUe (s.homeOf d r)
  else s.serve d (s.homeOf d r) r (fun _ t => t.doAtomic r)

/-- ATOMIC (R206). -/
def execAtomic (d : Nat) (r : FRec) (_env : Env) (alu : Bool) (s : State) : Host.Outcome State Fault Refusal :=
  .next (s.atomicRow d r alu)

/-- A SIGNAL at its home carries nothing back. -/
def State.doSignal (s : State) (r : FRec) : State × Nat × List Byte := ((s.signalAt r).1, (s.signalAt r).2, [])

/-- SIGNAL (R207): its increment is added to the counter that its CREF names. -/
def State.signalRow (s : State) (d : Nat) (r : FRec) (alu : Bool) : State :=
  let td := nbits r.addr 8 3
  if r.op ≠ opSignal then s
  else if alu && s.forHome d r then (s.takeRec d r).ctrlUe (if td < s.nd then td else d)
  else s.serve d (if td < s.nd then td else d) r (fun _ t => t.doSignal r)

/-- SIGNAL (R207). -/
def execSignal (d : Nat) (r : FRec) (alu : Bool) (s : State) : Host.Outcome State Fault Refusal :=
  .next (s.signalRow d r alu)

/-! ### Responses at the issuer -/

/-- The answer of a proxy access that ended OK (R209). -/
def State.proxyDone (s : State) (pd tag opc word : Nat) (r : FRec) (bs : List Byte) : State :=
  if opc = 0x07 then s.respond pd { opc := 0x30, tag := tag, word := word }
  else
    let v := if r.op = opRead then leAt bs (8 * r.word) 8 else leAt bs 0 8
    s.respond pd { opc := 0x31, tag := tag, word := word, pay := padTo 16 (leBytes 8 v) }

/-- Lines of this module that a response writes (R289). -/
def TagEnt.access (t : TagEnt) : List (Nat × Nat) := match t.own with | .eng _ _ act => act.access | _ => []

/-- A request ends OK: what its issuer does (R134, R209, R256). -/
def State.okOwner (s : State) (d : Nat) (t : TagEnt) (bs : List Byte) (sb : Word) : State :=
  match t.own with
  | .sig _ _ _ _ => s
  | .eng fid i act => (s.engArrive fid i act { bytes := padTo 128 bs, sb := sb }).engAnswered fid
  | .chan h _ fid => s.redAnswered d t.r.ctx h fid
  | .proxy pd tag opc word => s.proxyDone pd tag opc word t.r bs

/-- A response reaches its issuer (R210): data go where they were asked for, a status other than OK fails the issuer, the tag
returns. -/
def State.fabricResponse (s : State) (d tag st : Nat) (bs : List Byte) (sb : Word) : State :=
  match (s.router d).tags.find? (fun e => e.1 = tag) with
  | none => s
  | some (_, t) =>
    let q := (s.router d).inq.find? (fun e => e.2.kind = 1 && e.2.tag = tag && e.2.seq = t.r.seq && e.2.stat = st)
    let s0 := match q with | some e => s.takeRec d e.2 | none => s
    let data : List Byte × Word := match q with
      | some e => (e.2.pay.take 128, wordOf (leAt e.2.pay 128 8))
      | none => (bs, sb)
    if st ≠ 0 then
      let s1 := if st = 6 then s0.raise d .fab 0 15 .ucc (reqLog 8 t.r) else s0
      (s1.failOwner d t st).returnTag d tag
    else if !(s.waits (TagEnt.access t)).isEmpty then s.snoopAll (s.waits (TagEnt.access t))
    else (s0.okOwner d t data.1 data.2).returnTag d tag

/-- FABRIC_RESPONSE (R210). -/
def execFabricResponse (d tag st : Nat) (bs : List Byte) (sb : Word) (s : State) : Host.Outcome State Fault Refusal :=
  .next (if s.live d then s.fabricResponse d tag st bs sb else s)

/-! ### Hot lines (R218, R379) -/

/-- A merged request leaves the blend unit for its target. -/
def State.leaveBlend (s : State) (d cls : Nat) (r : FRec) : State :=
  if r.dstMod = s.ownId d then s.updRouter d (fun k => { k with inq := k.inq ++ [(cls, r)] })
  else s.forwardOr d cls r

/-- The hold window of hot line `i` of a die ends (R218): the request it holds leaves; a window without one is counted. The two
copies of the adders may disagree on a merged sum (R379). -/
def State.hotWindow (s : State) (d i : Nat) (alu : Bool) : State :=
  let k := s.router d
  match k.hot[i]? with
  | none => s
  | some h =>
    match h.req with
    | none => s.putRouter d { k with hot := k.hot.set i { h with idle := h.idle + 1 } }
    | some r =>
      let cls := h.key.2.2 % 8
      let s1 := s.putRouter d { k with hot := k.hot.set i { h with req := none, members := [], idle := 0 } }
      if alu && decide (2 ≤ h.members.length) && r.op ≠ opRead then
        if r.op = opRedstore then
          let sd := withBits (wordOf (leAt r.pay 128 8)) 56 8 flagPoison
          let r1 := { r with pay := spliceAt r.pay 128 (leBytes 8 sd.toNat) }
          ((s1.raise d .saf 0 9 .ucc (2 + gaLocal r.addr * 65536)).keepMembers d r1 h.members).leaveBlend d cls r1
        else s1.ctrlUe d
      else (s1.keepMembers d r h.members).leaveBlend d cls r

/-- HOT_LINE_WINDOW (R218). -/
def execHotLineWindow (d i : Nat) (alu : Bool) (s : State) : Host.Outcome State Fault Refusal :=
  .next (if s.live d then s.hotWindow d i alu else s)

/-- An entry of four windows without a request leaves the table (R218). -/
def State.hotFree (s : State) (d i : Nat) : State :=
  let k := s.router d
  match k.hot[i]? with
  | none => s
  | some h => if h.req.isNone && decide (4 ≤ h.idle) then s.putRouter d { k with hot := k.hot.eraseIdx i } else s

/-- HOT_LINE_FREE (R218). -/
def execHotLineFree (d i : Nat) (s : State) : Host.Outcome State Fault Refusal :=
  .next (if s.live d then s.hotFree d i else s)

/-! ### Retry, escape and hold (R222, R224, R226, R227) -/

/-- 4 µs pass without an acknowledgement (R226); the timer is suspended during a switch-in (R234). -/
def State.hopTimeout (s : State) (d p : Nat) : State :=
  let k := s.port d p
  match k.unacked.head? with
  | none => s
  | some f => if s.portLive d p && s.portUp d p && !k.txHold then s.retryFrom d p f.hseq else s

/-- HOP_ACK_TIMEOUT (R226). -/
def execHopAckTimeout (d p : Nat) (s : State) : Host.Outcome State Fault Refusal := .next (s.hopTimeout d p)

/-- A NAK names the frame to resend from; the frames before it are acknowledged (R226, DEDUCED from the cumulative
acknowledgement). -/
def State.takeNak (s : State) (d p h : Nat) : State :=
  if s.portLive d p && s.portUp d p && (s.port d p).unacked.any (fun f => f.hseq = h) then
    (s.ackTo d p ((h + 2047) % 2048)).retryFrom d p h
  else s

/-- NAK (R226). -/
def execNak (d p hseq : Nat) (s : State) : Host.Outcome State Fault Refusal := .next (s.takeNak d p hseq)

/-- E2E_TIMEOUT (R227): an unanswered request is sent again, or fails. -/
def execE2eTimeout (d tag : Nat) (s : State) : Host.Outcome State Fault Refusal :=
  .next (if s.live d then s.resend d tag else s)

/-- A bulk record that has waited 1 µs for a productive port with credit moves to the escape class (R222). -/
def State.bulkEscape (s : State) (d p i : Nat) : State :=
  match (s.port d p).txq[i]? with
  | none => s
  | some (cls, r) =>
    if (cls = 5 ∨ cls = 3) ∧ s.inTorus d r.dstMod ∧
        ((s.productive d r.dstMod).flatMap (fun x => s.dirPorts x.1 x.2)).all (fun x => decide (s.portCredit x cls = 0)) then
      (s.updPort d p (fun k => { k with txq := k.txq.eraseIdx i })).forwardOr d (cls - 1) r
    else s

/-- BULK_ESCAPE (R222). -/
def execBulkEscape (d p i : Nat) (s : State) : Host.Outcome State Fault Refusal :=
  .next (if s.live d then s.bulkEscape d p i else s)

/-- The hold of a die's failed ports ends where no control request sent on them is open, and held control traffic resumes
(R224). -/
def State.holdRelease (s : State) (d : Nat) : State :=
  let open' := (s.router d).failed.filter (fun p => s.viaOpen d p)
  let s1 := s.updRouter d (fun k => { k with failed := open' })
  let s2 := if open'.isEmpty then s1.setFld d .fab 0 0 16 1 0 else s1
  forEach s.allDies (fun e t =>
    let q := (t.router e).heldq
    forEach q (fun x u => u.forwardOr e x.1 x.2) (t.updRouter e (fun k => { k with heldq := [] }))) s2

/-- CTRL_HOLD_RELEASE (R224). -/
def execCtrlHoldRelease (d : Nat) (s : State) : Host.Outcome State Fault Refusal :=
  .next (if s.live d then s.holdRelease d else s)

end Sys2Proof.Machine
end

