-- ==== Sys2Proof/Machine/Ports.lean ====
section
/-! DEFINITION. The commands of the Ethernet ports (R230–R246), but for IEEE 802.1AS messages. -/

namespace Sys2Proof.Machine

/-! ### Receiving (R236, R239, R241) -/

/-- A record that arrives in a frame is blended, handed to this module or sent onward (R217, R225, R237). -/
def State.arriveRec (s : State) (d cls : Nat) (r : FRec) : State :=
  if r.kind = 1 then
    let own := decide (r.dstMod = s.ownId d)
    let s1 := s.takeResp d cls r
    if own then s1.freeTransit r else s1
  else
    let cl := if cls = 1 then (if r.op = opSignal ∨ r.op = opAtomic then 7 else 5) else cls
    match (if s.blends d r.dstMod then s.blend d cl r else (s, some r)) with
    | (t, none) => t.freeTransit r
    | (t, some x) =>
      if x.dstMod = s.ownId d then t.updRouter d (fun k => { k with inq := k.inq ++ [(cls, x)] })
      else t.forwardOr d cls x

/-- SPARE_REQ: the sender holds new frames and moves the lane to its spare (Table 12.3, t2). -/
def State.takeSpareReq (s : State) (d p lane : Nat) : State :=
  if s.direct d p && decide (s.macMode d p = 1) && s.portUp d p then
    ((s.updPort d p (fun k => { k with txHold := true, ackDue := true })).setFld d .mac (p % 4) 0x50 4 4 (lane % 8)).setFld d
      .mac (p % 4) 0 18 1 1
  else s

/-- SPARE_DONE: the sender resumes from the oldest unacknowledged frame (Table 12.3, t3). -/
def State.takeSpareDone (s : State) (d p : Nat) : State :=
  let k := s.port d p
  if !k.txHold then s
  else
    let s1 := s.putPort d p { k with txHold := false }
    match k.unacked.head? with
    | none => s1
    | some f => s1.resendFrames d p f.hseq

/-- A HELLO is checked against Table 12.2: the port comes up, or sets MISCABLED and stays down (R233). -/
def State.takeHello (s : State) (d p peer port : Nat) : State :=
  let k := s.port d p
  if !(s.portLive d p && s.direct d p && k.trained && !s.portUp d p) then s
  else if s.miscabled d p (peer % 4096) (port % 32) then
    (s.putPort d p { k with trained := false }).raise d .mac (p % 4) 11 .none (macLog 4 0 (peer % 4096) (port % 32))
  else s.portUpNow d p (peer % 4096)

/-- Link control of a frame (Table 12.5). -/
def State.linkCtl (s : State) (d p : Nat) (r : FRec) : State :=
  if r.op = 1 then s.takeNak d p (leAt r.pay 0 2 % 2048)
  else if r.op = 2 then s.takeHello d p (leAt r.pay 0 3 % 4096) (leAt r.pay 2 1 % 32)
  else if r.op = 3 then s.takeSpareReq d p (leAt r.pay 0 1 % 8)
  else s.takeSpareDone d p

/-- A frame that passed every check: RX_FRAMES and RX_BYTES, FCS included. -/
def State.rxCount (s : State) (d p n : Nat) : State := (s.macCnt d p 0 1).macCnt d p 1 n

/-- A frame is dropped: its counter, RX_DROP where no line or slot is free, and a failed frame check on a DIRECT port (R236,
R239). -/
def State.rxDrop (s : State) (d p k : Nat) : State :=
  let s1 := s.macCnt d p k 1
  (if k = 8 then s1.setStat d .mac (p % 4) (bitMask 13) else s1).askAgain d p

/-- A fabric frame whose FCS has passed: hop sequence, transit lines, records (R226, R237, R239, R241). A frame of link control
alone, or with no record, carries no hop sequence (DEDUCED, log entry 18). -/
def State.fabricFrame (s : State) (d p cls : Nat) (bs : List Byte) : State :=
  let body := bs.drop 18
  let n := leAt body 5 1
  let hack := leAt body 2 2
  let lines := (bs.length + 127) / 128
  let k := s.port d p
  let full := if cls = 0 then decide (s.fld d .mac (p % 4) 0x28 48 16 < k.heldOf 0 + lines)
    else decide (1024 * s.fld d .cel 0 0x30 0 6 < k.heldAll + lines)
  match (if leAt body 4 1 % 16 ≠ 1 ∨ 32 < n then none else parseRecs n (body.drop 8)) with
  | none => s.rxDrop d p 7
  | some rs =>
    let s1 := if s.direct d p && nbit hack 15 then s.ackTo d p (hack % 2048) else s
    let ctl := rs.filter (fun r => r.kind = 2)
    let dat := rs.filter (fun r => r.kind ≠ 2)
    if dat.isEmpty then forEach ctl (fun r t => t.linkCtl d p r) (s1.rxCount d p (bs.length + 4))
    else if !s.portUp d p then s
    else if s.direct d p && decide (leAt body 0 2 % 2048 ≠ k.rxNext) then
      if decide ((k.rxNext + 2048 - leAt body 0 2 % 2048) % 2048 ≤ 1024) then s1.updPort d p (fun x => { x with ackDue := true })
      else s1.askAgain d p
    else if full then s.rxDrop d p 8
    else
      let s2 := s1.updPort d p (fun x => { x with
        rxNext := if s.direct d p then (x.rxNext + 1) % 2048 else x.rxNext, naked := false, ackDue := s.direct d p })
      let s3 := (s2.holdLines d p cls lines (dat.getLastD {})).rxCount d p (bs.length + 4)
      forEach dat (fun r t => t.arriveRec d cls r) (forEach ctl (fun r t => t.linkCtl d p r) s3)

/-- A frame of `bs` without its FCS arrives whole (R236, R237, R241, R244): `fcs` says that its FCS is right. IEEE 802.1AS
messages go to the time manager, whose command is PTP_MESSAGE; received PAUSE frames are discarded. -/
def State.frameReceive (s : State) (d p : Nat) (bs : List Byte) (fcs : Bool) : State :=
  let h := frameHead bs
  let len := bs.length + 4
  let i := p % 4
  if !s.portLive d p || (s.port d p).rxMove.isSome || !(s.portUp d p || (s.port d p).trained) then s
  else if len < 64 then s.macCnt d p 5 1
  else if s.maxFrame d p < len then s.rxDrop d p 6
  else if !fcs then s.rxDrop d p 4
  else if h.2.1 = 0x8808 then
    if beAt bs h.1 2 = 0x0101 then
      (s.rxCount d p len).takePfc d p
        (((List.range 8).filter (fun c => nbit (beAt bs (h.1 + 2) 2) c)).map (fun c => (c, beAt bs (h.1 + 4 + 2 * c) 2)))
    else s.rxCount d p len
  else if h.2.1 = 0x88F7 then s.rxCount d p len
  else if h.2.1 = s.fld d .mac i 0x20 24 16 then
    if beAt bs 0 6 ≠ s.fabAddr d p (s.ownId d) then s
    else match h.2.2 with
      | none => s.macCnt d p 7 1
      | some pcp => s.fabricFrame d p pcp bs
  else if !s.portUp d p || !s.passes d p bs then s
  else
    let cls := match h.2.2 with
      | none => 0
      | some pcp => s.fld d .mac i 0x40 (3 * pcp) 3
    let lines := (bs.length + 127) / 128
    if cls = 0 && decide (s.fld d .mac i 0x28 48 16 < (s.port d p).heldOf 0 + lines) then s.rxDrop d p 8
    else (s.rxCount d p len).hostReceive d p cls bs

/-- FRAME_RECEIVE (R236). -/
def execFrameReceive (d p : Nat) (bs : List Byte) (fcs : Bool) (s : State) : Host.Outcome State Fault Refusal :=
  .next (s.frameReceive d p bs fcs)

/-! ### Sending (R237, R238, R240) -/

/-- Exit check of one payload line of a record (R378). -/
def State.exitPay (s : State) (d p n i : Nat) (r : FRec) : State × FRec :=
  let x := s.exitLine d (p % 4) (if r.src = 0 then none else some (r.src - 1 + i)) (payLine r.pay n i)
  let bs := spliceAt (spliceAt r.pay (128 * i) (padTo 128 x.2.bytes)) (128 * n + 8 * i) (leBytes 8 x.2.sb.toNat)
  (x.1, { r with pay := bs })

/-- Lines that a record's payload carries. -/
def recLines (r : FRec) : Nat :=
  if r.kind = 0 then (if r.op = opWrite ∨ r.op = opMcast then 1 else if r.op = opRedstore then redLines r.stat else 0)
  else if r.kind = 1 ∧ r.op = opRead ∧ r.stat = 0 then 1 else 0

/-- Exit checks of a record, line by line (R378). -/
def State.exitRec (s : State) (d p : Nat) (r : FRec) : State × FRec :=
  let n := recLines r
  (List.range n).foldl (fun (x : State × FRec) i => x.1.exitPay d p n i x.2) (s, r)

/-- Exit checks of the records of a frame. -/
def State.exitRecs (s : State) (d p : Nat) (rs : List FRec) : State × List FRec :=
  rs.foldl (fun (x : State × List FRec) r => let y := x.1.exitRec d p r; (y.1, x.2 ++ [y.2])) (s, [])

/-- The records that the next frame of a class takes (R237, R238): in order, up to 32 and MAX_FRAME; of one destination module on
a SWITCH link. -/
def State.nextRecs (s : State) (d p cls : Nat) : List FRec :=
  let all := ((s.port d p).txq.filter (fun e => e.1 = cls)).map Prod.snd
  match all with
  | [] => []
  | a :: rest =>
    let mine := if s.direct d p then rest else rest.filter (fun r => r.dstMod = a.dstMod)
    (mine.foldl (fun (x : List FRec × Bool) r =>
      if x.2 || decide (32 ≤ x.1.length) || decide (s.maxFrame d p < frameLen (x.1 ++ [r])) then (x.1, true)
      else (x.1 ++ [r], false)) ([a], false)).1

/-- Remove sent records from the records that wait. -/
def dropSent (cls : Nat) (rs : List FRec) (q : List (Nat × FRec)) : List (Nat × FRec) :=
  rs.foldl (fun q r => q.erase (cls, r)) q

/-- A fabric frame of records: addresses, tag, header (R238, Table 12.4). -/
def State.fabFrame (s : State) (d p cls : Nat) (hseq : Nat) (hack : Option Nat) (rs : List FRec) : Frame :=
  let i := p % 4
  { dst := s.fabAddr d p (if s.direct d p then (s.port d p).peer else (rs.headD {}).dstMod), src := s.fld d .mac i 0x30 0 48,
    pcp := cls, vid := s.fld d .mac i 0x20 40 12, etype := s.fld d .mac i 0x20 24 16, hseq := hseq, hack := hack, recs := rs }

/-- Link control leaves ahead of every frame not yet started (R239). -/
def State.sendCtl (s : State) (d p : Nat) : State :=
  let k := s.port d p
  let f := s.fabFrame d p 7 0 k.ackNow (k.ctlq.take 32)
  (s.putPort d p { k with ctlq := k.ctlq.drop 32, ackDue := false }).sendFrame d p f (frameLen f.recs)

/-- A fabric frame of a class starts (R226, R237, R238, R378). -/
def State.sendData (s : State) (d p cls : Nat) : State :=
  let rs := s.nextRecs d p cls
  let x := s.exitRecs d p rs
  let k := x.1.port d p
  let dir := s.direct d p
  let f := x.1.fabFrame d p cls (if dir then k.hseq else 0) (if dir then k.ackNow else none) x.2
  let k1 := { k with txq := dropSent cls rs k.txq, ackDue := false,
                     hseq := if dir then (k.hseq + 1) % 2048 else k.hseq, unacked := if dir then k.unacked ++ [f] else k.unacked }
  forEach rs (fun r t => t.freeTransit r) ((x.1.putPort d p k1).sendFrame d p f (frameLen x.2))

/-- The host frame in the next transmit slot starts, or its bad descriptor is consumed (R245). A line that fails the exit check
goes out under an inverted FCS (R378). -/
def State.sendHost (s : State) (d p : Nat) : State :=
  match s.hostSlot d p with
  | none => s
  | some (a, len, _, good) =>
    if !good then (s.txCons d p).macCnt d p 15 1
    else
      let n := (len + 127) / 128
      let x := (List.range n).foldl (fun (x : State × Bool) i =>
        let l := x.1.line (a / 128 + i)
        let y := x.1.exitLine d (p % 4) (some (a / 128 + i)) l
        (y.1, x.2 || sbPoison y.2.sb)) (s, false)
      let bs := padTo (max 60 len) (s.bytesFrom a len)
      (((x.1.updPort d p (fun k => { k with hostTx := true })).emit (.host d p bs x.2)).macCnt d p 2 1).macCnt d p 3 (bs.length + 4)

/-- The class of the frame that may start next (R240), from TC7 down: a fabric frame, or the next host frame. -/
def State.pickClass (s : State) (d p : Nat) : Option (Nat × Bool) :=
  let k := s.port d p
  [7, 6, 5, 4, 3, 2, 1, 0].findSome? (fun c =>
    let rs := s.nextRecs d p c
    if !rs.isEmpty && s.mayStart d p c (frameLen rs) && (!s.direct d p || decide (k.unacked.length < 1024)) then some (c, false)
    else match s.hostSlot d p with
      | some (_, len, tc, good) =>
        if tc = c && !k.hostTx && (!good || s.mayStart d p c (max 64 (len + 4))) then some (c, true) else none
      | none => none)

/-- A frame starts on the wire (R237, R240). -/
def State.frameTransmit (s : State) (d p : Nat) : State :=
  let k := s.port d p
  if !s.portLive d p then s
  else if !k.ctlq.isEmpty && (s.portUp d p || k.trained) then s.sendCtl d p
  else if !s.portUp d p || k.txHold then s
  else match s.pickClass d p with
  | none => s
  | some (_, true) => s.sendHost d p
  | some (c, false) => s.sendData d p c

/-- FRAME_TRANSMIT (R237). -/
def execFrameTransmit (d p : Nat) (s : State) : Host.Outcome State Fault Refusal := .next (s.frameTransmit d p)

/-- The last bit of a host frame leaves: TX_CONS and HOST_TX (R245). -/
def State.frameTxEnd (s : State) (d p : Nat) : State :=
  if (s.port d p).hostTx then
    ((s.updPort d p (fun k => { k with hostTx := false })).txCons d p).setStat d .mac (p % 4) (bitMask 15)
  else s

/-- FRAME_TX_END (R245). -/
def execFrameTxEnd (d p : Nat) (s : State) : Host.Outcome State Fault Refusal := .next (s.frameTxEnd d p)

/-- PFC_RECEIVE (R241): a PFC frame pauses a class, or a time of zero releases it. -/
def execPfcReceive (d p cls quanta : Nat) (s : State) : Host.Outcome State Fault Refusal :=
  .next (if s.portLive d p && s.portUp d p then s.takePfc d p [(cls % 8, quanta)] else s)

/-- The pausing PFC frames of classes whose count is at least XON are sent again (R241). -/
def State.pfcRepeat (s : State) (d p : Nat) : State :=
  forEach ((s.port d p).pausing.filter (fun c => decide (s.xon d p ≤ (s.port d p).heldOf c))) (fun c t => t.sendPfc d p c 0xFFFF) s

/-- PFC_REPEAT (R241). -/
def execPfcRepeat (d p : Nat) (s : State) : Host.Outcome State Fault Refusal :=
  .next (if s.portLive d p && s.portUp d p then s.pfcRepeat d p else s)

/-- PAUSE_EXPIRY (R241): the pause time of a class has passed. -/
def execPauseExpiry (d p cls : Nat) (s : State) : Host.Outcome State Fault Refusal :=
  .next (if s.portLive d p then s.updPort d p (fun k => { k with paused := k.paused.filter (· ≠ cls) }) else s)

/-- An acknowledgement held for 500 ns leaves in a frame with NREC 0 (R239). -/
def State.ackOnly (s : State) (d p : Nat) : State :=
  let k := s.port d p
  if s.portLive d p && s.portUp d p && s.direct d p && k.ackDue then
    (s.putPort d p { k with ackDue := false }).sendFrame d p (s.fabFrame d p 7 0 k.ackNow []) 64
  else s

/-- ACK_ONLY_FRAME (R239). -/
def execAckOnlyFrame (d p : Nat) (s : State) : Host.Outcome State Fault Refusal := .next (s.ackOnly d p)

/-! ### Bring-up (R233) -/

/-- Training of a port ends: `locks` has a bit per physical lane that locked. With all, a SWITCH port comes up and a DIRECT
port sends its HELLO (R233). A lane that the spare has replaced stays replaced, and need not lock (DEDUCED, log entry 19). -/
def State.portBringUp (s : State) (d p locks : Nat) : State :=
  if !s.portLive d p || s.portUp d p || decide (4 ≤ p) then s
  else
    let r := s.fld d .mac p 0x50 0 4
    let s1 := s.setFld d .mac p 0x50 8 9 locks
    if !((List.range 9).all (fun l => l = r || nbit locks l)) then s1
    else if s.direct d p then
      let hello : FRec := { kind := 2, op := 2, pay := leBytes 3 (s.ownId d + modPort d p * 65536) }
      s1.updPort d p (fun k => { k with trained := true, ctlq := [hello] })
    else forEach (s.halves d p) (fun q t => t.portUpNow d q 0) s1

/-- PORT_BRING_UP (R233). -/
def execPortBringUp (d p locks : Nat) (s : State) : Host.Outcome State Fault Refusal := .next (s.portBringUp d p locks)

/-- HELLO (R233). -/
def execHello (d p peer port : Nat) (s : State) : Host.Outcome State Fault Refusal := .next (s.takeHello d p peer port)

/-- PORT_RETRAIN_TIMER (R233): with AUTO_RETRAIN a port that is down trains again; the outcome is PORT_BRING_UP. -/
def execPortRetrainTimer (d p : Nat) (s : State) : Host.Outcome State Fault Refusal :=
  .next (if s.portLive d p && !s.portUp d p && bitOf (s.rg d .mac (p % 4) 0x20) 5 then s.retrainPort d p else s)

/-- MAC_RETRAIN (R246): MAC_CMD.RETRAIN takes the port down and retrains it. -/
def State.macRetrain (s : State) (d p : Nat) : State := if s.portLive d p then s.retrainPort d p else s

/-- MAC_RETRAIN (R246). -/
def execMacRetrain (d p : Nat) (s : State) : Host.Outcome State Fault Refusal := .next (s.macRetrain d p)

/-! ### Lanes (R234, R235) -/

/-- A receive lane loses lock: the spare is switched in where AUTO_SPARE and MOD_SPARE_CTL.AUTO allow it (R389), or the lane
is lost and the port goes down (R234, R235). -/
def State.lockLoss (s : State) (d p lane : Nat) : State :=
  if !s.portLive d p || decide (8 < lane) || decide (4 ≤ p) then s
  else
    let s1 := s.setFld d .mac p 0x50 (8 + lane) 1 0
    if !s.portUp d p || !((s.halves d p).any (fun q => (s.lanesUsed d q).contains lane)) then s1
    else if s.autoSpare 2 && s.spareFree d p && bitOf (s.rg d .mac p 0x20) 4 && bitOf (s.rg d .mac p 0x50) 16 then s1.moveLane d p lane
    else
      let s2 := (if !s.autoSpare 2 then s1.spareDue else if s.spareFree d p then s1 else s1.noSpare d 0).raise d .mac p 10 .none (macLog 3 lane 0 0)
      forEach (s.halves d p) (fun q t => t.portDown d q) s2

/-- LANE_LOCK_LOSS (R234). -/
def execLaneLockLoss (d p lane : Nat) (s : State) : Host.Outcome State Fault Refusal := .next (s.lockLoss d p lane)

/-- MAC_CMD.SPARE_IN (R234): `false` where it is refused with CONFIG_BUSY. -/
def State.macSpareIn (s : State) (d p lane : Nat) : State × Bool :=
  if !s.live d || decide (4 ≤ p) then (s, true)
  else if !s.spareFree d p then (s.configBusy d .mac p, false)
  else if s.portUp d p then (s.moveLane d p (lane % 8), true)
  else (s, true)

/-- MAC_SPARE_IN (R234). -/
def execMacSpareIn (d p lane : Nat) (s : State) : Host.Outcome State Fault Refusal := .next (s.macSpareIn d p lane).1

/-- SPARE_REQ (R234). -/
def execSpareReq (d p lane : Nat) (s : State) : Host.Outcome State Fault Refusal :=
  .next (if s.portLive d p then s.takeSpareReq d p lane else s)

/-- The PCS realigns on the spare lane: SPARE_DONE leaves, SPARE_IN is raised (Table 12.3, t3). -/
def State.pcsRealigned (s : State) (d p : Nat) : State :=
  let k := s.port d p
  match k.rxMove with
  | none => s
  | some l =>
    let s1 := s.putPort d p { k with rxMove := none, ctlq := k.ctlq ++ [{ kind := 2, op := 4 }] }
    ((s1.setFld d .mac (p % 4) 0x50 0 4 l).setFld d .mac (p % 4) 0 17 1 1).raise d .mac (p % 4) 9 .ce (macLog 2 l 0 0)

/-- PCS_REALIGNED (R234). -/
def execPcsRealigned (d p : Nat) (s : State) : Host.Outcome State Fault Refusal :=
  .next (if s.portLive d p && s.portUp d p then s.pcsRealigned d p else s)

/-- SPARE_DONE (R234). -/
def execSpareDone (d p : Nat) (s : State) : Host.Outcome State Fault Refusal :=
  .next (if s.portLive d p then s.takeSpareDone d p else s)

/-- LANE_DEGRADED is evidence against its lane (R389): the spare lane of a port that is up is switched in. -/
def State.laneEvent (s : State) (d p lane : Nat) : State :=
  let x := s.evidence (evKey 2 ((d * 4 + p) * 16 + lane)) hourTicks
  if x.2 < s.fld 0 .mod 0 0x78 16 4 then x.1
  else if !s.autoSpare 2 then x.1.spareDue
  else if !s.spareFree d p then x.1.noSpare d 0
  else if s.portUp d p && decide (lane < 8) then x.1.moveLane d p lane
  else x.1

/-- A 1 ms window of FEC symbol errors on a receive lane ends (R235). -/
def State.laneSer (s : State) (d p lane errs : Nat) : State :=
  if !s.live d || decide (4 ≤ p) || decide (8 < lane) then s
  else
    let s1 := s.addRg d .mac p (0x180 + 8 * lane) errs
    if s.fld d .mac p 0x48 0 16 < errs then (s1.raise d .mac p 8 .ce (macLog 1 lane 0 0)).laneEvent d p lane else s1

/-- LANE_SER_WINDOW (R235). -/
def execLaneSerWindow (d p lane errs : Nat) (s : State) : Host.Outcome State Fault Refusal := .next (s.laneSer d p lane errs)

/-! ### Gates and host queues (R243, R245) -/

/-- The record that waits first in each class. -/
def Port.heads (k : Port) : List (Nat × FRec) := (List.range 8).filterMap (fun c => k.txq.find? (fun e => e.1 = c))

/-- The next entry of the gate control list starts to hold; a frame that has waited through a whole cycle counts once in
GATE_STARVE (R243). -/
def State.gateEntry (s : State) (d p : Nat) : State :=
  let k := s.port d p
  let segs := s.gateSegs d p
  if segs.isEmpty then s.putPort d p { k with gates := 255, gcl := 0, gateWait := [], gateDone := [] }
  else
    let i := if k.gcl < segs.length then k.gcl else 0
    let k1 := { k with gates := (segs.getD i (0, 255)).2, gcl := (i + 1) % segs.length }
    if i ≠ 0 then s.putPort d p k1
    else
      let late := k.heads.filter (fun e => k.gateWait.contains e && !k.gateDone.contains e)
      (s.putPort d p { k1 with gateWait := k.heads, gateDone := k.gateDone.filter (fun e => k.heads.contains e) ++ late }).macCnt
        d p 12 late.length

/-- GATE_ENTRY (R243). -/
def execGateEntry (d p : Nat) (s : State) : Host.Outcome State Fault Refusal :=
  .next (if s.portLive d p then s.gateEntry d p else s)

/-- RX_CONS is stored through MAC_HQ_DB (R245). -/
def State.hqRxCons (s : State) (d p v : Nat) : State := s.setFld d .mac (p % 4) 0x70 16 16 v

/-- HQ_RX_CONS (R245). -/
def execHqRxCons (d p v : Nat) (s : State) : Host.Outcome State Fault Refusal :=
  .next (if s.live d then s.hqRxCons d p v else s)

/-- TX_PROD is stored through MAC_HQ_DB (R245). -/
def State.hqTxProd (s : State) (d p v : Nat) : State := s.setFld d .mac (p % 4) 0x70 32 16 v

/-- HQ_TX_PROD (R245). -/
def execHqTxProd (d p v : Nat) (s : State) : Host.Outcome State Fault Refusal :=
  .next (if s.live d then s.hqTxProd d p v else s)

end Sys2Proof.Machine
end

