-- ==== Sys2Proof/Machine/CellarUnit.lean ====
section
/-! DEFINITION. The commands of the Cellar (R167–R183). -/

namespace Sys2Proof.Machine

/-- Offset of CEL_SPARE_s (Table 9.10). -/
def spareOff (k : Nat) : Nat := 0x100 + 8 * k

/-! ### Storage errors (R176, R177) -/

/-- Logical bank of the counter that an error in a line counts in: its bank, or the spare that serves it (Table 9.10; the choice
of the spare's counter is DEDUCED, log entry 20). -/
def State.ceIndex (s : State) (a : Nat) : Nat :=
  let d := homeDie a
  let b := bankOf a
  match (List.range 32).find? (fun k => s.fld d .cel 0 (spareOff k) 0 1 = 1 && s.fld d .cel 0 (spareOff k) 1 10 = b) with
  | some k => 1024 + k
  | none => b

/-- Row of a line in its bank: of a cached line the way is a free value (R170, log entry 20). -/
def State.rowOf (s : State) (a : Nat) : Nat :=
  if inCelWindow a then celRow a else Config.victim s.free % 16 * 192 + setOf a

/-- CEL_ELOG of a storage error (Table 9.6). -/
def State.celLog (s : State) (cause a w : Nat) : Nat := cause + bankOf a * 256 + w * 2 ^ 18 + s.rowOf a * 2 ^ 24

/-- A trigger of Table 23.1 is met for a bank (R389, R391): the copy to the lowest free spare is asked for and SPARE_DUE says that
it waits for the quiescent point. With no spare left the bank stays in service (R392). -/
def State.bankTrigger (s : State) (d bank : Nat) : State :=
  let c := s.cel d
  if 1024 ≤ bank then s
  else if !s.autoSpare 1 then s.spareDue
  else match (List.range 32).find? (fun k => s.fld d .cel 0 (spareOff k) 0 1 = 0) with
  | none => s.noSpare d 0
  | some k =>
    if c.flush.isSome || c.purgeWait || c.spare.isSome then s.spareDue
    else (s.updCel d (fun x => { x with spare := some (bank, k) })).spareDue

/-- One corrected bit: counted, logged, and BANK_WEAR when the bank's count reaches its limit (R176, R177). -/
def State.eccCe (s : State) (a w : Nat) : State :=
  let d := homeDie a
  let f := 0x1000 + 8 * s.ceIndex a
  let n := s.fld d .cel 0 f 0 16
  let s1 := ((s.addRg d .cel 0 0x218 1).setFld d .cel 0 f 0 16 (min 65535 (n + 1))).raise d .cel 0 8 .ce (s.celLog 1 a w)
  let s2 := if inCelWindow a then s1 else s1.fresh
  if n < 65535 ∧ n + 1 = s.fld d .cel 0 0x20 16 16 then (s2.setStat d .cel 0 (bitMask 11)).bankTrigger d (s.ceIndex a) else s2

/-- Every spare bank of a die is in use. -/
def State.noBankSpare (s : State) (d : Nat) : Bool := (List.range 32).all (fun k => s.fld d .cel 0 (spareOff k) 0 1 = 1)

/-- An ECC_UE in a bank is evidence (R389): the second within 24 h calls in a spare; the third with no spare left records the bank
as failed, and its die is not released at the next start (R392). -/
def State.bankUe (s : State) (d bank : Nat) : State :=
  let x := s.evidence (evKey 1 (d * 2048 + bank)) dayTicks
  let s1 := if 2 ≤ x.2 then x.1.bankTrigger d bank else x.1
  if 3 ≤ x.2 && s1.noBankSpare d then s1.updMod (fun m => { m with failedDies := m.failedDies.filter (· ≠ d) ++ [d] }) else s1

/-- A word with several bits in error: the stored line is marked poisoned, without a format when its sideband failed (R176). -/
def State.eccUe (s : State) (a w : Nat) : State :=
  let d := homeDie a
  let sb := s.sideOf (a / 128)
  let sb1 := if w = 16 then mkSide (sbCrc sb) 0 0 flagPoison else withBit sb 56 true
  let s1 := (s.raise d .cel 0 9 .ucc (s.celLog 2 a w)).putSide (a / 128) sb1
  (if inCelWindow a then s1 else s1.fresh).bankUe d (s.ceIndex a)

/-- The SECDED checks of a line as it is read: word 0–15, or 16 for the sideband, and whether several bits failed (R176). -/
def State.eccCheck (s : State) (a : Nat) (ecc : List (Nat × Bool)) : State :=
  forEach (ecc.filter (fun e => decide (e.1 ≤ 16))) (fun e t => if e.2 then t.eccUe a e.1 else t.eccCe a e.1) s

/-! ### Accesses (R174, R175) -/

/-- An access to a line of this module: held while the host must give the line up (R289), else done where the line is served. -/
def State.cellarAccess (s : State) (kind a : Nat) (f : State → State) : State :=
  if !s.served a then s
  else if s.mustWait kind (a / 128) then s.sendSnoop kind (a / 128)
  else f s

/-- CELLAR_READ (R176): a line read reaches its bank. -/
def execCellarRead (a : Nat) (ecc : List (Nat × Bool)) (s : State) : Host.Outcome State Fault Refusal :=
  .next (s.cellarAccess 0 a (fun t => (t.touchRead a).eccCheck a ecc))

/-- CELLAR_WRITE (R174): the line and its sideband are replaced. -/
def execCellarWrite (a : Nat) (bs : List Byte) (sb : Word) (s : State) : Host.Outcome State Fault Refusal :=
  .next (s.cellarAccess 1 a (fun t => t.writeAt a { bytes := padTo 128 bs, sb := sb }))

/-- A masked write at its bank (R175); `crc` is the check value that came with the bytes. A poisoned line's is not checked. -/
def State.cellarMerge (s : State) (a : Nat) (bs : List Byte) (mask : Nat) (sb : Option Word) (crc : Nat) : State :=
  let po := match sb with | some w => sbPoison w | none => false
  if !po && decide ((crc32c (padTo 128 bs)).toNat ≠ crc) then s
  else match sb with
    | some w => s.mergeAt a mask (padTo 128 bs) w
    | none => (s.touchWrite a true).mergeBare (a / 128) mask (padTo 128 bs)

/-- CELLAR_MASKED_WRITE (R175). -/
def execCellarMaskedWrite (a : Nat) (bs : List Byte) (mask : Nat) (sb : Option Word) (crc : Nat) (s : State) :
    Host.Outcome State Fault Refusal :=
  .next (s.cellarAccess 2 a (fun t => t.cellarMerge a bs mask sb crc))

/-- The scrubber reads a populated row: a scratchpad line, or a line in a cache way (R177). -/
def State.scrub (s : State) (a : Nat) (ecc : List (Nat × Bool)) : State :=
  let d := homeDie a
  if s.served a && decide (s.fld d .cel 0 0x20 8 8 ≠ 0) && !(s.cel d).retained &&
      (inCelWindow a || (s.cel d).cache.any (fun e => e.1 = a / 128)) then s.eccCheck a ecc
  else s

/-- SCRUB (R177). -/
def execScrub (a : Nat) (ecc : List (Nat × Bool)) (s : State) : Host.Outcome State Fault Refusal := .next (s.scrub a ecc)

/-! ### Partition, FLUSH and PURGE, spare banks (R179, R180, R182) -/

/-- CEL_PARTITION_CHANGE (R179): the requested SWAP of the Cellar takes effect at the quiescent point. -/
def execCelPartitionChange (d : Nat) (s : State) : Host.Outcome State Fault Refusal :=
  .next (if s.live d then s.doSwap d .cel 0 else s)

/-- A command of CEL_CMD runs or waits (R180). -/
def State.celBusy (s : State) (d : Nat) : Bool :=
  (s.cel d).flush.isSome || (s.cel d).purgeWait || (s.cel d).spare.isSome

/-- Write back every dirty line; a PURGE then invalidates every line (R180). -/
def State.flushLines (s : State) (d : Nat) (inval : Bool) : State :=
  let s1 := s.cleanLines d (fun _ => true)
  let s2 := if inval then s1.dropLines d (fun _ => true) else s1
  (s2.updCel d (fun x => { x with flush := some inval, purgeWait := false })).setFld d .cel 0 0 16 1 1

/-- CEL_CMD.FLUSH: `false` where it is refused (R180). -/
def State.doFlush (s : State) (d : Nat) : State × Bool :=
  if !s.live d then (s, true)
  else if s.celBusy d then (s.configBusy d .cel 0, false) else (s.flushLines d false, true)

/-- FLUSH (R180). -/
def execFlush (d : Nat) (s : State) : Host.Outcome State Fault Refusal := .next (s.doFlush d).1

/-- CEL_CMD.PURGE: it waits for the quiescent point; `false` where it is refused (R180). -/
def State.doPurge (s : State) (d : Nat) : State × Bool :=
  if !s.live d then (s, true)
  else if s.celBusy d then (s.configBusy d .cel 0, false)
  else if s.quiescent d .cel 0 then (s.flushLines d true, true)
  else (s.updCel d (fun x => { x with purgeWait := true }), true)

/-- PURGE (R180). -/
def execPurge (d : Nat) (s : State) : Host.Outcome State Fault Refusal := .next (s.doPurge d).1

/-- A FLUSH or PURGE ends; a PURGE that waited runs first where the quiescent point has come (R180). -/
def State.flushComplete (s : State) (d : Nat) : State :=
  let s1 := if (s.cel d).purgeWait && s.quiescent d .cel 0 then s.flushLines d true else s
  if (s1.cel d).flush.isNone then s1
  else ((s1.updCel d (fun x => { x with flush := none })).setFld d .cel 0 0 16 1 0).setStat d .cel 0 (bitMask 12)

/-- FLUSH_COMPLETE (R180). -/
def execFlushComplete (d : Nat) (s : State) : Host.Outcome State Fault Refusal :=
  .next (if s.live d then s.flushComplete d else s)

/-- CEL_CMD.SPARE_IN: refused where the spare is valid, the bank is mapped, or a command runs (R180, R182). -/
def State.celSpareIn (s : State) (d bank spare : Nat) : State × Bool :=
  if !s.live d then (s, true)
  else if s.celBusy d || decide (s.fld d .cel 0 (spareOff (spare % 32)) 0 1 = 1) ||
      (List.range 32).any (fun k => s.fld d .cel 0 (spareOff k) 0 1 = 1 && s.fld d .cel 0 (spareOff k) 1 10 = bank % 1024) then
    (s.configBusy d .cel 0, false)
  else (s.updCel d (fun x => { x with spare := some (bank % 1024, spare % 32) }), true)

/-- CEL_SPARE_IN (R182). -/
def execCelSpareIn (d bank spare : Nat) (s : State) : Host.Outcome State Fault Refusal := .next (s.celSpareIn d bank spare).1

/-- The copy of a bank, made at the quiescent point, is complete: the map entry and SPARE_DONE are set, and the REPAIR record is
due (R182). -/
def State.celSpareDone (s : State) (d : Nat) : State :=
  match (s.cel d).spare with
  | none => s
  | some (b, k) =>
    if s.live d && s.quiescent d .cel 0 then
      (((s.updCel d (fun x => { x with spare := none })).setRg d .cel 0 (spareOff k) (wordOf (1 + 2 * b))).setStat d .cel 0
        (bitMask 13)).repairDue d
    else s

/-- CEL_SPARE_DONE (R182). -/
def execCelSpareDone (d : Nat) (s : State) : Host.Outcome State Fault Refusal := .next (s.celSpareDone d)

/-! ### Retention (R181) -/

/-- Entry to retention: every dirty line is written back (R181). -/
def State.celRetain (s : State) (d : Nat) : State :=
  (s.cleanLines d (fun _ => true)).updCel d (fun x => { x with retained := true, lost := false })

/-- Every scratchpad line of a die is marked poisoned with format code 0x00 (R181). -/
def State.poisonScratch (s : State) (d : Nat) : State :=
  let lo := celBase / 128 + d * 0x400000
  let n := s.spLines d
  let new := (List.range n).map (fun i =>
    let w := s.sideOf (lo + i)
    (lo + i, mkSide (sbCrc w) (sbVer w) 0 flagPoison))
  { s with side := s.side.filter (fun e => decide (e.1 < lo)) ++ new ++ s.side.filter (fun e => decide (lo + n ≤ e.1)) }

/-- Exit from retention; after a fall below 0.42 V the contents are lost (R181). -/
def State.celWake (s : State) (d : Nat) : State :=
  let c := s.cel d
  let s1 := s.updCel d (fun x => { x with retained := false, lost := false })
  if c.retained && c.lost then ((s1.raise d .cel 0 10 .ucc 3).dropLines d (fun _ => true)).poisonScratch d else s1

end Sys2Proof.Machine
end

