-- ==== Sys2Proof/Machine/HbmUnit.lean ====
section
/-! DEFINITION. The commands of the HBM controllers (R184–R199). -/

namespace Sys2Proof.Machine

/-! ### Slots and sidebands (R187, R188, R193) -/

/-- Slot of a line offset in its pseudo-channel: its own, or its place in the pool (R193). -/
def Hbm.slot (h : Hbm) (pc o : Nat) : Nat :=
  match smGet 0 h.remap (pc * 16384 + o / 512) with
  | 0 => o
  | n + 1 => 7733248 + 512 * n + o % 512

/-- Local address of line offset `o` of a pseudo-channel, the inverse of the map of R185. -/
def hbmAddr (d k pc o : Nat) : Nat :=
  let low := Nat.xor (Nat.xor pc (o % 64)) (o / 64 % 64) % 64
  let x := (o * 64 + low) * 128
  d * hbmSlice + x / 4096 * 8192 + (k + x / 2 ^ 19) % 2 * 4096 + x % 4096

/-- An access to a line's sideband: the controller's cache of 4,096 sideband lines, most recently used first, counts its misses
(R188). -/
def State.sbTouch (s : State) (a : Nat) (dirty : Bool) : State :=
  let d := homeDie a
  let h := hbmPlace a
  let key := h.2.1 * 2 ^ 20 + (s.hbm d h.1).slot h.2.1 h.2.2 / 16
  let c := (s.hbm d h.1).sbCache
  let was := c.any (fun e => e.1 = key && e.2)
  let s1 := if c.any (fun e => e.1 = key) then s else s.addRg d .hbm h.1 0x228 1
  s1.updHbm d h.1 (fun x => { x with sbCache := ((key, dirty || was) :: x.sbCache.filter (fun e => e.1 ≠ key)).take 4096 })

/-! ### Errors (R190, Table 10.3) -/

/-- HBM_ELOG of a cause at a line (Table 10.7). -/
def State.hbmLog (s : State) (cause a : Nat) : Nat :=
  let h := hbmPlace a
  cause + h.2.1 * 256 + (s.hbm (homeDie a) h.1).slot h.2.1 h.2.2 * 2 ^ 14

/-- A controller logs a cause at a line and counts it. -/
def State.hbmCause (s : State) (a cause cnt : Nat) (c : Cls) : State :=
  let d := homeDie a
  let k := (hbmPlace a).1
  (s.raise d .hbm k (7 + cause) c (s.hbmLog cause a)).addRg d .hbm k cnt 1

/-- The stored entry of a line is marked poisoned, its other fields as read (R190). -/
def State.hbmPoison (s : State) (a : Nat) : State := s.putSide (a / 128) (withBit (s.sideOf (a / 128)) 56 true)

/-- A sideband line that cannot be corrected: its 16 lines lose format and version and are poisoned (R190). -/
def State.sbLost (s : State) (a : Nat) : State :=
  let h := hbmPlace a
  forEach (List.range 16) (fun i t =>
    let n := hbmAddr (homeDie a) h.1 h.2.1 (h.2.2 / 16 * 16 + i) / 128
    t.putSide n (mkSide (sbCrc (t.sideOf n)) 0 0 flagPoison)) s

/-- A pool unit of a pseudo-channel is free. -/
def Hbm.poolFree (h : Hbm) (pc n : Nat) : Bool :=
  !(h.bad.contains (pc * 256 + n)) && !(h.remap.any (fun e => e.1 / 16384 = pc && e.2 = n + 1))

/-- A trigger of Table 23.1 is met for the unit of a line (R389): it is retired to a free pool unit; without one, NO_SPARE and
POOL_EXHAUSTED (R194, R392). A controller that runs a command retires nothing. -/
def State.hbmTrigger (s : State) (a : Nat) : State :=
  let d := homeDie a
  let x := hbmPlace a
  let h := s.hbm d x.1
  if !s.autoSpare 3 then s.spareDue
  else match (List.range 256).find? (h.poolFree x.2.1) with
  | none => (s.setStat d .hbm x.1 (bitMask 16)).noSpare d 0
  | some n => if h.cmd.isSome then s else s.putHbm d x.1 { h with cmd := some (.retire x.2.1 (x.2.2 / 512) n) }

/-- An ECC_CE is evidence against its unit (R389). -/
def State.hbmCeEvent (s : State) (a : Nat) : State :=
  let x := hbmPlace a
  let y := s.evidence (evKey 3 (((homeDie a * 2 + x.1) * 64 + x.2.1) * 16384 + x.2.2 / 512)) dayTicks
  if s.fld 0 .mod 0 0x78 24 8 ≤ y.2 then y.1.hbmTrigger a else y.1

/-- What a read meets (Table 10.3). -/
def State.hbmReadEvent (s : State) (a : Nat) : HbmEvent → State
  | .none => s
  | .eccCe => (s.hbmCause a 1 0x200 .ce).hbmCeEvent a
  | .eccUe => ((s.hbmCause a 2 0x208 .ucc).hbmPoison a).hbmTrigger a
  | .sbUe => (s.hbmCause a 3 0x208 .ucc).sbLost a
  | .crc => ((s.hbmCause a 4 0x208 .ucc).hbmPoison a).hbmTrigger a
  | .linkCe => s.hbmCause a 5 0x210 .ce
  | .linkUe => ((s.hbmCause a 5 0x210 .ce).hbmCause a 6 0x210 .ucc).hbmPoison a

/-- The stack serves accesses: it is trained and in neither maintenance nor self-refresh (R192, R195, R196). -/
def State.stackOpen (s : State) (a : Nat) : Bool :=
  let w := s.rg (homeDie a) .hbm (hbmPlace a).1 0
  s.isHbm a && s.live (homeDie a) && bitOf w 24 && !bitOf w 25 && !bitOf w 26 && !s.stackHeld (a / 128)

/-- A line and its sideband are read from the stack (R190): a check value that fails with no ECC report is HBM_CRC. -/
def State.hbmRead (s : State) (a : Nat) (ev : HbmEvent) : State :=
  if !s.stackOpen a then s
  else
    let l := s.line (a / 128)
    let e := if ev = .none && !sbPoison l.sb && !l.crcOk then HbmEvent.crc else ev
    (s.sbTouch a false).hbmReadEvent a e

/-- HBM_READ (R190). -/
def execHbmRead (a : Nat) (ev : HbmEvent) (s : State) : Host.Outcome State Fault Refusal := .next (s.hbmRead a ev)

/-- A line and its sideband are written (R188, R190): a parity error on the retry writes them poisoned. -/
def State.hbmWrite (s : State) (a : Nat) (bs : List Byte) (sb : Word) (ev : HbmEvent) : State :=
  if !s.stackOpen a then s
  else
    let s1 := s.sbTouch a true
    let s2 := match ev with
      | .sbUe => s1.hbmReadEvent a .sbUe
      | .linkCe => s1.hbmReadEvent a .linkCe
      | .linkUe => (s1.hbmCause a 5 0x210 .ce).hbmCause a 6 0x210 .ucc
      | _ => s1
    let sb1 := if ev = .linkUe then withBit sb 56 true else sb
    s2.putLine (a / 128) { bytes := padTo 128 bs, sb := sb1 }

/-- HBM_WRITE (R188). -/
def execHbmWrite (a : Nat) (bs : List Byte) (sb : Word) (ev : HbmEvent) (s : State) : Host.Outcome State Fault Refusal :=
  .next (s.hbmWrite a bs sb ev)

/-! ### Refresh (R191) -/

/-- The controller exists on a die that runs. -/
def State.hbmLive (s : State) (d k : Nat) : Bool := s.live d && decide (k < 2)

/-- The 1 ms evaluation of the refresh rate (R191): it rises at once, and falls by one step after ten evaluations in a row 3 K
below the step's threshold; `below` says that the reading stayed there since the evaluation before. -/
def State.refreshEval (s : State) (d k : Nat) (below : Bool) : State :=
  let t := s.fld d .hbm k 0x30 0 8
  let r := s.fld d .hbm k 0 27 2
  let want := if 95 < t then 2 else if 85 < t then 1 else 0
  let thr := if r = 2 then 95 else 85
  let h := s.hbm d k
  if r < want then (s.setFld d .hbm k 0 27 2 want).putHbm d k { h with below := 0 }
  else if r = 0 ∨ below = false ∨ thr < t + 3 then s.putHbm d k { h with below := 0 }
  else if 10 ≤ h.below + 1 then (s.setFld d .hbm k 0 27 2 (r - 1)).putHbm d k { h with below := 0 }
  else s.putHbm d k { h with below := h.below + 1 }

/-- REFRESH_RATE_EVAL (R191). -/
def execRefreshRateEval (d k : Nat) (below : Bool) (s : State) : Host.Outcome State Fault Refusal :=
  .next (if s.hbmLive d k then s.refreshEval d k below else s)

/-- PER_BANK_REFRESH (R191): a refresh is issued on a trained stack that is not in self-refresh; it affects timing only. -/
def execPerBankRefresh (d k pc : Nat) (s : State) : Host.Outcome State Fault Refusal :=
  .next (if s.hbmLive d k && decide (pc < 64) && bitOf (s.rg d .hbm k 0) 24 && !bitOf (s.rg d .hbm k 0) 26 then
    s.updHbm d k (fun h => { h with refreshes := h.refreshes + 1 })
  else s)

/-- Write back the sideband cache (R188): its lines stay, clean. -/
def State.flushSb (s : State) (d k : Nat) : State :=
  s.updHbm d k (fun h => { h with sbCache := h.sbCache.map (fun e => (e.1, false)) })

/-- FLUSH_SB (R188). -/
def execFlushSb (d k : Nat) (s : State) : Host.Outcome State Fault Refusal :=
  .next (if s.hbmLive d k then s.flushSb d k else s)

/-! ### Retirement (R193, R194) -/

/-- Free pool units of a pseudo-channel. -/
def Hbm.freeUnits (h : Hbm) (pc : Nat) : Nat := ((List.range 256).filter (h.poolFree pc)).length

/-- FREE_MIN: the fewest free pool units in any pseudo-channel (Table 10.11). -/
def State.setFreeMin (s : State) (d k : Nat) : State :=
  s.setRg d .hbm k 0x220 (wordOf ((List.range 64).foldl (fun m pc => min m ((s.hbm d k).freeUnits pc)) 255))

/-- HBM_CMD.RETIRE (R194): refused while a command runs; without a free pool unit it sets POOL_EXHAUSTED. A unit number above
15,103 names no unit, and nothing happens. -/
def State.hbmRetire (s : State) (d k pc unit : Nat) : State × Bool :=
  let h := s.hbm d k
  if !s.hbmLive d k then (s, true)
  else if h.cmd.isSome then (s.configBusy d .hbm k, false)
  else if 15103 < unit then (s, true)
  else match (List.range 256).find? (h.poolFree (pc % 64)) with
    | none => (s.setStat d .hbm k (bitMask 16), true)
    | some n => (s.putHbm d k { h with cmd := some (.retire (pc % 64) unit n) }, true)

/-- HBM_RETIRE (R194). -/
def execHbmRetire (d k pc unit : Nat) (s : State) : Host.Outcome State Fault Refusal := .next (s.hbmRetire d k pc unit).1

/-- The copy of a retired unit is complete (R194): lines whose read failed, `bad` by their offset in the unit, are poisoned; the
entry is installed, an older pool unit is marked unusable, and the REPAIR record is due. -/
def State.retireDone (s : State) (d k : Nat) (bad : List Nat) : State :=
  let h := s.hbm d k
  match h.cmd with
  | some (.retire pc u n) =>
    let s0 := forEach (bad.filter (· < 512)) (fun i t => t.hbmReadEvent (hbmAddr d k pc (512 * u + i)) .eccUe) s
    let key := pc * 16384 + u
    let old := smGet 0 h.remap key
    let h1 := { h with cmd := none, remap := smPut 0 h.remap key (n + 1),
                       bad := if old = 0 then h.bad else (pc * 256 + old - 1) :: h.bad }
    let s1 := ((s0.putHbm d k h1).addRg d .hbm k 0x218 1).setFreeMin d k
    let low := decide (h1.freeUnits pc ≤ s.fld d .hbm k 0x20 8 8) && decide (s.fld d .hbm k 0x20 8 8 < h.freeUnits pc)
    (s1.setStat d .hbm k (bitMask 17 ||| (if low then bitMask 15 else 0))).repairDue d
  | _ => s

/-- RETIRE_DONE (R194). -/
def execRetireDone (d k : Nat) (bad : List Nat) (s : State) : Host.Outcome State Fault Refusal :=
  .next (if s.hbmLive d k then s.retireDone d k bad else s)

/-! ### Maintenance, MBIST and IEEE 1500 (R196, R197) -/

/-- HBM_STAT.MAINT. -/
def State.maint (s : State) (d k : Nat) : Bool := bitOf (s.rg d .hbm k 0) 25

/-- HBM_CMD.MAINT_ENTER (R196): the sideband cache is written back and MAINT is set. -/
def State.maintEnter (s : State) (d k : Nat) : State :=
  if s.hbmLive d k then (s.flushSb d k).setFld d .hbm k 0 25 1 1 else s

/-- MAINT_ENTER (R196). -/
def execMaintEnter (d k : Nat) (s : State) : Host.Outcome State Fault Refusal := .next (s.maintEnter d k)

/-- Zero-fill a stack (R195): every line is 128 zero bytes with a valid sideband. -/
def State.zeroStack (s : State) (d k : Nat) : State :=
  let mine (a : Nat) : Bool := decide (a / hbmSlice = d) && decide ((hbmPlace a).1 = k)
  { s with mem := s.mem.filter (fun e => !mine e.1), side := s.side.filter (fun e => !mine (128 * e.1)) }

/-- HBM_CMD.MAINT_EXIT (R196): after an MBIST the stack is zero-filled, then accesses are released; it waits for a command that
runs. -/
def State.maintExit (s : State) (d k : Nat) : State :=
  if !s.hbmLive d k || !s.maint d k || (s.hbm d k).cmd.isSome then s
  else
    let s1 := if (s.hbm d k).wiped then s.zeroStack d k else s
    (s1.updHbm d k (fun h => { h with wiped := false })).setFld d .hbm k 0 25 1 0

/-- MAINT_EXIT (R196). -/
def execMaintExit (d k : Nat) (s : State) : Host.Outcome State Fault Refusal := .next (s.maintExit d k)

/-- HBM_CMD.MBIST (R196): refused outside maintenance, or while a command runs; a reserved pattern starts nothing. -/
def State.doMbist (s : State) (d k pat : Nat) : State × Bool :=
  if !s.hbmLive d k then (s, true)
  else if !s.maint d k || (s.hbm d k).cmd.isSome then (s.configBusy d .hbm k, false)
  else if 2 < pat then (s, true)
  else (s.updHbm d k (fun h => { h with cmd := some (.mbist pat), wiped := true }), true)

/-- MBIST (R196). -/
def execMbist (d k pat : Nat) (s : State) : Host.Outcome State Fault Refusal := .next (s.doMbist d k pat).1

/-- An MBIST ends (R196): `fail` is the pseudo-channel and slot of a failure. -/
def State.mbistDone (s : State) (d k : Nat) (fail : Option (Nat × Nat)) : State :=
  match (s.hbm d k).cmd with
  | some (.mbist _) =>
    let s1 := s.updHbm d k (fun h => { h with cmd := none })
    match fail with
    | none => s1.setStat d .hbm k (bitMask 18)
    | some (pc, slot) =>
      (s1.setStat d .hbm k (bitMask 18 ||| bitMask 19)).fillLog d .hbm k (8 + pc % 64 * 256 + slot % 2 ^ 23 * 2 ^ 14)
  | _ => s

/-- MBIST_DONE (R196). -/
def execMbistDone (d k : Nat) (fail : Option (Nat × Nat)) (s : State) : Host.Outcome State Fault Refusal :=
  .next (if s.hbmLive d k then s.mbistDone d k fail else s)

/-- HBM_1500_CTL.GO (R197): refused outside maintenance or while a command runs; a LEN outside 1–2,048 shifts nothing. -/
def State.shiftGo (s : State) (d k wir len : Nat) : State × Bool :=
  if !s.hbmLive d k then (s, true)
  else if !s.maint d k || (s.hbm d k).cmd.isSome then (s.configBusy d .hbm k, false)
  else
    let s1 := s.setRg d .hbm k 0x38 (wordOf (wir % 65536 + len % 4096 * 65536))
    if len = 0 ∨ 2048 < len then (s1, true) else (s1.updHbm d k (fun h => { h with cmd := some .shift }), true)

/-- HBM_1500_GO (R197). -/
def execHbm1500Go (d k wir len : Nat) (s : State) : Host.Outcome State Fault Refusal := .next (s.shiftGo d k wir len).1

/-- An IEEE 1500 operation ends (R197): the bits shifted out, `out`, replace the LEN bits of HBM_1500_DATA. -/
def State.shiftDone (s : State) (d k out : Nat) : State :=
  if (s.hbm d k).cmd ≠ some .shift then s
  else
    let len := s.fld d .hbm k 0x38 16 12
    let s1 := forEach (List.range 32) (fun i t =>
      let n := min 64 (len - 64 * i)
      if n = 0 then t else t.setFld d .hbm k (0x100 + 8 * i) 0 n (out / 2 ^ (64 * i))) s
    (s1.updHbm d k (fun h => { h with cmd := none })).setFld d .hbm k 0x38 29 1 1

/-- HBM_1500_DONE (R197). -/
def execHbm1500Done (d k out : Nat) (s : State) : Host.Outcome State Fault Refusal :=
  .next (if s.hbmLive d k then s.shiftDone d k out else s)

/-! ### Bring-up and self-refresh (R192, R195, R198) -/

/-- A stack is trained: STACKS_TRAINED, and STAGE 4 once every stack is (Tables 17.1, 17.10). -/
def State.noteTrained (s : State) (d k : Nat) : State :=
  let s1 := s.setFld 0 .mod 0 0x20 (16 + 2 * d + k) 1 1
  if decide (s1.fld 0 .mod 0 0x20 16 16 = 4 ^ s1.nd - 1) && decide (s1.fld 0 .mod 0 0x20 0 4 = 3) then s1.setFld 0 .mod 0 0x20 0 4 4 else s1

/-- A controller brings its stack up (R195): `fails` attempts of a step failed; a second failure is TRAIN_FAIL, and so is a REPAIR
record that was not applied (R198). The remap table is the one the record holds. -/
def State.hbmBringup (s : State) (d k fails : Nat) : State :=
  if !s.hbmLive d k || bitOf (s.rg d .hbm k 0) 24 then s
  else
    let s1 := s.updHbm d k (fun h => { h with fails := fails })
    if 2 ≤ fails ∨ !(s.modc.loaded.any (fun r => r.typ = 0x22 && r.die = d && r.hdrOk && r.hashOk && r.sigOk)) then
      s1.raise d .hbm k 14 .ftl 7
    else (((s1.zeroStack d k).setFld d .hbm k 0 24 1 1).setFreeMin d k).noteTrained d k

/-- HBM_BRINGUP (R195). -/
def execHbmBringup (d k fails : Nat) (s : State) : Host.Outcome State Fault Refusal := .next (s.hbmBringup d k fails)

/-- Entry to self-refresh: the sideband cache is written back (R192). -/
def State.hbmSleep (s : State) (d k : Nat) : State := (s.flushSb d k).setFld d .hbm k 0 26 1 1

/-- Exit from self-refresh: one all-bank refresh, retraining; the contents stay (R192). -/
def State.hbmWake (s : State) (d k : Nat) : State :=
  if bitOf (s.rg d .hbm k 0) 26 then
    (s.updHbm d k (fun h => { h with refreshes := h.refreshes + 1 })).setFld d .hbm k 0 26 1 0
  else s

end Sys2Proof.Machine
end

