-- ==== Sys2Proof/Machine/Records.lean ====
section
/-! DEFINITION. Flash records: their checks (R301–R306), the payloads the module reads and writes (Tables 17.3, 23.4), and the log of
SEC (R304, R312). The layouts that the manual does not state are DESIGN CHOICEs (log entry 21). -/

namespace Sys2Proof.Machine

/-! ### Checks (R303–R306) -/

/-- SEC_ELOG of a cause (Table 17.8). -/
def secLog (cause typ check : Nat) : Nat := cause + typ % 65536 * 256 + check % 8 * 2 ^ 24

/-- SEC logs a cause of a record on a die: 1 BOOT_FAIL … 5 RPMB_FAIL (Tables 17.7, 17.8). -/
def State.secRaise (s : State) (d cause typ check : Nat) (c : Cls) : State := s.raise d .sec 0 (7 + cause) c (secLog cause typ check)

/-- The types of Table 17.3. -/
def recTypes : List Nat := [1, 2, 3, 0x10, 0x11, 0x12, 0x20, 0x21, 0x22, 0x30]

/-- A field-written type (R305, R306). -/
def fieldType (t : Nat) : Bool := t = 0x21 || t = 0x22

/-- The ROOT_KEY record stands in the flash and its key hash equals the ROM's (R302). -/
def ModCtl.rootOk (m : ModCtl) : Bool := m.flash.any (fun r => r.typ = 1 && r.hdrOk && r.hashOk && r.sigOk)

/-- Key of the stored SEQ of a type and die (R305). -/
def seqOf (t d : Nat) : Nat := t * 256 + d

/-- The lowest CHECK of Table 17.8 that a record fails, in the order header, PHASH, signature, SERIAL, SVN, SEQ (R303; the order is a
DESIGN CHOICE, log entry 22). A SERIAL is not checked while the module knows none. -/
def ModCtl.check (m : ModCtl) (r : FlashRec) : Option Nat :=
  let cur := smGet 0 m.curSeq (seqOf r.typ r.die)
  if !(r.hdrOk && recTypes.contains r.typ) then some 6
  else if !r.hashOk then some 1
  else if !r.sigOk || (r.typ ≠ 1 && !m.rootOk) then some 2
  else if r.serial ≠ 0 && (match m.serial with | some x => decide (r.serial ≠ x) | none => false) then some 5
  else if r.svn < smGet 0 m.minSvn r.typ then some 3
  else if fieldType r.typ && r.seq ≠ cur && r.seq ≠ cur + 1 then some 4
  else none

/-- A record failed (R304): its action's cause and class, and ROLLBACK where its SVN is too low (R305). -/
def State.recFails (s : State) (d cause typ check : Nat) (c : Cls) : State :=
  let s1 := if check = 3 then s.secRaise d 3 typ 3 .ucc else s
  s1.secRaise d cause typ check c

/-- A record is loaded: it is measured in load order, and the higher SEQ of a field record is stored (R303, R306). -/
def State.loadRec (s : State) (r : FlashRec) : State :=
  s.updMod (fun m => { m with
    loaded := m.loaded ++ [r],
    curSeq := if fieldType r.typ && decide (smGet 0 m.curSeq (seqOf r.typ r.die) < r.seq) then smPut 0 m.curSeq (seqOf r.typ r.die) r.seq
              else m.curSeq })

/-- Records of a type for a die, or for the module. -/
def ModCtl.recs (m : ModCtl) (t d : Nat) : List FlashRec := m.flash.filter (fun r => r.typ = t && (r.die = d || r.die = 255))

/-- The active slot of a firmware type (R305). -/
def ModCtl.activeSlot (m : ModCtl) (t : Nat) : Nat := smGet 0 m.slot t

/-- The slots of a firmware type in the order in which they are tried: a pending slot first (R310). -/
def ModCtl.slots (m : ModCtl) (t : Nat) : List Nat :=
  let a := m.activeSlot t
  if m.pendUpd.contains (t + 65536) then [1 - a, a] else [a, 1 - a]

/-- What loading the first record of a list that passes finds: the record, or none, and the CHECK of the first failure. -/
def ModCtl.pick (m : ModCtl) (rs : List FlashRec) : Option FlashRec × Option Nat :=
  (rs.find? (fun r => (m.check r).isNone), (match rs with | [] => some 6 | r :: _ => m.check r))

/-- Firmware of a type for a die: one record a slot, in the order tried. -/
def ModCtl.firmware (m : ModCtl) (t d : Nat) : Option FlashRec × Option Nat :=
  m.pick ((m.slots t).filterMap (fun k => (m.recs t d).find? (fun r => r.slot = k)))

/-- The field or factory record of a type for a die: SEQ one above the stored value first (R306). -/
def ModCtl.field (m : ModCtl) (t d : Nat) : Option FlashRec × Option Nat :=
  let cur := smGet 0 m.curSeq (seqOf t d)
  let rs := (m.flash.filter (fun r => r.typ = t && r.die = d))
  m.pick (rs.filter (fun r => r.seq = cur + 1) ++ rs.filter (fun r => r.seq ≠ cur + 1))

/-! ### Field records (R306) -/

/-- Write a field record with the current SEQ plus one into the slot not in use, and advance the stored SEQ (R306). -/
def State.fieldWrite (s : State) (t d : Nat) (pay : List Byte) : State :=
  s.updMod (fun m =>
    let cur := smGet 0 m.curSeq (seqOf t d)
    let used := ((m.flash.find? (fun r => r.typ = t && r.die = d && r.seq = cur)).map (·.slot)).getD 1
    let r : FlashRec := { typ := t, die := d, slot := 1 - used, svn := smGet 0 m.minSvn t, seq := cur + 1, serial := m.serial.getD 0,
                          meas := leBytes 32 (Config.measure t d (cur + 1) pay).toNat, pay := pay }
    { m with flash := m.flash.filter (fun x => !(x.typ = t && x.die = d && x.slot = 1 - used)) ++ [r],
             curSeq := smPut 0 m.curSeq (seqOf t d) (cur + 1) })

/-! ### VF_TABLES: 25 bytes a physical cluster, FMAX and 24 entries of CODE [4:0] and tag [5] (log entry 21) -/

/-- Payload of a die's VF_TABLES record: lowered maxima, cleared tags; an excluded entry keeps its code and tag (R346). -/
def State.vfPayload (s : State) (d : Nat) : List Byte :=
  allPhys.flatMap (fun p =>
    BitVec.ofNat 8 (s.fmax d p) :: (List.range 24).map (fun e => BitVec.ofNat 8 (smGet 0 (s.ph d p).vf e)))

/-- Load a cluster's table: FMAX 8 to 19, N 8, and the rail at its code. -/
def State.vfLoad (s : State) (d p : Nat) (pay : List Byte) : State :=
  let bs := (pay.drop (25 * p)).take 25
  let vf := (List.range 24).foldl (fun m e => smPut 0 m e (leAt bs (e + 1) 1 % 64)) []
  let s1 := s.updPh d p (fun x => { x with vf := vf })
  let s2 := (s1.setFld d .clk 0 (clPage p) 0 5 8).setFld d .clk 0 (clPage p) 5 5 (max 8 (min 19 (leAt bs 0 1)))
  s2.setFld d .pwr 0 (clPage p) 0 5 (min 24 ((s1.ph d p).rail 0))

/-- Without VF_TABLES a cluster runs at 470 MHz at its highest factory voltage (R304). -/
def State.vfMissing (s : State) (d p : Nat) : State :=
  let c := (Config.factoryCode (d * 64 + p)).val
  ((s.setFld d .clk 0 (clPage p) 0 5 8).setFld d .clk 0 (clPage p) 5 5 8).setFld d .pwr 0 (clPage p) 0 5 c

/-! ### REPAIR (Table 23.4); the HBM part by log entry 21 -/

/-- CLMAP of a physical cluster. -/
def State.clMap (s : State) (d p : Nat) : Nat :=
  let l := s.logical d p
  if l < 48 then l else 0x3F + (if (s.ph d p).retired then 0x80 else 0x40)

/-- The items of R198 for a stack. -/
def Hbm.items (h : Hbm) (retired : Nat) : List Byte :=
  leBytes 4 h.remap.length ++ h.remap.flatMap (fun e => leBytes 4 e.1 ++ leBytes 4 e.2) ++
    leBytes 4 h.bad.length ++ h.bad.flatMap (leBytes 4) ++ leBytes 8 retired

/-- Payload of a die's REPAIR record. -/
def State.repairPayload (s : State) (d : Nat) : List Byte :=
  allPhys.map (fun p => BitVec.ofNat 8 (s.clMap d p)) ++
    allPhys.map (fun p => BitVec.ofNat 8 (31 - s.fld d .pwr 0 (clPage p) 5 5)) ++
    leBytes 8 ((List.range 48).foldl (fun n l => if s.modc.absent.contains (d * 64 + l) then n + 2 ^ l else n) 0) ++
    (List.range 32).flatMap (fun k =>
      leBytes 2 (s.fld d .cel 0 (spareOff k) 1 10 + s.fld d .cel 0 (spareOff k) 0 1 * 32768)) ++
    (List.range 4).flatMap (fun p => leBytes 4 (s.fld d .mac p 0x50 0 8)) ++ List.replicate 64 0 ++
    (List.range 2).flatMap (fun k => (s.hbm d k).items (s.rg d .hbm k 0x218).toNat)

/-- `n` numbers of `w` bytes. -/
def nums (w : Nat) (bs : List Byte) (n : Nat) : List Nat := (List.range n).map (fun i => leAt bs (w * i) w)

/-- Load the items of a stack from the front of a byte string; the second part is what follows them. -/
def State.loadItems (s : State) (d k : Nat) (bs : List Byte) : State × List Byte :=
  let n := min (leAt bs 0 4) 16384
  let b1 := bs.drop 4
  let remap := (List.range n).foldl (fun m i => smPut 0 m (leAt b1 (8 * i) 4) (leAt b1 (8 * i + 4) 4)) []
  let b2 := b1.drop (8 * n)
  let m := min (leAt b2 0 4) 16384
  let b3 := b2.drop (4 + 4 * m)
  let s1 := s.updHbm d k (fun h => { h with remap := remap, bad := nums 4 (b2.drop 4) m })
  (s1.setRg d .hbm k 0x218 (wordOf (leAt b3 0 8)), b3.drop 8)

/-- Load a physical cluster's place and its disabled phases: a spare or retired cluster is dark (R390). -/
def State.loadCluster (s : State) (d p : Nat) (pay : List Byte) : State :=
  let b := leAt pay p 1
  let ok := 31 - leAt pay (52 + p) 1 % 32
  let serving := decide (b / 64 = 0 ∧ b % 64 < 48)
  let s1 := (s.setLogical d p (if serving then b % 64 else 0x3F)).updPh d p (fun x => { x with retired := decide (b / 64 = 2) })
  let s2 := (s1.setFld d .pwr 0 (clPage p) 5 5 ok).setRailSt d p (if serving then 0 else 3)
  s2.setFld d .pwr 0 (clPage p) 12 1 (b2n (decide (popcount ok 5 = 3)))

/-- Load a die's REPAIR record: cluster map, banks, lanes and stacks (R198, R303). -/
def State.loadRepair (s : State) (d : Nat) (pay : List Byte) : State :=
  let s1 := forEach allPhys (fun p t => t.loadCluster d p pay) s
  let s2 := s1.updMod (fun m => { m with
    absent := m.absent.filter (fun x => x / 64 ≠ d) ++ (onesOf (leAt pay 104 8) 48).map (fun l => d * 64 + l) })
  let s3 := forEach (List.range 32) (fun k t =>
    let x := leAt pay (112 + 2 * k) 2
    t.setRg d .cel 0 (spareOff k) (wordOf (x / 32768 + x % 1024 * 2))) s2
  let s4 := forEach (List.range 4) (fun p t =>
    let x := leAt pay (176 + 4 * p) 1
    ((t.setFld d .mac p 0x50 0 8 x).setFld d .mac p 0 17 1 (b2n (x % 16 ≠ 15))).setFld d .mac p 0 18 1 (b2n (x / 16 ≠ 15))) s3
  let x := s4.loadItems d 0 (pay.drop 256)
  (x.1.loadItems d 1 x.2).1

end Sys2Proof.Machine
end

