-- ==== Sys2Proof/Machine/Boot.lean ====
section
/-! DEFINITION. Start-up and the security commands (R297–R312). -/

namespace Sys2Proof.Machine

/-! ### Reset (R298, R299, Table 17.1) -/

/-- Set MOD_BOOT.STAGE (Table 17.10). -/
def State.setStage (s : State) (v : Nat) : State := s.setFld 0 .mod 0 0x20 0 4 v

/-- MOD_BOOT.STAGE. -/
def State.stage (s : State) : Nat := s.fld 0 .mod 0 0x20 0 4

/-- Everything but the flash, the replay-protected area and the model's own fields returns to its reset value; the dies and the module
controller are held (R298). -/
def State.coreReset (s : State) : State :=
  let m := s.modc
  let m1 : ModCtl := { good := m.good, slotId := m.slotId, flash := m.flash, boots := m.boots, minSvn := m.minSvn, curSeq := m.curSeq,
                       slot := m.slot, pendUpd := m.pendUpd, require := m.require, failedDies := m.failedDies }
  { State.resetOf s.part with pending := s.pending, tick := s.tick, free := s.free, out := s.out, errnStuck := s.errnStuck, modc := m1 }

/-- RST_N falls: every die and the module controller are held in reset (R298). -/
def State.rstFall (s : State) : State := s.coreReset.updMod (fun m => { m with rstLow := true })

/-- RST_N_FALL (R298). -/
def execRstNFall (s : State) : Host.Outcome State Fault Refusal := .next s.rstFall

/-- A pending firmware slot that was tried and did not reach READY is given up: the previous slot boots, FALLBACK (R310). Every other
pending slot is tried in this start; a type marked 2^16 higher is one that is being tried. -/
def State.pendStart (s : State) : State :=
  let old := s.modc.pendUpd
  let tried := (old.filter (fun t => 65536 ≤ t)).map (· - 65536)
  let new := (old.filter (fun t => t < 65536)).filter (fun t => !tried.contains t)
  forEach tried (fun t u => u.secRaise 0 4 t 0 .ce) (s.updMod (fun m => { m with pendUpd := new.map (· + 65536) }))

/-- Load a firmware type for a die: FALLBACK where the first slot fails (R304). The second part is the slot that runs. -/
def State.loadFirmware (s : State) (t d logDie : Nat) : State × Option Nat :=
  match s.modc.firmware t d with
  | (none, _) => (s, none)
  | (some r, e) =>
    let s1 := s.loadRec r
    match e with
    | none => (s1, some r.slot)
    | some k => ((s1.recFails logDie 4 t k .ce).updMod (fun m => { m with pendUpd := m.pendUpd.filter (· ≠ t + 65536) }), some r.slot)

/-- Load the one record of a module type: RECORD_FAIL where it is wanted or present and fails (R304). -/
def State.loadOne (s : State) (t : Nat) (wanted : Bool) : State × Option FlashRec :=
  let rs := s.modc.recs t 255
  match s.modc.pick rs with
  | (some r, _) => (s.loadRec r, some r)
  | (none, e) => if wanted || !rs.isEmpty then (s.recFails 0 2 t (e.getD 6) .ucc, none) else (s, none)

/-- The module's records at t1 (Table 17.1): ROOT_KEY, OWNER_KEY, OWNER_POLICY, IDENTITY; the serial number is that of IDENTITY. -/
def State.loadModule (s : State) : State :=
  let ident := (s.modc.recs 0x30 255).head?
  let s0 := s.updMod (fun m => { m with serial := ident.map (fun r => leAt r.pay 0 8) })
  let s1 := (s0.loadOne 1 false).1
  let x2 := s1.loadOne 2 false
  let s2 := match x2.2 with
    | some r => ((x2.1.updMod (fun m => { m with owner := some (leAt r.pay 0 32) })).setFld 0 .sec 0 0 17 1 1)
    | none => x2.1
  let s3 := (s2.loadOne 3 false).1
  let x4 := s3.loadOne 0x30 true
  if x4.2.isSome then x4.1 else x4.1.updMod (fun m => { m with serial := none })

/-- Start-up from t0 to t2 (R298, Table 17.1): the controller's firmware runs, the module's records are verified, and the converters
start. `slot` is SLOT_ID as sampled, `recs` the flash as it is found where it is not the one left before, `mcBad` a failed test of
the controller's own paths (R383). -/
def State.startUp (s : State) (slot : Nat) (recs : List FlashRec) (mcBad : Bool) : State :=
  let s0 := s.coreReset.updMod (fun m => { m with
    good := true, rstLow := false, slotId := slot % 8, flash := if recs.isEmpty then m.flash else recs, boots := m.boots + 1 })
  let x := s0.pendStart.loadFirmware 0x10 255 0
  match x.2 with
  | none => x.1.recFails 0 1 0x10 (((x.1.modc.firmware 0x10 255).2).getD 6) .ftl
  | some _ =>
    let s1 := (x.1.setStage 1).loadModule
    let s2 := if mcBad then s1.modRaise 22 0xC 0 0 .ftl else s1
    (s2.updMod (fun m => { m with plane := true })).setStage 2

/-- START_UP (R298). -/
def execStartUp (slot : Nat) (recs : List FlashRec) (mcBad : Bool) (s : State) : Host.Outcome State Fault Refusal :=
  .next (s.startUp slot recs mcBad)

/-- A stage misses its bound: STAGE 0xF and BOOT_FAIL (R299). -/
def State.stageTimeout (s : State) : State :=
  if s.modc.good && !s.modc.rstLow && decide (s.stage ≠ 15) && !bitOf (s.rg 0 .mod 0 0x20) 4 then
    (s.setStage 15).secRaise 0 1 0 7 .ftl
  else s

/-- BOOT_STAGE_TIMEOUT (R299). -/
def execBootStageTimeout (s : State) : Host.Outcome State Fault Refusal := .next s.stageTimeout

/-! ### Release of a die (R303, R304, R383) -/

/-- A record without which a die is not released fails (R304): BOOT_FAIL; none of those given fails otherwise. -/
def State.needRec (s : State) (d t : Nat) (x : Option FlashRec × Option Nat) : State × Bool :=
  match x with
  | (some r, _) => (s.loadRec r, true)
  | (none, e) => (s.recFails d 1 t (e.getD 6) .ftl, false)

/-- A physical cluster fails its tests at start (R383): SELFTEST_CL; a spare takes its logical number, which is marked absent where
none is free (R16, R392). -/
def State.badCluster (s : State) (d p : Nat) : State :=
  let l := s.logical d p
  let s1 := ((s.raise d .saf 0 12 .ucc (5 + p * 256)).updPh d p (fun x => { x with retired := true })).setRailSt d p 3
  let s2 := (s1.setLogical d p 0x3F).repairDue d
  if 48 ≤ l then s2
  else match s2.freeSpare d with
  | some k => (((s2.setLogical d k l).setRailSt d k 0)).modRaise 17 8 d l .ce
  | none => (s2.noSpare d l).updMod (fun m => { m with absent := m.absent ++ [d * 64 + l] })

/-- MAC addresses of a die's ports from IDENTITY: bytes 8 + 6 × module port (log entry 21); zero without one (R304). -/
def State.loadMac (s : State) (d : Nat) : State :=
  match s.modc.loaded.find? (fun r => r.typ = 0x30) with
  | none => s
  | some r => forEach (List.range 4) (fun p t =>
      let v := wordOf (leAt r.pay (8 + 6 * modPort d p) 6)
      let a := regAddr d .mac p 0x30
      (t.setReg a v).setShad a v) s

/-- A die starts its firmware (Table 17.1, t3): its PLL is locked, its port is enabled, DIES_BOOTED, and STAGE 3 with the last. -/
def State.dieStarts (s : State) (d slot : Nat) : State :=
  let s1 := (s.updDie d (fun x => { x with up := true })).loadMac d
  let s2 := (s1.setFld d .clk 0 0 16 1 1).setFld d .sec 0 0 18 1 slot
  let s3 := if s2.linkDies.contains d then
      let a := regAddr d .agl 0 0x20
      (s2.setReg a (withBit (s2.reg a) 0 true)).setShad a (withBit (s2.shad a) 0 true)
    else s2
  let s4 := s3.setFld 0 .mod 0 0x20 (8 + d) 1 1
  if decide (s4.fld 0 .mod 0 0x20 8 8 = 2 ^ s4.nd - 1) && decide (s4.stage = 2) then s4.setStage 3 else s4

/-- VF_TABLES of a die (R304, R343). -/
def State.loadVf (s : State) (d : Nat) : State :=
  match s.modc.field 0x21 d with
  | (some r, _) => forEach allPhys (fun p t => t.vfLoad d p r.pay) (s.loadRec r)
  | (none, e) => forEach allPhys (fun p t => t.vfMissing d p) (s.recFails d 2 0x21 (e.getD 6) .ucc)

/-- Each die's ROM verifies its records and starts its firmware (Table 17.1, t3). `clk` says that REFCLK is present, `bad` names the
physical clusters whose tests failed, and `dieBad` says that a mechanism of the whole die failed (R383). -/
def State.dieRelease (s : State) (d : Nat) (clk : Bool) (bad : List Nat) (dieBad : Bool) : State :=
  if !(decide (d < s.nd) && decide (s.stage = 2) && s.modc.plane && !(s.die d).up && !s.modc.rstLow) then s
  else if !clk then s.updMod (fun m => { m with refclk := false })
  else
    let x := s.loadFirmware 0x11 d d
    match x.2 with
    | none => s.recFails d 1 0x11 (((s.modc.firmware 0x11 d).2).getD 6) .ftl
    | some slot =>
      let t1 := x.1.needRec d 0x20 (x.1.modc.pick (x.1.modc.recs 0x20 d))
      let t2 := t1.1.needRec d 0x12 (t1.1.modc.pick (t1.1.modc.recs 0x12 d))
      let rep := t2.1.modc.field 0x22 d
      let t3 := t2.1.needRec d 0x22 rep
      if !(t1.2 && t2.2 && t3.2) then t3.1
      else if t3.1.modc.failedDies.contains d then t3.1.secRaise d 1 0x22 0 .ftl
      else
        let t4 := (t3.1.loadRepair d ((rep.1.getD {}).pay)).loadVf d
        let t5 := forEach (bad.filter (· < 52)) (fun p t => t.badCluster d p) t4
        if dieBad then t5.raise d .saf 0 13 .ftl 6 else t5.dieStarts d slot

/-- DIE_RELEASE (R303). -/
def execDieRelease (d : Nat) (clk : Bool) (bad : List Nat) (dieBad : Bool) (s : State) : Host.Outcome State Fault Refusal :=
  .next (s.dieRelease d clk bad dieBad)

/-- Every die of the part has booted, every stack is trained and every port is UP (R299). -/
def State.allReady (s : State) : Bool :=
  s.allDies.all (fun d => s.live d && bitOf (s.rg d .hbm 0 0) 24 && bitOf (s.rg d .hbm 1 0) 24) &&
    s.linkDies.all (fun d => s.lkState d = lkUp)

/-- The module is ready (R299): STAGE 6, READY; a pending slot that booted becomes active (R310). -/
def State.moduleReady (s : State) : State :=
  if s.allReady && decide (s.stage ≠ 15) then
    let s1 := (s.setStage 6).setFld 0 .mod 0 0x20 4 1 1
    forEach ((s1.modc.pendUpd.filter (fun t => 65536 ≤ t)).map (· - 65536)) (fun t u =>
      let ran := ((u.modc.loaded.find? (fun r => r.typ = t)).map (·.slot)).getD (u.modc.activeSlot t)
      u.updMod (fun m => { m with slot := smPut 0 m.slot t ran, pendUpd := m.pendUpd.filter (· ≠ t + 65536) })) s1
  else s

/-- MODULE_READY (R299). -/
def execModuleReady (s : State) : Host.Outcome State Fault Refusal := .next s.moduleReady

/-! ### Security commands (R307–R311) -/

/-- CMD_BUSY (Table 17.7). -/
def State.secBusy (s : State) : Bool := s.modc.sec.isSome

/-- A command starts to run (R311). -/
def State.secStart (s : State) (op : Nat) : State :=
  (s.updMod (fun m => { m with sec := some (op, none) })).setFld 0 .sec 0 0 16 1 1

/-- A store to SEC_CMD (R311): refused while a command runs. -/
def State.secCmd (s : State) (op : Nat) : State × Bool :=
  if s.secBusy then (s.configBusy 0 .sec 0, false)
  else if op = 0 ∨ 4 < op then ((s.secStart op).updMod (fun m => { m with sec := some (op, some (1, 0)) }), true)
  else (s.secStart op, true)

/-- A command's work is done: its code and the bytes it wrote. -/
def State.secCode (s : State) (op code len : Nat) : State := s.updMod (fun m => { m with sec := some (op, some (code, len)) })

/-- Run a command that is given or has been stored: refused while another runs (R311). -/
def State.secRun (s : State) (op : Nat) (f : State → State) : State :=
  if !s.live 0 then s
  else if s.modc.sec = some (op, none) then f s
  else if s.secBusy then s.configBusy 0 .sec 0
  else f (s.secStart op)

/-- The code with which a record given to a command fails (Table 17.6). -/
def ModCtl.cmdCode (m : ModCtl) (r : FlashRec) : Option Nat :=
  match m.check r with
  | some 3 => some 3
  | some 5 => some 4
  | some 4 => none
  | some _ => some 2
  | none => none

/-- A record in a slot of its type takes the place of the one there. -/
def ModCtl.store (m : ModCtl) (r : FlashRec) : ModCtl :=
  { m with flash := m.flash.filter (fun x => !(x.typ = r.typ && x.die = r.die && x.slot = r.slot)) ++ [r] }

/-- ROLLBACK of a record that a command refuses for its SVN (R305). -/
def State.secRefuse (s : State) (op code typ : Nat) : State :=
  (if code = 3 then s.secRaise 0 3 typ 3 .ucc else s).secCode op code 0

/-- UPDATE (R310): the record read from the host, none where the read failed; `wr` says that the flash took the write. -/
def State.doUpdate (s : State) (rec : Option FlashRec) (wr : Bool) : State :=
  let typ := s.fld 0 .sec 0 0x30 32 16
  if (typ ≠ 0x10 ∧ typ ≠ 0x11) ∨ s.fld 0 .sec 0 0x30 0 32 < 128 then s.secCode 1 1 0
  else match rec with
  | none => s.secCode 1 6 0
  | some r =>
    if r.typ ≠ typ then s.secCode 1 1 0
    else match s.modc.cmdCode r with
    | some c => s.secRefuse 1 c typ
    | none =>
      if !wr then s.secCode 1 5 0
      else
        let s1 := s.updMod (fun m => { (m.store { r with slot := 1 - m.activeSlot typ }) with
          pendUpd := m.pendUpd.filter (· ≠ typ) ++ [typ] })
        s1.secCode 1 0 0

/-- UPDATE (R310). -/
def execUpdate (rec : Option FlashRec) (wr : Bool) (s : State) : Host.Outcome State Fault Refusal :=
  .next (s.secRun 1 (fun t => t.doUpdate rec wr))

/-- The SVN of the record in the active slot of a firmware type. -/
def ModCtl.activeSvn (m : ModCtl) (t : Nat) : Nat :=
  (m.flash.filter (fun r => r.typ = t && r.slot = m.activeSlot t)).foldl (fun n r => max n r.svn) 0

/-- COMMIT (R310): each type's minimum SVN rises to that of its active slot; `wr` says that the replay-protected area took the
write (R305). -/
def State.doCommit (s : State) (wr : Bool) : State :=
  let up := [0x10, 0x11].filter (fun t => smGet 0 s.modc.minSvn t < s.modc.activeSvn t)
  if up.isEmpty then s.secCode 2 7 0
  else if !wr then (s.secRaise 0 5 0 0 .ucc).secCode 2 5 0
  else (s.updMod (fun m => { m with minSvn := up.foldl (fun x t => smPut 0 x t (m.activeSvn t)) m.minSvn })).secCode 2 0 0

/-- COMMIT (R310). -/
def execCommit (wr : Bool) (s : State) : Host.Outcome State Fault Refusal := .next (s.secRun 2 (fun t => t.doCommit wr))

/-- Entry of an attestation report (Table 17.5). -/
def attEntry (r : FlashRec) : List Byte :=
  leBytes 2 r.typ ++ leBytes 1 r.die ++ leBytes 1 r.slot ++ leBytes 4 r.svn ++ leBytes 4 r.seq ++ List.replicate 20 0 ++ padTo 32 r.meas

/-- The records that a report names: at most 128 (Table 17.5). -/
def ModCtl.measured (m : ModCtl) : List FlashRec := m.loaded.take 128

/-- The attestation report, closed with the identity key's signature (Table 17.5). -/
def State.attReport (s : State) (nonce sig : List Byte) : List Byte :=
  let m := s.modc
  leBytes 4 0x4C4B4154 ++ leBytes 2 m.measured.length ++ leBytes 2 1 ++ leBytes 4 m.boots ++ leBytes 4 0 ++ leBytes 8 (m.serial.getD 0) ++
    padTo 32 nonce ++ leBytes 8 (s.time 0) ++ leBytes 32 (m.owner.getD 0) ++ List.replicate 32 0 ++ m.measured.flatMap attEntry ++
    padTo 384 sig

/-- Write bytes at a host-window address: whole lines, and masked stores at the ends (R288). -/
def State.putHost (s : State) (a : Nat) (bs : List Byte) : State :=
  forEach (byteRuns a bs.length) (fun x t =>
    let b := (bs.drop x.1).take x.2
    if x.2 = 128 then (t.hostWrite 0 (a + x.1) none (mkLine b 0 0 0) .sec).1
    else
      let p := placed ((a + x.1) % 128) b
      (t.hostMerge 0 0 2 ((a + x.1) / 128 * 128) p.2 p.1 .sec).1) s

/-- ATTEST (R309): `nonce` as the host returns it, none where the read failed; `sig` the identity key's signature; `wr` says that the
report's writes were answered OK. -/
def State.doAttest (s : State) (nonce : Option (List Byte)) (sig : List Byte) (wr : Bool) : State :=
  let n := 512 + 64 * s.modc.measured.length
  if s.modc.serial.isNone then s.secCode 3 7 0
  else if s.fld 0 .sec 0 0x30 0 32 < n then s.secCode 3 1 0
  else match nonce with
  | none => s.secCode 3 6 0
  | some x =>
    let s1 := s.putHost ((s.rg 0 .sec 0 0x40).toNat % 2 ^ 48) (s.attReport x sig)
    if wr then s1.secCode 3 0 n else s1.secCode 3 6 0

/-- ATTEST (R309). -/
def execAttest (nonce : Option (List Byte)) (sig : List Byte) (wr : Bool) (s : State) : Host.Outcome State Fault Refusal :=
  .next (s.secRun 3 (fun t => t.doAttest nonce sig wr))

/-- The minimum SVNs of an OWNER_POLICY payload, six bytes each after its flag byte (log entry 21): they only raise those stored. -/
def raiseSvn (pay : List Byte) (m : List (Nat × Nat)) : List (Nat × Nat) :=
  (List.range ((pay.length - 1) / 6)).foldl (fun x i =>
    let t := leAt pay (1 + 6 * i) 2
    smPut 0 x t (max (smGet 0 x t) (leAt pay (3 + 6 * i) 4))) m

/-- An accepted OWNER_KEY or OWNER_POLICY is installed (R307). -/
def State.ownerPut (s : State) (r : FlashRec) : State :=
  let s1 := s.updMod (fun m => m.store { r with slot := 0 })
  if r.typ = 2 then (s1.updMod (fun m => { m with owner := some (leAt r.pay 0 32) })).setFld 0 .sec 0 0 17 1 1
  else s1.updMod (fun m => { m with require := decide (leAt r.pay 0 1 % 2 = 1), minSvn := raiseSvn r.pay m.minSvn })

/-- OWNER_INSTALL (R307): the record as the host returns it, none where the read failed. An OWNER_KEY must name the module's SERIAL; a
policy needs an owner key. -/
def State.doOwner (s : State) (rec : Option FlashRec) (wr : Bool) : State :=
  match rec with
  | none => s.secCode 4 6 0
  | some r =>
    if r.typ ≠ 2 ∧ r.typ ≠ 3 then s.secCode 4 1 0
    else match s.modc.cmdCode r with
    | some c => s.secRefuse 4 c r.typ
    | none =>
      if r.typ = 2 && decide (some r.serial ≠ s.modc.serial) then s.secCode 4 4 0
      else if r.typ = 3 && s.modc.owner.isNone then s.secCode 4 2 0
      else if !wr then s.secCode 4 5 0
      else (s.ownerPut r).secCode 4 0 0

/-- OWNER_INSTALL (R307). -/
def execOwnerInstall (rec : Option FlashRec) (wr : Bool) (s : State) : Host.Outcome State Fault Refusal :=
  .next (s.secRun 4 (fun t => t.doOwner rec wr))

/-- A command ends (R311): SEC_RESULT, and CMD_DONE or CMD_ERR. -/
def State.secEnd (s : State) : State :=
  match s.modc.sec with
  | some (_, some (code, len)) =>
    let s1 := ((s.updMod (fun m => { m with sec := none })).setFld 0 .sec 0 0 16 1 0).setRg 0 .sec 0 0x38 (wordOf (code + len * 2 ^ 32))
    s1.setStat 0 .sec 0 (bitMask (if code = 0 then 13 else 14))
  | _ => s

/-- SEC_COMMAND_END (R311). -/
def execSecCommandEnd (s : State) : Host.Outcome State Fault Refusal := .next s.secEnd

end Sys2Proof.Machine
end

