-- ==== Sys2Proof/Machine/StopOps.lean ====
section
/-! DEFINITION. What takes part of the block away: a cluster that goes dark (R334), a die or the module that stops in order (R384,
R385). -/

namespace Sys2Proof.Machine

/-! ### Dark clusters (R334) -/

/-- A step that runs on a logical cluster ends without completing (R59, R334); cause and words of the trap are free values. -/
def State.darkStep (s : State) (f : Flight) (l : Nat) : State :=
  let x := Config.darkTrap s.free
  ((s.fresh).failFlight f.id).trap f.c (f.det s x.1.toNat l 0 0 x.2.1.toNat x.2.2.toNat)

/-- Every step that runs on a logical cluster ends (R334). -/
def State.darkSteps (s : State) (d l : Nat) : State :=
  forEach (s.flights.filter (fun f => f.d = d && !f.failed && (f.onArrays l || f.onCvu l))) (fun f t => t.darkStep f l) s

/-- A physical cluster goes dark: its rail is off, its change is abandoned, and the steps on it end (R334). -/
def State.goDark (s : State) (d p : Nat) : State :=
  let s1 := (s.setRailSt d p 3).updPh d p (fun x => { x with target := none, next := none, deferred := none, latched := false, stretch := false })
  let s2 := s1.updDie d (fun x => { x with onReq := x.onReq.filter (fun e => e.1 ≠ p) })
  if s2.logical d p < 48 then s2.darkSteps d (s2.logical d p) else s2

/-- The cluster is the spare of the running switch-in. -/
def State.isSwitchSpare (s : State) (d p : Nat) : Bool :=
  match s.modc.sw with
  | some (e, _, _, k, _, _) => decide ((e, k) = (d, p))
  | none => false

/-- A cluster rail is switched off (R333, R348): RAIL_LOST, and the cluster goes dark. A spare that is being switched in is given up
(R390); another cluster calls for a spare (R389). -/
def State.railLost (s : State) (d p ph : Nat) : State :=
  let s1 := (s.raise d .pwr 0 10 .ucc (3 + p * 256 + ph * 16384)).goDark d p
  if s1.isSwitchSpare d p then s1.spareFailed else s1.physTrigger d p

/-! ### Stopping in order (R384, R385) -/

/-- Every context that runs stops on every die (Table 22.4, t1). -/
def State.stopContexts (s : State) : State :=
  forEach s.allDies (fun d t => forEach (List.range 8) (fun c u =>
    if (u.ctx d c).st = .running then u.updCtx d c (fun x => { x with st := .stopped }) else u) t) s

/-- The steps and buckets of a die end without completing (Table 22.4, t2). -/
def State.stopWork (s : State) (d : Nat) : State :=
  let s1 := forEach (List.range 8) (fun c t => t.abandonCtx d c) s
  forEach ((s1.flights.filter (fun f => f.d = d)).map (·.id)) (fun i t => (t.failFlight i).dropFlight i) s1

/-- The ports of a die go DOWN (Table 22.4, t2). -/
def State.stopPorts (s : State) (d : Nat) : State :=
  let s1 := forEach (List.range 8) (fun p t => if t.portUp d p then t.portDown d p else t) s
  if s1.linkDies.contains d && s1.lkState d ≠ lkDown then s1.linkDown d else s1

/-- Contents of the HBM and the Cellar of a die are lost (Table 22.4, t3). -/
def State.loseMemory (s : State) (d : Nat) : State :=
  let gone (a : Nat) : Bool :=
    (decide (d * hbmSlice ≤ a) && decide (a < (d + 1) * hbmSlice)) || (inCelWindow a && decide (celDie a = d))
  { s with mem := s.mem.filter (fun e => !gone e.1), side := s.side.filter (fun e => !gone (128 * e.1)) }

/-- A die stops in order for a cause of block `b`, status bit `bit` (R384). -/
def State.dieStop (s : State) (d : Nat) (b : Blk) (bit : Nat) : State :=
  let s1 := (s.setRg d .saf 0 0x28 (wordOf (b.pos + bit * 256 + 8192))).setRg d .saf 0 0x30 (wordOf (s.time d))
  let s2 := (s1.setStat d .saf 0 (bitMask 14)).stopContexts
  let s3 := ((s2.stopWork d).putRouter d {}).stopPorts d
  let s4 := (s3.setFld d .saf 0 0 16 1 1).updDie d (fun x => { x with stopped := true, stopDue := none, swapReq := [], onReq := [], heldX := [] })
  let s5 := forEach allPhys (fun p t => (t.setRailSt d p 3).updPh d p (fun x => { x with target := none, next := none, deferred := none, stretch := false })) s4
  (((s5.loseMemory d).putCel d {}).putHbm d 0 { remap := (s5.hbm d 0).remap, bad := (s5.hbm d 0).bad }).putHbm d 1
    { remap := (s5.hbm d 1).remap, bad := (s5.hbm d 1).bad }

/-- The module stops in order (R385): every die that runs stops, for its own cause or that of MOD, and the converters are switched
off. -/
def State.moduleStop (s : State) (bit : Nat) : State :=
  let s1 := forEach (s.allDies.filter s.awake) (fun d t =>
    let x := (t.die d).stopDue.getD (.mod, bit)
    t.dieStop d x.1 x.2) s
  (s1.updMod (fun m => { m with stopDue := none, stopped := true, plane := false, sw := none, test := none })).setFld 0 .mod 0 0x28 32 4 0

end Sys2Proof.Machine
end

