-- ==== Sys2Proof/Machine/Clocks.lean ====
section
/-! DEFINITION. Clocks, crossings and time (R313–R327): the frequency of a cluster, the loss of a clock, held crossings, the time base
and its sources. -/

namespace Sys2Proof.Machine

/-! ### Cluster frequency (R314–R316) -/

/-- CLK_ELOG of a cause on a domain (Table 18.7). -/
def clkLog (cause dom : Nat) : Nat := cause + dom % 64 * 256

/-- Set the rail code of a cluster to that of a table entry for step `n` in the present band (R343). -/
def State.codeFor (s : State) (d p n : Nat) : State :=
  s.setFld d .pwr 0 (clPage p) 0 5 ((s.ph d p).rail (s.vfIndex d p n))

/-- A physical cluster runs: its die runs and its rail is on. -/
def State.clOn (s : State) (d p : Nat) : Bool := s.live d && decide (p < 52) && decide (s.railSt d p = 0)

/-- A change of step starts (Table 18.2, t0 and t1): for an increase the rail already stands at the new entry's code (R344). -/
def State.freqStart (s : State) (d p n : Nat) : State :=
  let s1 := if s.stepN d p < n then s.codeFor d p n else s
  (s1.updPh d p (fun x => { x with target := some n, deferred := none })).setFld d .clk 0 (clPage p) 10 1 1

/-- A droop event occurred in the last 2 µs (R315). -/
def State.droopRecent (s : State) (d p : Nat) : Bool :=
  match (s.ph d p).droopAt with
  | some t => decide (s.tick < t + usTicks 2)
  | none => false

/-- An increase is deferred (R315). -/
def State.deferUp (s : State) (d p n : Nat) : State :=
  (s.updPh d p (fun x => { x with deferred := some n })).addRg d .clk 0 0x30 1

/-- A change to step `n` is requested (R314, R315): during a change it is kept, as the latest; an increase after a droop is deferred,
and one that comes while another is deferred takes its place; a decrease cancels a deferred increase. -/
def State.freqRequest (s : State) (d p n : Nat) : State :=
  let x := s.ph d p
  let cur := s.stepN d p
  if !(s.clOn d p && between 8 (s.fmax d p) n) then s
  else if x.target.isSome then s.updPh d p (fun y => { y with next := some n })
  else if n < cur then s.freqStart d p n
  else if n = cur then s
  else if x.deferred.isSome then s.updPh d p (fun y => { y with deferred := some n })
  else if s.droopRecent d p then s.deferUp d p n
  else s.freqStart d p n

/-- FREQ_CHANGE_REQUEST (R314, R315). -/
def execFreqChangeRequest (d p n : Nat) (s : State) : Host.Outcome State Fault Refusal := .next (s.freqRequest d p n)

/-- The clock restarts at the new step (Table 18.2, t3): after a latched droop the first 64 cycles run stretched (R315); a request
that came during the change is applied next. -/
def State.freqRestart (s : State) (d p : Nat) : State :=
  match (s.ph d p).target with
  | none => s
  | some n =>
    if !s.clOn d p then s
    else
      let x := s.ph d p
      let s1 := ((s.setFld d .clk 0 (clPage p) 0 5 n).setFld d .clk 0 (clPage p) 10 1 0).addRg d .clk 0 0x28 1
      let s2 := if x.latched then s1.addRg d .pwr 0 0x70 64 else s1
      let s3 := (s2.updPh d p (fun y => { y with target := none, next := none, latched := false })).codeFor d p n
      match x.next with
      | some m => s3.freqRequest d p m
      | none => s3

/-- FREQ_CHANGE_RESTART (R314). -/
def execFreqChangeRestart (d p : Nat) (s : State) : Host.Outcome State Fault Refusal := .next (s.freqRestart d p)

/-- A deferred increase falls due (R315): the rule is applied again. -/
def State.deferredUp (s : State) (d p : Nat) : State :=
  match (s.ph d p).deferred with
  | none => s
  | some n =>
    if !s.clOn d p then s
    else if s.droopRecent d p then s.deferUp d p n
    else (s.updPh d p (fun x => { x with deferred := none })).freqRequest d p (min n (s.fmax d p))

/-- DEFERRED_INCREASE (R315). -/
def execDeferredIncrease (d p : Nat) (s : State) : Host.Outcome State Fault Refusal := .next (s.deferredUp d p)

/-- CLK_CTL.MARGIN_WARN, ps. -/
def State.marginWarn (s : State) (d : Nat) : Nat := s.fld d .clk 0 0x20 0 8

/-- A cluster's maximum falls to `n`: the spare trigger of Table 23.1 where it falls below CL_FMAX_MIN (R389). -/
def State.fmaxFall (s : State) (d p n : Nat) : State :=
  let s1 := s.setFld d .clk 0 (clPage p) 5 5 n
  if n < s1.fld 0 .mod 0 0x78 4 5 then s1.physTrigger d p else s1

/-- The smallest replica slack of the last microsecond (R316): below MARGIN_WARN the cluster's maximum falls by one step, and its step
with it; at a tagged entry LL_MARGIN is logged (R346). -/
def State.marginSeen (s : State) (d p m : Nat) : State :=
  let s1 := s.setFld d .clk 0 (clPage p) 16 8 (min m 255)
  if min m 255 < s1.marginWarn d then
    let s2 := s1.raise d .clk 0 8 .ce (clkLog 1 p)
    let s3 := if (s2.ph d p).tagged (s2.vfIndex d p (s2.stepN d p)) then s2.raise d .pwr 0 20 .ce (9 + p * 256) else s2
    let f := max 8 (s3.fmax d p - 1)
    let s4 := s3.fmaxFall d p f
    if f < s4.stepN d p then s4.freqRequest d p f else s4
  else s1

/-- MARGIN_WARN (R316). -/
def execMarginWarn (d p m : Nat) (s : State) : Host.Outcome State Fault Refusal :=
  .next (if s.clOn d p then s.marginSeen d p m else s)

/-! ### Loss of a clock (R317) -/

/-- A cluster's oscillator is lost: it runs from root ÷ 8 until the next start (Table 18.3). -/
def State.oscFallback (s : State) (d p : Nat) : State :=
  let s1 := ((s.setFld d .clk 0 (clPage p) 0 12 (8 + 8 * 32 + 2048)).updPh d p (fun x =>
    { x with target := none, next := none, deferred := none, latched := false })).codeFor d p 8
  s1.raise d .clk 0 9 .ce (clkLog 2 p)

/-- OSC_FALLBACK (R317). -/
def execOscFallback (d p : Nat) (s : State) : Host.Outcome State Fault Refusal :=
  .next (if s.clOn d p then s.oscFallback d p else s)

/-- A die's root PLL loses lock (Table 18.3). -/
def State.pllUnlock (s : State) (d : Nat) : State :=
  if s.live d then (s.setFld d .clk 0 0 16 1 0).raise d .clk 0 10 .ftl (clkLog 3 0) else s

/-- PLL_UNLOCK (R317). -/
def execPllUnlock (d : Nat) (s : State) : Host.Outcome State Fault Refusal := .next (s.pllUnlock d)

/-- REFCLK is absent for 2 µs (Table 18.3): every die that runs is to stop. -/
def State.refLost (s : State) : State :=
  if s.modc.refclk then
    forEach (s.allDies.filter s.live) (fun d t => t.raise d .clk 0 11 .ftl (clkLog 4 0)) (s.updMod (fun m => { m with refclk := false }))
  else s

/-- REF_LOST (R317). -/
def execRefLost (s : State) : Host.Outcome State Fault Refusal := .next s.refLost

/-- A SerDes PLL loses lock (Table 18.3): the ports on it that are up go down (R226, R283); `ports` has a bit a port, `agl` stands for
the Aigraic Link. -/
def State.serdesUnlock (s : State) (d ports : Nat) (agl : Bool) : State :=
  if !s.live d then s
  else
    let s1 := forEach (onesOf ports 4) (fun p t =>
      forEach (t.halves d p) (fun q u => if u.portUp d q then u.portDown d q else u) t) s
    if agl && s1.linkDies.contains d && s1.lkState d ≠ lkDown then s1.linkLost d else s1

/-- SERDES_PLL_UNLOCK (R317). -/
def execSerdesPllUnlock (d ports : Nat) (agl : Bool) (s : State) : Host.Outcome State Fault Refusal :=
  .next (s.serdesUnlock d ports agl)

/-! ### Crossings (R318–R320) -/

/-- Power-on of a region in retention is requested (R336, R338). -/
def State.powerOn (s : State) (d p : Nat) : State :=
  if s.live d && decide (p < 52) && decide (s.railSt d p = 1) && !(s.die d).onReq.any (fun e => e.1 = p) then
    s.updDie d (fun x => { x with onReq := x.onReq ++ [(p, 0)] })
  else s

/-- A wake request or a held-crossing restart is counted (R319). -/
def State.countWake (s : State) (d : Nat) : State := s.addRg d .clk 0 0x40 1

/-- The clock of a cluster starts again. -/
def State.startClock (s : State) (d p : Nat) : State := s.setFld d .clk 0 (clPage p) 10 1 0

/-- Data enters a crossing into a cluster whose clock is stopped (R319): a switched-off region requests power-on; a T8 starts an
idle-gated clock, a T2 or T4 finds it at its next evaluation; a frequency change ends first. -/
def State.crossingWake (s : State) (d p : Nat) : State :=
  if !(s.live d && decide (p < 52)) then s
  else if s.railSt d p = 1 then (s.countWake d).powerOn d p
  else if s.railSt d p ≠ 0 ∨ s.clkStopped d p = false then s
  else if s.part = .t8l then
    if (s.ph d p).target.isSome then s.countWake d else (s.countWake d).startClock d p
  else if (s.die d).heldX.contains p then s
  else s.updDie d (fun x => { x with heldX := x.heldX ++ [p] })

/-- CROSSING_WAKE (R319). -/
def execCrossingWake (d p : Nat) (s : State) : Host.Outcome State Fault Refusal := .next (s.crossingWake d p)

/-- The 1 µs evaluation of a T2 or T4 restarts the idle-gated clocks of held crossings (R319); one under a frequency change waits. -/
def State.heldScan (s : State) (d : Nat) : State :=
  if s.part = .t8l ∨ s.live d = false then s
  else
    let xs := (s.die d).heldX
    let stay := xs.filter (fun p => (s.ph d p).target.isSome && decide (s.railSt d p = 0))
    forEach (xs.filter (fun p => !stay.contains p)) (fun p t =>
      if t.railSt d p = 1 then (t.countWake d).powerOn d p
      else if t.railSt d p = 0 ∧ t.clkStopped d p then (t.countWake d).startClock d p
      else t) (s.updDie d (fun x => { x with heldX := stay }))

/-- HELD_CROSSING_SCAN (R319). -/
def execHeldCrossingScan (d : Nat) (s : State) : Host.Outcome State Fault Refusal := .next (s.heldScan d)

/-! ### The time base (R321–R323) -/

/-- DOMAIN_TIME_CORRECT (R322, R327): the 1 µs correction, at which a SWAP of CLK or TIM takes effect. -/
def execDomainTimeCorrect (d : Nat) (s : State) : Host.Outcome State Fault Refusal :=
  .next (if s.live d then (s.doSwap d .clk 0).doSwap d .tim 0 else s)

/-- A correction of a die's time base by `c` ns (R321): slewed up to STEP_LIMIT, stepped forward beyond it, slewed fast backward. -/
def State.timeCorrect (s : State) (d : Nat) (c : Int) : State :=
  let lim := s.fld 0 .tim 0 0x20 32 16
  s.updDie d (fun x =>
    if c.natAbs ≤ lim then { x with slew := c * 2 ^ 32, fastSlew := false }
    else if 0 < c then { x with now := x.now + c.toNat, slew := 0, fastSlew := false }
    else { x with slew := c * 2 ^ 32, fastSlew := true })

/-- How far a die's time base stands from die 0's, ns. -/
def State.skewOf (s : State) (d : Nat) : Int := (s.die d).now - (s.die 0).now

/-- A die's sync exchange with die 0 (R323): more than 4 ns apart it steps, PKG_SKEW; else it corrects itself. -/
def State.pkgSync (s : State) (d : Nat) : State :=
  if !(s.live d && s.live 0 && decide (d ≠ 0)) then s
  else
    let x := s.skewOf d
    let s1 := s.setRg 0 .tim 0 0x48 (wordOf ((s.allDies.filter s.live).foldl (fun n e => max n (s.skewOf e).natAbs) 0 % 65536))
    if 4 < x.natAbs then
      (s1.updDie d (fun y => { y with now := (s.die 0).now, frac := (s.die 0).frac, slew := 0 })).raise d .tim 0 9 .ce 2
    else s1.updDie d (fun y => { y with slew := -x * 2 ^ 32, fastSlew := false })

/-- PKG_SYNC (R323). -/
def execPkgSync (d : Nat) (s : State) : Host.Outcome State Fault Refusal := .next (s.pkgSync d)

/-- TIM_CTL.SRC of die 0, the only one used (R323): 0 FREE, 1 GPTP, 2 PPS. -/
def State.timSrc (s : State) : Nat := s.fld 0 .tim 0 0x20 0 2

/-- A write of TIM_OFFSET (Table 18.11): refused unless SRC is FREE. -/
def State.timOffset (s : State) (d : Nat) (v : Word) : State × Bool :=
  if s.timSrc = 0 then (s.timeCorrect d v.toInt, true) else (s.configBusy d .tim 0, false)

/-- TIM_OFFSET (R321). -/
def execTimOffset (d : Nat) (v : Word) (s : State) : Host.Outcome State Fault Refusal :=
  .next (if s.live d then (s.timOffset d v).1 else s)

/-! ### Time sources (R324–R326) -/

/-- TIM_STAT.LOCKED. -/
def State.timLocked (s : State) : Bool := s.fld 0 .tim 0 0 16 1 = 1

/-- An offset from the source is measured (R326): TIM_ERR, LOCKED, and die 0's time base is corrected. -/
def State.timErr (s : State) (e : Int) : State :=
  let s1 := s.setRg 0 .tim 0 0x40 (BitVec.ofInt 64 e)
  let good := if e.natAbs ≤ 50 then (s1.die 0).goodSync + 1 else 0
  let s2 := s1.updDie 0 (fun x => { x with goodSync := good, missed := 0 })
  let s3 := if 8 ≤ good then s2.setFld 0 .tim 0 0 16 1 1 else if 200 < e.natAbs then s2.setFld 0 .tim 0 0 16 1 0 else s2
  s3.timeCorrect 0 (-e)

/-- PPS_EDGE (R325): die 0 steers so that the edge falls at TIM_PPS_SEC × 10^9 ns, and TIM_PPS_SEC advances. -/
def State.ppsEdge (s : State) : State :=
  if !(s.live 0 && decide (s.timSrc = 2)) then s
  else
    let sec := s.fld 0 .tim 0 0x38 0 48
    (s.timErr ((s.time 0 : Int) - (sec * 1000000000 : Nat))).setFld 0 .tim 0 0x38 0 48 (sec + 1)

/-- PPS_EDGE (R325). -/
def execPpsEdge (s : State) : Host.Outcome State Fault Refusal := .next s.ppsEdge

/-- The module's clockIdentity: the EUI-64 of its port 0 (PRESUMED, log entry 24). -/
def State.clockId (s : State) : Nat :=
  let m := s.fld 0 .mac 0 0x30 0 48
  m / 2 ^ 24 * 2 ^ 40 + 0xFFFE * 2 ^ 24 + m % 2 ^ 24

/-- What the best master clock algorithm compares (Table 18.6). -/
def State.ownClock (s : State) : Nat × Nat × Nat × Nat :=
  (s.fld 0 .tim 0 0x20 8 8, if s.timSrc = 2 && s.timLocked then 6 else 248, s.fld 0 .tim 0 0x20 16 8, s.clockId)

/-- One announcement is better than another: the lower, in order of its parts. -/
def betterClock (a b : Nat × Nat × Nat × Nat) : Bool :=
  decide (a.1 < b.1) || (decide (a.1 = b.1) && (decide (a.2.1 < b.2.1) || (decide (a.2.1 = b.2.1) &&
    (decide (a.2.2.1 < b.2.2.1) || (decide (a.2.2.1 = b.2.2.1) && decide (a.2.2.2 < b.2.2.2))))))

/-- This module is the grandmaster: it may be, and no better clock has announced itself. -/
def State.isGm (s : State) : Bool :=
  s.fld 0 .tim 0 0x20 2 1 = 1 && (match s.modc.best with | none => true | some b => betterClock s.ownClock b)

/-- The up ports of the module's dies that run. -/
def State.upPorts (s : State) : List (Nat × Nat) :=
  (s.allDies.filter s.live).flatMap (fun d => ((List.range 8).filter (fun p => s.portUp d p)).map (fun p => (d, p)))

/-- Send messages on every up port but one. -/
def State.ptpSend (s : State) (skip : Option (Nat × Nat)) (ms : List Ptp) : State :=
  forEach (s.upPorts.filter (fun x => some x ≠ skip)) (fun x t => forEach ms (fun m u => u.emit (.ptp x.1 x.2 m)) t) s

/-- A sync interval passes (R324, R326): the grandmaster announces itself and sends time; another module counts an interval without
a sync until one comes. -/
def State.syncInterval (s : State) : State :=
  if !(s.live 0 && decide (s.timSrc ≠ 0)) then s
  else if s.isGm then
    let s1 := (s.setFld 0 .tim 0 0 17 1 1).setRg 0 .tim 0 0x50 (wordOf s.clockId)
    let c := s.ownClock
    s1.ptpSend none [.announce c.1 c.2.1 c.2.2.1 c.2.2.2, .sync, .followUp (s.time 0)]
  else
    let s1 := (s.setFld 0 .tim 0 0 17 1 0).setRg 0 .tim 0 0x50 (wordOf ((s.modc.best.map (fun b => b.2.2.2)).getD 0))
    if s.timSrc = 1 then s1.updDie 0 (fun x => { x with missed := x.missed + 1 }) else s1

/-- SYNC_INTERVAL (R324). -/
def execSyncInterval (s : State) : Host.Outcome State Fault Refusal := .next s.syncInterval

/-- A follow-up gives the origin time of the last sync of its port (R324): where this module follows, its offset is measured; the
time is passed on through the other ports with the residence added. -/
def State.followUp (s : State) (d p origin : Nat) : State :=
  match (s.die d).syncAt.find? (fun e => e.1 = p) with
  | none => s
  | some (_, t0) =>
    if s.isGm then s
    else
      let dl := smGet 0 (s.die d).pdelay p
      let s1 := if s.timSrc = 1 then s.timErr ((t0 : Int) - ((origin + dl : Nat) : Int)) else s
      (s1.updDie d (fun x => { x with syncAt := x.syncAt.filter (fun e => e.1 ≠ p) })).ptpSend (some (d, p))
        [.sync, .followUp (origin + dl + (s.time d - t0))]

/-- An IEEE 802.1AS message arrives (R244, R324). -/
def State.ptpMessage (s : State) (d p : Nat) (m : Ptp) : State :=
  if !(s.live d && s.portUp d p && decide (s.timSrc ≠ 0)) then s
  else match m with
  | .announce a b c i =>
    let better := match s.modc.best with
      | none => true
      | some x => x.2.2.2 = i || betterClock (a, b, c, i) x
    (if better then s.updMod (fun x => { x with best := some (a, b, c, i) }) else s).ptpSend (some (d, p)) [.announce a b c i]
  | .sync => s.updDie d (fun x => { x with syncAt := x.syncAt.filter (fun e => e.1 ≠ p) ++ [(p, s.time d)] })
  | .followUp origin => s.followUp d p origin
  | .pdelayReq => s.emit (.ptp d p (.pdelayResp 0))
  | .pdelayResp delay => s.updDie d (fun x => { x with pdelay := smPut 0 x.pdelay p delay })

/-- PTP_MESSAGE (R244). -/
def execPtpMessage (d p : Nat) (msg : Ptp) (s : State) : Host.Outcome State Fault Refusal := .next (s.ptpMessage d p msg)

/-- Messages or pulses have stopped (R326): after three sync intervals under GPTP; under PPS the missed pulses are the command's own
event. The time base holds its rate word. -/
def State.syncLost (s : State) : State :=
  if s.live 0 && (decide (s.timSrc = 2) || (decide (s.timSrc = 1) && decide (3 ≤ (s.die 0).missed))) then
    (s.updDie 0 (fun x => { x with goodSync := 0, missed := 0 })).raise 0 .tim 0 8 .ce 1
  else s

/-- SYNC_LOST (R326). -/
def execSyncLost (s : State) : Host.Outcome State Fault Refusal := .next s.syncLost

end Sys2Proof.Machine
end

