-- ==== Sys2Proof/Machine/Power.lean ====
section
/-! DEFINITION. Power delivery and its control loops (R328–R360). -/

namespace Sys2Proof.Machine

/-- Average of a list is above `lim`, without rounding. -/
def avgOver (xs : List Nat) (lim : Nat) : Bool := decide (xs.length * lim < xs.foldl (· + ·) 0)

/-- PWR_ELOG of a cause on a rail (Table 19.5). -/
def pwrLog (cause rail ph : Nat) : Nat := cause + rail % 64 * 256 + ph % 8 * 16384

/-! ### Input and converters (R328–R330) -/

/-- The module is fed: its converters run. -/
def State.fed (s : State) : Bool := s.modc.plane && !s.modc.stopped

/-- VIN_STOP: the input has stayed below 36 V or above 50 V for 10 µs (R328). -/
def State.vinStop (s : State) (v : Nat) : State :=
  if s.fed && !between 3600 5000 v then
    ((s.setFld 0 .mod 0 0x28 0 16 v).modRaise 9 2 0 0 .ftl).updMod (fun m => { m with good := false })
  else s

/-- VIN_STOP (R328). -/
def execVinStop (v : Nat) (s : State) : Host.Outcome State Fault Refusal := .next (s.vinStop v)

/-- A converter is lost (R330): CE while another delivers; else every die loses power, FTL. -/
def State.ibcFail (s : State) (i : Nat) : State :=
  if s.fed && decide (i < Part.ibcs s.part) && decide (s.fld 0 .mod 0 0x28 (32 + i) 1 = 1) then
    let s1 := s.setFld 0 .mod 0 0x28 (32 + i) 1 0
    if s1.fld 0 .mod 0 0x28 32 4 = 0 then (s1.modRaise 8 1 0 i .ftl).moduleStop 8 else s1.modRaise 8 1 0 i .ce
  else s

/-- IBC_FAIL (R330). -/
def execIbcFail (i : Nat) (s : State) : Host.Outcome State Fault Refusal := .next (s.ibcFail i)

/-! ### Rails and phases (R331–R334) -/

/-- RAIL_FAULT: a fixed rail has stayed more than 8 % from its set-point for 10 µs (R332). -/
def State.railFault (s : State) (d rail : Nat) : State :=
  if s.live d && between 52 59 rail then s.raise d .pwr 0 11 .ftl (pwrLog 4 rail 0) else s

/-- RAIL_FAULT (R332). -/
def execRailFault (d rail : Nat) (s : State) : Host.Outcome State Fault Refusal := .next (s.railFault d rail)

/-- PWR_RAIL_p.PHASES_OK. -/
def State.phasesOk (s : State) (d p : Nat) : Nat := s.fld d .pwr 0 (clPage p) 5 5

/-- A phase of a cluster rail has failed (Table 19.2): the spare phase carries the first; the second caps the current and wears the
cluster, the third switches the rail off. The rail's one spare phase is used up by the first (R389, R392). -/
def State.phaseFail (s : State) (d p ph : Nat) : State :=
  if !(s.live d && decide (p < 52) && decide (ph < 5) && decide (s.railSt d p ≠ 3) && nbit (s.phasesOk d p) ph) then s
  else
    let s1 := (s.setFld d .pwr 0 (clPage p) (5 + ph) 1 0).repairDue d
    let n := popcount (s1.phasesOk d p) 5
    if n = 4 then
      let s2 := s1.raise d .pwr 0 8 .ce (pwrLog 1 p ph)
      if s2.isSwitchSpare d p then s2.spareFailed else s2
    else if n = 3 then
      let s2 := ((s1.raise d .pwr 0 9 .ce (pwrLog 2 p ph)).setFld d .pwr 0 (clPage p) 12 1 1).noSpare d p
      if s2.isSwitchSpare d p then s2.spareFailed else s2.physTrigger d p
    else (s1.noSpare d p).railLost d p ph

/-- PHASE_FAIL (R333). -/
def execPhaseFail (d p ph : Nat) (s : State) : Host.Outcome State Fault Refusal := .next (s.phaseFail d p ph)

/-! ### Retention and admission (R336–R338) -/

/-- A cluster goes into retention (R336): it has been empty for OFF_DELAY µs. -/
def State.retain (s : State) (d p : Nat) : State :=
  let l := s.logical d p
  if s.clOn d p && decide (s.fld d .pwr 0 0x20 0 16 ≠ 0) && decide (l < 48) && s.clEmpty d l && (s.ph d p).target.isNone &&
      !(s.cl d l).held then
    ((s.setRailSt d p 1).setFld d .clk 0 (clPage p) 10 1 1).addRg d .pwr 0 0x48 1
  else s

/-- RETENTION_ENTER (R336). -/
def execRetentionEnter (d p : Nat) (s : State) : Host.Outcome State Fault Refusal := .next (s.retain d p)

/-- POWER_ON_REQUEST (R336, R338). -/
def execPowerOnRequest (d p : Nat) (s : State) : Host.Outcome State Fault Refusal := .next (s.powerOn d p)

/-- A region's ramp starts (R338); a slow ramp sets INRUSH_SLOW. -/
def State.rampStart (s : State) (d p : Nat) (slow : Bool) : State :=
  let s1 := (s.setRailSt d p 2).updPh d p (fun x => { x with slow := slow })
  let s2 := s1.updDie d (fun x => { x with onReq := x.onReq.filter (fun e => e.1 ≠ p) })
  if slow then s2.setStat d .pwr 0 (bitMask 12) else s2

/-- One evaluation of a quadrant's admission (R338): one region ramps at a time, requests go in order of arrival, and one that finds
headroom short for 20 evaluations ramps slowly. `amps` is the feeder current over the last microsecond, mA. -/
def State.admission (s : State) (d quad amps : Nat) : State :=
  if !s.live d || allPhys.any (fun p => p / 13 = quad && decide (s.railSt d p = 2)) then s
  else match (s.die d).onReq.find? (fun e => e.1 / 13 = quad) with
  | none => s
  | some (p, n) =>
    if amps + s.fld d .pwr 0 0x20 16 8 * 100 ≤ 25000 then s.rampStart d p false
    else
      let s1 := if n = 0 then s.addRg d .pwr 0 0x50 1 else s
      if 20 ≤ n + 1 then s1.rampStart d p true
      else s1.updDie d (fun x => { x with onReq := x.onReq.map (fun e => if e.1 = p then (p, n + 1) else e) })

/-- ADMISSION_EVAL (R338). -/
def execAdmissionEval (d quad amps : Nat) (s : State) : Host.Outcome State Fault Refusal := .next (s.admission d quad amps)

/-- The context resident on a cluster that stayed dark traps; the record's cause is a free value. -/
def State.darkTrap (s : State) (d l : Nat) (o : Option Nat) : State :=
  match o with
  | some c =>
    if l < 48 then
      let x := Config.darkTrap s.free
      s.fresh.trap c { cause := x.1.toNat, d := d, unit := l, idx := (s.ctx d c).main.head, tbase := (s.ctx d c).main.base,
                       w2 := x.2.1.toNat, w3 := x.2.2.toNat, ts := s.time d }
    else s
  | none => s

/-- A ramp ends (R320, R338): the exit reset is applied and the clock starts; a crossing that still holds data drops it, CROSS_DROP, and
the context that is resident traps. -/
def State.rampDone (s : State) (d p : Nat) (held : Bool) : State :=
  if !(s.live d && decide (p < 52) && decide (s.railSt d p = 2)) then s
  else
    let s1 := ((s.setRailSt d p 0).startClock d p).updPh d p (fun x => { x with slow := false })
    if !held then s1
    else
      let s2 := s1.raise d .clk 0 12 .ucc (clkLog 5 p + 52 * 16384)
      s2.darkTrap d (s2.logical d p) (s2.cl d (s2.logical d p)).resident

/-- RAMP_DONE (R338). -/
def execRampDone (d p : Nat) (held : Bool) (s : State) : Host.Outcome State Fault Refusal := .next (s.rampDone d p held)

/-- LOW_WATER_RECORD: an excursion of a rail ends (R339); none is recorded during a ramp. A fall of rail 52 below 0.42 V in retention
loses the Cellar (R181). -/
def State.lowWaterRec (s : State) (d rail mv tm : Nat) : State :=
  if !(s.awake d && decide (rail < 60)) || (decide (rail < 52) && decide (2 ≤ s.railSt d rail)) then s
  else
    let h := smGet 0 (s.die d).lwHead rail
    let s1 := s.updDie d (fun x => { x with
      lowWater := smPut (0, 0) x.lowWater (rail * 16 + h) (mv % 4096 + 4096, tm),
      lwHead := smPut 0 x.lwHead rail ((h + 1) % 16) })
    if rail = 52 ∧ mv < 420 ∧ (s1.cel d).retained then s1.updCel d (fun x => { x with lost := true }) else s1

/-- LOW_WATER_RECORD (R339). -/
def execLowWaterRecord (d rail mv tm : Nat) (s : State) : Host.Outcome State Fault Refusal := .next (s.lowWaterRec d rail mv tm)

/-! ### The low-power state (R340, R341) -/

/-- The bits of a register that outlive the low-power state: RW, RWS and LIVE fields, and what the always-on domain holds: status,
mask and log of every block and the SAF registers (R340, R372); also fields whose values stand until the next start or come from
records (R304, log entry 25). -/
def keptBits (p : Part) (l : RegLoc) : Word :=
  if l.b = .mod ∨ l.b = .saf ∨ l.f = 0 ∨ l.f = 8 ∨ l.f = 0x10 then allBits
  else
    let r := (regDef p l.d l.b l.f).getD {}
    let base := r.rw ||| r.rws ||| r.live
    match l.b with
    | .clk => if 0x10000 ≤ l.f then maskOf 5 5 ||| maskOf 10 2 ||| maskOf 24 6 else base
    | .pwr => if 0x10000 ≤ l.f then maskOf 0 13 else base
    | .thm => if 0x10000 ≤ l.f then maskOf 6 1 else base
    | .cel => if 0x100 ≤ l.f ∧ l.f < 0x200 then allBits else base
    | .mac => if l.f = 0x50 then allBits else base
    | .hbm => if l.f = 0x218 then allBits else base
    | _ => base

/-- The register at a place after the low-power state. -/
def State.lpPlace (s : State) (a : Nat) (o : Option RegLoc) : State :=
  match o with
  | none => s
  | some l => s.setReg a ((s.reg a &&& keptBits s.part l) ||| (regReset s.part a &&& ~~~ keptBits s.part l))

/-- A register after the low-power state. -/
def State.lpReg (s : State) (a : Nat) : State := s.lpPlace a (locOf a)

/-- A die enters the low-power state (R340). -/
def State.dieLp (s : State) (d : Nat) : State :=
  let on := (allPhys.filter (fun p => s.railSt d p ≠ 3)).map (fun p => d * 64 + p)
  let s1 := (s.celRetain d).stopPorts d
  let s2 := forEach [0, 1] (fun k t => t.hbmSleep d k) s1
  let s3 := forEach allPhys (fun p t => (t.setRailSt d p 3).updPh d p (fun x =>
    { x with target := none, next := none, deferred := none, latched := false, stretch := false, amps := [] })) s2
  let s4 := forEach (List.range 48) (fun l t => t.putCl d l { held := (t.cl d l).held }) s3
  (s4.updDie d (fun x => { x with now := 0, frac := 0, slew := 0, swapReq := [], heldX := [], onReq := [], plane := [], conv := [] })).updMod (fun m =>
    { m with saved := m.saved ++ on })

/-- Every context is IDLE on every die and no security command runs (R340). -/
def State.lpReady (s : State) : Bool :=
  s.fed && !s.lowPower && s.allDies.all (fun d => (List.range 8).all (fun c => (s.ctx d c).st = .idle)) && s.modc.sec.isNone

/-- A write of ENTER_LP (R340): refused with CONFIG_BUSY unless the module may enter. -/
def State.enterLp (s : State) : State × Bool :=
  if !s.lpReady then (s.configBusy 0 .mod 0, false)
  else
    let s1 := forEach (s.allDies.filter s.live) (fun d t => t.dieLp d) (s.updMod (fun m => { m with saved := [] }))
    let s2 := forEach (s1.regs.map Prod.fst) (fun a t => t.lpReg a) s1
    (((s2.setFld 0 .mod 0 0x28 36 1 1).setFld 0 .mod 0 0x20 4 1 0).setStat 0 .mod 0 (bitMask 10), true)

/-- ENTER_LP (R340). -/
def execEnterLp (s : State) : Host.Outcome State Fault Refusal := .next (s.enterLp).1

/-- A die leaves the low-power state (R341): its rails return, its Cellar and stacks serve again. -/
def State.dieExitLp (s : State) (d : Nat) : State :=
  let s1 := forEach (allPhys.filter (fun p => s.modc.saved.contains (d * 64 + p))) (fun p t =>
    ((t.setRailSt d p 0).startClock d p).codeFor d p 8) s
  (forEach [0, 1] (fun k t => t.hbmWake d k) s1).celWake d

/-- A write of EXIT_LP (R341); it has no effect outside the low-power state. -/
def State.exitLp (s : State) : State × Bool :=
  if !s.lowPower then (s, true)
  else
    let s1 := forEach (s.allDies.filter s.awake) (fun d t => t.dieExitLp d) s
    ((s1.setFld 0 .mod 0 0x28 36 1 0).updMod (fun m => { m with saved := [] }), true)

/-- EXIT_LP (R341). -/
def execExitLp (s : State) : Host.Outcome State Fault Refusal := .next (s.exitLp).1

/-! ### Current limits (R347, R348) -/

/-- Rail limit of a cluster, mA (R347, R362): CL_LIMIT, 8.4 A while CAP60 is set, 7.0 A with a faulty sensor pair. -/
def State.clLimit (s : State) (d p : Nat) : Nat :=
  if s.fld d .thm 0 (thPage p) 6 1 = 1 then 7000
  else if s.fld d .pwr 0 (clPage p) 12 1 = 1 then 8400
  else 100 * max 1 (min 140 (s.fld d .pwr 0 0x58 0 8))

/-- DIE_LIMIT and QUAD_LIMIT, mA. -/
def State.dieLimit (s : State) (d : Nat) : Nat := 1000 * max 1 (min 600 (s.fld d .pwr 0 0x58 8 10))
def State.quadLimit (s : State) (d : Nat) : Nat := 100 * max 1 (min 250 (s.fld d .pwr 0 0x58 18 8))

/-- A current ceiling falls to `n` (R347): counted, with the status bit of the limit that lowered it. -/
def State.ceilFall (s : State) (d p n why : Nat) : State :=
  let s1 := s.updPh d p (fun x => { x with curCeil := max 8 n, low := Nat.lor x.low why, calm := 0 })
  (s1.addRg d .pwr 0 0x78 1).setStat d .pwr 0 (bitMask (if why = 1 then 16 else 17))

/-- The five latest currents of a cluster. -/
def Phys.five (x : Phys) : List Nat := x.amps.take 5

/-- The limit of one cluster rail (R347). -/
def State.limitCl (s : State) (d p : Nat) : State :=
  let x := s.ph d p
  let lim := s.clLimit d p
  if decide (11 * lim < 10 * x.amps.headD 0) then s.ceilFall d p (s.stepN d p - 2) 1
  else if avgOver x.five lim then s.ceilFall d p (s.stepN d p - 1) 1
  else s

/-- Of a list of clusters, the one whose rail draws most, the lowest where two draw the same. -/
def State.hungriest (s : State) (d : Nat) (ps : List Nat) : Option Nat :=
  ps.foldl (fun acc p => match acc with
    | none => some p
    | some q => if (s.ph d q).amps.headD 0 < (s.ph d p).amps.headD 0 then some p else some q) none

/-- A die or quadrant limit lowers the ceiling of the hungriest of its clusters by one step (R347). -/
def State.limitMany (s : State) (d : Nat) (ps : List Nat) (why : Nat) : State :=
  match s.hungriest d (ps.filter (fun p => s.railSt d p = 0)) with
  | none => s
  | some p => s.ceilFall d p (min (s.ph d p).curCeil (s.stepN d p) - 1) why

/-- The sum of the die's cluster rail currents in each of the five latest samples. -/
def State.dieAmps (s : State) (d : Nat) : List Nat :=
  (List.range 5).filterMap (fun i =>
    if allPhys.any (fun p => decide (i < (s.ph d p).amps.length)) then
      some (allPhys.foldl (fun n p => n + (s.ph d p).amps.getD i 0) 0) else none)

/-- The five latest plane currents of a quadrant feeder. -/
def State.quadAmps (s : State) (d q : Nat) : List Nat := smGet [] (s.die d).plane q

/-- Clusters of a quadrant (R331). -/
def quadCl (q : Nat) : List Nat := (List.range 13).map (fun i => 13 * q + i)

/-- The three limits of R347. -/
def State.limits (s : State) (d : Nat) : State :=
  let s1 := forEach (allPhys.filter (fun p => s.railSt d p = 0)) (fun p t => t.limitCl d p) s
  let s2 := if avgOver (s1.dieAmps d) (s1.dieLimit d) then s1.limitMany d allPhys 2 else s1
  forEach (List.range 4) (fun q t => if avgOver (t.quadAmps d q) (t.quadLimit d) then t.limitMany d (quadCl q) 4 else t) s2

/-- The five-sample average lies below 90 % of a limit. -/
def below90 (xs : List Nat) (lim : Nat) : Bool := decide (10 * xs.foldl (· + ·) 0 < 9 * lim * xs.length)

/-- Every limit that lowered a cluster's ceiling is kept by a tenth (R347). -/
def State.calmNow (s : State) (d p : Nat) : Bool :=
  let x := s.ph d p
  (!nbit x.low 0 || below90 x.five (s.clLimit d p)) && (!nbit x.low 1 || below90 (s.dieAmps d) (s.dieLimit d)) &&
    (!nbit x.low 2 || below90 (s.quadAmps d (p / 13)) (s.quadLimit d))

/-- A lowered ceiling rises by one step after five calm evaluations (R347). -/
def State.ceilRise (s : State) (d p : Nat) : State :=
  let x := s.ph d p
  if 19 ≤ x.curCeil then s
  else if !s.calmNow d p then s.updPh d p (fun y => { y with calm := 0 })
  else if x.calm < 4 then s.updPh d p (fun y => { y with calm := y.calm + 1 })
  else s.updPh d p (fun y => { y with calm := 0, curCeil := y.curCeil + 1, low := if y.curCeil + 1 = 19 then 0 else y.low })

/-- Overcurrent of a cluster rail (R348): capacity 3.5 A for each serving phase; the first sample forces N = 8, a second in a row
switches the rail off. -/
def State.overCur (s : State) (d p : Nat) : State :=
  let x := s.ph d p
  let cap := 3500 * popcount (s.phasesOk d p) 5
  if x.amps.headD 0 ≤ cap then s
  else if cap < x.amps.getD 1 0 then s.railLost d p 0
  else (s.updPh d p (fun y => { y with curCeil := 8, calm := 0, low := Nat.lor y.low 1 })).raise d .pwr 0 18 .ce (pwrLog 8 p 0)

/-! ### Targets (R343–R346) -/

/-- The highest step below which every entry of the present band can be used (R343, R346); 8 at least. -/
def State.vfCeil (s : State) (d p : Nat) : Nat :=
  match (List.range 12).find? (fun i => !(s.ph d p).usable (s.vfIndex d p (8 + i))) with
  | some i => max 8 (7 + i)
  | none => 19

/-- PWR_BUDGET.NCAP of a die (R354). -/
def State.ncap (s : State) (d : Nat) : Nat := s.fld d .pwr 0 0x60 16 5

/-- Thermal ceiling of a cluster (R364): 8 under an emergency of a unit of its die that is no cluster. -/
def State.thermCeil (s : State) (d p : Nat) : Nat := if (s.die d).emerg.isEmpty then s.fld d .thm 0 (thPage p) 0 5 else 8

/-- The least ceiling of a cluster but for NCAP (R345). -/
def State.ceilings (s : State) (d p : Nat) : Nat :=
  let x := s.ph d p
  [s.vfCeil d p, x.curCeil, x.droopCeil, s.thermCeil d p].foldl min (s.fmax d p)

/-- Target step of a cluster (R345). -/
def State.targetOf (s : State) (d p : Nat) : Nat := max 8 (min (s.ceilings d p) (s.ncap d))

/-- Apply a cluster's target (R344, R345): a lower one at once, a higher one by one step; at the same step the code follows the band
and the guard. -/
def State.applyTarget (s : State) (d p : Nat) : State :=
  let t := s.targetOf d p
  let cur := (s.ph d p).target.getD (s.stepN d p)
  if t < cur then s.freqRequest d p t
  else
    let s1 := if t = cur then s.updPh d p (fun x => { x with deferred := none }) else s
    if (s1.ph d p).target.isSome then s1
    else if cur < t then s1.freqRequest d p (cur + 1)
    else s1.codeFor d p cur

/-- NCAP holds a cluster below its other ceilings: CAP_HELD (R354). -/
def State.capHeld (s : State) (d : Nat) : State :=
  if allPhys.any (fun p => s.clOn d p && decide (s.ncap d < s.ceilings d p)) then s.setStat d .pwr 0 (bitMask 22) else s

/-- One microsecond of a cluster at a tagged entry (R346): its first use is noted; a microsecond of good load counts, and 1 ms of them
clears the tag. Load is the current over 10 µs ÷ 14 A. -/
def State.tagUse (s : State) (d p : Nat) : State :=
  let x := s.ph d p
  let e := s.vfIndex d p (s.stepN d p)
  if !x.tagged e || x.target.isSome then s
  else
    let n := ((x.used.find? (fun u => u.1 = e)).map (·.2)).getD 0
    let good := decide (4200 * x.amps.length ≤ x.amps.foldl (· + ·) 0) && decide (2 * s.marginWarn d ≤ s.fld d .clk 0 (clPage p) 16 8)
    let m := n + b2n good
    if 1000 ≤ m then
      s.updPh d p (fun y => { y with used := y.used.filter (fun u => u.1 ≠ e), vf := smPut 0 y.vf e (y.code e) })
    else s.updPh d p (fun y => { y with used := y.used.filter (fun u => u.1 ≠ e) ++ [(e, m)] })

/-- A droop ceiling returns after 1 ms without a hold (R350). -/
def State.droopBack (s : State) (d p : Nat) : State :=
  let x := s.ph d p
  if x.droopCeil ≠ 19 && !x.stretch && decide (x.holdAt + usTicks 1000 ≤ s.tick) then s.updPh d p (fun y => { y with droopCeil := 19 })
  else s

/-! ### Energy of rails (R355–R357) -/

/-- Add energy to a partition of a die, pJ; 32 for none. -/
def addEnergy (m : List (Nat × Nat)) (k e : Nat) : List (Nat × Nat) := smPut 0 m k (smGet 0 m k + e)

/-- Share `e` in proportion to weights; what rounding leaves goes to partition `rest`. -/
def shareOut (m : List (Nat × Nat)) (ws : List (Nat × Nat)) (e rest : Nat) : List (Nat × Nat) :=
  let total := ws.foldl (fun n w => n + w.2) 0
  if total = 0 then addEnergy m rest e
  else
    let given := ws.foldl (fun n w => n + e * w.2 / total) 0
    addEnergy (ws.foldl (fun x w => addEnergy x w.1 (e * w.2 / total)) m) rest (e - given)

/-- The energy of one cluster rail over a microsecond (R356): the part of its idle cycles, and what remains by busy cycles. -/
def State.clusterEnergy (s : State) (d p : Nat) (sm : PowerSample) (m : List (Nat × Nat)) : List (Nat × Nat) :=
  let e := sm.volts.getD p 0 * sm.amps.getD p 0
  let l := s.logical d p
  match if l < 48 then (s.cl d l).resident else none with
  | none => addEnergy m 32 e
  | some c =>
    let busy := (sm.busy.filter (fun b => b.1 = p)).map (fun b => (b.2.1, b.2.2))
    match s.railSt d p, sm.idle.find? (fun b => b.1 = p) with
    | 0, some (_, i, n) =>
      let idle := if n = 0 then 0 else e * i / n
      shareOut (addEnergy m (4 * c) idle) busy (e - idle) (4 * c)
    | 0, none => shareOut m busy e (4 * c)
    | _, _ => addEnergy m (4 * c) e

/-- The energy of all rails over a microsecond (R356, R357). -/
def State.railEnergy (s : State) (d : Nat) (sm : PowerSample) : State :=
  let m := allPhys.foldl (fun m p => s.clusterEnergy d p sm m) (s.die d).energy
  s.updDie d (fun x => { x with energy := shareOut m sm.bytes sm.fixed 32 })

/-! ### The 1 µs evaluation (R343–R350, R355–R357) -/

/-- What is measured enters the state: voltages, currents, margins. -/
def State.takeSample (s : State) (d : Nat) (sm : PowerSample) : State :=
  let s1 := forEach (List.range (min 52 sm.volts.length)) (fun p t => t.setFld d .pwr 0 (clPage p) 16 12 (sm.volts.getD p 0)) s
  let s2 := forEach allPhys (fun p t => t.updPh d p (fun x => { x with amps := (sm.amps.getD p 0 :: x.amps).take 10, shuntOk := true })) s1
  let s3 := s2.updDie d (fun x => { x with
    plane := (List.range 4).foldl (fun m q => smPut [] m q ((sm.plane.getD q 0 :: smGet [] m q).take 5)) x.plane })
  forEach ((List.range (min 52 sm.margin.length)).filter (fun p => s3.clOn d p)) (fun p t => t.marginSeen d p (sm.margin.getD p 255)) s3

/-- POWER_EVAL: the 1 µs evaluation of a die's power manager (R345). -/
def State.powerEval (s : State) (d : Nat) (sm : PowerSample) : State :=
  if !s.live d then s
  else
    let s1 := s.takeSample d sm
    let s2 := forEach (allPhys.filter (fun p => s1.clOn d p)) (fun p t => t.overCur d p) s1
    let s3 := s2.limits d
    let s4 := forEach allPhys (fun p t => (t.ceilRise d p).droopBack d p) s3
    let s5 := forEach (allPhys.filter (fun p => s4.clOn d p)) (fun p t => (t.applyTarget d p).tagUse d p) s4
    ((s5.capHeld d).railEnergy d sm).doSwap d .pwr 0

/-- POWER_EVAL (R345). -/
def execPowerEval (d : Nat) (sm : PowerSample) (s : State) : Host.Outcome State Fault Refusal := .next (s.powerEval d sm)

/-! ### Droop (R335, R349, R350) -/

/-- DROOP_TRIP: a droop detector trips (R349): the shunt fires, the clock runs stretched; during a stop for a change the droop is
latched (R315). -/
def State.droopTrip (s : State) (d p : Nat) : State :=
  if !s.clOn d p then s
  else
    let s1 := (s.addRg d .pwr 0 0x40 1).updPh d p (fun x => { x with droopAt := some s.tick, shuntOk := false })
    if (s1.ph d p).target.isSome then (s1.updPh d p (fun x => { x with latched := true })).addRg d .clk 0 0x38 1
    else if s1.clkStopped d p then s1
    else if (s1.ph d p).stretch then s1.updPh d p (fun x => { x with holdAt := s.tick })
    else (s1.updPh d p (fun x => { x with stretch := true, holdAt := s.tick })).addRg d .pwr 0 0x68 1

/-- DROOP_TRIP (R349). -/
def execDroopTrip (d p : Nat) (s : State) : Host.Outcome State Fault Refusal := .next (s.droopTrip d p)

/-- A stretch hold ends after `cycles` stretched cycles (R349, R350): more than 25 % of the cycles of 10 µs stretched lower the droop
ceiling. Of c cycles at step N, 10 µs hold 587.5 N periods and each stretched cycle takes two, so the test is 2 × stretched > 235 × N. -/
def State.stretchEnd (s : State) (d p cycles : Nat) : State :=
  if !(s.live d && decide (p < 52) && (s.ph d p).stretch) then s
  else
    let xs := ((s.ph d p).stretched ++ [(s.tick, cycles)]).filter (fun e => decide (s.tick < e.1 + usTicks 10))
    let s1 := (s.updPh d p (fun x => { x with stretch := false, holdAt := s.tick, stretched := xs })).addRg d .pwr 0 0x70 cycles
    let n := s1.stepN d p
    if 235 * n < 2 * xs.foldl (fun k e => k + e.2) 0 then
      (s1.updPh d p (fun x => { x with droopCeil := max 8 (n - 1) })).setStat d .pwr 0 (bitMask 19)
    else s1

/-- STRETCH_HOLD_END (R349). -/
def execStretchHoldEnd (d p cycles : Nat) (s : State) : Host.Outcome State Fault Refusal := .next (s.stretchEnd d p cycles)

/-! ### Light-load entries and VF_TABLES (R346) -/

/-- LL_EXPIRY: an entry is still tagged 10 s after its first use (R346); two of one cluster in one start call in a spare (R389). -/
def State.llExpiry (s : State) (d p e : Nat) : State :=
  let x := s.ph d p
  if s.live d && decide (p < 52) && decide (e < 24) && x.tagged e && x.used.any (fun u => u.1 = e) && !x.excluded.contains e then
    let s1 := (s.updPh d p (fun y => { y with excluded := y.excluded ++ [e] })).raise d .pwr 0 21 .ce (pwrLog 0xA p 0)
    if x.excluded.length = 1 then s1.physTrigger d p else s1
  else s

/-- LL_EXPIRY (R346). -/
def execLlExpiry (d p e : Nat) (s : State) : Host.Outcome State Fault Refusal := .next (s.llExpiry d p e)

/-- VF_RECORD_WRITE: the die's VF_TABLES are written as a field record (R306, R346); `wr` says that the flash took the write. -/
def State.vfRecord (s : State) (d : Nat) (wr : Bool) : State :=
  if decide (d < s.nd) && (s.die d).up && wr then s.fieldWrite 0x21 d (s.vfPayload d) else s

/-- VF_RECORD_WRITE (R346). -/
def execVfRecordWrite (d : Nat) (wr : Bool) (s : State) : Host.Outcome State Fault Refusal := .next (s.vfRecord d wr)

/-! ### The module cap (R352–R354, R368) -/

/-- INPUT_SAMPLE: input voltage, 10 mV, and current, mA, over 10 µs (R353, R358). -/
def State.inputSample (s : State) (v i : Nat) : State :=
  if s.fed then
    (s.updMod (fun m => { m with vins := (v :: m.vins).take 10, inPj := m.inPj + v * 10 * i * 10 })).setFld 0 .mod 0 0x28 0 16 v
  else s

/-- INPUT_SAMPLE (R353). -/
def execInputSample (v i : Nat) (s : State) : Host.Outcome State Fault Refusal := .next (s.inputSample v i)

/-- A budget within 10 % and 100 % of the module maximum (R352). -/
def State.budgetOf (s : State) (w : Nat) : Nat := max (s.part.maxWatts / 10) (min s.part.maxWatts w)

/-- The supply-following cap (R353), W, rounded down; before the first sample the module maximum. -/
def State.supplyCap (s : State) : Nat :=
  let p := s.part.maxWatts
  match s.modc.vins with
  | [] => p
  | v :: r =>
    let low := r.foldl min v
    if 4000 ≤ low then p else if 3800 ≤ low then p * (1000 + 15 * (low - 3800)) / 4000 else p / 4

/-- MOD_COOL.MISSING bit: 0 inlet, 1 outlet, 2 flow missing or stuck. -/
def State.missing (s : State) (k : Nat) : Bool := s.fld 0 .mod 0 0x58 (49 + k) 1 = 1

/-- Inlet temperature that the controller uses, 1/128 °C: 40 °C while the sensor is missing (R366). -/
def State.inlet (s : State) : Int := if s.missing 0 then 5120 else signedOf 16 (s.fld 0 .mod 0 0x58 16 16)

/-- The mean flow of the last 100 readings (R368) as their sum and number. -/
def State.flowSum (s : State) : Nat × Nat := (s.modc.flows.foldl (· + ·) 0, s.modc.flows.length)

/-- The coolant cap (R366, R368, R369), W, rounded down; before the first reading the module maximum. -/
def State.coolCap (s : State) : Nat :=
  let p := s.part.maxWatts
  if s.part.air then
    let t := s.inlet
    if t ≤ 4480 then p else if 5760 ≤ t then p / 2 else p - (p * (t - 4480).toNat + 2559) / 2560
  else if s.fld 0 .mod 0 0x58 48 1 = 1 then p / 10
  else if s.missing 2 then p / 2
  else
    let f := s.flowSum
    if f.2 = 0 then p
    else
      let dt := ((s.fld 0 .mod 0 0x60 28 8 * 128 : Nat) : Int) - s.inlet
      f.1 * s.fld 0 .mod 0 0x60 16 12 * dt.toNat / (f.2 * 60000 * 128)

/-- The cap sources in the order of Table 20.1, W. -/
def State.capSources (s : State) : List Nat :=
  [s.part.maxWatts, s.budgetOf (s.fld 0 .mod 0 0x38 0 16), s.budgetOf (s.fld 0 .mod 0 0x38 16 16), s.supplyCap,
    popcount (s.fld 0 .mod 0 0x28 32 4) 4 * 120000 / 97, s.coolCap]

/-- The least cap and its source; of equal values the lower source (R352). -/
def State.effCap (s : State) : Nat × Nat :=
  ((List.range 6).zip s.capSources).foldl (fun a x => if x.2 < a.1 then (x.2, x.1) else a) (s.part.maxWatts, 0)

/-- Rail energy of the dies that run since the last evaluation, pJ. -/
def State.allRailPj (s : State) : Nat := s.allDies.foldl (fun n d => n + (s.die d).energy.foldl (fun k e => k + e.2) 0) 0

/-- Each die's budget (R354), W at the rail side. -/
def State.setBudgets (s : State) (cap : Nat) (sm : CapSample) : State :=
  let rest := cap - sm.other
  let ds := s.allDies.filter s.live
  let total := ds.foldl (fun n d => n + sm.demand.getD d 0) 0
  forEach ds (fun d t =>
    let num := rest * (if total = 0 then 1 else sm.demand.getD d 0)
    let den := if total = 0 then ds.length else total
    let w := if s.modc.inPj = 0 then num / den else num * s.allRailPj / (den * s.modc.inPj)
    t.setFld d .pwr 0 0x60 0 16 (min 0xFFFF w)) s

/-- Carry pJ into a µJ counter: the fraction under key `key`, the counter at an address. -/
def State.charge (s : State) (key a pj : Nat) : State :=
  let x := smGet 0 s.modc.frac key + pj
  (s.updMod (fun m => { m with frac := smPut 0 m.frac key (x % 1000000) })).setReg a (s.reg a + wordOf (x / 1000000))

/-- Input energy that a die's partition is charged: rail energy ÷ k (R358). -/
def State.chargeOf (s : State) (d k : Nat) : Nat :=
  let all := s.allRailPj
  if all = 0 then 0 else smGet 0 (s.die d).energy k * s.modc.inPj / all

/-- Charge the interval's energy (R355, R358): the partitions of dies and module, the input, and the rest to none. -/
def State.chargeAll (s : State) : State :=
  let s1 := forEach s.allDies (fun d t => forEach (List.range 32) (fun k u =>
    u.charge (d * 64 + 64 + k) (regAddr d .pwr 0 (0x200 + 8 * k)) (s.chargeOf d k)) t) s
  let s2 := forEach (List.range 32) (fun k t =>
    t.charge k (regAddr 0 .mod 0 (0x100 + 8 * k)) (s.allDies.foldl (fun n d => n + s.chargeOf d k) 0)) s1
  let s3 := s2.charge 33 (regAddr 0 .mod 0 0x48) s.modc.inPj
  let parts := (List.range 32).foldl (fun n k => n + s3.rg 0 .mod 0 (0x100 + 8 * k)) (0 : Word)
  let s4 := s3.setRg 0 .mod 0 0x50 (s3.rg 0 .mod 0 0x48 - parts)
  forEach s.allDies (fun d t => t.updDie d (fun x => { x with energy := [] })) (s4.updMod (fun m => { m with inPj := 0 }))

/-- CAP_EVAL: the 100 µs evaluation of the module cap, the dies' budgets and the energy counters (R352–R354, R358). -/
def State.capEval (s : State) (sm : CapSample) : State :=
  if !s.fed then s
  else
    let c := s.effCap
    let s1 := s.setRg 0 .mod 0 0x40 (wordOf (c.1 % 65536 + c.2 * 65536 + s.modc.inPj / 100000000 % 65536 * 2 ^ 32))
    let s2 := if s.supplyCap < s.part.maxWatts then s1.setStat 0 .mod 0 (bitMask 11) else s1
    (s2.setBudgets c.1 sm).chargeAll

/-- CAP_EVAL (R352). -/
def execCapEval (sm : CapSample) (s : State) : Host.Outcome State Fault Refusal := .next (s.capEval sm)

/-- DIE_BUDGET_EVAL: every 10 µs a die compares its cluster rail power with its budget (R354). -/
def State.dieBudget (s : State) (d watts : Nat) : State :=
  if !s.live d then s
  else
    let b := s.fld d .pwr 0 0x60 0 16
    let n := s.ncap d
    let m := if 12 * b < 10 * watts then n - 2 else if b < watts then n - 1 else if 100 * watts < 95 * b then n + 1 else n
    (s.setFld d .pwr 0 0x60 16 5 (max 8 (min 19 m))).capHeld d

/-- DIE_BUDGET_EVAL (R354). -/
def execDieBudgetEval (d watts : Nat) (s : State) : Host.Outcome State Fault Refusal := .next (s.dieBudget d watts)

end Sys2Proof.Machine
end

