-- ==== Sys2Proof/Machine/Thermal.lean ====
section
/-! DEFINITION. Temperature and coolant (R361–R370). Temperatures of a die are in units of 0.125 °C. -/

namespace Sys2Proof.Machine

/-- THM_ELOG of a cause (Table 21.7). -/
def thmLog (cause sensor reading : Nat) : Nat := cause + sensor % 128 * 256 + reading % 4096 * 65536

/-- THM_SENS_i.READING. -/
def State.sens (s : State) (d i : Nat) : Nat := s.fld d .thm 0 (0x100 + 8 * i) 0 12

/-- THM_CL_p.TEMP. -/
def State.temp (s : State) (d p : Nat) : Nat := s.fld d .thm 0 (thPage p) 8 12

/-- A threshold is crossed from below. -/
def rose (th old new : Nat) : Bool := decide (old < th) && decide (th ≤ new)

/-! ### Sensor pairs (R362) -/

/-- THM_CL_p.PAIR_FAULT. -/
def State.pairBad (s : State) (d p : Nat) : Bool := s.fld d .thm 0 (thPage p) 6 1 = 1

/-- The higher reading of a pair. -/
def State.pairTop (s : State) (d p : Nat) : Nat := max (s.sens d (2 * p)) (s.sens d (2 * p + 1))

/-- The difference between the readings of a pair. -/
def State.pairDiff (s : State) (d p : Nat) : Nat := s.pairTop d p - min (s.sens d (2 * p)) (s.sens d (2 * p + 1))

/-- The neighbours of a physical cluster (R362). -/
def neighbours (p : Nat) : List Nat := allPhys.filter (fun q => q + 1 = p || q = p + 1 || q + 13 = p || q = p + 13)

/-- The temperature used for control (R362): a faulty pair takes 10 °C above the highest sound pair beside it, or 105 °C. -/
def State.tempNow (s : State) (d p : Nat) : Nat :=
  if s.pairBad d p then
    let qs := (neighbours p).filter (fun q => s.railSt d q ≠ 3 && !s.pairBad d q)
    if qs.isEmpty then 840 else min 4095 (80 + qs.foldl (fun n q => max n (s.pairTop d q)) 0)
  else s.pairTop d p

/-! ### Junction thresholds (R363, R364) -/

/-- The hotter sensor of a pair. -/
def State.hotSensor (s : State) (d p : Nat) : Nat := if s.sens d (2 * p) < s.sens d (2 * p + 1) then 2 * p + 1 else 2 * p

/-- The thermal ceiling of a cluster falls one step below N (Table 21.2). -/
def State.throttle (s : State) (d p : Nat) : State :=
  (s.setFld d .thm 0 (thPage p) 0 5 (max 8 (min (s.fld d .thm 0 (thPage p) 0 5) (s.stepN d p - 1)))).setStat d .thm 0 (bitMask 10)

/-- A cluster's temperature is compared with the thresholds (Table 21.2). -/
def State.clusterHeat (s : State) (d p : Nat) : State :=
  let old := s.temp d p
  let t := s.tempNow d p
  let x := s.hotSensor d p
  let s1 := s.setFld d .thm 0 (thPage p) 8 12 t
  let s2 := if rose 760 old t then s1.throttle d p else s1
  let s3 := if rose 840 old t then (s2.setFld d .thm 0 (thPage p) 0 5 8).raise d .thm 0 11 .ce (thmLog 3 x t) else s2
  let s4 := if rose 920 old t then (s3.setFld d .thm 0 (thPage p) 5 1 1).raise d .thm 0 12 .ucc (thmLog 4 x t) else s3
  if rose 1000 old t then s4.raise d .thm 0 13 .ftl (thmLog 5 x t) else s4

/-- The unit of a sensor that is none of a cluster: the Cellar stands at its first sensor. -/
def unitOf (i : Nat) : Nat := if i < 108 then 104 else i

/-- Temperature of such a unit: the highest of the Cellar's four sensors (Table 21.1). -/
def State.unitTemp (s : State) (d u : Nat) : Nat :=
  if u = 104 then (List.range 4).foldl (fun n k => max n (s.sens d (104 + k))) 0 else s.sens d u

/-- A unit's temperature is compared with the thresholds (Table 21.2). -/
def State.unitHeat (s : State) (d i old : Nat) : State :=
  let u := unitOf i
  let t := s.unitTemp d u
  let s1 := if rose 840 old t then s.raise d .thm 0 11 .ce (thmLog 3 i t) else s
  let s2 := if rose 920 old t then
      (s1.updDie d (fun x => { x with emerg := x.emerg.filter (· ≠ u) ++ [u] })).raise d .thm 0 12 .ucc (thmLog 4 i t)
    else s1
  if rose 1000 old t then s2.raise d .thm 0 13 .ftl (thmLog 5 i t) else s2

/-- A conversion enters its sensor's mean of four (R361). -/
def State.convert (s : State) (d i t : Nat) : State :=
  let xs := (min t 4095 :: smGet [] (s.die d).conv i).take 4
  (s.updDie d (fun x => { x with conv := smPut [] x.conv i xs })).setFld d .thm 0 (0x100 + 8 * i) 0 12 (xs.foldl (· + ·) 0 / xs.length)

/-- PAIR_DIFF of a pair (R362): raised above 4 °C, and again only after the difference has fallen below 3 °C. -/
def State.pairWatch (s : State) (d p : Nat) : State :=
  let n := s.pairDiff d p
  if decide (32 < n) && !(s.ph d p).diffHeld then
    (s.updPh d p (fun x => { x with diffHeld := true })).raise d .thm 0 8 .ce (thmLog 1 (s.hotSensor d p) (s.pairTop d p))
  else if n < 24 then s.updPh d p (fun x => { x with diffHeld := false })
  else s

/-- SENSOR_CONVERSION: a die sensor converts (R361–R364); a cluster's reading also moves the temperature of a neighbour whose pair is
faulty. -/
def State.sensor (s : State) (d i t : Nat) : State :=
  if !(s.live d && decide (i < 114)) then s
  else if i < 104 then
    let p := i / 2
    let s1 := (s.convert d i t).pairWatch d p
    forEach (p :: (neighbours p).filter (fun q => s1.pairBad d q)) (fun q u => u.clusterHeat d q) s1
  else (s.convert d i t).unitHeat d i (s.unitTemp d (unitOf i))

/-- SENSOR_CONVERSION (R361). -/
def execSensorConversion (d i t : Nat) (s : State) : Host.Outcome State Fault Refusal := .next (s.sensor d i t)

/-- PAIR_FAULT: a pair has differed by more than 10 °C in every conversion for 1 ms (R362): it is faulty until the next start, and a
spare is called for (R389). -/
def State.pairFault (s : State) (d p : Nat) : State :=
  if s.live d && decide (p < 52) && !s.pairBad d p && decide (80 < s.pairDiff d p) then
    let s1 := ((s.setFld d .thm 0 (0x100 + 16 * p) 12 1 1).setFld d .thm 0 (0x108 + 16 * p) 12 1 1).setFld d .thm 0 (thPage p) 6 1 1
    ((s1.raise d .thm 0 9 .ucc (thmLog 2 (s.hotSensor d p) (s.pairTop d p))).clusterHeat d p).physTrigger d p
  else s

/-- PAIR_FAULT (R362). -/
def execPairFault (d p : Nat) (s : State) : Host.Outcome State Fault Refusal := .next (s.pairFault d p)

/-- THROTTLE_STEP: every 100 µs at 95 °C or above the thermal ceiling falls again (Table 21.2). -/
def execThrottleStep (d p : Nat) (s : State) : Host.Outcome State Fault Refusal :=
  .next (if s.live d && decide (p < 52) && decide (760 ≤ s.temp d p) then s.throttle d p else s)

/-- THERMAL_UNDO: the unit of sensor `i` has stayed 3 K below a threshold for 1 ms (R363, R364): its emergency ends below 112 °C, and
below 92 °C a cluster's ceiling rises by one step. -/
def State.thermalUndo (s : State) (d i : Nat) : State :=
  if !(s.live d && decide (i < 114)) then s
  else if i < 104 then
    let p := i / 2
    let t := s.temp d p
    let s1 := if t < 896 then s.setFld d .thm 0 (thPage p) 5 1 0 else s
    if t < 736 then s1.setFld d .thm 0 (thPage p) 0 5 (min 19 (s1.fld d .thm 0 (thPage p) 0 5 + 1)) else s1
  else if s.unitTemp d (unitOf i) < 896 then s.updDie d (fun x => { x with emerg := x.emerg.filter (· ≠ unitOf i) })
  else s

/-- THERMAL_UNDO (R363). -/
def execThermalUndo (d i : Nat) (s : State) : Host.Outcome State Fault Refusal := .next (s.thermalUndo d i)

/-- HBM_TEMP_READ: a stack's temperature, °C (R361, R365): HBM_HOT at 100 °C; at 105 °C the stack goes into self-refresh and the die
stops, HBM_TRIP. -/
def State.hbmTemp (s : State) (d k t : Nat) : State :=
  if !(s.live d && decide (k < 2)) then s
  else
    let v := min t 255
    let old := s.fld d .hbm k 0x30 0 8
    let s1 := (s.setFld d .hbm k 0x30 0 8 v).setFld d .thm 0 (0x100 + 8 * (114 + k)) 0 12 (8 * v)
    let s2 := if rose 100 old v then s1.raise d .thm 0 14 .ce (thmLog 6 (114 + k) (8 * v)) else s1
    if rose 105 old v then (s2.hbmSleep d k).raise d .thm 0 15 .ftl (thmLog 7 (114 + k) (8 * v)) else s2

/-- HBM_TEMP_READ (R365). -/
def execHbmTempRead (d k t : Nat) (s : State) : Host.Outcome State Fault Refusal := .next (s.hbmTemp d k t)

/-! ### Coolant (R366–R369) -/

/-- A tray sensor that has not answered three reads in a row is missing: TRAY_SENSOR (R366). -/
def State.trayMiss (s : State) (k n : Nat) : State :=
  if n = 3 then (s.setFld 0 .mod 0 0x58 (49 + k) 1 1).modRaise 15 6 0 k .ce else s

/-- A temperature is read from the tray: inlet 0, outlet 1 (R366). -/
def State.trayTemp (s : State) (k n : Nat) (v : Option Int) : State :=
  match v with
  | some t => (s.setFld 0 .mod 0 0x58 (16 + 16 * k) 16 (unsignedOf 16 t)).setFld 0 .mod 0 0x58 (49 + k) 1 0
  | none => s.trayMiss k n

/-- Ten readings of one value in a row: the flow reading is stuck (R366). -/
def flowStuck (xs : List Nat) : Bool := decide (10 ≤ xs.length) && (xs.take 10).all (fun x => x = xs.headD 0)

/-- The flow is read, mL/min (R366). -/
def State.trayFlow (s : State) (n : Nat) (v : Option Nat) : State :=
  match v with
  | some f =>
    let s1 := (s.setFld 0 .mod 0 0x58 0 16 f).updMod (fun m => { m with flows := (f % 65536 :: m.flows).take 100 })
    s1.setFld 0 .mod 0 0x58 51 1 (b2n (flowStuck s1.modc.flows))
  | none => s.trayMiss 2 n

/-- MOD_COOL_CFG.RATED, mL/min. -/
def State.rated (s : State) : Nat := s.fld 0 .mod 0 0x60 0 16

/-- FLOW_LOW (R368): the mean flow is below 85 % of RATED; raised again only after it has returned above 90 %. -/
def State.flowWatch (s : State) : State :=
  let f := s.flowSum
  if decide (100 * f.1 < 85 * s.rated * f.2) && !s.modc.flowHeld then
    (s.updMod (fun m => { m with flowHeld := true })).modRaise 12 3 0 0 .ce
  else if 90 * s.rated * f.2 < 100 * f.1 then s.updMod (fun m => { m with flowHeld := false })
  else s

/-- The coolant has stopped (R369): every flow reading of 20 ms below 15 % of RATED; or, with the flow reading stuck or missing, the
mean outlet reading of 5 ms more than 0.01 K above that of the 5 ms before. -/
def State.coolStopped (s : State) : Bool :=
  (decide (20 ≤ s.modc.flows.length) && decide (s.modc.noAns.2.2 = 0) &&
    (s.modc.flows.take 20).all (fun f => decide (100 * f < 15 * s.rated))) ||
  (s.missing 2 && decide (10 ≤ s.modc.outs.length) &&
    decide (7 ≤ (s.modc.outs.take 5).foldl (· + ·) 0 - ((s.modc.outs.drop 5).take 5).foldl (· + ·) 0))

/-- MOD_COOL.STOPPED. -/
def State.stopForce (s : State) : Bool := s.fld 0 .mod 0 0x58 48 1 = 1

/-- A coolant stop begins, goes on or ends (R369); `flow` is this read's flow. -/
def State.coolWatch (s : State) (flow : Option Nat) : State :=
  if !s.stopForce then
    if s.coolStopped then
      ((s.setFld 0 .mod 0 0x58 48 1 1).updMod (fun m => { m with coolStop := some 0, goodFlow := 0 })).modRaise 13 4 0 0 .ucc
    else s
  else
    let good := match flow with
      | some f => decide (85 * s.rated ≤ 100 * f) && !s.missing 2
      | none => false
    let n := if good then s.modc.goodFlow + 1 else 0
    if 1000 ≤ n then (s.setFld 0 .mod 0 0x58 48 1 0).updMod (fun m => { m with coolStop := none, goodFlow := 0 })
    else s.updMod (fun m => { m with coolStop := m.coolStop.map (· + 1), goodFlow := n })

/-- TRAY_READ: the 1 ms read of the tray sensors (R366–R369), at which a SWAP of MOD takes effect (R370); no flow is read on the
SYN-T2A. -/
def State.trayRead (s : State) (tin tout : Option Int) (flow : Option Nat) : State :=
  if !(s.modc.good && !s.modc.rstLow) then s
  else
    let s0 := s.doSwap 0 .mod 0
    let n := s0.modc.noAns
    let bump (o : Bool) (k : Nat) : Nat := if o then 0 else k + 1
    let m := (bump tin.isSome n.1, bump tout.isSome n.2.1, bump (flow.isSome || s.part.air) n.2.2)
    let s1 := s0.updMod (fun x => { x with noAns := m })
    let s2 := (s1.trayTemp 0 m.1 tin).trayTemp 1 m.2.1 tout
    let s3 := match tout with
      | some t => s2.updMod (fun x => { x with outs := (t :: x.outs).take 10 })
      | none => s2
    if s.part.air then s3 else ((s3.trayFlow m.2.2 flow).flowWatch).coolWatch flow

/-- TRAY_READ (R366). -/
def execTrayRead (tin tout : Option Int) (flow : Option Nat) (s : State) : Host.Outcome State Fault Refusal :=
  .next (s.trayRead tin tout flow)

/-- COOLANT_SHUTDOWN: a stop has not ended 2 s after its detection (R369). -/
def State.coolShutdown (s : State) : State :=
  match s.modc.coolStop with
  | some n => if 2000 ≤ n then s.modRaise 14 5 0 0 .ftl else s
  | none => s

/-- COOLANT_SHUTDOWN (R369). -/
def execCoolantShutdown (s : State) : Host.Outcome State Fault Refusal := .next s.coolShutdown

end Sys2Proof.Machine
end

