-- ==== Sys2Proof/Machine/Faults.lean ====
section
/-! DEFINITION. Faults, stops in order and clears (R371–R388), and the bridges' retry (R405). -/

namespace Sys2Proof.Machine

/-- ERRN_STUCK: the pin has read high for 10 µs while it is driven low (R374). -/
def State.errnStuckSeen (s : State) : State :=
  if s.errnLow then { s.modRaise 16 7 0 0 .ftl with errnStuck := true } else s

/-- ERRN_STUCK (R374). -/
def execErrnStuck (s : State) : Host.Outcome State Fault Refusal := .next s.errnStuckSeen

/-- DIE_STOP: a die stops in order for the fatal cause that waits (R371, R384). -/
def execDieStop (d : Nat) (b : Blk) (bit : Nat) (s : State) : Host.Outcome State Fault Refusal :=
  .next (if s.awake d && decide ((s.die d).stopDue = some (b, bit)) then s.dieStop d b bit else s)

/-- MODULE_STOP: the module stops in order for the fatal cause of MOD that waits (R371, R385). -/
def execModuleStop (s : State) : Host.Outcome State Fault Refusal :=
  .next (match s.modc.stopDue with
    | some bit => if s.modc.stopped then s else s.moduleStop bit
    | none => s)

/-- TRL_ELOG of a cause (Table 24.7). -/
def trlLog (cause peer : Nat) : Nat := cause + peer % 8 * 256

/-- BRIDGE_FLIT_REJECT: a die's bridge rejects a flit of a peer, which resends it (R405); `n` resends of the flit have been rejected in a
row, this one included where it is a resend: eight stop both dies. -/
def State.bridgeReject (s : State) (d peer n : Nat) : State :=
  if !(s.live d && s.live peer && decide (d ≠ peer)) then s
  else if 8 ≤ n then (s.raise d .trl 0 9 .ftl (trlLog 2 peer)).raise peer .trl 0 9 .ftl (trlLog 2 d)
  else ((s.raise d .trl 0 8 .ce (trlLog 1 peer)).addRg d .trl 0 0x20 1).emit (.bridge d peer)

/-- BRIDGE_FLIT_REJECT (R405). -/
def execBridgeFlitReject (d peer n : Nat) (s : State) : Host.Outcome State Fault Refusal := .next (s.bridgeReject d peer n)

/-- The block instance exists on a die of the module (Table 24.1). -/
def State.hasInst (s : State) (d : Nat) (b : Blk) (i : Nat) : Bool :=
  decide (d < s.nd) && decide (i < Blk.insts b) && (b ≠ .mod || decide (d = 0))

/-- The die's registers answer: it was released (R398); those of MOD always do. -/
def State.regsUp (s : State) (d : Nat) (b : Blk) : Bool := b = .mod || (s.die d).up

/-- STATUS_CLEAR: ones written to W1C bits of a status register (R387). -/
def execStatusClear (d : Nat) (b : Blk) (i : Nat) (v : Word) (s : State) : Host.Outcome State Fault Refusal :=
  .next (if s.hasInst d b i && s.regsUp d b then s.clearStat d b i v else s)

end Sys2Proof.Machine
end

