-- ==== Sys2Proof/Machine/Spares.lean ====
section
/-! DEFINITION. Spares (R389–R395): the commands of MOD_SPARE_CMD, the switch-in of a cluster, the in-field test, and repair records. -/

namespace Sys2Proof.Machine

/-! ### Commands (R389, R394, R395) -/

/-- The module controller answers: its firmware runs and RST_N is high (R298). -/
def State.mcUp (s : State) : Bool := s.modc.good && !s.modc.rstLow

/-- A command is refused while another runs: CONFIG_BUSY (R395). -/
def State.spareCmd (s : State) (f : State → State) : State × Bool :=
  if s.switchBusy then (s.configBusy 0 .mod 0, false) else (f s, true)

/-- CL_IN or TEST_CL on a logical cluster (R389, R394). -/
def State.clusterIn (s : State) (d l : Nat) (test : Bool) : State :=
  if !(s.live d && decide (l < 48)) then s.spareEnd 1
  else match s.serving d l with
  | none => s.spareEnd 1
  | some p =>
    match s.freeSpare d with
    | none => s.spareEnd 2
    | some k => s.startSwitch d l p k test

/-- BANK_IN (R389, R391): the copy waits for the Cellar's quiescent point. -/
def State.bankIn (s : State) (d bank : Nat) : State :=
  if !(s.live d && decide (bank < 1024)) then s.spareEnd 1
  else match (List.range 32).find? (fun k => s.fld d .cel 0 (spareOff k) 0 1 = 0) with
  | none => s.spareEnd 2
  | some k =>
    let x := s.celSpareIn d bank k
    if x.2 then (x.1.spareDue).spareEnd 4 else x.1.spareEnd 1

/-- LANE_IN (R234, R389). -/
def State.laneIn (s : State) (d p lane : Nat) : State :=
  if !(s.live d && decide (p < 4) && decide (lane < 8)) then s.spareEnd 1
  else
    let x := s.macSpareIn d p lane
    x.1.spareEnd (if x.2 then 0 else 2)

/-- RETIRE of an HBM unit (R194, R389). -/
def State.retireIn (s : State) (d k pc unit : Nat) : State :=
  if !(s.hbmLive d k && decide (unit < 15104)) then s.spareEnd 1
  else if ((List.range 256).find? ((s.hbm d k).poolFree (pc % 64))).isNone then (s.hbmRetire d k pc unit).1.spareEnd 2
  else
    let x := s.hbmRetire d k pc unit
    x.1.spareEnd (if x.2 then 0 else 1)

/-- A write of MOD_SPARE_CMD (Table 23.5). -/
def State.spareWrite (s : State) (v : Word) : State × Bool :=
  let d := bits v 4 3
  let tgt := bits v 8 24
  s.spareCmd (fun t =>
    match bits v 0 4 with
    | 1 => t.clusterIn d tgt false
    | 2 => t.bankIn d tgt
    | 3 => t.laneIn d (tgt / 8) (tgt % 8)
    | 4 => t.retireIn d (bits v 7 1) (bits v 8 6) (bits v 14 14)
    | 5 => t.clusterIn d tgt true
    | _ => t.spareEnd 1)

/-- CL_IN (R389). -/
def execClIn (d l : Nat) (s : State) : Host.Outcome State Fault Refusal :=
  .next (if s.mcUp then (s.spareCmd (fun t => t.clusterIn d l false)).1 else s)

/-- BANK_IN (R389). -/
def execBankIn (d bank : Nat) (s : State) : Host.Outcome State Fault Refusal :=
  .next (if s.mcUp then (s.spareCmd (fun t => t.bankIn d bank)).1 else s)

/-- LANE_IN (R389). -/
def execLaneIn (d p lane : Nat) (s : State) : Host.Outcome State Fault Refusal :=
  .next (if s.mcUp then (s.spareCmd (fun t => t.laneIn d p lane)).1 else s)

/-- RETIRE (R389). -/
def execSpareRetire (d k pc unit : Nat) (s : State) : Host.Outcome State Fault Refusal :=
  .next (if s.mcUp then (s.spareCmd (fun t => t.retireIn d k pc unit)).1 else s)

/-- TEST_CL (R394). -/
def execTestCl (d l : Nat) (s : State) : Host.Outcome State Fault Refusal :=
  .next (if s.mcUp then (s.spareCmd (fun t => t.clusterIn d l true)).1 else s)

/-! ### The switch-in of a cluster (R390, R391) -/

/-- The spare has run its tests (Table 23.2, t1 and t2): a failure abandons it; else the sequencer releases no further step to the
logical cluster. -/
def State.switchHold (s : State) (bad : Bool) : State :=
  match s.modc.sw with
  | some (d, l, p, k, 0, test) =>
    if !(s.live d && decide (s.railSt d k = 0)) then s
    else if bad then (s.raise d .saf 0 12 .ucc (5 + k * 256)).spareFailed
    else (s.updMod (fun m => { m with sw := some (d, l, p, k, 1, test) })).updCl d l (fun x => { x with held := true })
  | _ => s

/-- CLUSTER_SWITCH_HOLD (R390). -/
def execClusterSwitchHold (bad : Bool) (s : State) : Host.Outcome State Fault Refusal := .next (s.switchHold bad)

/-- After RAIL_LOST a spare starts empty (R391): tiles cleared, registers, shadow sets and generator state at their reset values. -/
def State.freshCluster (s : State) (d l : Nat) : State :=
  let mine (a : Nat) : Bool := inBlock d .mma l a || inBlock d .cvu l a || inBlock d .srg l a
  let s1 : State := { s with regs := s.regs.filter (fun e => !mine e.1), shadow := s.shadow.filter (fun e => !mine e.1),
                             classes := s.classes.filter (fun e => !mine (e.1 / 64)) }
  s1.updCl d l (fun x => { x with arr := [], preload := none })

/-- The logical cluster moves to the spare (Table 23.2, t4): the old cluster goes dark. A cluster that is freed for a test is tested
next (R394); any other is retired. -/
def State.switchMove (s : State) (d l p k : Nat) (test : Bool) : State :=
  let s1 := ((s.setLogical d k l).setLogical d p 0x3F).setRailSt d p 3
  let s2 := (s1.updPh d p (fun x => { x with target := none, next := none, deferred := none, latched := false, stretch := false, retired := !test })).updCl d l
    (fun x => { x with held := false })
  let s3 := (s2.modRaise 17 8 d l .ce).repairDue d
  if test then s3.updMod (fun m => { m with sw := none, test := some (d, p) }) else s3.spareEnd 0

/-- The copy (Table 23.2, t3 and t4): once the old cluster is empty and no preload is under way; what a cluster holds stands under its
logical number. A cluster that went dark leaves nothing to copy (R391). -/
def State.switchCopy (s : State) : State :=
  match s.modc.sw with
  | some (d, l, p, k, 1, test) =>
    if !s.live d then s
    else if s.railSt d p = 3 then (s.freshCluster d l).switchMove d l p k test
    else if s.clEmpty d l && (s.cl d l).preload.isNone then s.switchMove d l p k test
    else s
  | _ => s

/-- CLUSTER_SWITCH_COPY (R390). -/
def execClusterSwitchCopy (s : State) : Host.Outcome State Fault Refusal := .next s.switchCopy

/-- The pattern test of a freed cluster ends (R394): a pass makes it a spare, a failure retires it. -/
def State.patternEnd (s : State) (bad : Bool) : State :=
  match s.modc.test with
  | some (d, p) => ((s.updPh d p (fun x => { x with retired := bad })).repairDue d).spareEnd (if bad then 3 else 0)
  | none => s

/-- PATTERN_TEST_END (R394). -/
def execPatternTestEnd (bad : Bool) (s : State) : Host.Outcome State Fault Refusal := .next (s.patternEnd bad)

/-! ### Repair records (R393) -/

/-- A die's REPAIR record is written, or the write fails and is marked for a retry. -/
def State.repairWrite (s : State) (d : Nat) (wr late : Bool) : State :=
  let others (m : ModCtl) : List (Nat × Bool) := m.repair.filter (fun e => e ≠ (d, late))
  if !s.modc.repair.contains (d, late) then s
  else if wr then (s.fieldWrite 0x22 d (s.repairPayload d)).updMod (fun m => { m with repair := others m })
  else if late then s
  else (s.updMod (fun m => { m with repair := others m ++ [(d, true)] })).modRaise 19 0xA d 0 .ce

/-- REPAIR_RECORD_WRITE (R393); `wr` says that the flash took the write. -/
def execRepairRecordWrite (d : Nat) (wr : Bool) (s : State) : Host.Outcome State Fault Refusal :=
  .next (if s.mcUp then s.repairWrite d wr false else s)

/-- REPAIR_RETRY (R393). -/
def execRepairRetry (d : Nat) (wr : Bool) (s : State) : Host.Outcome State Fault Refusal :=
  .next (if s.mcUp then s.repairWrite d wr true else s)

end Sys2Proof.Machine
end

