-- ==== Sys2Proof/Machine/RegRead.lean ====
section
/-! DEFINITION. What a register access meets (R398) and what a register reads as (R10, R406): the fields that show the state of a block
are computed from it. -/

namespace Sys2Proof.Machine

/-- What a register-space address names (R398). -/
inductive RegAt where
  /-- Nothing: status ADDR. -/
  | absent
  /-- A reserved offset below the block's highest one in use, on a die or block that answers: zero, writes ignored. -/
  | reserved
  /-- A register of a die or block held in reset: its reset value, writes ignored. -/
  | held (l : RegLoc) (r : RegDef)
  /-- A register of a stopped die, or of a die in the low-power state: its value, writes ignored but to W1C bits of the always-on
  registers. -/
  | still (l : RegLoc) (r : RegDef)
  /-- A register. -/
  | live (l : RegLoc) (r : RegDef)
deriving DecidableEq, Repr

/-- The block's instances follow the logical cluster (R397). -/
def byCluster (b : Blk) : Bool := b = .mma || b = .cvu || b = .srg

/-- The window exists: die, block, instance and offset (R396, R398). -/
def State.placeOk (s : State) (l : RegLoc) : Bool :=
  s.hasInst l.d l.b l.i && Blk.offsetInUse l.b l.f && !(byCluster l.b && s.modc.absent.contains (l.d * 64 + l.i))

/-- The block is held in reset: its die was not released, or it is an Aigraic Link block without a port (R15, R296, R304). -/
def State.inReset (s : State) (l : RegLoc) : Bool :=
  l.b ≠ .mod && (!(s.die l.d).up || (l.b = .agl && !s.linkDies.contains l.d))

/-- What a place of register space holds (R398). -/
def State.placeAt (s : State) (o : Option RegLoc) : RegAt :=
  match o with
  | none => .absent
  | some l =>
    if !s.placeOk l then .absent
    else match regDef s.part l.d l.b l.f with
    | none => .reserved
    | some r =>
      if s.inReset l then .held l r
      else if l.b ≠ .mod && !s.live l.d then .still l r
      else .live l r

/-- What an aligned register-space address names (R398). -/
def State.regAt (s : State) (a : Nat) : RegAt := s.placeAt (locOf a)

/-! ### Computed fields -/

/-- MMA_STAT: ARRAY_BUSY and OPEN_TILES of a cluster (Table 3.6). -/
def State.mmaStat (s : State) (d l : Nat) : Word :=
  let busy := (List.range 4).foldl (fun n a =>
    if s.flights.any (fun f => f.d = d && stKind f.ws = kMMA && f.units.contains (4 * l + a)) then n + 2 ^ a else n) 0
  let opens := min 3 (((s.cl d l).arr.filter (fun a => a.2.isOpen)).length)
  withBits (withBits (s.rg d .mma l 0) 16 4 busy) 20 2 opens

/-- SEQ_STAT: TRAPPED and STOPPED (Table 6.10). -/
def State.seqStat (s : State) (d : Nat) : Word :=
  let has (t : CtxSt) : Nat := (List.range 8).foldl (fun n c => if (s.ctx d c).st = t then n + 2 ^ c else n) 0
  withBits (withBits (s.rg d .seq 0 0) 16 8 (has .trapped)) 24 8 (has .stopped)

/-- SEQ_CTX_STATE_c (Table 6.16). -/
def State.ctxStateReg (s : State) (d c : Nat) : Word :=
  let x := s.ctx d c
  wordOf (s.ctxCode d c + 8 * b2n x.main.ret.isSome + 16 * b2n x.defer.ret.isSome + x.main.head % 2 ^ 24 * 256 +
    x.defer.head % 2 ^ 24 * 2 ^ 32)

/-- FAB_RCH_STATE (Table 13.12). -/
def State.rchState (s : State) (d c h : Nat) : Word :=
  let x := s.chan d c h
  let b := if x.phase = 0 then (x.prev.map (·.1)).getD 0 else ((x.accepted.head?).map (·.bseq)).getD 0
  wordOf (x.accepted.length + 8 * x.phase + 65536 * s.chanOrd d c h + b % 2 ^ 32 * 2 ^ 32)

/-- HBM_REMAP_DATA: the pool unit that HBM_REMAP_SEL selects (Table 10.10). -/
def State.remapData (s : State) (d k : Nat) : Word :=
  let pc := s.fld d .hbm k 0x40 0 6
  let n := s.fld d .hbm k 0x40 6 8
  let h := s.hbm d k
  match h.remap.find? (fun e => e.1 / 16384 = pc && e.2 = n + 1) with
  | some e => wordOf (e.1 % 16384 + n * 2 ^ 14 + 2 ^ 22)
  | none => wordOf (n * 2 ^ 14 + b2n (h.bad.contains (pc * 256 + n)) * 2 ^ 23)

/-- CVU_TBL_DATA (Table 4.10): a coefficient of a standard table, or word 0 of its header. -/
def State.tblData (s : State) (d l : Nat) : Word :=
  let w := s.rg d .cvu l 0x28
  let fn := bits w 0 4
  if fn = 0 ∨ 8 < fn then 0
  else if bits w 10 2 = 3 then
    let t := stdTab fn
    wordOf (t.mode % 256 + t.segw % 256 * 256 + t.ofrac % 256 * 65536 + t.tails % 256 * 2 ^ 24)
  else (stdCoef fn (bits w 4 6) (bits w 10 2)).setWidth 64

/-- PWR_LW_DATA and PWR_LW_TIME of the selected entry (Table 19.6). -/
def State.lwData (s : State) (d : Nat) : Word × Word :=
  let r := s.fld d .pwr 0 0x28 0 6
  let e := smGet (0, 0) (s.die d).lowWater (r * 16 + s.fld d .pwr 0 0x28 6 4)
  (wordOf (e.1 + smGet 0 (s.die d).lwHead r * 65536), wordOf e.2)

/-- PWR_VF_DATA of the selected entry (Table 20.4). -/
def State.vfData (s : State) (d : Nat) : Word :=
  let p := s.fld d .pwr 0 0x80 0 6
  let e := s.fld d .pwr 0 0x80 6 5
  if 52 ≤ p ∨ 24 ≤ e then 0
  else wordOf (smGet 0 (s.ph d p).vf e % 64 + 64 * b2n ((s.ph d p).excluded.contains e))

/-- MOD_SPARE_INV_d (Table 23.5). -/
def State.spareInv (s : State) (d : Nat) : Word :=
  if s.nd ≤ d then 0
  else
    let cl := (allPhys.filter (fun p => s.logical d p = 0x3F && !(s.ph d p).retired)).length
    let bank := ((List.range 32).filter (fun k => s.fld d .cel 0 (spareOff k) 0 1 = 0)).length
    let lane := (List.range 4).foldl (fun n p =>
      n + (if s.fld d .mac p 0x50 0 4 ≠ 15 then 4 ^ p else 0) + (if s.fld d .mac p 0x50 4 4 ≠ 15 then 2 * 4 ^ p else 0)) 0
    let pool := min (s.fld d .hbm 0 0x220 0 9) (s.fld d .hbm 1 0x220 0 9)
    wordOf (min 4 cl + bank * 8 + lane * 512 + min 255 pool * 2 ^ 24 + (s.modc.absent.filter (fun x => x / 64 = d)).length * 2 ^ 32)

/-- What a register reads as where its value shows the state of its block. -/
def State.shown (s : State) (l : RegLoc) : Option Word :=
  if l.f = 0x18 then some (wordOf (b2n (hasShadow l.b && s.swapPending l.d l.b l.i)))
  else match l.b with
  | .seq =>
    if l.f = 0 then some (s.seqStat l.d)
    else if 0x100 ≤ l.f ∧ l.f < 0x300 ∧ (l.f - 0x100) % 0x40 = 0x10 then some (s.ctxStateReg l.d ((l.f - 0x100) / 0x40))
    else if 0x8000 ≤ l.f ∧ (l.f - 0x8000) % 0x1000 = 8 then some (s.rg 0 .seq 0 (0x618 + 0x40 * ((l.f - 0x8000) / 0x1000)))
    else none
  | .mma => if l.f = 0 then some (s.mmaStat l.d l.i) else none
  | .cvu =>
    if l.f = 0 then some (withBit (s.rg l.d .cvu l.i 0) 15 (s.flights.any (fun f => f.d = l.d && f.onCvu l.i)))
    else if l.f = 0x30 then some (s.tblData l.d l.i)
    else none
  | .hbm => if l.f = 0x48 then some (s.remapData l.d l.i) else none
  | .fab =>
    if l.f = 0 then some (withBit (s.rg l.d .fab 0 0) 17 (s.quiescent l.d .fab 0))
    else if l.f = 0x48 then some (withBits (s.rg l.d .fab 0 0x48) 0 16 (s.router l.d).tags.length)
    else if 0x1000 ≤ l.f ∧ l.f < 0x2000 ∧ l.f % 0x20 = 0x10 then
      some (s.rchState l.d ((l.f - 0x1000) / 0x200) ((l.f - 0x1000) % 0x200 / 0x20))
    else none
  | .agl => if l.f = 0x40 then some (withBits (s.rg l.d .agl 0 0x40) 5 18 (s.link l.d).filter.length) else none
  | .pwr =>
    if l.f = 0x30 then some (s.lwData l.d).1
    else if l.f = 0x38 then some (s.lwData l.d).2
    else if l.f = 0x88 then some (s.vfData l.d)
    else none
  | .saf => if l.f = 0x20 then some (wordOf (s.safSum l.d)) else none
  | .mod =>
    if l.f = 0x70 then some (wordOf s.modErrSum)
    else if 0x90 ≤ l.f ∧ l.f < 0xD0 then some (s.spareInv ((l.f - 0x90) / 8))
    else none
  | .eng =>
    if l.f = 0 then
      some (withBit (s.rg l.d .eng l.i 0) 16 (s.flights.any (fun f => f.d = l.d && isEngine (stKind f.ws) && stEng f.ws = l.i)))
    else none
  | .tim => if l.f = 0x28 then some (wordOf (s.die l.d).now) else none
  | _ => none

/-- What a register reads as. -/
def State.regValue (s : State) (l : RegLoc) : Word := (s.shown l).getD (s.rg l.d l.b l.i l.f)

/-- A read of what stands at a register-space address (R398): link status and value. -/
def State.readPlace (s : State) (x : RegAt) : Nat × Word :=
  match x with
  | .absent => (1, 0)
  | .reserved => (0, 0)
  | .held _ r => (0, r.reset)
  | .still l _ => (0, s.regValue l)
  | .live l _ => (0, s.regValue l)

/-- A read of an aligned register-space address (R398): link status and value. A read changes nothing. -/
def State.regRead (s : State) (a : Nat) : Nat × Word := s.readPlace (s.regAt a)

end Sys2Proof.Machine
end

