-- ==== Sys2Proof/Machine/RegWrite.lean ====
section
/-! DEFINITION. A write of a register (R10, R163, R164, R398, R399): what its fields' access codes do, the commands its WO fields give,
and the writes that are refused. A refused write is BUSY. -/

namespace Sys2Proof.Machine

/-- One more action of a write: the write is accepted while every action is. -/
def andThen (x : State × Bool) (on : Bool) (f : State → State × Bool) : State × Bool :=
  if on then
    let y := f x.1
    (y.1, x.2 && y.2)
  else x

/-- An action that is never refused. -/
def always (f : State → State) (s : State) : State × Bool := (f s, true)

/-- RW and LIVE fields take the value at once, RWS fields in the shadow set; an RWS write to a cluster block is refused from the start
of a preload until its SWAP (R10, R115). -/
def State.plainWrite (s : State) (l : RegLoc) (r : RegDef) (v : Word) : State × Bool :=
  let a := regAddr l.d l.b l.i l.f
  let m := r.rw ||| r.live
  if r.rws ≠ 0 ∧ s.preloadLocked l.d l.b l.i then (s.configBusy l.d l.b l.i, false)
  else
    let s1 := if m = 0 then s else s.setReg a ((s.reg a &&& ~~~ m) ||| (v &&& m))
    (if r.rws = 0 then s1 else s1.setShad a ((s1.shad a &&& ~~~ r.rws) ||| (v &&& r.rws)), true)

/-- STOP, RESUME and CLEAR of one write act in that order (R113). -/
def State.ctlWrite (s : State) (c : Nat) (v : Word) : State :=
  let s1 := if bitOf v 0 then s.doStop c else s
  let s2 := if bitOf v 1 then s1.doResume c else s1
  if bitOf v 2 then s2.doClear c else s2

/-- SEQ registers (R104, R113, R148, R166, R277). -/
def State.seqWrite (s : State) (l : RegLoc) (r : RegDef) (v : Word) : State × Bool :=
  let f := l.f
  if 0x100 ≤ f ∧ f < 0x300 ∧ f % 0x40 = 0x28 then (s.ctlWrite ((f - 0x100) / 0x40) v, true)
  else if 0x100 ≤ f ∧ f < 0x300 ∧ f % 0x40 = 0x30 ∧ (s.ctx l.d ((f - 0x100) / 0x40)).st = .running then (s.configBusy l.d .seq 0, false)
  else if 0x600 ≤ f ∧ f < 0x800 ∧ f % 0x40 = 0x20 then
    if bitOf v 0 then
      let x := s.ringReset ((f - 0x600) / 0x40)
      (x.1, !x.2)
    else (s, true)
  else if 0x1000 ≤ f ∧ f < 0x5000 then
    let x := s.cntWrite l.d ((f - 0x1000) / 0x800) ((f - 0x1000) % 0x800 / 8) v
    (x.1, !x.2)
  else if 0x8000 ≤ f then
    (if (f - 0x8000) % 0x1000 = 0 then s.doorbell ((f - 0x8000) / 0x1000) (v.setWidth 32) else s, true)
  else s.plainWrite l r v

/-- CEL_CMD (Table 9.8): FLUSH, PURGE and SPARE_IN. -/
def State.celCmd (s : State) (d : Nat) (v : Word) : State × Bool :=
  let x := andThen (s, true) (bitOf v 0) (fun t => t.doFlush d)
  let y := andThen x (bitOf v 1) (fun t => t.doPurge d)
  andThen y (bitOf v 2) (fun t => t.celSpareIn d (bits v 8 10) (bits v 24 5))

/-- MMA_TEST.INJECT_RESIDUE on an array (Table 3.11): the next drain inverts a shadow. -/
def State.injectRes (s : State) (d l a : Nat) : State :=
  s.updCl d l (fun x => { x with arr := smPut {} x.arr (a % 4) { smGet {} x.arr (a % 4) with inject := true } })

/-- HBM_CMD (Table 10.9). -/
def State.hbmCmdWrite (s : State) (d k : Nat) (v : Word) : State × Bool :=
  let x0 := andThen (s, true) (bitOf v 0) (fun t => t.hbmRetire d k (bits v 8 6) (bits v 16 14))
  let x1 := andThen x0 (bitOf v 1) (always (fun t => t.flushSb d k))
  let x2 := andThen x1 (bitOf v 2) (always (fun t => t.maintEnter d k))
  let x3 := andThen x2 (bitOf v 3) (always (fun t => t.maintExit d k))
  andThen x3 (bitOf v 4) (fun t => t.doMbist d k (bits v 5 3))

/-- HBM registers (R196, R197): HBM_1500_CTL is refused outside maintenance, and no field of it changes then (R399). -/
def State.hbmWriteReg (s : State) (l : RegLoc) (r : RegDef) (v : Word) : State × Bool :=
  if l.f = 0x28 then s.hbmCmdWrite l.d l.i v
  else if l.f = 0x38 then
    if bitOf v 28 then s.shiftGo l.d l.i (bits v 0 16) (bits v 16 12)
    else if !s.maint l.d l.i then (s.configBusy l.d .hbm l.i, false)
    else s.plainWrite l r v
  else s.plainWrite l r v

/-- A context holds an accepted bucket on a channel of a die. -/
def State.holdsBucket (s : State) (d c : Nat) : Bool := (List.range 16).any (fun h => !(s.chan d c h).accepted.isEmpty)

/-- FAB registers: FAB_RLOG.VALID, and the fields that are refused while their context holds an accepted bucket; ORD also while the
context runs (the text before Table 13.10). -/
def State.fabWriteReg (s : State) (l : RegLoc) (r : RegDef) (v : Word) : State × Bool :=
  let f := l.f
  if f = 0x60 then (if bitOf v 7 then s.setFld l.d .fab 0 0x60 7 1 0 else s, true)
  else if 0x200 ≤ f ∧ f < 0x240 ∧ s.holdsBucket l.d ((f - 0x200) / 8) then (s.configBusy l.d .fab 0, false)
  else if 0x1000 ≤ f ∧ f < 0x2000 ∧
      (s.holdsBucket l.d ((f - 0x1000) / 0x200) ∨ (f % 0x20 = 0x10 ∧ (s.ctx l.d ((f - 0x1000) / 0x200)).st = .running)) then
    (s.configBusy l.d .fab 0, false)
  else s.plainWrite l r v

/-- MAC registers: MAC_CMD and MAC_HQ_DB (Tables 12.9, 12.10). -/
def State.macWriteReg (s : State) (l : RegLoc) (r : RegDef) (v : Word) : State × Bool :=
  if l.f = 0x58 then
    let x := andThen (s, true) (bitOf v 0) (fun t => t.macSpareIn l.d l.i (bits v 1 3))
    andThen x (bitOf v 4) (always (fun t => t.macRetrain l.d l.i))
  else if l.f = 0x78 then
    let s1 := if bitOf v 32 then s.hqRxCons l.d l.i (bits v 0 16) else s
    (if bitOf v 33 then s1.hqTxProd l.d l.i (bits v 16 16) else s1, true)
  else s.plainWrite l r v

/-- SAF_TEST.INJECT_EXIT_CRC on a unit: port 0–3, or 4 for the Aigraic Link (Table 22.7). -/
def State.injectExit (s : State) (d u : Nat) : State :=
  if u < 5 then
    s.updDie d (fun x => { x with exitInj := if x.exitInj.contains u then x.exitInj else x.exitInj ++ [u] })
  else s

/-- MOD registers: MOD_PWR_CMD, MOD_SPARE_CMD and MOD_SPARE_RES (R340, R341, R395). -/
def State.modWriteReg (s : State) (l : RegLoc) (r : RegDef) (v : Word) : State × Bool :=
  if l.f = 0x30 then andThen (andThen (s, true) (bitOf v 0) State.enterLp) (bitOf v 1) State.exitLp
  else if l.f = 0x80 then s.spareWrite v
  else if l.f = 0x88 then (if bitOf v 1 then s.setFld 0 .mod 0 0x88 1 1 0 else s, true)
  else s.plainWrite l r v

/-- A write of a register of its block's own. -/
def State.blockWrite (s : State) (l : RegLoc) (r : RegDef) (v : Word) : State × Bool :=
  match l.b with
  | .seq => s.seqWrite l r v
  | .cel => if l.f = 0x38 then s.celCmd l.d v else s.plainWrite l r v
  | .mma => if l.f = 0x28 then (if bitOf v 0 then s.injectRes l.d l.i (bits v 1 2) else s, true) else s.plainWrite l r v
  | .hbm => s.hbmWriteReg l r v
  | .fab => s.fabWriteReg l r v
  | .mac => s.macWriteReg l r v
  | .agl =>
    if l.f = 0x48 then
      let s1 := if bitOf v 0 then s.aglRetrain l.d else s
      (if bitOf v 1 then s1.aglDown l.d else s1, true)
    else s.plainWrite l r v
  | .saf => if l.f = 0x38 then (if bitOf v 0 then s.injectExit l.d (bits v 1 3) else s, true) else s.plainWrite l r v
  | .sec => if l.f = 0x20 then s.secCmd (bits v 0 4) else s.plainWrite l r v
  | .mod => s.modWriteReg l r v
  | .tim => if l.f = 0x30 then s.timOffset l.d v else s.plainWrite l r v
  | _ => s.plainWrite l r v

/-- ELOG.VALID is cleared (R371). -/
def State.clearLog (s : State) (l : RegLoc) (v : Word) : State :=
  if bitOf v 7 then s.setFld l.d l.b l.i 0x10 7 1 0 else s

/-- A write of a register that takes writes: the registers of Table 24.2 first. -/
def State.liveWrite (s : State) (l : RegLoc) (r : RegDef) (v : Word) : State × Bool :=
  if l.f = 0 then (s.clearStat l.d l.b l.i v, true)
  else if l.f = 8 then (s.writeMask l.d l.b l.i v, true)
  else if l.f = 0x10 then (s.clearLog l v, true)
  else if l.f = 0x18 then (if bitOf v 1 then s.requestSwap l.d l.b l.i else s, true)
  else s.blockWrite l r v

/-- A write of what stands at a register-space address (R398): the state and the link status, 0 OK, 1 ADDR, 4 BUSY. -/
def State.writePlace (s : State) (v : Word) (x : RegAt) : State × Nat :=
  match x with
  | .absent => (s, 1)
  | .reserved => (s, 0)
  | .held _ _ => (s, 0)
  | .still l _ => (if l.f = 0 then s.clearStat l.d l.b l.i v else if l.f = 0x10 then s.clearLog l v else s, 0)
  | .live l r =>
    let x := s.liveWrite l r v
    (x.1, if x.2 then 0 else 4)

/-- A write of an aligned register-space address (R398): the state and the link status, 0 OK, 1 ADDR, 4 BUSY. -/
def State.regWrite (s : State) (a : Nat) (v : Word) : State × Nat := s.writePlace v (s.regAt a)

/-- The write reaches a register that answers, as a command of its own row does. -/
def State.writeTo (s : State) (d : Nat) (b : Blk) (i f : Nat) (v : Word) : State :=
  if s.hasInst d b i then (s.regWrite (regAddr d b i f) v).1 else s

end Sys2Proof.Machine
end

