-- ==== Sys2Proof/Machine/HostAccess.lean ====
section
/-! DEFINITION. What the host asks of the module over the Aigraic Link (R287, R289–R291, R293) and what it answers (R286, R288, R290,
R294). -/

namespace Sys2Proof.Machine

/-! ### Requests (Table 16.5) -/

/-- RD_8, WR_8 and ATOMIC are 8 bytes wide; the other requests are lines. -/
def isWordOp (opc : Nat) : Bool := opc = 4 || opc = 7 || opc = 0xA

/-- Host writes, which one port applies in their order (Table 16.7): WR_LINE, WR_PART, WR_8, WR_BACK and ATOMIC. -/
def isHostWrite (opc : Nat) : Bool := between 5 8 opc || opc = 0xA

/-- RD_SHARED, RD_OWN, WR_BACK and EVICT, which only a line's own port takes (R287). -/
def isCoherent (opc : Nat) : Bool := opc = 2 || opc = 3 || opc = 8 || opc = 9

/-- Kind of the access for Table 16.6: 0 read, 1 full-line write, 2 masked write or ATOMIC; none for the four coherent requests. -/
def hostKind (opc : Nat) : Option Nat :=
  if opc = 1 ∨ opc = 4 then some 0
  else if opc = 5 then some 1
  else if opc = 6 ∨ opc = 7 ∨ opc = 0xA then some 2
  else none

/-- The proxy window that an address lies in (R209): die, window and offset. -/
def State.proxyAt (s : State) (a : Nat) : Option (Nat × Nat × Nat) :=
  if !isRegAddr a then none
  else match locOf a with
  | some ⟨d, .fab, _, f⟩ =>
    if 0x10000 ≤ f ∧ f < 0x50000 ∧ d < s.nd then some (d, f / 0x10000 - 1, f % 0x10000) else none
  | _ => none

/-- The line a PL payload carries, with the header's POISON. -/
def LMsg.side (m : LMsg) : Word := if m.poison then withBit (plLine m.pay).sb 56 true else (plLine m.pay).sb

/-- The status with which a request is turned away before anything is done, 0 for none (R287). -/
def State.hostStatus (s : State) (d : Nat) (m : LMsg) : Nat :=
  let a := m.addr
  if a % (if isWordOp m.opc then 8 else 128) ≠ 0 then 1
  else if isRegAddr a then
    if m.opc = 4 ∨ m.opc = 7 then 0
    else match s.proxyAt a with
    | none => 5
    | some _ =>
      if m.opc = 0xA then (if 2 < m.ak then 5 else 0)
      else if m.opc = 1 ∨ m.opc = 5 ∨ m.opc = 6 then 1
      else 5
  else if !s.served a then 1
  else if isCoherent m.opc && decide (s.portDie (homeDie a) ≠ d) then 5
  else if (m.opc = 5 || m.opc = 6) && fmtReserved (sbFmt m.side) then 5
  else if m.opc = 0xA && decide (2 < m.ak) then 5
  else 0

/-! ### Answers -/

/-- The opcode of the response to a request (Table 16.5). -/
def answerOpc (opc : Nat) : Nat :=
  if opc = 1 ∨ opc = 2 ∨ opc = 3 then 0x32 else if opc = 4 ∨ opc = 0xA then 0x31 else 0x30

/-- A response without data: zeros where its opcode carries a payload. -/
def LMsg.answer (m : LMsg) (st : Nat) : LMsg :=
  let o := answerOpc m.opc
  { opc := o, word := m.word, tag := m.tag, stat := st,
    pay := if o = 0x32 then List.replicate 144 0 else if o = 0x31 then List.replicate 16 0 else [] }

/-- A response with an 8-byte datum. -/
def LMsg.answer8 (m : LMsg) (st : Nat) (v : Nat) : LMsg :=
  { opc := 0x31, word := m.word, tag := m.tag, stat := st, poison := decide (st = 3), pay := padTo 16 (leBytes 8 v) }

/-- A response with a line; a poisoned one has status POISONED (Table 16.8). -/
def LMsg.answerLine (m : LMsg) (l : Line) : LMsg :=
  { opc := 0x32, tag := m.tag, stat := if sbPoison l.sb then 3 else 0, poison := sbPoison l.sb, pay := payPL l 0 }

/-! ### What an access does -/

/-- A line leaves for the host: read at its home and checked at the port (R171, R378). -/
def State.lineOut (s : State) (d a : Nat) : State × Line := (s.touchRead a).exitLine d 4 (some (a / 128)) (s.line (a / 128))

/-- RD_SHARED and RD_OWN install or upgrade the entry of a line, which becomes the most recently used (R289). -/
def State.grant (s : State) (d ln : Nat) (own : Bool) : State :=
  s.updLink d (fun k =>
    let e := k.filter.any (fun x => x.1 = ln && x.2)
    { k with filter := (ln, e || own) :: k.filter.filter (fun x => x.1 ≠ ln) })

/-- The entry of a line is removed. -/
def State.dropEntry (s : State) (d ln : Nat) : State :=
  s.updLink d (fun k => { k with filter := k.filter.filter (fun x => x.1 ≠ ln) })

/-- RD_SHARED or RD_OWN: a line read poisoned is not granted (Table 16.8). -/
def State.hostGrant (s : State) (d : Nat) (m : LMsg) : State :=
  let x := s.lineOut d m.addr
  let s1 := if sbPoison x.2.sb then x.1 else x.1.grant d (m.addr / 128) (m.opc = 3)
  s1.respond d (m.answerLine x.2)

/-- WR_BACK (R287, R289, R290): the data of an E entry are written; with no entry they are discarded. -/
def State.hostBack (s : State) (d : Nat) (m : LMsg) : State :=
  let ln := m.addr / 128
  let s1 := if (s.link d).filter.contains (ln, true) then s.writeAt m.addr (hostLine m.pay m.side) else s
  (s1.dropEntry d ln).respond d (m.answer 0)

/-- WR_8 of memory: the line keeps its format code, version and flags (R175). -/
def State.hostWord (s : State) (a : Nat) (v : List Byte) : State :=
  let p := placed (a % 128) v
  (s.touchWrite a true).mergeBare (a / 128) p.2 p.1

/-- A host ATOMIC on a line (R206); adders that disagree stop the home die, and nothing is answered (R379). -/
def State.hostRmw (s : State) (d : Nat) (m : LMsg) (alu : Bool) : State :=
  let a := m.addr / 128 * 128
  if alu then s.ctrlUe (homeDie a)
  else
    let x := s.atomicAt a (m.addr % 128 / 8) m.ak (wordOf (leAt m.pay 0 8)) (wordOf (leAt m.pay 8 8)) { op := opAtomic }
    if x.2.1 = 0 then x.1.respond d (m.answer8 0 x.2.2.toNat) else x.1.respond d (m.answer 3)

/-- An access of a populated line. -/
def State.hostMem (s : State) (d : Nat) (m : LMsg) (alu : Bool) : State :=
  match m.opc with
  | 1 => let x := s.lineOut d m.addr; x.1.respond d (m.answerLine x.2)
  | 2 => s.hostGrant d m
  | 3 => s.hostGrant d m
  | 4 =>
    let x := s.lineOut d (m.addr / 128 * 128)
    x.1.respond d (m.answer8 (if sbPoison x.2.sb then 3 else 0) (leAt x.2.bytes (m.addr % 128) 8))
  | 5 => (s.writeAt m.addr (hostLine m.pay m.side)).respond d (m.answer 0)
  | 6 =>
    let l := hostLine m.pay m.side
    (s.mergeAt m.addr (leAt m.pay 144 16) l.bytes l.sb).respond d (m.answer 0)
  | 7 => (s.hostWord m.addr (padTo 8 (m.pay.take 8))).respond d (m.answer 0)
  | 8 => s.hostBack d m
  | 9 => (s.dropEntry d (m.addr / 128)).respond d (m.answer 0)
  | _ => s.hostRmw d m alu

/-- A register access (R398). -/
def State.hostReg (s : State) (d : Nat) (m : LMsg) : State :=
  if m.opc = 4 then
    let x := s.regRead m.addr
    if x.1 = 0 then s.respond d (m.answer8 0 x.2.toNat) else s.respond d (m.answer x.1)
  else
    let x := s.regWrite m.addr (wordOf (leAt m.pay 0 8))
    x.1.respond d (m.answer x.2)

/-- A proxy access becomes a control-class request of its die's router (R209); a window whose EN is 0, or whose die does not run,
answers ADDR. -/
def State.hostProxy (s : State) (d : Nat) (m : LMsg) (pd n off : Nat) : State :=
  let w := s.rg pd .fab 0 (0x80 + 8 * n)
  let la := bits w 16 32 * 65536 + off
  let dst := bits w 0 12
  let pay : List Byte :=
    if m.opc = 4 then []
    else if m.opc = 7 then
      let p := placed (la % 128) (padTo 8 (m.pay.take 8))
      padTo 128 p.1 ++ leBytes 8 (mkSide (crc32c (padTo 128 p.1)) 0 0 0).toNat ++ leBytes 16 p.2
    else padTo 16 (m.pay.take 16)
  if !(s.live pd && bitOf w 12) then s.respond d (m.answer 1)
  else s.issue pd (.proxy d m.tag m.opc m.word)
    { op := if m.opc = 4 then opRead else if m.opc = 7 then opWrite else opAtomic,
      akind := m.ak, word := la % 128 / 8, dstMod := dst, addr := dst * 2 ^ 48 + la / 128 * 128, pay := pay }

/-- Carry a request out. -/
def State.hostGo (s : State) (d : Nat) (m : LMsg) (alu : Bool) : State :=
  let st := s.hostStatus d m
  if st ≠ 0 then s.respond d (m.answer st)
  else if isRegAddr m.addr then
    match s.proxyAt m.addr with
    | some (pd, n, off) => s.hostProxy d m pd n off
    | none => s.hostReg d m
  else s.hostMem d m alu

/-! ### Waiting (R289–R291, R336) -/

/-- Entries of a port's snoop filter (R289). -/
def filterSize : Nat := 131072

/-- A grant needs room in the filter. -/
def State.needsRoom (s : State) (d : Nat) (m : LMsg) : Bool :=
  (m.opc = 2 || m.opc = 3) && decide (filterSize ≤ (s.link d).filter.length) &&
    !(s.link d).filter.any (fun x => x.1 = m.addr / 128)

/-- The physical cluster in retention, or coming out of it, that stands behind a place (R336). -/
def State.placeWaits (s : State) (o : Option RegLoc) : Option (Nat × Nat) :=
  match o with
  | none => none
  | some l =>
    if byCluster l.b && s.live l.d then
      (s.serving l.d l.i).bind (fun p => if between 1 2 (s.railSt l.d p) then some (l.d, p) else none)
    else none

/-- The physical cluster in retention, or coming out of it, whose blocks a register access names (R336). -/
def State.regWaits (s : State) (a : Nat) : Option (Nat × Nat) := s.placeWaits (locOf a)

/-- A request must wait for a snoop, for its stack, for room in the filter, or for a cluster's power. -/
def State.hostWaits (s : State) (d : Nat) (m : LMsg) : Bool :=
  let ln := m.addr / 128
  if s.hostStatus d m ≠ 0 then false
  else if isRegAddr m.addr then (s.regWaits m.addr).isSome
  else match hostKind m.opc with
  | some k => s.mustWait k ln
  | none => s.snooping ln || (m.opc ≠ 9 && s.stackHeld ln) || s.needsRoom d m

/-- The least recently used entry leaves the filter with SNP_INV (R289); it counts in FILTER_EVICT. -/
def State.evictOne (s : State) (d : Nat) : State :=
  match (s.link d).filter.getLast? with
  | none => s
  | some e => if s.snooping e.1 then s else (s.sendSnoop 2 e.1).aglCnt d 7 1

/-- What a request that waits sets going: its snoop, an eviction, or a cluster's power-on. -/
def State.hostPrompt (s : State) (d : Nat) (m : LMsg) : State :=
  if isRegAddr m.addr then
    match s.regWaits m.addr with
    | some x => s.powerOn x.1 x.2
    | none => s
  else match hostKind m.opc with
  | some k => s.sendSnoop k (m.addr / 128)
  | none => if s.needsRoom d m then s.evictOne d else s

/-- A proxy write or ATOMIC that came over a port is not answered yet. -/
def State.proxyOut (s : State) (d : Nat) : Bool :=
  let mine (o : Owner) : Bool := match o with
    | .proxy pd _ opc _ => decide (pd = d) && isHostWrite opc
    | _ => false
  s.allDies.any (fun e => (s.router e).tags.any (fun t => mine t.2.own) || (s.router e).waitq.any (fun t => mine t.2))

/-- A message of the host that is a response. -/
def isAnswer (opc : Nat) : Bool := decide (0x30 ≤ opc)

/-- A message may be taken up behind those that still wait (R290, R291): a request waits for every earlier one to its line, and a write
also for every earlier write of its port. -/
def State.mayTake (s : State) (d : Nat) (before : List (LMsg × Bool)) (m : LMsg) : Bool :=
  let reqs := before.filter (fun e => !isAnswer e.1.opc)
  !(reqs.any (fun e => e.1.addr / 128 = m.addr / 128) ||
    (isHostWrite m.opc && (reqs.any (fun e => isHostWrite e.1.opc) || s.proxyOut d)) || s.hostWaits d m)

/-! ### Responses of the host (R286, R288, R290, R294) -/

/-- The response suits the request that its tag names (Table 16.5): one that carries no data answers a read only with a status other
than OK. A response that suits none is discarded. -/
def suits (q : HReq) (opc st : Nat) : Bool :=
  if opc = 0x32 then q.opc = 0x11 else opc = 0x30 && (q.opc ≠ 0x11 || decide (st ≠ 0))

/-- A response reaches the module: it ends a snoop or a module request, or is counted late. The second part says that it must wait. -/
def State.hostAnswer (s : State) (d : Nat) (m : LMsg) : State × Bool :=
  let l := plLine m.pay
  match s.snoopOf d m.tag with
  | some x => (s.snoopAnswer d x (if m.opc = 0x32 then some (l.bytes, m.side) else none), false)
  | none =>
    match (s.link d).hreqs.find? (fun q => q.tag = m.tag) with
    | none => (s.aglCnt d 4 1, false)
    | some q => if suits q m.opc m.stat then s.answerReq d m.tag m.stat l.bytes m.side else (s.aglCnt d 4 1, false)

/-! ### Taking messages up -/

/-- Take the messages of a port up in order, keeping those that must wait. -/
def State.takeUp (d : Nat) : List (LMsg × Bool) → List (LMsg × Bool) → State → State
  | before, [], s => s.updLink d (fun k => { k with stalled := before })
  | before, e :: rest, s =>
    if isAnswer e.1.opc then
      let x := s.hostAnswer d e.1
      State.takeUp d (if x.2 then before ++ [e] else before) rest x.1
    else if s.mayTake d before e.1 then State.takeUp d before rest (s.hostGo d e.1 e.2)
    else State.takeUp d (before ++ [e]) rest (s.hostPrompt d e.1)

/-- Messages that waited are taken up where they may go on. -/
def State.retryPort (s : State) (d : Nat) : State :=
  if (s.link d).stalled.isEmpty then s else State.takeUp d [] (s.link d).stalled s

/-- Messages that waited at either port are taken up where they may go on. -/
def State.retryHost (s : State) : State := forEach s.linkDies (fun d t => t.retryPort d) s

/-- A message of the host arrives at a port: it is taken up behind those that wait. -/
def State.hostArrive (s : State) (d : Nat) (m : LMsg) (alu : Bool) : State :=
  (State.takeUp d [] ((s.link d).stalled ++ [(m, alu)]) s).retryHost

/-- A message row: the port must be UP. -/
def State.hostRow (s : State) (d : Nat) (m : LMsg) (alu : Bool) : State :=
  if s.aglLive d && decide (s.lkState d = lkUp) then s.hostArrive d m alu else s

/-! ### Commands -/

/-- RD_ONCE (R287). -/
def execRdOnce (d tag a : Nat) (s : State) : Host.Outcome State Fault Refusal :=
  .next (s.hostRow d { opc := 1, tag := tag, addr := a } false)

/-- RD_SHARED (R289). -/
def execRdShared (d tag a : Nat) (s : State) : Host.Outcome State Fault Refusal :=
  .next (s.hostRow d { opc := 2, tag := tag, addr := a } false)

/-- RD_OWN (R289). -/
def execRdOwn (d tag a : Nat) (s : State) : Host.Outcome State Fault Refusal :=
  .next (s.hostRow d { opc := 3, tag := tag, addr := a } false)

/-- RD_8 (R287). -/
def execRd8 (d tag a : Nat) (s : State) : Host.Outcome State Fault Refusal :=
  .next (s.hostRow d { opc := 4, tag := tag, addr := a } false)

/-- WR_LINE (R287). -/
def execWrLine (d tag a : Nat) (bs : List Byte) (sb : Word) (s : State) : Host.Outcome State Fault Refusal :=
  .next (s.hostRow d { opc := 5, tag := tag, addr := a, pay := payPL { bytes := bs, sb := sb } 0 } false)

/-- WR_PART (R287). -/
def execWrPart (d tag a : Nat) (bs : List Byte) (sb : Word) (mask : Nat) (s : State) : Host.Outcome State Fault Refusal :=
  .next (s.hostRow d { opc := 6, tag := tag, addr := a, pay := payPM { bytes := bs, sb := sb } 0 mask } false)

/-- WR_8 (R287). -/
def execWr8 (d tag a : Nat) (v : Word) (s : State) : Host.Outcome State Fault Refusal :=
  .next (s.hostRow d { opc := 7, tag := tag, addr := a, pay := padTo 16 (leBytes 8 v.toNat) } false)

/-- WR_BACK (R290). -/
def execWrBack (d tag a : Nat) (bs : List Byte) (sb : Word) (s : State) : Host.Outcome State Fault Refusal :=
  .next (s.hostRow d { opc := 8, tag := tag, addr := a, pay := payPL { bytes := bs, sb := sb } 0 } false)

/-- EVICT (R289). -/
def execEvict (d tag a : Nat) (s : State) : Host.Outcome State Fault Refusal :=
  .next (s.hostRow d { opc := 9, tag := tag, addr := a } false)

/-- ATOMIC of the host (R287, R206); a first read that fails alone changes nothing. -/
def execHostAtomic (d tag a kind : Nat) (x y : Word) (_env : Env) (alu : Bool) (s : State) : Host.Outcome State Fault Refusal :=
  .next (s.hostRow d { opc := 0xA, tag := tag, ak := kind, addr := a, pay := leBytes 8 x.toNat ++ leBytes 8 y.toNat } alu)

/-- RSP (R293). -/
def execRsp (d tag st : Nat) (s : State) : Host.Outcome State Fault Refusal :=
  .next (s.hostRow d { opc := 0x30, tag := tag, stat := st } false)

/-- RSP_8 (R293): the module's own requests await none but M_ATOMIC, which no block here issues (R286). -/
def execRsp8 (d tag st : Nat) (v : Word) (s : State) : Host.Outcome State Fault Refusal :=
  .next (s.hostRow d { opc := 0x31, tag := tag, stat := st, pay := padTo 16 (leBytes 8 v.toNat) } false)

/-- RSP_DATA (R288, R290). -/
def execRspData (d tag st : Nat) (bs : List Byte) (sb : Word) (s : State) : Host.Outcome State Fault Refusal :=
  .next (s.hostRow d { opc := 0x32, tag := tag, stat := st, pay := payPL { bytes := bs, sb := sb } 0 } false)

/-- SNP_TIMEOUT (R290). -/
def execSnpTimeout (d tag : Nat) (s : State) : Host.Outcome State Fault Refusal :=
  .next (match s.snoopOf d tag with
    | some x => if s.aglLive d then (s.snoopLate d x).retryHost else s
    | none => s)

/-- RSP_TIMEOUT (R294). -/
def execRspTimeout (d tag : Nat) (s : State) : Host.Outcome State Fault Refusal :=
  .next (if s.aglLive d then (s.reqLate d tag).retryHost else s)

end Sys2Proof.Machine
end

