-- ==== Sys2Proof/Machine/Link.lean ====
section
/-! DEFINITION. The commands of the Aigraic Link's own layers: training, INIT, flits, replay (R280–R286) and interrupts (R292). -/

namespace Sys2Proof.Machine

/-! ### Link states (R280, R281, R283, R284, R296) -/

/-- AGL_LINK_TRAIN (R281). -/
def execAglLinkTrain (d : Nat) (s : State) : Host.Outcome State Fault Refusal := .next (s.linkTrain d)

/-- AGL_LANES_TRAINED (R280): `lanes` has a bit for each lane that trained; a port that is lost releases the accesses that waited. -/
def execAglLanesTrained (d lanes : Nat) (s : State) : Host.Outcome State Fault Refusal :=
  .next ((s.lanesTrained d lanes).retryHost)

/-- AGL_INIT (R284): the host's INIT, with its PROTO, SIDE and credits. -/
def execAglInit (d proto side cr cs cp : Nat) (s : State) : Host.Outcome State Fault Refusal :=
  .next (s.linkInit d proto side cr cs cp)

/-- AGL_RETRAIN (R296). -/
def execAglRetrain (d : Nat) (s : State) : Host.Outcome State Fault Refusal := .next (s.aglRetrain d)

/-- AGL_DOWN (R296). -/
def execAglDown (d : Nat) (s : State) : Host.Outcome State Fault Refusal := .next ((s.aglDown d).retryHost)

/-- AGL_AUTO_RETRAIN (R283): a DOWN port with AUTO_RETRAIN starts to train again. -/
def execAglAutoRetrain (d : Nat) (s : State) : Host.Outcome State Fault Refusal :=
  .next (if bitOf (s.rg d .agl 0 0x20) 1 then s.linkTrain d else s)

/-- FLIT_REPLAY_TIMEOUT (R283). -/
def execFlitReplayTimeout (d : Nat) (s : State) : Host.Outcome State Fault Refusal :=
  .next (if s.aglLive d && decide (s.lkState d = lkUp) then s.replay d else s)

/-- AGL_NAK (R283). -/
def execAglNak (d fack : Nat) (s : State) : Host.Outcome State Fault Refusal := .next (s.linkNak d fack)

/-! ### Messages in the slot stream (R283–R286) -/

/-- Slots of a message that the host sends, by its opcode (R285, Table 16.5); none for an opcode that is reserved, or that only the
module sends. -/
def hostSlots (opc : Nat) : Option Nat :=
  if opc = 7 ∨ opc = 0xA ∨ opc = 0x31 then some 2
  else if opc = 5 ∨ opc = 8 ∨ opc = 0x32 then some 10
  else if opc = 6 then some 11
  else if opc ≤ 9 ∨ opc = 0x30 then some 1
  else none

/-- The message in a run of slots (Table 16.4). -/
def msgOf (bs : List Byte) : LMsg :=
  let b1 := leAt bs 1 1
  { opc := leAt bs 0 1, word := b1 % 16, poison := nbit b1 4, tag := leAt bs 2 2, stat := leAt bs 4 1, ak := leAt bs 5 1,
    addr := leAt bs 8 8, pay := bs.drop 16 }

/-- Reserved bits of a message are set (Table 16.4, R287). -/
def msgReserved (bs : List Byte) : Bool :=
  decide (32 ≤ leAt bs 1 1) || decide (leAt bs 6 2 ≠ 0) ||
    (between 5 6 (leAt bs 0 1) || leAt bs 0 1 = 8) && decide (leAt bs (16 + 136) 8 ≠ 0)

/-- Cut the slot stream into messages (R283, R285): the messages, the bytes of one that is not complete, and the message at which the
stream can no longer be parsed (R286). -/
def parseMsgs : Nat → List Byte → List LMsg × List Byte × Option LMsg
  | 0, bs => ([], bs, none)
  | n + 1, bs =>
    if bs.length < 16 then ([], bs, none)
    else match hostSlots (leAt bs 0 1) with
    | none => ([], [], some (msgOf (bs.take 16)))
    | some k =>
      if bs.length < 16 * k then ([], bs, none)
      else
        let m := bs.take (16 * k)
        if msgReserved m then ([], [], some (msgOf (m.take 16)))
        else
          let r := parseMsgs n (bs.drop (16 * k))
          (if leAt m 0 1 = 0 then r.1 else msgOf m :: r.1, r.2)

/-! ### Flits (R282, R283) -/

/-- Send an acknowledgement: a DATA flit of NOPs where credit is owed and the window allows, else an IDLE flit (Table 16.3). -/
def State.linkAckNow (s : State) (d : Nat) : State :=
  let k := s.link d
  if s.lkState d ≠ lkUp then s
  else if k.owed ≠ (0, 0, 0) ∧ k.unacked.length < 1024 then s.sendFlit d none
  else s.emitFlit d { ftype := 1, fack := k.ackNow }

/-- A flit is discarded: a NAK names the last flit accepted (R283). -/
def State.sendNak (s : State) (d : Nat) : State := s.emitFlit d { ftype := 2, fack := (s.link d).ackNow }

/-- Apply the messages of an accepted flit in order (R283, R284): their slots are owed as credit. -/
def State.takeMsgs (s : State) (d : Nat) (ms : List LMsg) : State :=
  forEach ms (fun m t => (t.updLink d (fun k => { k with owed := triAdd k.owed (opcClass m.opc) m.slots })).hostArrive d m false) s

/-- A DATA flit in sequence is accepted: credit returns, its slots join the stream, and its messages are applied. -/
def State.acceptFlit (s : State) (d : Nat) (bs : List Byte) : State :=
  let k := s.link d
  let r := parseMsgs 300 (k.partMsg ++ (bs.drop 4).take 240)
  let cr := triAdd (triAdd (triAdd k.credit 0 (leAt bs 244 2)) 1 (leAt bs 246 2)) 2 (leAt bs 248 2)
  let s1 := s.putLink d { k with rxNext := (k.rxNext + 1) % 4096, credit := cr, partMsg := r.2.1 }
  let sent := (s1.link d).fseq
  let s2 := (State.pumpLink d (s1.link d).sendq.length s1).takeMsgs d r.1
  match r.2.2 with
  | some m => s2.linkProtocol d m
  | none => if (s2.link d).fseq = sent then s2.linkAckNow d else s2

/-- A flit arrives on an UP port or one in ALIGN (R282–R284): its CRC is checked, an INIT is taken in ALIGN, an acknowledgement is
applied, a NAK replays, and a DATA flit is accepted or discarded. A flit with a reserved FTYPE or reserved bits is discarded. -/
def State.flitReceive (s : State) (d : Nat) (bs : List Byte) : State :=
  let st := s.lkState d
  let s0 := s.aglCnt d 1 1
  let w := leAt bs 0 4
  let ty := nbits w 25 3
  if !(s.aglLive d && (st = lkUp || st = lkAlign) && decide (bs.length = 256)) then s
  else if (crc32c (bs.take 252)).toNat ≠ leAt bs 252 4 then (if st = lkUp then s0.sendNak d else s0)
  else if ty = 3 then s0.linkInit d (leAt bs 4 1) (leAt bs 5 1) (leAt bs 8 2) (leAt bs 10 2) (leAt bs 12 2)
  else if st = lkAlign ∨ 3 < ty ∨ nbits w 28 4 ≠ 0 ∨ leAt bs 250 2 ≠ 0 then s0
  else if ty = 0 ∧ nbits w 0 12 ≠ (s.link d).rxNext then s0.sendNak d
  else
    let s1 := if nbit w 24 then s0.linkAck d (nbits w 12 12) else s0
    if ty = 2 then s1.replay d
    else if ty = 0 then s1.acceptFlit d bs
    else s1

/-- FLIT_RECEIVE (R283). -/
def execFlitReceive (d : Nat) (bs : List Byte) (s : State) : Host.Outcome State Fault Refusal := .next (s.flitReceive d bs)

/-! ### Interrupts (R292) -/

/-- Writes of the block that owns a vector are not acknowledged yet: an engine's stores, a channel's stores, or die 0's own writes to
the host. -/
def State.vectorHeld (s : State) (v : Nat) : Bool :=
  let d := v / 2048
  let b := v % 2048 / 64
  if b = Blk.pos .eng then
    s.flights.any (fun f => f.d = d && isEngine (stKind f.ws) && f.eng = v % 64 && decide (f.wait ≠ 0))
  else if b = Blk.pos .fab then
    (List.range 128).any (fun n => decide ((s.chan d (n / 16) (n % 16)).wait ≠ 0))
  else if b = Blk.pos .seq ∧ d = 0 then
    s.linkDies.any (fun pd => (s.link pd).hreqs.any (fun q => match q.own with
      | .post _ => true
      | .trap _ => true
      | .merge _ _ k _ _ => decide (k < 2)
      | _ => false))
  else false

/-- INTR (R292): the first vector whose block's writes are acknowledged is sent, or counted lost on a port that is DOWN. -/
def State.intrSend (s : State) (d : Nat) : State :=
  match (s.link d).intrq.find? (fun v => !s.vectorHeld v) with
  | none => s
  | some v =>
    let s1 := s.updLink d (fun k => { k with intrq := k.intrq.erase v })
    if s1.lkState d = lkDown then s1.aglCnt d 9 1
    else (s1.sendMsg d { opc := 0x15, addr := v }).aglCnt d 8 1

/-- INTR (R292). -/
def execIntr (d : Nat) (s : State) : Host.Outcome State Fault Refusal := .next (if s.aglLive d then s.intrSend d else s)

end Sys2Proof.Machine
end

