-- ==== Sys2Proof/Machine/Registers.lean ====
section
/-! DEFINITION. Register commands (R10, R161, R163, R400, R402) and the management bus (R400, R412). -/

namespace Sys2Proof.Machine

/-! ### Register writes with rows of their own -/

/-- INJECT_RESIDUE: a store to MMA_TEST of a logical cluster (Table 3.11). -/
def execInjectResidue (d l arr : Nat) (s : State) : Host.Outcome State Fault Refusal :=
  .next (s.writeTo d .mma l 0x28 (wordOf (1 + 2 * (arr % 4))))

/-- INJECT_EXIT_CRC: a store to SAF_TEST (Table 22.7). -/
def execInjectExitCrc (d u : Nat) (s : State) : Host.Outcome State Fault Refusal :=
  .next (s.writeTo d .saf 0 0x38 (wordOf (1 + 2 * (u % 8))))

/-- SWAP_REQUEST: a store to a block's SWAP register (R163, R401). -/
def execSwapRequest (d : Nat) (b : Blk) (i : Nat) (s : State) : Host.Outcome State Fault Refusal :=
  .next (s.writeTo d b i 0x18 (bitMask 1))

/-- INTERRUPT_MASK_WRITE: a store to a block's IMASK register (R161). -/
def execInterruptMaskWrite (d : Nat) (b : Blk) (i : Nat) (v : Word) (s : State) : Host.Outcome State Fault Refusal :=
  .next (s.writeTo d b i 8 v)

/-- A register access needs an aligned address of register space (R22, R398). -/
def isRegWord (a : Nat) : Bool := isRegAddr a && decide (a % 8 = 0)

/-- REGISTER_WRITE: a store to any register (R10, R398). -/
def execRegisterWrite (a : Nat) (v : Word) (s : State) : Host.Outcome State Fault Refusal :=
  .next (if isRegWord a then (s.regWrite a v).1 else s)

/-! ### BLOCK_SWAP (R163, R402) -/

/-- The block of a die can swap: its die runs; MOD swaps while the module controller answers. -/
def State.swapLive (s : State) (d : Nat) (b : Blk) (i : Nat) : Bool :=
  s.hasInst d b i && (if b = .mod then s.mcUp else s.live d)

/-- MODE and LINK of a MAC (Table 12.9). -/
def State.macForm (s : State) (d i : Nat) : Nat × Nat := (s.fld d .mac i 0x20 0 2, s.fld d .mac i 0x20 3 1)

/-- A requested SWAP at the quiescent point, with what its new fields do at once: a MAC whose MODE or LINK changes takes its port down,
and an Aigraic Link port whose EN becomes 0 goes DOWN (Table 16.12). -/
def State.blockSwap (s : State) (d : Nat) (b : Blk) (i : Nat) : State :=
  if !s.swapLive d b i then s
  else
    let t := s.doSwap d b i
    match b with
    | .mac => if t.macForm d i = s.macForm d i then t else (s.retrainPort d i).doSwap d b i
    | .agl =>
      if t.aglLive d && !bitOf (t.rg d .agl 0 0x20) 0 && decide (t.lkState d ≠ lkDown) then (t.linkDown d).retryHost else t
    | _ => t

/-- BLOCK_SWAP (R163). -/
def execBlockSwap (d : Nat) (b : Blk) (i : Nat) (s : State) : Host.Outcome State Fault Refusal := .next (s.blockSwap d b i)

/-! ### The management bus (R400, R412) -/

/-- The management bus answers: from t1 of start-up (Table 17.1). -/
def State.busUp (s : State) : Bool := s.mcUp && decide (1 ≤ s.stage)

/-- A cluster that an access waits for starts to power on (R336). -/
def State.promptCluster (s : State) (o : Option (Nat × Nat)) : State :=
  match o with
  | some x => s.powerOn x.1 x.2
  | none => s

/-- A cluster in retention whose blocks a register access names starts to power on (R336). -/
def State.regPrompt (s : State) (a : Nat) : State := s.promptCluster (s.regWaits a)

/-- What the next private read is to return. -/
def State.i3cPut (s : State) (st : Nat) (v : Word) : State := s.updMod (fun m => { m with i3cAns := some (st, v) })

/-- The answer to a transfer that carries a status alone: its data bytes are free. -/
def State.i3cStatus (s : State) (st : Nat) : State := (s.i3cPut st (Config.i3cData s.free)).fresh

/-- A private write (R400): 15 bytes write a register, seven name one to read; any other is REFUSED. -/
def State.i3cTake (s : State) (bs : List Byte) : State :=
  let a := leAt bs 1 6
  if bs.length = 15 ∧ leAt bs 0 1 = 1 then
    if isRegWord a then
      let x := (s.regPrompt a).regWrite a (wordOf (leAt bs 7 8))
      x.1.i3cStatus x.2
    else s.i3cStatus 1
  else if bs.length = 7 ∧ leAt bs 0 1 = 2 then
    if isRegWord a then
      let x := s.regRead a
      if x.1 = 0 then (s.regPrompt a).i3cPut 0 x.2 else s.i3cStatus x.1
    else s.i3cStatus 1
  else s.i3cStatus 5

/-- A private read (R400): nine bytes return the status and the data that wait; with none, or of another length, REFUSED. -/
def State.i3cReply (s : State) (len : Nat) : State :=
  match s.modc.i3cAns with
  | some x =>
    let s1 := s.updMod (fun m => { m with i3cAns := none })
    if len = 9 then s1.emit (.i3c (leBytes 1 x.1 ++ leBytes 8 x.2.toNat))
    else (s1.emit (.i3c ((leBytes 1 5 ++ leBytes 8 (Config.i3cData s.free).toNat).take len))).fresh
  | none => (s.emit (.i3c ((leBytes 1 5 ++ leBytes 8 (Config.i3cData s.free).toNat).take len))).fresh

/-- I3C_WRITE: a private write (R400). -/
def execI3cWrite (bs : List Byte) (s : State) : Host.Outcome State Fault Refusal := .next (if s.busUp then s.i3cTake bs else s)

/-- I3C_READ: a private write, where `bs` holds one, and a private read of `len` bytes (R400). -/
def execI3cRead (bs : List Byte) (len : Nat) (s : State) : Host.Outcome State Fault Refusal :=
  .next (if s.busUp then (if bs.isEmpty then s else s.i3cTake bs).i3cReply len else s)

/-- The address at which the target answers (Table 25.6): its dynamic address, or 0x08 + SLOT_ID. -/
def State.i3cAddr (s : State) : Nat := s.modc.dyn.getD (8 + s.modc.slotId % 32)

/-- A common command (R412). A target that holds a dynamic address takes no part in ENTDAA and SETDASA; it does not answer a command
that Table 25.6 does not list. -/
def State.common (s : State) : Ccc → State
  | .entdaa a =>
    if s.modc.dyn.isSome then s
    else (s.updMod (fun m => { m with dyn := some a })).emit
      (.i3c (leBytes 6 Config.i3cId.1.toNat ++ [Config.i3cId.2.1, Config.i3cId.2.2]))
  | .setdasa a => if s.modc.dyn.isSome then s else s.updMod (fun m => { m with dyn := some a })
  | .rstdaa => s.updMod (fun m => { m with dyn := none })
  | .getpid => s.emit (.i3c (leBytes 6 Config.i3cId.1.toNat))
  | .getbcr => s.emit (.i3c [Config.i3cId.2.1])
  | .getdcr => s.emit (.i3c [Config.i3cId.2.2])
  | .getstatus => (s.emit (.i3c (leBytes 2 (Config.i3cStatus s.free).toNat))).fresh
  | .enec => s
  | .disec => s
  | .other _ => s

/-- COMMON_COMMAND (R412). -/
def execCommonCommand (cmd : Ccc) (s : State) : Host.Outcome State Fault Refusal := .next (if s.busUp then s.common cmd else s)

end Sys2Proof.Machine
end

