-- ==== Sys2Proof/Machine/Dispatch.lean ====
section
/-! DEFINITION. One arm per command: the direct call of its meaning. -/

namespace Sys2Proof.Machine

/-- The effect of a command on everything but the queue. -/
def exec (i : Instr) (s : State) : Host.Outcome State Fault Refusal :=
  match i with
  | .nop d c q => Sys2Proof.Machine.execNop d c q s
  | .wait d c q => Sys2Proof.Machine.execWait d c q s
  | .sig d c q => Sys2Proof.Machine.execSig d c q s
  | .swap d c q => Sys2Proof.Machine.execSwap d c q s
  | .fence d c q => Sys2Proof.Machine.execFence d c q s
  | .trap d c q => Sys2Proof.Machine.execTrap d c q s
  | .mma d c q env => Sys2Proof.Machine.execMma d c q env s
  | .conv d c q env => Sys2Proof.Machine.execConv d c q env s
  | .elem d c q env => Sys2Proof.Machine.execElem d c q env s
  | .stat d c q env => Sys2Proof.Machine.execStat d c q env s
  | .opt d c q env => Sys2Proof.Machine.execOpt d c q env s
  | .rack d c q env => Sys2Proof.Machine.execRack d c q env s
  | .decant d c q env => Sys2Proof.Machine.execDecant d c q env s
  | .gather d c q env => Sys2Proof.Machine.execGather d c q env s
  | .scatter d c q env => Sys2Proof.Machine.execScatter d c q env s
  | .dispatch d c q env => Sys2Proof.Machine.execDispatch d c q env s
  | .combine d c q env => Sys2Proof.Machine.execCombine d c q env s
  | .mcast d c q env => Sys2Proof.Machine.execMcast d c q env s
  | .replica d c q env => Sys2Proof.Machine.execReplica d c q env s
  | .red d c q => Sys2Proof.Machine.execRed d c q s
  | .layout d c q => Sys2Proof.Machine.execLayout d c q s
  | .snap d c q env => Sys2Proof.Machine.execSnap d c q env s
  | .statRingUpdate d fid env => Sys2Proof.Machine.execStatRingUpdate d fid env s
  | .tableFetch d c q env => Sys2Proof.Machine.execTableFetch d c q env s
  | .unitComplete d fid u => Sys2Proof.Machine.execUnitComplete d fid u s
  | .waitTimeout d c q => Sys2Proof.Machine.execWaitTimeout d c q s
  | .trapRecord c => Sys2Proof.Machine.execTrapRecord c s
  | .stop c => Sys2Proof.Machine.execStop c s
  | .resume c => Sys2Proof.Machine.execResume c s
  | .clear c => Sys2Proof.Machine.execClear c s
  | .seqCntWrite d c inst v => Sys2Proof.Machine.execSeqCntWrite d c inst v s
  | .quantumExpiry d l => Sys2Proof.Machine.execQuantumExpiry d l s
  | .contextPreload d l env => Sys2Proof.Machine.execContextPreload d l env s
  | .contextSwitch d l env => Sys2Proof.Machine.execContextSwitch d l env s
  | .doorbell c p => Sys2Proof.Machine.execDoorbell c p s
  | .descriptorFetch c => Sys2Proof.Machine.execDescriptorFetch c s
  | .descriptorArrive c ok ws => Sys2Proof.Machine.execDescriptorArrive c ok ws s
  | .directoryArrive c env => Sys2Proof.Machine.execDirectoryArrive c env s
  | .descriptorComplete c => Sys2Proof.Machine.execDescriptorComplete c s
  | .descriptorPost c => Sys2Proof.Machine.execDescriptorPost c s
  | .completionEntryWrite c => Sys2Proof.Machine.execCompletionEntryWrite c s
  | .consWriteBack c => Sys2Proof.Machine.execConsWriteBack c s
  | .completionVector c => Sys2Proof.Machine.execCompletionVector c s
  | .seqRingReset c => Sys2Proof.Machine.execSeqRingReset c s
  | .cellarRead a ecc => Sys2Proof.Machine.execCellarRead a ecc s
  | .cellarWrite a bs sb => Sys2Proof.Machine.execCellarWrite a bs sb s
  | .cellarMaskedWrite a bs mask sb crc => Sys2Proof.Machine.execCellarMaskedWrite a bs mask sb crc s
  | .scrub a ecc => Sys2Proof.Machine.execScrub a ecc s
  | .celPartitionChange d => Sys2Proof.Machine.execCelPartitionChange d s
  | .flush d => Sys2Proof.Machine.execFlush d s
  | .purge d => Sys2Proof.Machine.execPurge d s
  | .flushComplete d => Sys2Proof.Machine.execFlushComplete d s
  | .celSpareIn d bank spare => Sys2Proof.Machine.execCelSpareIn d bank spare s
  | .celSpareDone d => Sys2Proof.Machine.execCelSpareDone d s
  | .hbmRead a ev => Sys2Proof.Machine.execHbmRead a ev s
  | .hbmWrite a bs sb ev => Sys2Proof.Machine.execHbmWrite a bs sb ev s
  | .refreshRateEval d k below => Sys2Proof.Machine.execRefreshRateEval d k below s
  | .perBankRefresh d k pc => Sys2Proof.Machine.execPerBankRefresh d k pc s
  | .flushSb d k => Sys2Proof.Machine.execFlushSb d k s
  | .hbmRetire d k pc unit => Sys2Proof.Machine.execHbmRetire d k pc unit s
  | .retireDone d k bad => Sys2Proof.Machine.execRetireDone d k bad s
  | .maintEnter d k => Sys2Proof.Machine.execMaintEnter d k s
  | .maintExit d k => Sys2Proof.Machine.execMaintExit d k s
  | .mbist d k pat => Sys2Proof.Machine.execMbist d k pat s
  | .mbistDone d k fail => Sys2Proof.Machine.execMbistDone d k fail s
  | .hbm1500Go d k wir len => Sys2Proof.Machine.execHbm1500Go d k wir len s
  | .hbm1500Done d k out => Sys2Proof.Machine.execHbm1500Done d k out s
  | .hbmBringup d k fails => Sys2Proof.Machine.execHbmBringup d k fails s
  | .read d r => Sys2Proof.Machine.execRead d r s
  | .write d r => Sys2Proof.Machine.execWrite d r s
  | .redstore d r alu => Sys2Proof.Machine.execRedstore d r alu s
  | .atomic d r env alu => Sys2Proof.Machine.execAtomic d r env alu s
  | .signal d r alu => Sys2Proof.Machine.execSignal d r alu s
  | .fabricResponse d tag st bs sb => Sys2Proof.Machine.execFabricResponse d tag st bs sb s
  | .hotLineWindow d inst alu => Sys2Proof.Machine.execHotLineWindow d inst alu s
  | .hotLineFree d inst => Sys2Proof.Machine.execHotLineFree d inst s
  | .hopAckTimeout d p => Sys2Proof.Machine.execHopAckTimeout d p s
  | .nak d p hseq => Sys2Proof.Machine.execNak d p hseq s
  | .e2eTimeout d tag => Sys2Proof.Machine.execE2eTimeout d tag s
  | .bulkEscape d p inst => Sys2Proof.Machine.execBulkEscape d p inst s
  | .ctrlHoldRelease d => Sys2Proof.Machine.execCtrlHoldRelease d s
  | .frameReceive d p bs fcs => Sys2Proof.Machine.execFrameReceive d p bs fcs s
  | .frameTransmit d p => Sys2Proof.Machine.execFrameTransmit d p s
  | .frameTxEnd d p => Sys2Proof.Machine.execFrameTxEnd d p s
  | .pfcReceive d p cls quanta => Sys2Proof.Machine.execPfcReceive d p cls quanta s
  | .pfcRepeat d p => Sys2Proof.Machine.execPfcRepeat d p s
  | .pauseExpiry d p cls => Sys2Proof.Machine.execPauseExpiry d p cls s
  | .ackOnlyFrame d p => Sys2Proof.Machine.execAckOnlyFrame d p s
  | .portBringUp d p locks => Sys2Proof.Machine.execPortBringUp d p locks s
  | .hello d p peer port => Sys2Proof.Machine.execHello d p peer port s
  | .portRetrainTimer d p => Sys2Proof.Machine.execPortRetrainTimer d p s
  | .macRetrain d p => Sys2Proof.Machine.execMacRetrain d p s
  | .laneLockLoss d p lane => Sys2Proof.Machine.execLaneLockLoss d p lane s
  | .macSpareIn d p lane => Sys2Proof.Machine.execMacSpareIn d p lane s
  | .spareReq d p lane => Sys2Proof.Machine.execSpareReq d p lane s
  | .pcsRealigned d p => Sys2Proof.Machine.execPcsRealigned d p s
  | .spareDone d p => Sys2Proof.Machine.execSpareDone d p s
  | .laneSerWindow d p lane errs => Sys2Proof.Machine.execLaneSerWindow d p lane errs s
  | .gateEntry d p => Sys2Proof.Machine.execGateEntry d p s
  | .ptpMessage d p msg => Sys2Proof.Machine.execPtpMessage d p msg s
  | .hqRxCons d p v => Sys2Proof.Machine.execHqRxCons d p v s
  | .hqTxProd d p v => Sys2Proof.Machine.execHqTxProd d p v s
  | .bucketStart d c h => Sys2Proof.Machine.execBucketStart d c h s
  | .chunkLoaded d c h env => Sys2Proof.Machine.execChunkLoaded d c h env s
  | .channelHeaderUpdate d c h env alu => Sys2Proof.Machine.execChannelHeaderUpdate d c h env alu s
  | .bucketComplete d c h => Sys2Proof.Machine.execBucketComplete d c h s
  | .redTimeout d c h w => Sys2Proof.Machine.execRedTimeout d c h w s
  | .aglLinkTrain d => Sys2Proof.Machine.execAglLinkTrain d s
  | .aglLanesTrained d lanes => Sys2Proof.Machine.execAglLanesTrained d lanes s
  | .aglInit d proto side cr cs cp => Sys2Proof.Machine.execAglInit d proto side cr cs cp s
  | .flitReceive d bs => Sys2Proof.Machine.execFlitReceive d bs s
  | .aglNak d fack => Sys2Proof.Machine.execAglNak d fack s
  | .flitReplayTimeout d => Sys2Proof.Machine.execFlitReplayTimeout d s
  | .aglRetrain d => Sys2Proof.Machine.execAglRetrain d s
  | .aglDown d => Sys2Proof.Machine.execAglDown d s
  | .aglAutoRetrain d => Sys2Proof.Machine.execAglAutoRetrain d s
  | .rdOnce d tag a => Sys2Proof.Machine.execRdOnce d tag a s
  | .rdShared d tag a => Sys2Proof.Machine.execRdShared d tag a s
  | .rdOwn d tag a => Sys2Proof.Machine.execRdOwn d tag a s
  | .rd8 d tag a => Sys2Proof.Machine.execRd8 d tag a s
  | .wrLine d tag a bs sb => Sys2Proof.Machine.execWrLine d tag a bs sb s
  | .wrPart d tag a bs sb mask => Sys2Proof.Machine.execWrPart d tag a bs sb mask s
  | .wr8 d tag a v => Sys2Proof.Machine.execWr8 d tag a v s
  | .wrBack d tag a bs sb => Sys2Proof.Machine.execWrBack d tag a bs sb s
  | .evict d tag a => Sys2Proof.Machine.execEvict d tag a s
  | .hostAtomic d tag a kind x y env alu => Sys2Proof.Machine.execHostAtomic d tag a kind x y env alu s
  | .rsp d tag st => Sys2Proof.Machine.execRsp d tag st s
  | .rsp8 d tag st v => Sys2Proof.Machine.execRsp8 d tag st v s
  | .rspData d tag st bs sb => Sys2Proof.Machine.execRspData d tag st bs sb s
  | .snpTimeout d tag => Sys2Proof.Machine.execSnpTimeout d tag s
  | .rspTimeout d tag => Sys2Proof.Machine.execRspTimeout d tag s
  | .intr d => Sys2Proof.Machine.execIntr d s
  | .startUp slot recs mcBad => Sys2Proof.Machine.execStartUp slot recs mcBad s
  | .rstNFall => Sys2Proof.Machine.execRstNFall s
  | .bootStageTimeout => Sys2Proof.Machine.execBootStageTimeout s
  | .dieRelease d clk bad dieBad => Sys2Proof.Machine.execDieRelease d clk bad dieBad s
  | .moduleReady => Sys2Proof.Machine.execModuleReady s
  | .update rec wr => Sys2Proof.Machine.execUpdate rec wr s
  | .commit wr => Sys2Proof.Machine.execCommit wr s
  | .attest nonce sig wr => Sys2Proof.Machine.execAttest nonce sig wr s
  | .ownerInstall rec wr => Sys2Proof.Machine.execOwnerInstall rec wr s
  | .secCommandEnd => Sys2Proof.Machine.execSecCommandEnd s
  | .freqChangeRequest d p n => Sys2Proof.Machine.execFreqChangeRequest d p n s
  | .freqChangeRestart d p => Sys2Proof.Machine.execFreqChangeRestart d p s
  | .deferredIncrease d p => Sys2Proof.Machine.execDeferredIncrease d p s
  | .marginWarn d p m => Sys2Proof.Machine.execMarginWarn d p m s
  | .oscFallback d p => Sys2Proof.Machine.execOscFallback d p s
  | .pllUnlock d => Sys2Proof.Machine.execPllUnlock d s
  | .refLost => Sys2Proof.Machine.execRefLost s
  | .serdesPllUnlock d ports agl => Sys2Proof.Machine.execSerdesPllUnlock d ports agl s
  | .crossingWake d p => Sys2Proof.Machine.execCrossingWake d p s
  | .heldCrossingScan d => Sys2Proof.Machine.execHeldCrossingScan d s
  | .domainTimeCorrect d => Sys2Proof.Machine.execDomainTimeCorrect d s
  | .pkgSync d => Sys2Proof.Machine.execPkgSync d s
  | .syncInterval => Sys2Proof.Machine.execSyncInterval s
  | .ppsEdge => Sys2Proof.Machine.execPpsEdge s
  | .syncLost => Sys2Proof.Machine.execSyncLost s
  | .timOffset d v => Sys2Proof.Machine.execTimOffset d v s
  | .vinStop v => Sys2Proof.Machine.execVinStop v s
  | .ibcFail inst => Sys2Proof.Machine.execIbcFail inst s
  | .railFault d rail => Sys2Proof.Machine.execRailFault d rail s
  | .phaseFail d p ph => Sys2Proof.Machine.execPhaseFail d p ph s
  | .retentionEnter d p => Sys2Proof.Machine.execRetentionEnter d p s
  | .powerOnRequest d p => Sys2Proof.Machine.execPowerOnRequest d p s
  | .admissionEval d quad amps => Sys2Proof.Machine.execAdmissionEval d quad amps s
  | .rampDone d p held => Sys2Proof.Machine.execRampDone d p held s
  | .lowWaterRecord d rail mv tm => Sys2Proof.Machine.execLowWaterRecord d rail mv tm s
  | .enterLp => Sys2Proof.Machine.execEnterLp s
  | .exitLp => Sys2Proof.Machine.execExitLp s
  | .powerEval d sm => Sys2Proof.Machine.execPowerEval d sm s
  | .droopTrip d p => Sys2Proof.Machine.execDroopTrip d p s
  | .stretchHoldEnd d p cycles => Sys2Proof.Machine.execStretchHoldEnd d p cycles s
  | .llExpiry d p e => Sys2Proof.Machine.execLlExpiry d p e s
  | .vfRecordWrite d wr => Sys2Proof.Machine.execVfRecordWrite d wr s
  | .inputSample v inst => Sys2Proof.Machine.execInputSample v inst s
  | .capEval sm => Sys2Proof.Machine.execCapEval sm s
  | .dieBudgetEval d watts => Sys2Proof.Machine.execDieBudgetEval d watts s
  | .sensorConversion d inst t => Sys2Proof.Machine.execSensorConversion d inst t s
  | .pairFault d p => Sys2Proof.Machine.execPairFault d p s
  | .throttleStep d p => Sys2Proof.Machine.execThrottleStep d p s
  | .thermalUndo d inst => Sys2Proof.Machine.execThermalUndo d inst s
  | .hbmTempRead d k t => Sys2Proof.Machine.execHbmTempRead d k t s
  | .trayRead tin tout flow => Sys2Proof.Machine.execTrayRead tin tout flow s
  | .coolantShutdown => Sys2Proof.Machine.execCoolantShutdown s
  | .errnStuck => Sys2Proof.Machine.execErrnStuck s
  | .dieStop d b bit => Sys2Proof.Machine.execDieStop d b bit s
  | .moduleStop => Sys2Proof.Machine.execModuleStop s
  | .bridgeFlitReject d peer n => Sys2Proof.Machine.execBridgeFlitReject d peer n s
  | .statusClear d b inst v => Sys2Proof.Machine.execStatusClear d b inst v s
  | .clIn d l => Sys2Proof.Machine.execClIn d l s
  | .clusterSwitchHold bad => Sys2Proof.Machine.execClusterSwitchHold bad s
  | .clusterSwitchCopy => Sys2Proof.Machine.execClusterSwitchCopy s
  | .bankIn d bank => Sys2Proof.Machine.execBankIn d bank s
  | .laneIn d p lane => Sys2Proof.Machine.execLaneIn d p lane s
  | .spareRetire d k pc unit => Sys2Proof.Machine.execSpareRetire d k pc unit s
  | .testCl d l => Sys2Proof.Machine.execTestCl d l s
  | .repairRecordWrite d wr => Sys2Proof.Machine.execRepairRecordWrite d wr s
  | .repairRetry d wr => Sys2Proof.Machine.execRepairRetry d wr s
  | .injectResidue d l arr => Sys2Proof.Machine.execInjectResidue d l arr s
  | .injectExitCrc d u => Sys2Proof.Machine.execInjectExitCrc d u s
  | .swapRequest d b inst => Sys2Proof.Machine.execSwapRequest d b inst s
  | .blockSwap d b inst => Sys2Proof.Machine.execBlockSwap d b inst s
  | .interruptMaskWrite d b inst v => Sys2Proof.Machine.execInterruptMaskWrite d b inst v s
  | .registerWrite a v => Sys2Proof.Machine.execRegisterWrite a v s
  | .i3cWrite bs => Sys2Proof.Machine.execI3cWrite bs s
  | .i3cRead bs len => Sys2Proof.Machine.execI3cRead bs len s
  | .commonCommand cmd => Sys2Proof.Machine.execCommonCommand cmd s
  | .patternTestEnd bad => Sys2Proof.Machine.execPatternTestEnd bad s

end Sys2Proof.Machine
end

