-- ==== Sys2Proof/Machine/Tick.lean ====
section
/-! DEFINITION. What passes with a Cellar-and-Trellis clock when no command waits (log entry 2): the time bases (R321), the idle counters
of the sequencers (R116), and host accesses that waited. -/

namespace Sys2Proof.Machine

/-- The slew of one clock, 2^−32 ns (R321): 100 ppm of the rate, 500 ppm for a large backward correction. -/
def DieSt.slewStep (x : DieSt) : Int :=
  let lim : Int := x.rate / (if x.fastSlew then 2000 else 10000)
  max (-lim) (min lim x.slew)

/-- The time base advances by its rate word and the slew (R321). -/
def DieSt.advance (x : DieSt) : DieSt :=
  let t : Int := x.now * 2 ^ 32 + x.frac + x.rate + x.slewStep
  { x with now := (t / 2 ^ 32).toNat % 2 ^ 64, frac := (t % 2 ^ 32).toNat, slew := x.slew - x.slewStep, phase4 := (x.phase4 + 1) % 4 }

/-- The code of the idle cause of a context on a die: the first of Table 6.9 that applies (R116). -/
def State.idleCause (s : State) (d c : Nat) : Nat :=
  let x := s.ctx d c
  let hold (k : Nat) : Bool := match s.head d c false with
    | some y => (onesOf (useMask y.2) 48).any (fun l => decide (s.clHold d l = some k))
    | none => false
  if hold 6 then 6
  else if hold 5 then 5
  else if (x.main.atEnd && x.defer.atEnd) || s.isReady d c then 7
  else match s.head d c false with
  | some y => if s.waitHeld d c y.2 && decide (stWaitCause y.2 ≤ 4) then stWaitCause y.2 else 4
  | none => 4

/-- A sequencer clock of a context: idle where none of its steps is in flight on the die (R116). -/
def State.idleClock (s : State) (d c : Nat) : State :=
  if (s.ctx d c).st = .running ∧ (s.inFlight d c).isEmpty then s.addRg d .seq 0 (0x400 + 0x40 * c + 8 * s.idleCause d c) 1 else s

/-- A clock of a die that runs; every fourth is a sequencer clock (R313). -/
def State.tickDie (s : State) (d : Nat) : State :=
  if !s.live d then s
  else
    let s1 := s.updDie d DieSt.advance
    if (s1.die d).phase4 = 0 then forEach (List.range 8) (fun c t => t.idleClock d c) s1 else s1

/-- One clock of the module. -/
def State.clockTick (s : State) : State :=
  (forEach s.allDies (fun d t => t.tickDie d) { s with tick := s.tick + 1 }).retryHost

end Sys2Proof.Machine
end

