-- ==== Sys2Proof/WellFormed.lean ====
section
/-! DEFINITION. Which commands are well formed: every operand lies in the range that its field of the manual has. Every other command has a
meaning too (it names nothing, and changes nothing or is answered so); well-formedness says which commands an agent can send. -/

namespace Sys2Proof

/-- An operand below a bound. -/
def under (n x : Nat) : Bool := decide (x < n)

/-- A payload of `n` bytes. -/
def bytesAre (n : Nat) (bs : List Byte) : Bool := decide (bs.length = n)

/-- A fabric record's fields lie in their widths (Table 12.5). -/
def recOk (r : FRec) : Bool :=
  under 4 r.kind && under 16 r.op && under 8 r.ctx && under 8 r.die && under 16 r.word && under 4096 r.srcMod && under 4096 r.dstMod &&
    under 32768 r.tag && under (2 ^ 32) r.seq && under 256 r.stat && under (2 ^ 64) r.addr

/-- The command is well formed. -/
def Instr.wf : Instr → Bool
  | .nop d c _ => under 8 d && under 8 c
  | .wait d c _ => under 8 d && under 8 c
  | .sig d c _ => under 8 d && under 8 c
  | .swap d c _ => under 8 d && under 8 c
  | .fence d c _ => under 8 d && under 8 c
  | .trap d c _ => under 8 d && under 8 c
  | .mma d c _ _ => under 8 d && under 8 c
  | .conv d c _ _ => under 8 d && under 8 c
  | .elem d c _ _ => under 8 d && under 8 c
  | .stat d c _ _ => under 8 d && under 8 c
  | .opt d c _ _ => under 8 d && under 8 c
  | .rack d c _ _ => under 8 d && under 8 c
  | .decant d c _ _ => under 8 d && under 8 c
  | .gather d c _ _ => under 8 d && under 8 c
  | .scatter d c _ _ => under 8 d && under 8 c
  | .dispatch d c _ _ => under 8 d && under 8 c
  | .combine d c _ _ => under 8 d && under 8 c
  | .mcast d c _ _ => under 8 d && under 8 c
  | .replica d c _ _ => under 8 d && under 8 c
  | .red d c _ => under 8 d && under 8 c
  | .layout d c _ => under 8 d && under 8 c
  | .snap d c _ _ => under 8 d && under 8 c
  | .statRingUpdate d _ _ => under 8 d
  | .tableFetch d c _ _ => under 8 d && under 8 c
  | .unitComplete d _ _ => under 8 d
  | .waitTimeout d c _ => under 8 d && under 8 c
  | .trapRecord c => under 8 c
  | .stop c => under 8 c
  | .resume c => under 8 c
  | .clear c => under 8 c
  | .seqCntWrite d c i _ => under 8 d && under 8 c && under 256 i
  | .quantumExpiry d l => under 8 d && under 48 l
  | .contextPreload d l _ => under 8 d && under 48 l
  | .contextSwitch d l _ => under 8 d && under 48 l
  | .doorbell c _ => under 8 c
  | .descriptorFetch c => under 8 c
  | .descriptorArrive c _ ws => under 8 c && decide (ws.length = 8)
  | .directoryArrive c _ => under 8 c
  | .descriptorComplete c => under 8 c
  | .descriptorPost c => under 8 c
  | .completionEntryWrite c => under 8 c
  | .consWriteBack c => under 8 c
  | .completionVector c => under 8 c
  | .seqRingReset c => under 8 c
  | .cellarRead a _ => under (2 ^ 48) a
  | .cellarWrite a bs _ => under (2 ^ 48) a && bytesAre 128 bs
  | .cellarMaskedWrite a bs mask _ crc => under (2 ^ 48) a && bytesAre 128 bs && under (2 ^ 128) mask && under (2 ^ 32) crc
  | .scrub a _ => under (2 ^ 48) a
  | .celPartitionChange d => under 8 d
  | .flush d => under 8 d
  | .purge d => under 8 d
  | .flushComplete d => under 8 d
  | .celSpareIn d bank spare => under 8 d && under 1024 bank && under 32 spare
  | .celSpareDone d => under 8 d
  | .hbmRead a _ => under (2 ^ 48) a
  | .hbmWrite a bs _ _ => under (2 ^ 48) a && bytesAre 128 bs
  | .refreshRateEval d k _ => under 8 d && under 2 k
  | .perBankRefresh d k pc => under 8 d && under 2 k && under 64 pc
  | .flushSb d k => under 8 d && under 2 k
  | .hbmRetire d k pc unit => under 8 d && under 2 k && under 64 pc && under 16384 unit
  | .retireDone d k _ => under 8 d && under 2 k
  | .maintEnter d k => under 8 d && under 2 k
  | .maintExit d k => under 8 d && under 2 k
  | .mbist d k pat => under 8 d && under 2 k && under 8 pat
  | .mbistDone d k _ => under 8 d && under 2 k
  | .hbm1500Go d k wir len => under 8 d && under 2 k && under 65536 wir && under 4096 len
  | .hbm1500Done d k _ => under 8 d && under 2 k
  | .hbmBringup d k _ => under 8 d && under 2 k
  | .read d r => under 8 d && recOk r
  | .write d r => under 8 d && recOk r
  | .redstore d r _ => under 8 d && recOk r
  | .atomic d r _ _ => under 8 d && recOk r
  | .signal d r _ => under 8 d && recOk r
  | .fabricResponse d tag st bs _ => under 8 d && under 32768 tag && under 256 st && bytesAre 128 bs
  | .hotLineWindow d _ _ => under 8 d
  | .hotLineFree d _ => under 8 d
  | .hopAckTimeout d p => under 8 d && under 8 p
  | .nak d p hseq => under 8 d && under 8 p && under 2048 hseq
  | .e2eTimeout d tag => under 8 d && under 32768 tag
  | .bulkEscape d p _ => under 8 d && under 8 p
  | .ctrlHoldRelease d => under 8 d
  | .frameReceive d p _ _ => under 8 d && under 8 p
  | .frameTransmit d p => under 8 d && under 8 p
  | .frameTxEnd d p => under 8 d && under 8 p
  | .pfcReceive d p cls quanta => under 8 d && under 8 p && under 8 cls && under 65536 quanta
  | .pfcRepeat d p => under 8 d && under 8 p
  | .pauseExpiry d p cls => under 8 d && under 8 p && under 8 cls
  | .ackOnlyFrame d p => under 8 d && under 8 p
  | .portBringUp d p locks => under 8 d && under 8 p && under 512 locks
  | .hello d p peer port => under 8 d && under 8 p && under 4096 peer && under 32 port
  | .portRetrainTimer d p => under 8 d && under 8 p
  | .macRetrain d p => under 8 d && under 8 p
  | .laneLockLoss d p lane => under 8 d && under 8 p && under 9 lane
  | .macSpareIn d p lane => under 8 d && under 8 p && under 8 lane
  | .spareReq d p lane => under 8 d && under 8 p && under 8 lane
  | .pcsRealigned d p => under 8 d && under 8 p
  | .spareDone d p => under 8 d && under 8 p
  | .laneSerWindow d p lane _ => under 8 d && under 8 p && under 9 lane
  | .gateEntry d p => under 8 d && under 8 p
  | .ptpMessage d p _ => under 8 d && under 8 p
  | .hqRxCons d p v => under 8 d && under 8 p && under 65536 v
  | .hqTxProd d p v => under 8 d && under 8 p && under 65536 v
  | .bucketStart d c h => under 8 d && under 8 c && under 16 h
  | .chunkLoaded d c h _ => under 8 d && under 8 c && under 16 h
  | .channelHeaderUpdate d c h _ _ => under 8 d && under 8 c && under 16 h
  | .bucketComplete d c h => under 8 d && under 8 c && under 16 h
  | .redTimeout d c h _ => under 8 d && under 8 c && under 16 h
  | .aglLinkTrain d => under 8 d
  | .aglLanesTrained d lanes => under 8 d && under 65536 lanes
  | .aglInit d proto side cr cs cp => under 8 d && under 256 proto && under 256 side && under 65536 cr && under 65536 cs && under 65536 cp
  | .flitReceive d bs => under 8 d && bytesAre 256 bs
  | .aglNak d fack => under 8 d && under 4096 fack
  | .flitReplayTimeout d => under 8 d
  | .aglRetrain d => under 8 d
  | .aglDown d => under 8 d
  | .aglAutoRetrain d => under 8 d
  | .rdOnce d tag a => under 8 d && under 65536 tag && under (2 ^ 64) a
  | .rdShared d tag a => under 8 d && under 65536 tag && under (2 ^ 64) a
  | .rdOwn d tag a => under 8 d && under 65536 tag && under (2 ^ 64) a
  | .rd8 d tag a => under 8 d && under 65536 tag && under (2 ^ 64) a
  | .wrLine d tag a bs _ => under 8 d && under 65536 tag && under (2 ^ 64) a && bytesAre 128 bs
  | .wrPart d tag a bs _ mask => under 8 d && under 65536 tag && under (2 ^ 64) a && bytesAre 128 bs && under (2 ^ 128) mask
  | .wr8 d tag a _ => under 8 d && under 65536 tag && under (2 ^ 64) a
  | .wrBack d tag a bs _ => under 8 d && under 65536 tag && under (2 ^ 64) a && bytesAre 128 bs
  | .evict d tag a => under 8 d && under 65536 tag && under (2 ^ 64) a
  | .hostAtomic d tag a kind _ _ _ _ => under 8 d && under 65536 tag && under (2 ^ 64) a && under 256 kind
  | .rsp d tag st => under 8 d && under 65536 tag && under 256 st
  | .rsp8 d tag st _ => under 8 d && under 65536 tag && under 256 st
  | .rspData d tag st bs _ => under 8 d && under 65536 tag && under 256 st && bytesAre 128 bs
  | .snpTimeout d tag => under 8 d && under 65536 tag
  | .rspTimeout d tag => under 8 d && under 65536 tag
  | .intr d => under 8 d
  | .startUp slot _ _ => under 32 slot
  | .rstNFall => true
  | .bootStageTimeout => true
  | .dieRelease d _ _ _ => under 8 d
  | .moduleReady => true
  | .update _ _ => true
  | .commit _ => true
  | .attest _ _ _ => true
  | .ownerInstall _ _ => true
  | .secCommandEnd => true
  | .freqChangeRequest d p n => under 8 d && under 52 p && under 32 n
  | .freqChangeRestart d p => under 8 d && under 52 p
  | .deferredIncrease d p => under 8 d && under 52 p
  | .marginWarn d p _ => under 8 d && under 52 p
  | .oscFallback d p => under 8 d && under 52 p
  | .pllUnlock d => under 8 d
  | .refLost => true
  | .serdesPllUnlock d ports _ => under 8 d && under 16 ports
  | .crossingWake d p => under 8 d && under 52 p
  | .heldCrossingScan d => under 8 d
  | .domainTimeCorrect d => under 8 d
  | .pkgSync d => under 8 d
  | .syncInterval => true
  | .ppsEdge => true
  | .syncLost => true
  | .timOffset d _ => under 8 d
  | .vinStop _ => true
  | .ibcFail i => under 4 i
  | .railFault d rail => under 8 d && under 60 rail
  | .phaseFail d p ph => under 8 d && under 52 p && under 5 ph
  | .retentionEnter d p => under 8 d && under 52 p
  | .powerOnRequest d p => under 8 d && under 52 p
  | .admissionEval d quad _ => under 8 d && under 4 quad
  | .rampDone d p _ => under 8 d && under 52 p
  | .lowWaterRecord d rail _ _ => under 8 d && under 60 rail
  | .enterLp => true
  | .exitLp => true
  | .powerEval d _ => under 8 d
  | .droopTrip d p => under 8 d && under 52 p
  | .stretchHoldEnd d p _ => under 8 d && under 52 p
  | .llExpiry d p e => under 8 d && under 52 p && under 24 e
  | .vfRecordWrite d _ => under 8 d
  | .inputSample _ _ => true
  | .capEval _ => true
  | .dieBudgetEval d _ => under 8 d
  | .sensorConversion d i _ => under 8 d && under 116 i
  | .pairFault d p => under 8 d && under 52 p
  | .throttleStep d p => under 8 d && under 52 p
  | .thermalUndo d i => under 8 d && under 116 i
  | .hbmTempRead d k _ => under 8 d && under 2 k
  | .trayRead _ _ _ => true
  | .coolantShutdown => true
  | .errnStuck => true
  | .dieStop d _ bit => under 8 d && under 64 bit
  | .moduleStop => true
  | .bridgeFlitReject d peer _ => under 8 d && under 8 peer
  | .statusClear d b i _ => under 8 d && under (Blk.insts b) i
  | .clIn d l => under 8 d && under 48 l
  | .clusterSwitchHold _ => true
  | .clusterSwitchCopy => true
  | .bankIn d bank => under 8 d && under 1024 bank
  | .laneIn d p lane => under 8 d && under 8 p && under 8 lane
  | .spareRetire d k pc unit => under 8 d && under 2 k && under 64 pc && under 16384 unit
  | .testCl d l => under 8 d && under 48 l
  | .repairRecordWrite d _ => under 8 d
  | .repairRetry d _ => under 8 d
  | .injectResidue d l arr => under 8 d && under 48 l && under 4 arr
  | .injectExitCrc d u => under 8 d && under 8 u
  | .swapRequest d b i => under 8 d && under (Blk.insts b) i
  | .blockSwap d b i => under 8 d && under (Blk.insts b) i
  | .interruptMaskWrite d b i _ => under 8 d && under (Blk.insts b) i
  | .registerWrite a _ => under (2 ^ 48) a
  | .i3cWrite _ => true
  | .i3cRead _ _ => true
  | .commonCommand _ => true
  | .patternTestEnd _ => true

/-- The die a command names, 0 for a command that names none. -/
def Instr.dieOf : Instr → Nat
  | .nop d _ _ => d
  | .wait d _ _ => d
  | .sig d _ _ => d
  | .swap d _ _ => d
  | .fence d _ _ => d
  | .trap d _ _ => d
  | .mma d _ _ _ => d
  | .conv d _ _ _ => d
  | .elem d _ _ _ => d
  | .stat d _ _ _ => d
  | .opt d _ _ _ => d
  | .rack d _ _ _ => d
  | .decant d _ _ _ => d
  | .gather d _ _ _ => d
  | .scatter d _ _ _ => d
  | .dispatch d _ _ _ => d
  | .combine d _ _ _ => d
  | .mcast d _ _ _ => d
  | .replica d _ _ _ => d
  | .red d _ _ => d
  | .layout d _ _ => d
  | .snap d _ _ _ => d
  | .statRingUpdate d _ _ => d
  | .tableFetch d _ _ _ => d
  | .unitComplete d _ _ => d
  | .waitTimeout d _ _ => d
  | .trapRecord _ => 0
  | .stop _ => 0
  | .resume _ => 0
  | .clear _ => 0
  | .seqCntWrite d _ _ _ => d
  | .quantumExpiry d _ => d
  | .contextPreload d _ _ => d
  | .contextSwitch d _ _ => d
  | .doorbell _ _ => 0
  | .descriptorFetch _ => 0
  | .descriptorArrive _ _ _ => 0
  | .directoryArrive _ _ => 0
  | .descriptorComplete _ => 0
  | .descriptorPost _ => 0
  | .completionEntryWrite _ => 0
  | .consWriteBack _ => 0
  | .completionVector _ => 0
  | .seqRingReset _ => 0
  | .cellarRead _ _ => 0
  | .cellarWrite _ _ _ => 0
  | .cellarMaskedWrite _ _ _ _ _ => 0
  | .scrub _ _ => 0
  | .celPartitionChange d => d
  | .flush d => d
  | .purge d => d
  | .flushComplete d => d
  | .celSpareIn d _ _ => d
  | .celSpareDone d => d
  | .hbmRead _ _ => 0
  | .hbmWrite _ _ _ _ => 0
  | .refreshRateEval d _ _ => d
  | .perBankRefresh d _ _ => d
  | .flushSb d _ => d
  | .hbmRetire d _ _ _ => d
  | .retireDone d _ _ => d
  | .maintEnter d _ => d
  | .maintExit d _ => d
  | .mbist d _ _ => d
  | .mbistDone d _ _ => d
  | .hbm1500Go d _ _ _ => d
  | .hbm1500Done d _ _ => d
  | .hbmBringup d _ _ => d
  | .read d _ => d
  | .write d _ => d
  | .redstore d _ _ => d
  | .atomic d _ _ _ => d
  | .signal d _ _ => d
  | .fabricResponse d _ _ _ _ => d
  | .hotLineWindow d _ _ => d
  | .hotLineFree d _ => d
  | .hopAckTimeout d _ => d
  | .nak d _ _ => d
  | .e2eTimeout d _ => d
  | .bulkEscape d _ _ => d
  | .ctrlHoldRelease d => d
  | .frameReceive d _ _ _ => d
  | .frameTransmit d _ => d
  | .frameTxEnd d _ => d
  | .pfcReceive d _ _ _ => d
  | .pfcRepeat d _ => d
  | .pauseExpiry d _ _ => d
  | .ackOnlyFrame d _ => d
  | .portBringUp d _ _ => d
  | .hello d _ _ _ => d
  | .portRetrainTimer d _ => d
  | .macRetrain d _ => d
  | .laneLockLoss d _ _ => d
  | .macSpareIn d _ _ => d
  | .spareReq d _ _ => d
  | .pcsRealigned d _ => d
  | .spareDone d _ => d
  | .laneSerWindow d _ _ _ => d
  | .gateEntry d _ => d
  | .ptpMessage d _ _ => d
  | .hqRxCons d _ _ => d
  | .hqTxProd d _ _ => d
  | .bucketStart d _ _ => d
  | .chunkLoaded d _ _ _ => d
  | .channelHeaderUpdate d _ _ _ _ => d
  | .bucketComplete d _ _ => d
  | .redTimeout d _ _ _ => d
  | .aglLinkTrain d => d
  | .aglLanesTrained d _ => d
  | .aglInit d _ _ _ _ _ => d
  | .flitReceive d _ => d
  | .aglNak d _ => d
  | .flitReplayTimeout d => d
  | .aglRetrain d => d
  | .aglDown d => d
  | .aglAutoRetrain d => d
  | .rdOnce d _ _ => d
  | .rdShared d _ _ => d
  | .rdOwn d _ _ => d
  | .rd8 d _ _ => d
  | .wrLine d _ _ _ _ => d
  | .wrPart d _ _ _ _ _ => d
  | .wr8 d _ _ _ => d
  | .wrBack d _ _ _ _ => d
  | .evict d _ _ => d
  | .hostAtomic d _ _ _ _ _ _ _ => d
  | .rsp d _ _ => d
  | .rsp8 d _ _ _ => d
  | .rspData d _ _ _ _ => d
  | .snpTimeout d _ => d
  | .rspTimeout d _ => d
  | .intr d => d
  | .startUp _ _ _ => 0
  | .rstNFall => 0
  | .bootStageTimeout => 0
  | .dieRelease d _ _ _ => d
  | .moduleReady => 0
  | .update _ _ => 0
  | .commit _ => 0
  | .attest _ _ _ => 0
  | .ownerInstall _ _ => 0
  | .secCommandEnd => 0
  | .freqChangeRequest d _ _ => d
  | .freqChangeRestart d _ => d
  | .deferredIncrease d _ => d
  | .marginWarn d _ _ => d
  | .oscFallback d _ => d
  | .pllUnlock d => d
  | .refLost => 0
  | .serdesPllUnlock d _ _ => d
  | .crossingWake d _ => d
  | .heldCrossingScan d => d
  | .domainTimeCorrect d => d
  | .pkgSync d => d
  | .syncInterval => 0
  | .ppsEdge => 0
  | .syncLost => 0
  | .timOffset d _ => d
  | .vinStop _ => 0
  | .ibcFail _ => 0
  | .railFault d _ => d
  | .phaseFail d _ _ => d
  | .retentionEnter d _ => d
  | .powerOnRequest d _ => d
  | .admissionEval d _ _ => d
  | .rampDone d _ _ => d
  | .lowWaterRecord d _ _ _ => d
  | .enterLp => 0
  | .exitLp => 0
  | .powerEval d _ => d
  | .droopTrip d _ => d
  | .stretchHoldEnd d _ _ => d
  | .llExpiry d _ _ => d
  | .vfRecordWrite d _ => d
  | .inputSample _ _ => 0
  | .capEval _ => 0
  | .dieBudgetEval d _ => d
  | .sensorConversion d _ _ => d
  | .pairFault d _ => d
  | .throttleStep d _ => d
  | .thermalUndo d _ => d
  | .hbmTempRead d _ _ => d
  | .trayRead _ _ _ => 0
  | .coolantShutdown => 0
  | .errnStuck => 0
  | .dieStop d _ _ => d
  | .moduleStop => 0
  | .bridgeFlitReject d _ _ => d
  | .statusClear d _ _ _ => d
  | .clIn d _ => d
  | .clusterSwitchHold _ => 0
  | .clusterSwitchCopy => 0
  | .bankIn d _ => d
  | .laneIn d _ _ => d
  | .spareRetire d _ _ _ => d
  | .testCl d _ => d
  | .repairRecordWrite d _ => d
  | .repairRetry d _ => d
  | .injectResidue d _ _ => d
  | .injectExitCrc d _ => d
  | .swapRequest d _ _ => d
  | .blockSwap d _ _ => d
  | .interruptMaskWrite d _ _ _ => d
  | .registerWrite _ _ => 0
  | .i3cWrite _ => 0
  | .i3cRead _ _ => 0
  | .commonCommand _ => 0
  | .patternTestEnd _ => 0

end Sys2Proof
end

