-- ==== Sys2Proof/Safety.lean ====
section
/-! DEFINITION. What counts as a safe state and a safe step, and the words in which claims are stated. -/

namespace Sys2Proof

/-- The commands that are steps of a work descriptor (Table 7.2): the rest of the table is what the block, the host and the physical
surroundings do. -/
def Instr.isStep : Instr → Bool
  | .nop _ _ _ => true
  | .wait _ _ _ => true
  | .sig _ _ _ => true
  | .swap _ _ _ => true
  | .fence _ _ _ => true
  | .trap _ _ _ => true
  | .mma _ _ _ _ => true
  | .conv _ _ _ _ => true
  | .elem _ _ _ _ => true
  | .stat _ _ _ _ => true
  | .opt _ _ _ _ => true
  | .rack _ _ _ _ => true
  | .decant _ _ _ _ => true
  | .gather _ _ _ _ => true
  | .scatter _ _ _ _ => true
  | .dispatch _ _ _ _ => true
  | .combine _ _ _ _ => true
  | .mcast _ _ _ _ => true
  | .replica _ _ _ _ => true
  | .red _ _ _ => true
  | .layout _ _ _ => true
  | .snap _ _ _ _ => true
  | .statRingUpdate _ _ _ => false
  | .tableFetch _ _ _ _ => false
  | .unitComplete _ _ _ => false
  | .waitTimeout _ _ _ => false
  | .trapRecord _ => false
  | .stop _ => false
  | .resume _ => false
  | .clear _ => false
  | .seqCntWrite _ _ _ _ => false
  | .quantumExpiry _ _ => false
  | .contextPreload _ _ _ => false
  | .contextSwitch _ _ _ => false
  | .doorbell _ _ => false
  | .descriptorFetch _ => false
  | .descriptorArrive _ _ _ => false
  | .directoryArrive _ _ => false
  | .descriptorComplete _ => false
  | .descriptorPost _ => false
  | .completionEntryWrite _ => false
  | .consWriteBack _ => false
  | .completionVector _ => false
  | .seqRingReset _ => false
  | .cellarRead _ _ => false
  | .cellarWrite _ _ _ => false
  | .cellarMaskedWrite _ _ _ _ _ => false
  | .scrub _ _ => false
  | .celPartitionChange _ => false
  | .flush _ => false
  | .purge _ => false
  | .flushComplete _ => false
  | .celSpareIn _ _ _ => false
  | .celSpareDone _ => false
  | .hbmRead _ _ => false
  | .hbmWrite _ _ _ _ => false
  | .refreshRateEval _ _ _ => false
  | .perBankRefresh _ _ _ => false
  | .flushSb _ _ => false
  | .hbmRetire _ _ _ _ => false
  | .retireDone _ _ _ => false
  | .maintEnter _ _ => false
  | .maintExit _ _ => false
  | .mbist _ _ _ => false
  | .mbistDone _ _ _ => false
  | .hbm1500Go _ _ _ _ => false
  | .hbm1500Done _ _ _ => false
  | .hbmBringup _ _ _ => false
  | .read _ _ => false
  | .write _ _ => false
  | .redstore _ _ _ => false
  | .atomic _ _ _ _ => false
  | .signal _ _ _ => false
  | .fabricResponse _ _ _ _ _ => false
  | .hotLineWindow _ _ _ => false
  | .hotLineFree _ _ => false
  | .hopAckTimeout _ _ => false
  | .nak _ _ _ => false
  | .e2eTimeout _ _ => false
  | .bulkEscape _ _ _ => false
  | .ctrlHoldRelease _ => false
  | .frameReceive _ _ _ _ => false
  | .frameTransmit _ _ => false
  | .frameTxEnd _ _ => false
  | .pfcReceive _ _ _ _ => false
  | .pfcRepeat _ _ => false
  | .pauseExpiry _ _ _ => false
  | .ackOnlyFrame _ _ => false
  | .portBringUp _ _ _ => false
  | .hello _ _ _ _ => false
  | .portRetrainTimer _ _ => false
  | .macRetrain _ _ => false
  | .laneLockLoss _ _ _ => false
  | .macSpareIn _ _ _ => false
  | .spareReq _ _ _ => false
  | .pcsRealigned _ _ => false
  | .spareDone _ _ => false
  | .laneSerWindow _ _ _ _ => false
  | .gateEntry _ _ => false
  | .ptpMessage _ _ _ => false
  | .hqRxCons _ _ _ => false
  | .hqTxProd _ _ _ => false
  | .bucketStart _ _ _ => false
  | .chunkLoaded _ _ _ _ => false
  | .channelHeaderUpdate _ _ _ _ _ => false
  | .bucketComplete _ _ _ => false
  | .redTimeout _ _ _ _ => false
  | .aglLinkTrain _ => false
  | .aglLanesTrained _ _ => false
  | .aglInit _ _ _ _ _ _ => false
  | .flitReceive _ _ => false
  | .aglNak _ _ => false
  | .flitReplayTimeout _ => false
  | .aglRetrain _ => false
  | .aglDown _ => false
  | .aglAutoRetrain _ => false
  | .rdOnce _ _ _ => false
  | .rdShared _ _ _ => false
  | .rdOwn _ _ _ => false
  | .rd8 _ _ _ => false
  | .wrLine _ _ _ _ _ => false
  | .wrPart _ _ _ _ _ _ => false
  | .wr8 _ _ _ _ => false
  | .wrBack _ _ _ _ _ => false
  | .evict _ _ _ => false
  | .hostAtomic _ _ _ _ _ _ _ _ => false
  | .rsp _ _ _ => false
  | .rsp8 _ _ _ _ => false
  | .rspData _ _ _ _ _ => false
  | .snpTimeout _ _ => false
  | .rspTimeout _ _ => false
  | .intr _ => false
  | .startUp _ _ _ => false
  | .rstNFall => false
  | .bootStageTimeout => false
  | .dieRelease _ _ _ _ => false
  | .moduleReady => false
  | .update _ _ => false
  | .commit _ => false
  | .attest _ _ _ => false
  | .ownerInstall _ _ => false
  | .secCommandEnd => false
  | .freqChangeRequest _ _ _ => false
  | .freqChangeRestart _ _ => false
  | .deferredIncrease _ _ => false
  | .marginWarn _ _ _ => false
  | .oscFallback _ _ => false
  | .pllUnlock _ => false
  | .refLost => false
  | .serdesPllUnlock _ _ _ => false
  | .crossingWake _ _ => false
  | .heldCrossingScan _ => false
  | .domainTimeCorrect _ => false
  | .pkgSync _ => false
  | .syncInterval => false
  | .ppsEdge => false
  | .syncLost => false
  | .timOffset _ _ => false
  | .vinStop _ => false
  | .ibcFail _ => false
  | .railFault _ _ => false
  | .phaseFail _ _ _ => false
  | .retentionEnter _ _ => false
  | .powerOnRequest _ _ => false
  | .admissionEval _ _ _ => false
  | .rampDone _ _ _ => false
  | .lowWaterRecord _ _ _ _ => false
  | .enterLp => false
  | .exitLp => false
  | .powerEval _ _ => false
  | .droopTrip _ _ => false
  | .stretchHoldEnd _ _ _ => false
  | .llExpiry _ _ _ => false
  | .vfRecordWrite _ _ => false
  | .inputSample _ _ => false
  | .capEval _ => false
  | .dieBudgetEval _ _ => false
  | .sensorConversion _ _ _ => false
  | .pairFault _ _ => false
  | .throttleStep _ _ => false
  | .thermalUndo _ _ => false
  | .hbmTempRead _ _ _ => false
  | .trayRead _ _ _ => false
  | .coolantShutdown => false
  | .errnStuck => false
  | .dieStop _ _ _ => false
  | .moduleStop => false
  | .bridgeFlitReject _ _ _ => false
  | .statusClear _ _ _ _ => false
  | .clIn _ _ => false
  | .clusterSwitchHold _ => false
  | .clusterSwitchCopy => false
  | .bankIn _ _ => false
  | .laneIn _ _ _ => false
  | .spareRetire _ _ _ _ => false
  | .testCl _ _ => false
  | .repairRecordWrite _ _ => false
  | .repairRetry _ _ => false
  | .injectResidue _ _ _ => false
  | .injectExitCrc _ _ => false
  | .swapRequest _ _ _ => false
  | .blockSwap _ _ _ => false
  | .interruptMaskWrite _ _ _ _ => false
  | .registerWrite _ _ => false
  | .i3cWrite _ => false
  | .i3cRead _ _ => false
  | .commonCommand _ => false
  | .patternTestEnd _ => false

/-- The commands that have no way to store to memory, whatever the state. -/
def Instr.storesNothing : Instr → Bool
  | .nop _ _ _ => false
  | .wait _ _ _ => false
  | .sig _ _ _ => false
  | .swap _ _ _ => false
  | .fence _ _ _ => false
  | .trap _ _ _ => false
  | .mma _ _ _ _ => false
  | .conv _ _ _ _ => false
  | .elem _ _ _ _ => false
  | .stat _ _ _ _ => false
  | .opt _ _ _ _ => false
  | .rack _ _ _ _ => false
  | .decant _ _ _ _ => false
  | .gather _ _ _ _ => false
  | .scatter _ _ _ _ => false
  | .dispatch _ _ _ _ => false
  | .combine _ _ _ _ => false
  | .mcast _ _ _ _ => false
  | .replica _ _ _ _ => false
  | .red _ _ _ => false
  | .layout _ _ _ => false
  | .snap _ _ _ _ => false
  | .statRingUpdate _ _ _ => false
  | .tableFetch _ _ _ _ => false
  | .unitComplete _ _ _ => false
  | .waitTimeout _ _ _ => false
  | .trapRecord _ => false
  | .stop _ => true
  | .resume _ => true
  | .clear _ => false
  | .seqCntWrite _ _ _ _ => true
  | .quantumExpiry _ _ => true
  | .contextPreload _ _ _ => false
  | .contextSwitch _ _ _ => false
  | .doorbell _ _ => true
  | .descriptorFetch _ => false
  | .descriptorArrive _ _ _ => true
  | .directoryArrive _ _ => true
  | .descriptorComplete _ => false
  | .descriptorPost _ => true
  | .completionEntryWrite _ => true
  | .consWriteBack _ => true
  | .completionVector _ => false
  | .seqRingReset _ => true
  | .cellarRead _ _ => true
  | .cellarWrite _ _ _ => false
  | .cellarMaskedWrite _ _ _ _ _ => false
  | .scrub _ _ => true
  | .celPartitionChange _ => false
  | .flush _ => true
  | .purge _ => true
  | .flushComplete _ => true
  | .celSpareIn _ _ _ => true
  | .celSpareDone _ => true
  | .hbmRead _ _ => true
  | .hbmWrite _ _ _ _ => false
  | .refreshRateEval _ _ _ => true
  | .perBankRefresh _ _ _ => true
  | .flushSb _ _ => true
  | .hbmRetire _ _ _ _ => true
  | .retireDone _ _ _ => true
  | .maintEnter _ _ => true
  | .maintExit _ _ => false
  | .mbist _ _ _ => true
  | .mbistDone _ _ _ => true
  | .hbm1500Go _ _ _ _ => true
  | .hbm1500Done _ _ _ => true
  | .hbmBringup _ _ _ => false
  | .read _ _ => true
  | .write _ _ => false
  | .redstore _ _ _ => false
  | .atomic _ _ _ _ => false
  | .signal _ _ _ => true
  | .fabricResponse _ _ _ _ _ => false
  | .hotLineWindow _ _ _ => true
  | .hotLineFree _ _ => true
  | .hopAckTimeout _ _ => false
  | .nak _ _ _ => false
  | .e2eTimeout _ _ => false
  | .bulkEscape _ _ _ => true
  | .ctrlHoldRelease _ => true
  | .frameReceive _ _ _ _ => false
  | .frameTransmit _ _ => true
  | .frameTxEnd _ _ => true
  | .pfcReceive _ _ _ _ => true
  | .pfcRepeat _ _ => true
  | .pauseExpiry _ _ _ => true
  | .ackOnlyFrame _ _ => true
  | .portBringUp _ _ _ => true
  | .hello _ _ _ _ => true
  | .portRetrainTimer _ _ => false
  | .macRetrain _ _ => false
  | .laneLockLoss _ _ _ => false
  | .macSpareIn _ _ _ => true
  | .spareReq _ _ _ => true
  | .pcsRealigned _ _ => true
  | .spareDone _ _ => true
  | .laneSerWindow _ _ _ _ => true
  | .gateEntry _ _ => true
  | .ptpMessage _ _ _ => true
  | .hqRxCons _ _ _ => true
  | .hqTxProd _ _ _ => true
  | .bucketStart _ _ _ => false
  | .chunkLoaded _ _ _ _ => false
  | .channelHeaderUpdate _ _ _ _ _ => false
  | .bucketComplete _ _ _ => false
  | .redTimeout _ _ _ _ => false
  | .aglLinkTrain _ => true
  | .aglLanesTrained _ _ => false
  | .aglInit _ _ _ _ _ _ => true
  | .flitReceive _ _ => false
  | .aglNak _ _ => true
  | .flitReplayTimeout _ => true
  | .aglRetrain _ => true
  | .aglDown _ => false
  | .aglAutoRetrain _ => true
  | .rdOnce _ _ _ => false
  | .rdShared _ _ _ => false
  | .rdOwn _ _ _ => false
  | .rd8 _ _ _ => false
  | .wrLine _ _ _ _ _ => false
  | .wrPart _ _ _ _ _ _ => false
  | .wr8 _ _ _ _ => false
  | .wrBack _ _ _ _ _ => false
  | .evict _ _ _ => false
  | .hostAtomic _ _ _ _ _ _ _ _ => false
  | .rsp _ _ _ => false
  | .rsp8 _ _ _ _ => false
  | .rspData _ _ _ _ _ => false
  | .snpTimeout _ _ => false
  | .rspTimeout _ _ => false
  | .intr _ => true
  | .startUp _ _ _ => false
  | .rstNFall => false
  | .bootStageTimeout => true
  | .dieRelease _ _ _ _ => true
  | .moduleReady => true
  | .update _ _ => true
  | .commit _ => true
  | .attest _ _ _ => true
  | .ownerInstall _ _ => true
  | .secCommandEnd => true
  | .freqChangeRequest _ _ _ => true
  | .freqChangeRestart _ _ => true
  | .deferredIncrease _ _ => true
  | .marginWarn _ _ _ => true
  | .oscFallback _ _ => true
  | .pllUnlock _ => true
  | .refLost => true
  | .serdesPllUnlock _ _ _ => false
  | .crossingWake _ _ => true
  | .heldCrossingScan _ => true
  | .domainTimeCorrect _ => false
  | .pkgSync _ => true
  | .syncInterval => true
  | .ppsEdge => true
  | .syncLost => true
  | .timOffset _ _ => true
  | .vinStop _ => true
  | .ibcFail _ => false
  | .railFault _ _ => true
  | .phaseFail _ _ _ => false
  | .retentionEnter _ _ => true
  | .powerOnRequest _ _ => true
  | .admissionEval _ _ _ => true
  | .rampDone _ _ _ => false
  | .lowWaterRecord _ _ _ _ => true
  | .enterLp => false
  | .exitLp => true
  | .powerEval _ _ => false
  | .droopTrip _ _ => true
  | .stretchHoldEnd _ _ _ => true
  | .llExpiry _ _ _ => true
  | .vfRecordWrite _ _ => true
  | .inputSample _ _ => true
  | .capEval _ => true
  | .dieBudgetEval _ _ => true
  | .sensorConversion _ _ _ => true
  | .pairFault _ _ => true
  | .throttleStep _ _ => true
  | .thermalUndo _ _ => true
  | .hbmTempRead _ _ _ => true
  | .trayRead _ _ _ => false
  | .coolantShutdown => true
  | .errnStuck => true
  | .dieStop _ _ _ => false
  | .moduleStop => false
  | .bridgeFlitReject _ _ _ => true
  | .statusClear _ _ _ _ => true
  | .clIn _ _ => true
  | .clusterSwitchHold _ => true
  | .clusterSwitchCopy => true
  | .bankIn _ _ => true
  | .laneIn _ _ _ => true
  | .spareRetire _ _ _ _ => true
  | .testCl _ _ => true
  | .repairRecordWrite _ _ => true
  | .repairRetry _ _ => true
  | .injectResidue _ _ _ => false
  | .injectExitCrc _ _ => false
  | .swapRequest _ _ _ => false
  | .blockSwap _ _ _ => false
  | .interruptMaskWrite _ _ _ _ => false
  | .registerWrite _ _ => false
  | .i3cWrite _ => false
  | .i3cRead _ _ => false
  | .commonCommand _ => true
  | .patternTestEnd _ => true

end Sys2Proof

namespace Sys2Proof.Machine

/-- Every table of the block is in its canonical form: keys strictly rising, no entry at what an unlisted key reads as. -/
def State.tablesWf (s : State) : Bool :=
  smWf (fun _ => 0) s.classes && smWf (fun _ => {}) s.ctxs && smWf (fun _ => {}) s.hctx && smWf (fun _ => {}) s.clus &&
    smWf (fun _ => {}) s.phys && smWf (fun _ => {}) s.dies && smWf (fun _ => {}) s.routers && smWf (fun _ => {}) s.ports &&
    smWf (fun _ => {}) s.links && smWf (fun _ => {}) s.chans && smWf (fun _ => {}) s.cels && smWf (fun _ => {}) s.hbms

/-- The stored data are in their canonical form: memory, sidebands, active and shadow registers (R22, R24, R396), and every table. -/
def State.Canonical (s : State) : Prop := (Memory.wf s && s.tablesWf) = true

/-- Every step in flight has a number below the next one. -/
def State.Numbered (s : State) : Prop := ∀ f ∈ s.flights, f.id < s.nextId

/-- Every command that waits is well formed. -/
def State.QueueOk (s : State) : Prop := s.pending.all Instr.wf = true

/-- Every byte of memory and every sideband reads as before. -/
def State.SameMemory (s t : State) : Prop := (∀ a, t.byte a = s.byte a) ∧ ∀ n, t.sideOf n = s.sideOf n

/-- Every byte of memory outside the lines `ls` reads as before. -/
def State.SameBytesBut (ls : List Nat) (s t : State) : Prop := ∀ a, a / 128 ∉ ls → t.byte a = s.byte a

/-- Every register reads as before, but those at the local addresses `as`. -/
def State.SameRegsBut (as : List Nat) (s t : State) : Prop := ∀ a, a ∉ as → t.reg a = s.reg a

/-- Every shadow value reads as before. -/
def State.SameShadow (s t : State) : Prop := ∀ a, t.shad a = s.shad a

/-- A step of `ws` has left the head of a queue and no other queue moved: its context issued last, and `n` flights more are numbered. -/
def State.Issued (s : State) (d c : Nat) (q : Bool) (ws : List Word) (n : Nat) (t : State) : Prop :=
  (t.ctx d c).queue q = ((s.ctx d c).queue q).advance ws ∧ (t.ctx d c).queue (!q) = (s.ctx d c).queue (!q) ∧
    (∀ e k, e * 8 + k ≠ d * 8 + c → ∀ q', (t.ctx e k).queue q' = (s.ctx e k).queue q') ∧
    (t.die d).lastCtx = c ∧ t.nextId = s.nextId + n

/-- The counter that a signal of a step names (R101): local address of its register. -/
def sigCounter (d c : Nat) (ws : List Word) : Nat :=
  regAddr (if nbits (stSigCref ws) 11 2 = 0 then d else nbits (stSigCref ws) 8 3) .seq 0
    (cntOff (if nbits (stSigCref ws) 11 2 < 2 then c else nbits (stSigCref ws) 28 3) (nbits (stSigCref ws) 0 8))

/-- The signal of a step stays inside the module (R101). -/
def State.sigInside (s : State) (d : Nat) (ws : List Word) : Prop :=
  nbits (stSigCref ws) 11 2 < 2 ∨ nbits (stSigCref ws) 16 12 = s.ownId d

/-- The step record of a step that completes when it issues, where the step asks for one (R122): it names the step, and stands behind the
records before it. -/
def State.Recorded (s : State) (d c : Nat) (q : Bool) (idx : Nat) (ws : List Word) (t : State) : Prop :=
  (stRec ws = false → t.hctx = s.hctx) ∧
    (stRec ws = true → ∃ r, (t.hc c).recs = (s.hc c).recs ++ [r] ∧
      r.getD 0 0 = wordOf (idx % 2 ^ 24 + stKind ws * 2 ^ 32 + b2n q * 2 ^ 40 + d * 2 ^ 41 + c * 2 ^ 44) ∧ r.getD 1 0 = wordOf (s.time d))

/-- A step that completes when it issues: it has left its queue; without a signal only the registers `as` may have changed; with a signal
inside the module its counter has risen by `inc`; a signal to another module goes to the die's router as a SIGNAL record with FLAG, issued
from the state `s0` in which the step has left its queue. -/
def State.IssuedAtOnce (s s0 : State) (d c : Nat) (q : Bool) (idx : Nat) (ws : List Word) (inc : Nat) (as : List Nat) (t : State) : Prop :=
  (stSigEn ws = false → s.Issued d c q ws 0 t ∧ s.SameMemory t ∧ t.flights = s.flights ∧ s.SameRegsBut as t ∧
    s.Recorded d c q idx ws t) ∧
    (stSigEn ws = true → s.sigInside d ws → s.Issued d c q ws 0 t ∧ s.SameMemory t ∧ t.flights = s.flights ∧
      s.SameRegsBut (sigCounter d c ws :: as) t ∧ t.reg (sigCounter d c ws) = s.reg (sigCounter d c ws) + wordOf inc ∧
      s.Recorded d c q idx ws t) ∧
    (stSigEn ws = true → ¬ s.sigInside d ws → ∃ u, t = { u with hctx := t.hctx } ∧
      u = s0.issue d (.sig 248 q idx ((s.ctx d c).queue q).base)
        { op := opSignal, flag := true, ctx := c, dstMod := nbits (stSigCref ws) 16 12,
          addr := stSigCref ws % 2 ^ 32 + 2 ^ 32 * (inc % 2 ^ 32) })

/-- The rows of Table 7.2 with their KINDs. -/
def stepRows (d c : Nat) (q : Bool) (env : Env) : List (Nat × Instr) :=
  [(kNOP, .nop d c q), (kWAIT, .wait d c q), (kSIG, .sig d c q), (kSWAP, .swap d c q), (kFENCE, .fence d c q), (kTRAP, .trap d c q),
    (kMMA, .mma d c q env), (kCONV, .conv d c q env), (kELEM, .elem d c q env), (kSTAT, .stat d c q env), (kOPT, .opt d c q env),
    (kRACK, .rack d c q env), (kDECANT, .decant d c q env), (kGATHER, .gather d c q env), (kSCATTER, .scatter d c q env),
    (kDISPATCH, .dispatch d c q env), (kCOMBINE, .combine d c q env), (kMCAST, .mcast d c q env), (kREPLICA, .replica d c q env),
    (kRED, .red d c q), (kLAYOUT, .layout d c q), (kSNAP, .snap d c q env)]

/-- Lines of this module that a compute or engine step reads and writes when it issues (R289). -/
def State.stepAccess (s : State) (d c : Nat) (q : Bool) (k : Nat) (ws : List Word) : List (Nat × Nat) :=
  if k = kMMA then mmaAccess ws
  else if k = kSTAT then
    (ranked ws).flatMap (fun x => (s.statReads ws (stClusters ws).length x.1).2.map (fun n => (0, n)))
  else if isCompute k then cvAccess ws d s
  else s.engAccess d c q ws

/-- The ring line that an MMA reads, if it reads one, is sound (R55). -/
def State.ringSound (s : State) (ws : List Word) : Prop :=
  mmaAccum ws = true ∨ mmaWin ws = 0 ∨ sbPoison (s.sideOf (cloLine (sw ws 5 25 25))) = true ∨
    (s.line (cloLine (sw ws 5 25 25))).crcOk = true

/-- A context has trapped on a die, and where no trap was recorded before, the record names this cause and these words (R111, R112). -/
def State.TrappedWith (s : State) (d c cause w2 w3 : Nat) (t : State) : Prop :=
  (t.ctx d c).st = .trapped ∧
    ((s.hc c).trap = none → ∃ r, (t.hc c).trap = some r ∧ r.cause = cause ∧ r.d = d ∧ r.w2 = w2 ∧ r.w3 = w3)

/-- Line `n` holds the bytes `bs`, cut or filled to 128, and the sideband `sb`; no other line has changed. -/
def State.LineWritten (s : State) (n : Nat) (bs : List Byte) (sb : Word) (t : State) : Prop :=
  (∀ i, i < 128 → t.byte (128 * n + i) = (padTo 128 bs).getD i 0) ∧ t.sideOf n = sb ∧ s.SameBytesBut [n] t ∧
    ∀ m, m ≠ n → t.sideOf m = s.sideOf m

/-- A message waits at a port, or has left it in a flit. -/
def State.Sends (t : State) (d : Nat) (m : LMsg) : Prop :=
  m ∈ (t.link d).sendq ∨ ∃ f, OutMsg.flit d f ∈ t.out ∧ f.msg = some m

/-- A request stands at its home and may be applied now (R201, R227, R289): it is for this module, its number was not applied before and is in
order, ACCEPT is set, none of its lines is in the host's hands, and no blend unit of this module holds members for its response. -/
def State.HomeReady (s : State) (d : Nat) (r : FRec) : Prop :=
  s.forHome d r = true ∧ s.applied? (s.homeClass d r) r = none ∧ s.outOfOrder (s.homeClass d r) r = false ∧
    bitOf (s.rg d .fab 0 0x20) 7 = true ∧ s.waits (FRec.access r) = [] ∧ ∀ e, smGet [] (s.router e).merged (memberKey r) = []

/-- The home has answered a request: its window holds the response under the request's number, with this status and payload (R210, R227). -/
def State.Answered (s : State) (d : Nat) (r : FRec) (st : Nat) (pay : List Byte) (t : State) : Prop :=
  ∃ q, t.applied? (s.homeClass d r) r = some q ∧ q.kind = 1 ∧ q.op = r.op ∧ q.dstMod = r.srcMod ∧ q.die = r.die ∧ q.tag = r.tag ∧
    q.seq = r.seq ∧ q.stat = st ∧ q.pay = pay

/-- A bit of a block's status register is set. -/
def State.StatSet (t : State) (d : Nat) (b : Blk) (i bit : Nat) : Prop := bitOf (t.rg d b i 0) bit = true

/-- No message of the host waits at a port. -/
def State.NoneStalled (s : State) : Prop := ∀ d, (s.link d).stalled = []

/-- A port is UP on a die that runs, no message of the host waits anywhere, and no error is injected at its exit. -/
def State.HostReady (s : State) (d : Nat) : Prop :=
  s.aglLive d = true ∧ s.lkState d = lkUp ∧ s.NoneStalled ∧ (s.die d).exitInj.contains 4 = false

/-- A step does not end in a fault or a refusal. -/
def State.Proceeds (s : State) : Prop := ∃ t, step s = .next t

/-- A run of `n` steps proceeds. -/
def State.RunsFor : Nat → State → Prop
  | 0, _ => True
  | n + 1, s => ∃ t, step s = .next t ∧ State.RunsFor n t

end Sys2Proof.Machine
end

