-- ==== Sys2Proof/Certificates/Slice0/Obligations.lean ====
section
/-! DEFINITION. The statements about the model, for the provers. -/

section Slice0

open Sys2Proof Sys2Proof.Machine

/-! ### The machine as a whole -/

/-- A step runs the command at the front of the queue, on the state with the queue's rest (log entry 1). -/
def Obligations.StepRunsFront : Prop :=
  ∀ (s : State) (c : Instr) (rest : List Instr), s.pending = c :: rest → step s = exec c { s with pending := rest }

/-- With no command waiting a step is one clock of the module: the clock count rises by one, the queue stays empty, and nothing is stored in a
scratchpad or in HBM unless a host message waited (DESIGN CHOICE, log entry 2). -/
def Obligations.IdleStepIsAClock : Prop :=
  ∀ s : State, s.pending = [] → ∃ t, step s = .next t ∧ t.tick = s.tick + 1 ∧ t.pending = [] ∧
    ((∀ d, d < s.nd → (s.link d).stalled = []) → ∀ a, t.byte a = s.byte a)

/-- Right after reset every stored thing is in its canonical form, memory lists nothing, no command waits, no step is in flight, and every register
reads as its reset value. -/
def Obligations.ResetIsCanonical : Prop :=
  ∀ p : Part, (State.resetOf p).Canonical ∧ (State.resetOf p).mem = [] ∧ (State.resetOf p).pending = [] ∧ (State.resetOf p).Numbered ∧
    ∀ a, (State.resetOf p).reg a = regReset p a

/-- Every step keeps memory, sidebands, registers, shadow values and every table of the block in canonical form. -/
def Obligations.StepKeepsCanonical : Prop :=
  ∀ s t : State, s.Canonical → step s = .next t → t.Canonical

/-- No command changes the part, and no command touches the queue. The commands that store nothing leave every byte of memory as it was, in every
state. -/
def Obligations.CommandsLeaveAlone : Prop :=
  (∀ (i : Instr) (s t : State), exec i s = .next t → t.part = s.part ∧ t.pending = s.pending) ∧
  ∀ (i : Instr) (s t : State), i.storesNothing = true → exec i s = .next t → ∀ a, t.byte a = s.byte a

/-- Every step keeps the number of each step in flight below the next number, so that a new step's number is fresh. -/
def Obligations.StepKeepsFlightNumbers : Prop :=
  ∀ s t : State, s.Numbered → step s = .next t → t.Numbered

/-- Every command that is no step of a work descriptor answers a next state in every state; a step does so too, but where the line of its table was
rewritten while its descriptor is in hand, which the manual calls undefined (R95): a step row stops exactly where the words that memory holds for the
head step differ from those the queue fetched. No command is refused. -/
def Obligations.StopsOnlyAtRewrittenTables : Prop :=
  (∀ (i : Instr) (s : State), (∃ t, exec i s = .next t) ∨ (i.isStep = true ∧ exec i s = .fault .tableRewritten)) ∧
  ∀ (s : State) (d c : Nat) (q : Bool) (idx : Nat) (ws : List Word) (env : Env), ∀ p ∈ stepRows d c q env,
    s.live d = true → c < 8 → (s.ctx d c).st = .running → s.head d c q = some (idx, ws) → stKind ws = p.1 →
    s.stepWords ((s.ctx d c).queue q).base idx ≠ ws → exec p.2 s = .fault .tableRewritten

/-- A clock never takes a die's time base back: counted in units of 2^−32 ns it rises by the rate word less at most 500 ppm of it, and at least by 0
(R321); the count is taken before it wraps at 2^64 ns. -/
def Obligations.ClockNeverTurnsTimeBack : Prop :=
  ∀ x : DieSt, x.frac < 2 ^ 32 → x.now < 2 ^ 64 - 1 → x.rate ≤ 2 ^ 31 →
    x.now * 2 ^ 32 + x.frac ≤ x.advance.now * 2 ^ 32 + x.advance.frac ∧ x.advance.frac < 2 ^ 32

/-! ### Number formats and the matrix arrays -/

/-- Accumulation. In an integer mode one depth tile adds to MAIN the exact sum, over the tile's elements along K, of the products of the
activation row's element and the weight column's: where the total fits 32 bits MAIN is the total and nothing is counted, and where it does not MAIN is
the nearest end of the range (SATMODE 0, `wrap = false`) or the total modulo 2^32 (SATMODE 1), and one saturation is counted. The compensation word
stays as it was and is no part of a drained line (R51). Beside that, the model's residue shadow of an element follows its value: one that agrees
before an integer-mode or a block-mode depth tile agrees after it. -/
def Obligations.ArraysAccumulate : Prop :=
  (∀ (s : State) (mode : Nat) (wrap : Bool) (texp : Int) (oa ow : Opnd) (r c k0 k1 : Nat) (e : Elem), mode < 2 →
    let t := e.main.toInt + ((List.range (k1 - k0)).map (fun i => s.arrInt oa r (k0 + i) * s.arrInt ow c (k0 + i))).sum
    let x := s.tileElem mode wrap texp oa ow r c k0 k1 e
    x.1.comp = e.comp ∧
    (-(2 ^ 31) ≤ t ∧ t < 2 ^ 31 → x.1.main.toInt = t ∧ x.2 = {}) ∧
    (¬ (-(2 ^ 31) ≤ t ∧ t < 2 ^ 31) → x.2 = { sat := 1 } ∧
      x.1.main.toInt = if wrap then (t + 2 ^ 31) % 2 ^ 32 - 2 ^ 31 else if t < 0 then -(2 ^ 31) else 2 ^ 31 - 1)) ∧
  (∀ (mode r j : Nat) (t u : Tile), mode < 2 → (∀ r c, (t.get r c).main = (u.get r c).main) →
    t.drainLine mode r j = u.drainLine mode r j) ∧
  (∀ (wrap : Bool) (e : Elem) (x : Int), e.shadow = mod7 e.main.toInt →
    (intAccum wrap e x).1.shadow = mod7 (intAccum wrap e x).1.main.toInt) ∧
  ∀ (wrap : Bool) (e : Elem) (ps : List (Int × Int)), e.shadow = mod7 e.acc →
    (blockAccum wrap e ps).1.shadow = mod7 (blockAccum wrap e ps).1.acc

/-- A tile whose elements agree with their shadows drains without a mismatch after any step that meets no fault: the residue check of R57 raises
nothing on sound hardware. -/
def Obligations.SoundTilesDrainClean : Prop :=
  ∀ (s : State) (mode : Nat) (wrap : Bool) (oa ow : Opnd) (k0 k row0 c0 m : Nat) (t : Tile),
    smWf (fun _ => ({} : Elem)) t.elems = true → t.mismatches mode 256 = [] → m ≤ 256 →
    ((s.fillTile mode wrap oa ow k0 k row0 c0 m t).1).mismatches mode 256 = []

/-- No block that the conversion unit encodes has the scale code 0xFF, whatever its working values and however they are rounded (R30, R66). -/
def Obligations.ScaleCodeNeverFF : Prop :=
  ∀ (f : Nat) (stoch : Bool) (g outExp : Int) (ws : List WV) (rs : List Nat),
    ∀ x ∈ (quantRow f stoch g outExp ws rs).scales, x ≤ 254

/-! ### Steps of a work descriptor -/

/-- A step issues only where R96 and R97 let it: the context runs on a live die, the step stands at the head of its queue as memory holds it, no
refusal of Table 7.15 applies, its wait condition is met, its units have room, its context is resident on every cluster it uses and nothing holds
them, no context of higher priority could issue, and its version check passes (R121). It does issue where nothing stands in its way: its head is
issuable, no other queue of the die has an issuable head, and it carries no version check. A FENCE issues only once the steps before it in its queue
have completed, and with BOTH set only once no step of the context is in flight on the die (R143). -/
def Obligations.StepIssuesWhenFree : Prop :=
  (∀ (s : State) (d c k idx : Nat) (q : Bool) (ws : List Word), s.gate d c q k = .go idx ws →
     s.live d = true ∧ c < 8 ∧ (s.ctx d c).st = .running ∧ s.head d c q = some (idx, ws) ∧
     s.stepWords ((s.ctx d c).queue q).base idx = ws ∧
     s.refusals d c ((s.ctx d c).queue q).ret.isSome ws = [] ∧ s.waitMet d c ws = true ∧ s.slotFree d c ws = true ∧
     (∀ l, l < 48 → nbit (useMask ws) l = true → (s.cl d l).resident = some c ∧ s.clHold d l = none) ∧
     (∀ c' q', c' < 8 → s.issuable d c' q' = true → s.prio d c' ≤ s.prio d c) ∧
     (stVchk ws = true → sbVer (s.sideOf (versionLines ws).1) = stVer ws ∧ sbVer (s.sideOf (versionLines ws).2) = stVer ws)) ∧
  (∀ (s : State) (d c k idx : Nat) (q : Bool) (ws : List Word),
     s.live d = true → c < 8 → s.head d c q = some (idx, ws) → stKind ws = k →
     s.stepWords ((s.ctx d c).queue q).base idx = ws → s.issuable d c q = true →
     (∀ c' q', c' < 8 → s.issuable d c' q' = true → c' = c ∧ q' = q) → stVchk ws = false → s.gate d c q k = .go idx ws) ∧
  ∀ (s : State) (d c idx : Nat) (q : Bool) (ws : List Word), s.gate d c q kFENCE = .go idx ws →
    ∀ f ∈ s.flights, f.d = d → f.c = c → f.defer ≠ q ∧ sb ws 2 32 = false

/-- NOP, WAIT, FENCE, SIG and LAYOUT complete when they issue: the queue moves on, the counter of the step's signal rises by 1, by SIG_INC for SIG,
and LAYOUT raises the context's layout generation on its die by one, modulo 2^16 (R101, R103, R141, R143). -/
def Obligations.ControlStepsIssue : Prop :=
  ∀ (s : State) (d c idx : Nat) (q : Bool) (ws : List Word), s.Canonical →
    (s.gate d c q kNOP = .go idx ws → ∃ t, exec (.nop d c q) s = .next t ∧
      s.IssuedAtOnce (s.advance d c q ws) d c q idx ws 1 [] t) ∧
    (s.gate d c q kWAIT = .go idx ws → ∃ t, exec (.wait d c q) s = .next t ∧
      s.IssuedAtOnce (s.advance d c q ws) d c q idx ws 1 [] t) ∧
    (s.gate d c q kFENCE = .go idx ws → ∃ t, exec (.fence d c q) s = .next t ∧
      s.IssuedAtOnce (s.advance d c q ws) d c q idx ws 1 [] t) ∧
    (s.gate d c q kSIG = .go idx ws → ∃ t, exec (.sig d c q) s = .next t ∧
      s.IssuedAtOnce (s.advance d c q ws) d c q idx ws (sw ws 2 32 32) [] t) ∧
    (s.gate d c q kLAYOUT = .go idx ws → ∃ t s0, exec (.layout d c q) s = .next t ∧
      s0 = (s.setFld d .seq 0 (0x130 + 0x40 * c) 0 16 ((s.fld d .seq 0 (0x130 + 0x40 * c) 0 16 + 1) % 65536)).advance d c q ws ∧
      s.IssuedAtOnce s0 d c q idx ws 1 [regAddr d .seq 0 (0x130 + 0x40 * c)] t ∧
      ((stSigEn ws = false ∨ s.sigInside d ws) →
        t.fld d .seq 0 (0x130 + 0x40 * c) 0 16 = (s.fld d .seq 0 (0x130 + 0x40 * c) 0 16 + 1) % 65536))

/-- A SWAP step leaves its queue and goes into flight with the marks of the blocks it names, every one of which is then requested on its die; where it
names SEQ the control field of SEQ becomes active at once; no other register and no byte of memory changes (R117, R143). A TRAP step leaves its queue
and traps its context with TRAP_STEP, whose word 2 is the step's CODE (R111, R143). A RED step leaves its queue and its channel accepts the bucket,
with the fields of the step and the context's layout generation, behind those accepted before (R140). -/
def Obligations.SwapTrapAndRedSteps : Prop :=
  (∀ (s : State) (d c idx : Nat) (q : Bool) (ws : List Word), s.Canonical → s.gate d c q kSWAP = .go idx ws →
     ∃ t, exec (.swap d c q) s = .next t ∧ s.Issued d c q ws 1 t ∧ s.SameMemory t ∧
       s.SameRegsBut (if nbit (sw ws 2 32 18) 0 then [regAddr d .seq 0 0x20] else []) t ∧ s.SameShadow t ∧
       (∀ x ∈ swapNamed ws, swapMark d x.1 x.2 ∈ (t.die d).swapReq) ∧
       (∀ a ∈ (s.die d).swapReq, a ∈ (t.die d).swapReq) ∧
       ∃ f, t.flights = s.flights ++ [f] ∧ f.id = s.nextId ∧ f.d = d ∧ f.c = c ∧ f.ws = ws ∧
         f.lines = (swapNamed ws).map (fun x => swapMark d x.1 x.2)) ∧
  (∀ (s : State) (d c idx : Nat) (q : Bool) (ws : List Word), s.Canonical → s.gate d c q kTRAP = .go idx ws →
     ∃ t, exec (.trap d c q) s = .next t ∧ s.Issued d c q ws 0 t ∧ s.TrappedWith d c 0x0B (sw ws 2 32 32) 0 t) ∧
  ∀ (s : State) (d c idx : Nat) (q : Bool) (ws : List Word), s.Canonical → s.gate d c q kRED = .go idx ws →
    ∃ t, exec (.red d c q) s = .next t ∧ s.Issued d c q ws 1 t ∧ s.SameMemory t ∧ s.SameRegsBut [] t ∧
      (t.chan d c (sw ws 2 32 4)).accepted = (s.chan d c (sw ws 2 32 4)).accepted ++
        [{ fid := s.nextId, size := sw ws 2 36 3, rgroup := sw ws 2 40 8, src := sw ws 3 0 48, dst := sw ws 4 0 48,
           bseq := sw ws 5 0 32, gen := s.fld d .seq 0 (0x130 + 0x40 * c) 0 16 }] ∧
      (s.chan d c (sw ws 2 32 4)).accepted.length < 4

/-- MMA, CONV, ELEM, STAT and OPT issue: with no line of theirs in the host's hands, and for MMA with a sound ring, the step leaves its queue and goes
into flight; a line in the host's hands holds the step at its head while the host is asked; a ring that fails its CRC on both reads traps the context
with STEP_CRC and the step stays at its head (R55, R94, R126, R289). A STAT that issues on sound lines goes into flight with the greatest amax
exponent its clusters measured, which the ring update then writes (R54, R132). -/
def Obligations.ComputeStepsIssue : Prop :=
  (∀ (s : State) (d c k idx : Nat) (q : Bool) (ws : List Word) (env : Env) (i : Instr),
     (k, i) ∈ [(kMMA, Instr.mma d c q env), (kCONV, .conv d c q env), (kELEM, .elem d c q env), (kSTAT, .stat d c q env),
       (kOPT, .opt d c q env)] →
     s.Canonical → s.gate d c q k = .go idx ws →
     (s.waits (s.stepAccess d c q k ws) = [] → (k = kMMA → s.ringSound ws) → ∃ t, exec i s = .next t ∧ s.Issued d c q ws 1 t) ∧
     (s.waits (s.stepAccess d c q k ws) = [] → k = kMMA → ¬ s.ringSound ws → ∃ t, exec i s = .next t ∧
       s.TrappedWith d c 0x0A 0 (128 * cloLine (sw ws 5 25 25)) t ∧ (t.ctx d c).queue q = (s.ctx d c).queue q) ∧
     (s.waits (s.stepAccess d c q k ws) ≠ [] → ∃ t, exec i s = .next t ∧ s.SameMemory t ∧ t.flights = s.flights ∧
       ∀ e x p, (t.ctx e x).queue p = (s.ctx e x).queue p)) ∧
  ∀ (s : State) (d c idx : Nat) (q : Bool) (ws : List Word) (env : Env), s.Canonical → s.gate d c q kSTAT = .go idx ws →
    s.waits (s.stepAccess d c q kSTAT ws) = [] → env.residue = [] →
    (∀ x ∈ ranked ws, (s.statReads ws (stClusters ws).length x.1).1 = []) →
    ∃ t f, exec (.stat d c q env) s = .next t ∧ t.flights = s.flights ++ [f] ∧ f.id = s.nextId ∧ f.ws = ws ∧ f.failed = false ∧
      (∃ a, f.aexp = some a ∧ -128 ≤ a ∧ (∀ x ∈ ranked ws, s.statPart ws (stClusters ws).length x.1 ≤ a) ∧
        (a = -128 ∨ ∃ x ∈ ranked ws, s.statPart ws (stClusters ws).length x.1 = a)) ∧ s.SameMemory t

/-- The racking steps and SNAP leave their queue and go to their engine, unless a line they need is in the host's hands, which holds them at their
head while the host is asked (R124, R134, R289). -/
def Obligations.EngineStepsIssue : Prop :=
  ∀ (s : State) (d c k idx : Nat) (q : Bool) (ws : List Word) (env : Env) (i : Instr),
    (k, i) ∈ [(kRACK, Instr.rack d c q env), (kDECANT, .decant d c q env), (kGATHER, .gather d c q env), (kSCATTER, .scatter d c q env),
      (kDISPATCH, .dispatch d c q env), (kCOMBINE, .combine d c q env), (kMCAST, .mcast d c q env), (kREPLICA, .replica d c q env),
      (kSNAP, .snap d c q env)] →
    s.Canonical → s.gate d c q k = .go idx ws →
    (s.waits (s.stepAccess d c q k ws) = [] → ∃ t, exec i s = .next t ∧ s.Issued d c q ws 1 t) ∧
    (s.waits (s.stepAccess d c q k ws) ≠ [] → ∃ t, exec i s = .next t ∧ s.SameMemory t ∧ t.flights = s.flights ∧
      ∀ e x p, (t.ctx e x).queue p = (s.ctx e x).queue p)

/-- A RACK step of one line inside the module copies the line: its bytes are the source's, its sideband is the source's with the version that R121
gives the copy, and no other line of memory changes (R121, R134). -/
def Obligations.RackCopiesTheLine : Prop :=
  ∀ (s : State) (d c idx : Nat) (q : Bool) (ws : List Word) (env : Env), s.Canonical →
    s.gate d c q kRACK = .go idx ws → s.waits (s.stepAccess d c q kRACK ws) = [] →
    s.Numbered → stVchk ws = false →
    sw ws 5 0 20 = 1 → sw ws 5 32 16 = 1 → gaMod (sw ws 3 0 64) = s.ownId d → gaMod (sw ws 4 0 64) = s.ownId d →
    s.served (gaLocal (sw ws 3 0 64)) = true → s.served (gaLocal (sw ws 4 0 64)) = true →
    (sbPoison (s.sideOf (gaLocal (sw ws 3 0 64) / 128)) = true ∨ (s.line (gaLocal (sw ws 3 0 64) / 128)).crcOk = true) →
    ∃ t, exec (.rack d c q env) s = .next t ∧ s.Issued d c q ws 1 t ∧
      s.LineWritten (gaLocal (sw ws 4 0 64) / 128) (s.line (gaLocal (sw ws 3 0 64) / 128)).bytes
        (withBits (s.sideOf (gaLocal (sw ws 3 0 64) / 128)) 32 16 (verCopy ws (sbVer (s.sideOf (gaLocal (sw ws 3 0 64) / 128))))) t

/-- A refused step traps its context with ILLEGAL_STEP, whose word 2 is the lowest REASON of Table 7.15 that applies; the step stays at the head and
every counter keeps its value (R95, R111). A step whose version check fails follows its link, which becomes the head while the old head is the return
index; with no link, with a full return register, or where the queue has just come back to this step, its context traps with SHARD_STALE, whose words
name the versions and the line (R109, R110). -/
def Obligations.HeadStepsTurnedAway : Prop :=
  (∀ (s : State) (d c idx r : Nat) (q : Bool) (env : Env), ∀ p ∈ stepRows d c q env, s.Canonical → s.gate d c q p.1 = .refused idx r →
     ∃ t ws, exec p.2 s = .next t ∧ s.TrappedWith d c 9 r 0 t ∧ (t.ctx d c).queue q = (s.ctx d c).queue q ∧
       s.head d c q = some (idx, ws) ∧ r ∈ s.refusals d c ((s.ctx d c).queue q).ret.isSome ws ∧
       ∀ x ∈ s.refusals d c ((s.ctx d c).queue q).ret.isSome ws, r ≤ x) ∧
  ∀ (s : State) (d c idx n v : Nat) (q : Bool) (ws : List Word) (env : Env), ∀ p ∈ stepRows d c q env,
    s.Canonical → s.gate d c q p.1 = .stale idx n v ws →
    v ≠ stVer ws ∧ v = sbVer (s.sideOf n) ∧
    ((stLink ws = 0xFFFFFF ∨ ((s.ctx d c).queue q).ret ≠ none ∨ ((s.ctx d c).queue q).back = some idx) →
      ∃ t, exec p.2 s = .next t ∧ s.TrappedWith d c 7 (stVer ws + v * 65536) (128 * n) t ∧
        (t.ctx d c).queue q = (s.ctx d c).queue q) ∧
    (¬ (stLink ws = 0xFFFFFF ∨ ((s.ctx d c).queue q).ret ≠ none ∨ ((s.ctx d c).queue q).back = some idx) →
      ∃ t, exec p.2 s = .next t ∧ ((t.ctx d c).queue q).head = stLink ws ∧
        ((t.ctx d c).queue q).ret = some ((s.ctx d c).queue q).head ∧ (t.ctx d c).st = .running ∧ s.SameMemory t)

/-! ### The sequencer, its rings and descriptors -/

/-- STOP takes a running context to STOPPED on every die, RESUME takes a stopped one back to RUNNING unless a CLEAR waits, and CLEAR of a stopped or
trapped context with no step in flight and a settled trap takes it to IDLE on every die, empties its queues and arms its trap record again; the
descriptor in hand of a context that had not trapped is to be posted CLEARED. Registers, memory and the other contexts stay (R113, R155). -/
def Obligations.StopResumeClear : Prop :=
  ∀ (s : State) (c : Nat), s.Canonical → c < 8 →
    (∃ t, exec (.stop c) s = .next t ∧ s.SameMemory t ∧ s.SameRegsBut [] t ∧ t.flights = s.flights ∧
      (∀ d, d < s.nd → (t.ctx d c).st = if (s.ctx d c).st = .running then .stopped else (s.ctx d c).st) ∧
      (∀ d q, (t.ctx d c).queue q = (s.ctx d c).queue q) ∧ (∀ d x, x < 8 → x ≠ c → t.ctx d x = s.ctx d x)) ∧
    ((s.hc c).clearing = false → ∃ t, exec (.resume c) s = .next t ∧ s.SameMemory t ∧ s.SameRegsBut [] t ∧ t.flights = s.flights ∧
      (∀ d, d < s.nd → (t.ctx d c).st = if (s.ctx d c).st = .stopped then .running else (s.ctx d c).st) ∧
      (∀ d q, (t.ctx d c).queue q = (s.ctx d c).queue q) ∧ (∀ d x, x < 8 → x ≠ c → t.ctx d x = s.ctx d x)) ∧
    ((s.hc c).clearing = true → exec (.resume c) s = .next s) ∧
    ((∀ d, d < s.nd → (s.ctx d c).st ≠ .stopped ∧ (s.ctx d c).st ≠ .trapped) → exec (.clear c) s = .next s) ∧
    ((∃ d, d < s.nd ∧ ((s.ctx d c).st = .stopped ∨ (s.ctx d c).st = .trapped)) → (∀ f ∈ s.flights, f.c ≠ c) → s.trapSettled c = true →
      ∃ t, exec (.clear c) s = .next t ∧ s.SameMemory t ∧ s.SameRegsBut [] t ∧
        (∀ d, d < s.nd → t.ctx d c = {}) ∧ (t.hc c).trap = none ∧ (t.hc c).more = 0 ∧ (t.hc c).clearing = false ∧
        ((s.hc c).phase = .running → (t.hc c).phase = .ended ∧ (t.hc c).status = 3) ∧
        (∀ d x, x < 8 → x ≠ c → t.ctx d x = s.ctx d x)) ∧
    ((∃ d, d < s.nd ∧ ((s.ctx d c).st = .stopped ∨ (s.ctx d c).st = .trapped)) → (∃ f ∈ s.flights, f.c = c) →
      ∃ t, exec (.clear c) s = .next t ∧ (t.hc c).clearing = true ∧ t.ctxs = s.ctxs)

/-- A counter is written while its context does not run on the die; while it runs the write is refused and CONFIG_BUSY is set (R104). A WAIT whose
condition is still unmet at its timeout follows its link, or traps its context with WAIT_TIMEOUT where it has no link or the return register is full;
the words of the trap name the threshold, the reference and the counter's value (R109, R112). -/
def Obligations.CountersAndTimeouts : Prop :=
  (∀ (s : State) (d c i : Nat) (v : Word), s.Canonical → s.live d = true → c < 8 → i < 256 →
     ((s.ctx d c).st ≠ .running → ∃ t, exec (.seqCntWrite d c i v) s = .next t ∧ s.SameMemory t ∧
       s.SameRegsBut [regAddr d .seq 0 (0x1000 + 0x800 * c + 8 * i)] t ∧ t.rg d .seq 0 (0x1000 + 0x800 * c + 8 * i) = v) ∧
     ((s.ctx d c).st = .running → ∃ t, exec (.seqCntWrite d c i v) s = .next t ∧ s.SameMemory t ∧
       s.SameRegsBut [regAddr d .seq 0 0] t ∧ t.rg d .seq 0 0 = s.rg d .seq 0 0 ||| bitMask 3)) ∧
  ∀ (s : State) (d c idx : Nat) (q : Bool) (ws : List Word), s.Canonical → s.live d = true → (s.ctx d c).st = .running →
    s.head d c q = some (idx, ws) → stKind ws = kWAIT → sw ws 2 32 20 ≠ 0 → s.waitMet d c ws = false →
    s.refusals d c ((s.ctx d c).queue q).ret.isSome ws = [] →
    (stLink ws = 0xFFFFFF ∨ ((s.ctx d c).queue q).ret ≠ none → ∃ t, exec (.waitTimeout d c q) s = .next t ∧
      s.TrappedWith d c 8 (stWaitVal ws)
        (stWaitCref ws + 2 ^ 32 * (s.fld d .seq 0 (0x1000 + 0x800 * c + 8 * (nbits (stWaitCref ws) 0 8)) 0 32)) t ∧
      (t.ctx d c).queue q = (s.ctx d c).queue q) ∧
    (¬ (stLink ws = 0xFFFFFF ∨ ((s.ctx d c).queue q).ret ≠ none) → ∃ t, exec (.waitTimeout d c q) s = .next t ∧ s.SameMemory t ∧
      ((t.ctx d c).queue q).head = stLink ws ∧ ((t.ctx d c).queue q).ret = some ((s.ctx d c).queue q).head ∧
      (t.ctx d c).st = .running)

/-- A unit that completes raises the counter that its step signals by one, unless the step has failed; it leaves the step's list, and with its last
unit the step leaves flight (R59, R103, R123). The ring update of a STAT writes the entry of its sequence number: the exponent, or the greater of the
two where the entry already holds that number; VALID is set, and no other entry changes (R54, R132). -/
def Obligations.UnitsComplete : Prop :=
  (∀ (s : State) (d u : Nat) (f : Flight), s.Canonical → s.flight f.id = some f → f.d = d → s.live d = true → s.unitMayEnd f u = true →
     (s.hc f.c).clearing = false → (stSigEn f.ws = true → s.sigInside d f.ws ∧ s.crefBad d (stSigCref f.ws) false = false) →
     ∃ t, exec (.unitComplete d f.id u) s = .next t ∧ s.SameMemory t ∧
       (f.failed = false → stSigEn f.ws = true →
         t.reg (sigCounter d f.c f.ws) = s.reg (sigCounter d f.c f.ws) + 1 ∧ s.SameRegsBut [sigCounter d f.c f.ws] t) ∧
       (f.failed = true ∨ stSigEn f.ws = false → s.SameRegsBut [] t) ∧
       (f.units.erase u = [] → ∀ g ∈ t.flights, g.id ≠ f.id) ∧
       (f.units.erase u ≠ [] → ∃ g, t.flight f.id = some g ∧ g.units = f.units.erase u)) ∧
  (∀ (bs : List Byte) (seq : Nat) (a : Int), bs.length = 128 → seq < 2 ^ 48 → -128 ≤ a → a ≤ 127 →
    let i := 8 * (seq % 16)
    let old := signedOf 8 (leAt bs i 1)
    (ringUpdate bs seq a).length = 128 ∧
    signedOf 8 (leAt (ringUpdate bs seq a) i 1) =
      (if nbit (leAt bs (i + 1) 1) 0 = true ∧ leAt bs (i + 2) 6 = seq then max old a else a) ∧
    nbit (leAt (ringUpdate bs seq a) (i + 1) 1) 0 = true ∧ leAt (ringUpdate bs seq a) (i + 2) 6 = seq ∧
    ∀ j, j / 8 ≠ seq % 16 → (ringUpdate bs seq a).getD j 0 = bs.getD j 0) ∧
  ∀ (s : State) (d : Nat) (f : Flight) (env : Env) (a : Int), s.Canonical → s.flight f.id = some f → f.d = d → stKind f.ws = kSTAT →
    s.live d = true → f.failed = false → f.aexp = some a → stSigEn f.ws = false → (s.hc f.c).clearing = false →
    s.served (128 * cloLine (sw f.ws 4 0 25)) = true → s.mustWait 2 (cloLine (sw f.ws 4 0 25)) = false →
    (s.line (cloLine (sw f.ws 4 0 25))).crcOk = true →
    ∃ t, exec (.statRingUpdate d f.id env) s = .next t ∧
      s.LineWritten (cloLine (sw f.ws 4 0 25)) (ringUpdate (s.line (cloLine (sw f.ws 4 0 25))).bytes (sw f.ws 6 0 48) a)
        (mkSide (crc32c (ringUpdate (s.line (cloLine (sw f.ws 4 0 25))).bytes (sw f.ws 6 0 48) a)) (verCompute f.ws) 0
          (Nat.lor (sbFlags (s.sideOf (cloLine (sw f.ws 4 0 25)))) (if f.poisoned then 3 else 0))) t

/-- A table line that passes its check enters the prefetch window of the queue that asks for it: every step of it within 32 of the head is then held
as memory holds it. A line that is not populated, is poisoned, or fails its check on both reads, traps the context with STEP_CRC (R94). -/
def Obligations.TableFetchFillsWindow : Prop :=
  ∀ (s : State) (d c i : Nat) (q : Bool) (env : Env), s.Canonical → s.live d = true → c < 8 → (s.ctx d c).st = .running →
    ((s.ctx d c).queue q).nextFetch = some i →
    let y := (s.ctx d c).queue q
    let ln := (y.base + 64 * i) / 128
    (s.served (128 * ln) = true → s.mustWait 0 ln = false → sbPoison (s.sideOf ln) = false → (s.line ln).crcOk = true →
      ∃ t, exec (.tableFetch d c q env) s = .next t ∧ s.SameMemory t ∧ ((t.ctx d c).queue q).head = y.head ∧
        ((t.ctx d c).queue q).base = y.base ∧ (∀ e ∈ y.win, e ∈ ((t.ctx d c).queue q).win) ∧
        (∀ j, y.head ≤ j → j < y.head + 32 → (y.base + 64 * j) / 128 = ln → (∀ e ∈ y.win, e.1 ≠ j) →
          (j, s.stepWords y.base j) ∈ ((t.ctx d c).queue q).win)) ∧
    (s.served (128 * ln) = false ∨ (s.mustWait 0 ln = false ∧ (sbPoison (s.sideOf ln) = true ∨ (s.line ln).crcOk = false)) →
      ∃ t, exec (.tableFetch d c q env) s = .next t ∧ s.TrappedWith d c 0x0A 0 (128 * ln) t ∧ (t.ctx d c).queue q = y)

/-- The trap record of a context is written at its address once its steps in flight have ended: the 64 bytes of the record, and no other byte changes;
the descriptor in hand ends TRAPPED with the record's cause (R111, R112). -/
def Obligations.TrapRecordWritten : Prop :=
  ∀ (s : State) (c : Nat) (r : TrapRec), s.Canonical → s.live 0 = true → s.halted = false → (s.hc c).trap = some r →
    (s.hc c).trapDone = false → (∀ f ∈ s.flights, f.c ≠ c) →
    let a := 128 * s.fld 0 .seq 0 (0x118 + 0x40 * c) 7 41
    s.served a = true → s.mustWait 2 (a / 128) = false →
    ∃ t, exec (.trapRecord c) s = .next t ∧
      (∀ i, i < 64 → t.byte (a + i) = (trapBytes c r (s.hc c).more).getD i 0) ∧
      (∀ b, (b < a ∨ a + 64 ≤ b) → t.byte b = s.byte b) ∧ (t.hc c).trapDone = true ∧
      ((s.hc c).phase = .running → (t.hc c).phase = .ended ∧ (t.hc c).status = 2 ∧ (t.hc c).cause = r.cause)

/-- A resident context whose quantum passes is marked expired, unless its QUANTUM is 0 (R114). The image of an incoming context enters the shadow sets
of a shared cluster: the limits of its arrays and of its conversion unit, and the generators (R115, R403). A cluster that is empty, holds no open
tile, and whose resident context is gone, halted or past its quantum, takes the incoming context: at once where only one partition names it; where it
is shared and the image is in the shadow sets, the outgoing active set is written to its image and the shadow sets become active (R114, R115). -/
def Obligations.ContextsShareClusters : Prop :=
  ((∀ (s : State) (d l c : Nat), s.Canonical → (s.cl d l).resident = some c → s.live d = true →
     (s.fld d .seq 0 (0x100 + 0x40 * c) 8 12 ≠ 0 → ∃ t, exec (.quantumExpiry d l) s = .next t ∧
       t.cl d l = { s.cl d l with expired := true } ∧ s.SameRegsBut [] t ∧ s.SameMemory t) ∧
     (s.fld d .seq 0 (0x100 + 0x40 * c) 8 12 = 0 → exec (.quantumExpiry d l) s = .next s)) ∧
   ∀ (s : State) (d l c : Nat) (env : Env), s.Canonical → s.live d = true → l < 48 → (s.cl d l).preload = none →
     s.sharedCl d l = true → s.incoming d l = some c → s.waits ((s.imageLines d c l).map (fun n => (0, n))) = [] →
     s.imageBad d c l = none →
     let bs := s.bytesAt (s.imageAddr d c l / 128) 0 384
     ∃ t, exec (.contextPreload d l env) s = .next t ∧ s.SameMemory t ∧ (t.cl d l).preload = some c ∧
       t.shad (regAddr d .mma l 0x20) = wordOf (leAt bs 0 8) ∧ t.shad (regAddr d .cvu l 0x20) = wordOf (leAt bs 8 8) ∧
       ∀ g, g < 16 → t.shad (regAddr d .srg l (0x40 + 16 * g)) = wordOf (leAt bs (128 + 16 * g) 8) ∧
         t.shad (regAddr d .srg l (0x48 + 16 * g)) = wordOf (leAt bs (136 + 16 * g) 8)) ∧
  ∀ (s : State) (d l c : Nat) (env : Env), s.Canonical → s.live d = true → l < 48 →
    (s.maySwitch d l = false → exec (.contextSwitch d l env) s = .next s) ∧
    (s.maySwitch d l = true → s.sharedCl d l = false → (s.cl d l).preload = none → s.incoming d l = some c →
      ∃ t, exec (.contextSwitch d l env) s = .next t ∧ s.SameRegsBut [] t ∧ s.SameMemory t ∧
        t.cl d l = { s.cl d l with resident := some c, preload := none, expired := false }) ∧
    (s.maySwitch d l = true → s.sharedCl d l = true → (s.cl d l).preload = some c → s.wants d c l = true →
      ∀ o, (s.cl d l).resident = some o → (∀ n ∈ s.imageLines d o l, s.isCel (128 * n) = true ∧ s.served (128 * n) = true) →
      s.waits ((s.imageLines d o l).map (fun n => (1, n))) = [] →
      ∃ t, exec (.contextSwitch d l env) s = .next t ∧ s.SameBytesBut (s.imageLines d o l) t ∧
        (t.cl d l).resident = some c ∧ (t.cl d l).preload = none ∧ (t.cl d l).expired = false ∧
        (∀ x ∈ (s.imageLines d o l).zip (s.imageEntry d l), ∀ i, i < 128 → t.byte (128 * x.1 + i) = x.2.getD i 0) ∧
        t.reg (regAddr d .mma l 0x20) = s.shad (regAddr d .mma l 0x20) ∧
        t.reg (regAddr d .cvu l 0x20) = s.shad (regAddr d .cvu l 0x20) ∧
        ∀ k, k < 32 → t.reg (regAddr d .srg l (0x40 + 8 * k)) = s.shad (regAddr d .srg l (0x40 + 8 * k)))

/-- A doorbell store sets PROD where both distances are at most the ring's size, else it is counted in SEQ_DB_REJECT, saturating, with the value
refused; a ring reset clears PROD and CONS of an idle context whose ring is empty, else it is refused with CONFIG_BUSY (R148, R166). -/
def Obligations.DoorbellMovesProd : Prop :=
  ∀ (s : State) (c : Nat) (p : BitVec 32), s.Canonical → s.live 0 = true → c < 8 →
    let size := 2 ^ s.fld 0 .seq 0 (0x600 + 0x40 * c) 0 5
    let near := (p.toNat + 2 ^ 32 - s.prod c) % 2 ^ 32 ≤ size ∧ (p.toNat + 2 ^ 32 - s.cons c) % 2 ^ 32 ≤ size
    (near → ∃ t, exec (.doorbell c p) s = .next t ∧ t.prod c = p.toNat ∧ t.cons c = s.cons c ∧
      s.SameRegsBut [regAddr 0 .seq 0 (0x618 + 0x40 * c)] t ∧ s.SameMemory t) ∧
    (¬ near → ∃ t, exec (.doorbell c p) s = .next t ∧ s.SameRegsBut [regAddr 0 .seq 0 (0x8010 + 0x1000 * c)] t ∧ s.SameMemory t ∧
      t.fld 0 .seq 0 (0x8010 + 0x1000 * c) 0 32 = min (s.fld 0 .seq 0 (0x8010 + 0x1000 * c) 0 32 + 1) (2 ^ 32 - 1) ∧
      t.fld 0 .seq 0 (0x8010 + 0x1000 * c) 32 32 = p.toNat) ∧
    (s.allIdle c = true → s.prod c = s.cons c → ∃ t, exec (.seqRingReset c) s = .next t ∧ t.prod c = 0 ∧ t.cons c = 0 ∧
      s.SameRegsBut [regAddr 0 .seq 0 (0x618 + 0x40 * c)] t ∧ s.SameMemory t) ∧
    (s.allIdle c = false ∨ s.prod c ≠ s.cons c → ∃ t, exec (.seqRingReset c) s = .next t ∧
      t.rg 0 .seq 0 0 = s.rg 0 .seq 0 0 ||| bitMask 3 ∧ s.SameRegsBut [regAddr 0 .seq 0 0] t ∧ s.SameMemory t)

/-- A descriptor starts in three stages: die 0 reads it from the work ring over the link, checks its fields when it arrives, and reads the directory
line, which gives every die its two tables; counters CLR_BASE onward are cleared and the context runs. What cannot be read, or fails a check, is
refused with the lowest REASON of Table 8.3 (R149, R151, R152, R153, R154). -/
def Obligations.DescriptorStarts : Prop :=
  ∀ (s : State) (c : Nat), s.Canonical → s.live 0 = true → c < 8 →
    (s.allIdle c = true → (s.hc c).phase = .none → s.prod c ≠ s.cons c →
      let la := s.workSlot c (s.cons c) / 128 * 128
      let pd := s.portDie 0
      (s.inWindow pd la = true → s.lkState pd ≠ lkDown → ∃ t tag, exec (.descriptorFetch c) s = .next t ∧
        (t.hc c).phase = .descRead ∧ (t.hc c).startNs = s.time 0 ∧
        ({ tag := tag, opc := 0x11, la := la, d := 0, own := .desc c } : HReq) ∈ (t.link pd).hreqs ∧
        t.Sends pd { opc := 0x11, tag := tag, addr := s.hostAddr pd la, pay := leBytes 8 (s.sbAddr pd la) ++ leBytes 8 0 }) ∧
      (s.inWindow pd la = false ∨ s.lkState pd = lkDown → ∃ t, exec (.descriptorFetch c) s = .next t ∧
        (t.hc c).phase = .ended ∧ (t.hc c).status = 4 ∧ (t.hc c).cause = 6)) ∧
    (∀ ws : List Word, ws.length = 8 → (s.hc c).phase = .descRead →
      (∃ t, exec (.descriptorArrive c false ws) s = .next t ∧ (t.hc c).phase = .ended ∧ (t.hc c).status = 4 ∧ (t.hc c).cause = 6) ∧
      (s.descReasons ws = [] → ∃ t, exec (.descriptorArrive c true ws) s = .next t ∧ (t.hc c).phase = .dirWait ∧
        (t.hc c).dseq = sw ws 0 0 32 ∧ (t.hc c).irq = sb ws 0 32 ∧ (t.hc c).dir = sw ws 1 0 48 ∧ (t.hc c).rep = sw ws 2 0 48 ∧
        (t.hc c).repLines = sw ws 2 48 16 ∧ (t.hc c).clrBase = sw ws 3 0 8 ∧ (t.hc c).clrCount = sw ws 3 8 9 ∧
        s.SameMemory t ∧ s.SameRegsBut [] t) ∧
      (∀ r ∈ s.descReasons ws, (∀ x ∈ s.descReasons ws, r ≤ x) → ∃ t, exec (.descriptorArrive c true ws) s = .next t ∧
        (t.hc c).phase = .ended ∧ (t.hc c).status = 4 ∧ (t.hc c).cause = r)) ∧
    (∀ env : Env, (s.hc c).phase = .dirWait → s.allIdle c = true →
      let l := s.line ((s.hc c).dir / 128)
      (s.served (s.hc c).dir = true → s.mustWait 0 ((s.hc c).dir / 128) = false → sbPoison l.sb = false → l.crcOk = true →
        (s.dirReasons l.bytes = [] → ∃ t, exec (.directoryArrive c env) s = .next t ∧ (t.hc c).phase = .running ∧ s.SameMemory t ∧
          (∀ d, d < s.nd → (t.ctx d c).st = .running ∧ (t.ctx d c).main = queueOf (dirEntry l.bytes (2 * d)) ∧
            (t.ctx d c).defer = queueOf (dirEntry l.bytes (2 * d + 1))) ∧
          ∀ d k, d < s.nd → k < (s.hc c).clrCount → t.rg d .seq 0 (0x1000 + 0x800 * c + 8 * ((s.hc c).clrBase + k)) = 0) ∧
        (∀ r ∈ s.dirReasons l.bytes, (∀ x ∈ s.dirReasons l.bytes, r ≤ x) → ∃ t, exec (.directoryArrive c env) s = .next t ∧
          (t.hc c).phase = .ended ∧ (t.hc c).status = 4 ∧ (t.hc c).cause = r)) ∧
      (s.mustWait 0 ((s.hc c).dir / 128) = false →
        (s.served (s.hc c).dir = false ∨ sbPoison l.sb = true ∨ l.crcOk = false) → ∃ t, exec (.directoryArrive c env) s = .next t ∧
        (t.hc c).phase = .ended ∧ (t.hc c).status = 4 ∧ (t.hc c).cause = 6 ∧ t.ctxs = s.ctxs))

/-- A descriptor ends in order: both queues at END with nothing in flight take the context to IDLE on every die and the descriptor is DONE; the report
is sent with END_NS and the energies, then the completion entry as one store, then CONS advances by one modulo 2^32, then the vector 1 + c is sent
where Table 8.1 calls for it and the descriptor is no longer in hand (R94, R155, R156, R157, R160). -/
def Obligations.DescriptorEnds : Prop :=
  ∀ (s : State) (c : Nat), s.Canonical → s.live 0 = true → c < 8 →
    let pd := s.portDie 0
    ((s.hc c).phase = .running → (s.hc c).trap = none → s.descDone c = true →
      ∃ t, exec (.descriptorComplete c) s = .next t ∧ (∀ d, d < s.nd → t.ctx d c = {}) ∧ (t.hc c).phase = .ended ∧
        (t.hc c).status = 1 ∧ s.SameMemory t ∧ s.SameRegsBut [] t) ∧
    ((s.hc c).phase = .ended → ∃ t, exec (.descriptorPost c) s = .next t ∧ (t.hc c).phase = .report ∧
      (t.hc c).endNs = s.time 0 ∧ (t.hc c).energy = s.descEnergy c ∧
      ((s.hc c).repLines = 0 → (t.hc c).acks = 0 ∧ t.links = s.links ∧ t.out = s.out) ∧
      ((s.hc c).repLines ≠ 0 → s.inWindow pd ((s.hc c).rep / 128 * 128) = true → s.lkState pd ≠ lkDown → 4 ∉ (s.die pd).exitInj →
        ∃ tag, t.Sends pd { opc := 0x12, tag := tag, addr := s.hostAddr pd ((s.hc c).rep / 128 * 128),
                            pay := payPL (mkLine ((t.hc c).header (s.ctxIdle c)) 0 0 0) (s.sbAddr pd ((s.hc c).rep / 128 * 128)) })) ∧
    ((s.hc c).phase = .report → (s.hc c).acks = 0 → ∃ t, exec (.completionEntryWrite c) s = .next t ∧ (t.hc c).phase = .entry ∧
      (let a := s.doneSlot c (s.cons c)
       let la := a / 128 * 128
       s.inWindow pd la = true → s.lkState pd ≠ lkDown → s.isKept pd la = false → (t.hc c).acks = 1 ∧
        ∃ tag, t.Sends pd { opc := 0x13, tag := tag, addr := s.hostAddr pd la,
                            pay := payPM (mkLine (padTo 128 (placed (a % 128) (s.entryBytes c)).1) 0 0 0) 0
                              (placed (a % 128) (s.entryBytes c)).2 })) ∧
    ((s.hc c).phase = .entry → (s.hc c).acks = 0 → ∃ t, exec (.consWriteBack c) s = .next t ∧ (t.hc c).phase = .cons ∧
      t.cons c = (s.cons c + 1) % 2 ^ 32 ∧ t.prod c = s.prod c ∧ s.SameMemory t ∧
      (s.fld 0 .seq 0 (0x610 + 0x40 * c) 3 45 = 0 → s.SameRegsBut [regAddr 0 .seq 0 (0x618 + 0x40 * c)] t)) ∧
    ((s.hc c).phase = .cons → (s.hc c).acks = 0 → (s.hc c).clearing = false → ∃ t, exec (.completionVector c) s = .next t ∧
      (t.hc c).phase = .none ∧ (t.link pd).intrq = (s.link pd).intrq ++ (if s.wantsVector c then [1 + c] else []) ∧
      s.SameMemory t ∧ s.SameRegsBut [] t)

/-! ### The Cellar and HBM -/

/-- Lines of this module: a read returns them untouched and counts a hit or a miss of a cached HBM line; a word with several bits in error leaves its
line marked poisoned, and a sideband in error loses format and version; a write replaces line and sideband; a masked write whose check value is sound
replaces the bytes of its mask alone, takes a new check value, and ORs the poison flags; a line that the host holds waits (R170, R174, R175, R176,
R177, R289). -/
def Obligations.CellarLines : Prop :=
  ∀ (s : State) (a : Nat), s.Canonical →
    let n := a / 128
    let d := homeDie a
    (s.served a = false → ∀ ecc bs sb mask w crc, exec (.cellarRead a ecc) s = .next s ∧ exec (.cellarWrite a bs sb) s = .next s ∧
      exec (.cellarMaskedWrite a bs mask w crc) s = .next s ∧ exec (.scrub a ecc) s = .next s) ∧
    (s.served a = true → s.mustWait 0 n = false →
      (inCelWindow a = true → exec (.cellarRead a []) s = .next s) ∧
      (inCelWindow a = false → ∃ t, exec (.cellarRead a []) s = .next t ∧ s.SameMemory t ∧
        ((s.cel d).cache.any (fun e => e.1 = n) = true → t.rg d .cel 0 0x200 = s.rg d .cel 0 0x200 + 1 ∧
          t.rg d .cel 0 0x208 = s.rg d .cel 0 0x208) ∧
        ((s.cel d).cache.any (fun e => e.1 = n) = false → t.rg d .cel 0 0x208 = s.rg d .cel 0 0x208 + 1 ∧
          t.rg d .cel 0 0x200 = s.rg d .cel 0 0x200)) ∧
      ∀ w, w ≤ 16 →
        (∃ t, exec (.cellarRead a [(w, false)]) s = .next t ∧ s.SameMemory t ∧ t.StatSet d .cel 0 8 ∧
          t.rg d .cel 0 0x218 = s.rg d .cel 0 0x218 + 1) ∧
        (∃ t, exec (.cellarRead a [(w, true)]) s = .next t ∧ (∀ b, t.byte b = s.byte b) ∧ t.StatSet d .cel 0 9 ∧
          t.sideOf n = (if w = 16 then mkSide (sbCrc (s.sideOf n)) 0 0 1 else withBit (s.sideOf n) 56 true) ∧
          ∀ m, m ≠ n → t.sideOf m = s.sideOf m)) ∧
    (s.served a = true → s.mustWait 0 n = true → ∀ ecc, ∃ t, exec (.cellarRead a ecc) s = .next t ∧ s.SameMemory t) ∧
    (s.served a = true → s.mustWait 1 n = false → ∀ bs sb, ∃ t, exec (.cellarWrite a bs sb) s = .next t ∧ s.LineWritten n bs sb t) ∧
    (s.served a = true → s.mustWait 1 n = true → ∀ bs sb, ∃ t, exec (.cellarWrite a bs sb) s = .next t ∧ s.SameMemory t) ∧
    (s.served a = true → s.mustWait 2 n = false → ∀ bs mask crc,
      (∀ w, (sbPoison w = true ∨ (crc32c (padTo 128 bs)).toNat = crc) → ∃ t, exec (.cellarMaskedWrite a bs mask (some w) crc) s = .next t ∧
        (∀ i, i < 128 → t.byte (128 * n + i) = if nbit mask i then (padTo 128 bs).getD i 0 else s.byte (128 * n + i)) ∧
        s.SameBytesBut [n] t ∧ (∀ m, m ≠ n → t.sideOf m = s.sideOf m) ∧
        t.sideOf n = mkSide (crc32c (t.line n).bytes) (sbVer w) (sbFmt w) (Nat.lor (sbFlags (s.sideOf n)) (sbFlags w))) ∧
      ((crc32c (padTo 128 bs)).toNat = crc → ∃ t, exec (.cellarMaskedWrite a bs mask none crc) s = .next t ∧
        (∀ i, i < 128 → t.byte (128 * n + i) = if nbit mask i then (padTo 128 bs).getD i 0 else s.byte (128 * n + i)) ∧
        s.SameBytesBut [n] t ∧ (∀ m, m ≠ n → t.sideOf m = s.sideOf m) ∧
        t.sideOf n = mkSide (crc32c (t.line n).bytes) (sbVer (s.sideOf n)) (sbFmt (s.sideOf n)) (sbFlags (s.sideOf n))) ∧
      (∀ w, sbPoison w = false → (crc32c (padTo 128 bs)).toNat ≠ crc → exec (.cellarMaskedWrite a bs mask (some w) crc) s = .next s)) ∧
    (s.served a = true → inCelWindow a = true → s.fld d .cel 0 0x20 8 8 ≠ 0 → (s.cel d).retained = false →
      exec (.scrub a []) s = .next s ∧ ∀ w, w ≤ 16 → ∃ t, exec (.scrub a [(w, true)]) s = .next t ∧ t.StatSet d .cel 0 9 ∧
        (∀ b, t.byte b = s.byte b) ∧
        t.sideOf n = (if w = 16 then mkSide (sbCrc (s.sideOf n)) 0 0 1 else withBit (s.sideOf n) 56 true))

/-- The commands of a Cellar: a partition change makes the shadow fields active at the quiescent point and zero-fills every scratchpad line that
changes sides; FLUSH and PURGE write every dirty line back, count it, and PURGE empties the cache; they end with FLUSH_DONE; a spare bank takes over
at the quiescent point. While one runs another is refused with CONFIG_BUSY (R179, R180, R182). -/
def Obligations.CellarCommands : Prop :=
  ∀ (s : State) (d : Nat), s.Canonical → s.live d = true →
    (swapMark d .cel 0 ∉ (s.die d).swapReq ∨ s.quiescent d .cel 0 = false → exec (.celPartitionChange d) s = .next s) ∧
    (swapMark d .cel 0 ∈ (s.die d).swapReq → s.quiescent d .cel 0 = true → s.unswappable d .cel 0 = true →
      ∃ t, exec (.celPartitionChange d) s = .next t ∧ s.SameMemory t ∧ t.rg d .cel 0 0 = s.rg d .cel 0 0 ||| bitMask 3 ∧
        swapMark d .cel 0 ∉ (t.die d).swapReq ∧ s.SameRegsBut [regAddr d .cel 0 0] t) ∧
    (swapMark d .cel 0 ∈ (s.die d).swapReq → s.quiescent d .cel 0 = true → s.unswappable d .cel 0 = false →
      ∃ t, exec (.celPartitionChange d) s = .next t ∧ swapMark d .cel 0 ∉ (t.die d).swapReq ∧
        t.fld d .cel 0 0x28 0 4 = s.sfld d .cel 0 0x28 0 4 ∧
        (let lo := celBase / 128 + d * 0x400000 + min (s.spLines d) (t.spLines d)
         let hi := celBase / 128 + d * 0x400000 + max (s.spLines d) (t.spLines d)
         (∀ n, lo ≤ n → n < hi → t.sideOf n = zeroSide ∧ ∀ i, i < 128 → t.byte (128 * n + i) = 0) ∧
         (∀ n, n < lo ∨ hi ≤ n → t.sideOf n = s.sideOf n ∧ ∀ i, i < 128 → t.byte (128 * n + i) = s.byte (128 * n + i)))) ∧
    (s.celBusy d = true → ∀ b k, (∃ t, exec (.flush d) s = .next t ∧ t.rg d .cel 0 0 = s.rg d .cel 0 0 ||| bitMask 3 ∧ t.cels = s.cels) ∧
      (∃ t, exec (.purge d) s = .next t ∧ t.rg d .cel 0 0 = s.rg d .cel 0 0 ||| bitMask 3 ∧ t.cels = s.cels) ∧
      (∃ t, exec (.celSpareIn d b k) s = .next t ∧ t.rg d .cel 0 0 = s.rg d .cel 0 0 ||| bitMask 3 ∧ t.cels = s.cels)) ∧
    (s.celBusy d = false →
      (∃ t, exec (.flush d) s = .next t ∧ s.SameMemory t ∧ (t.cel d).flush = some false ∧ t.StatSet d .cel 0 16 ∧
        (t.cel d).cache = (s.cel d).cache.map (fun e => (e.1, false)) ∧
        t.rg d .cel 0 0x210 = s.rg d .cel 0 0x210 + wordOf ((s.cel d).cache.filter (fun e => e.2)).length) ∧
      (s.quiescent d .cel 0 = true → ∃ t, exec (.purge d) s = .next t ∧ s.SameMemory t ∧ (t.cel d).flush = some true ∧
        t.StatSet d .cel 0 16 ∧ (t.cel d).cache = [] ∧
        t.rg d .cel 0 0x210 = s.rg d .cel 0 0x210 + wordOf ((s.cel d).cache.filter (fun e => e.2)).length) ∧
      (s.quiescent d .cel 0 = false → ∃ t, exec (.purge d) s = .next t ∧ t.cel d = { s.cel d with purgeWait := true } ∧
        s.SameRegsBut [] t ∧ s.SameMemory t) ∧
      ∀ b k, b < 1024 → k < 32 →
        (s.fld d .cel 0 (0x100 + 8 * k) 0 1 = 0 → (∀ j, j < 32 → s.fld d .cel 0 (0x100 + 8 * j) 0 1 = 1 →
          s.fld d .cel 0 (0x100 + 8 * j) 1 10 ≠ b) → ∃ t, exec (.celSpareIn d b k) s = .next t ∧
          t.cel d = { s.cel d with spare := some (b, k) } ∧ s.SameRegsBut [] t ∧ s.SameMemory t)) ∧
    ((s.cel d).flush ≠ none → (s.cel d).purgeWait = false → ∃ t, exec (.flushComplete d) s = .next t ∧ (t.cel d).flush = none ∧
      t.StatSet d .cel 0 12 ∧ t.fld d .cel 0 0 16 1 = 0 ∧ s.SameMemory t ∧ s.SameRegsBut [regAddr d .cel 0 0] t) ∧
    (∀ b k, (s.cel d).spare = some (b, k) → k < 32 → s.quiescent d .cel 0 = true → ∃ t, exec (.celSpareDone d) s = .next t ∧
      (t.cel d).spare = none ∧ t.rg d .cel 0 (0x100 + 8 * k) = wordOf (1 + 2 * b) ∧ t.StatSet d .cel 0 13 ∧
      (∃ e ∈ t.modc.repair, e.1 = d) ∧ s.SameMemory t)

/-- Lines at an HBM stack that serves accesses: a sound read changes no line; an error that cannot be corrected marks the line poisoned, and one in a
sideband line marks its sixteen lines; a write stores line and sideband, poisoned after a second parity error; a stack that is closed does nothing. A
refresh touches nothing that software sees, and a flush of the sideband cache leaves its lines clean (R188, R190, R191). The refresh rate of a stack
is never below what its temperature calls for, rises to it at once, and falls by one step at a time, after ten evaluations in a row at which the
reading stood at least 3 K below the step's threshold (R191). -/
def Obligations.HbmLinesAndRefresh : Prop :=
  ((∀ (s : State) (a : Nat), s.Canonical →
     let n := a / 128
     let d := homeDie a
     let k := (hbmPlace a).1
     (s.stackOpen a = false → ∀ ev bs sb, exec (.hbmRead a ev) s = .next s ∧ exec (.hbmWrite a bs sb ev) s = .next s) ∧
     (s.stackOpen a = true →
       ((sbPoison (s.sideOf n) = true ∨ (s.line n).crcOk = true) → ∃ t, exec (.hbmRead a .none) s = .next t ∧ s.SameMemory t) ∧
       (∃ t, exec (.hbmRead a .eccCe) s = .next t ∧ s.SameMemory t ∧ t.StatSet d .hbm k 8 ∧
         t.rg d .hbm k 0x200 = s.rg d .hbm k 0x200 + 1) ∧
       (∃ t, exec (.hbmRead a .eccUe) s = .next t ∧ (∀ b, t.byte b = s.byte b) ∧ t.StatSet d .hbm k 9 ∧
         t.rg d .hbm k 0x208 = s.rg d .hbm k 0x208 + 1 ∧ t.sideOf n = withBit (s.sideOf n) 56 true ∧ ∀ m, m ≠ n → t.sideOf m = s.sideOf m) ∧
       (sbPoison (s.sideOf n) = false → (s.line n).crcOk = false → ∃ t, exec (.hbmRead a .none) s = .next t ∧
         (∀ b, t.byte b = s.byte b) ∧ t.StatSet d .hbm k 11 ∧ t.sideOf n = withBit (s.sideOf n) 56 true) ∧
       (∃ t, exec (.hbmRead a .sbUe) s = .next t ∧ (∀ b, t.byte b = s.byte b) ∧ t.StatSet d .hbm k 10 ∧
         ∀ i, i < 16 → let m := hbmAddr d k (hbmPlace a).2.1 ((hbmPlace a).2.2 / 16 * 16 + i) / 128
           t.sideOf m = mkSide (sbCrc (s.sideOf m)) 0 0 1) ∧
       (∀ bs sb, (∃ t, exec (.hbmWrite a bs sb .none) s = .next t ∧ s.LineWritten n bs sb t) ∧
         ∃ t, exec (.hbmWrite a bs sb .linkUe) s = .next t ∧ s.LineWritten n bs (withBit sb 56 true) t ∧ t.StatSet d .hbm k 13))) ∧
   ∀ (s : State) (d k : Nat), s.Canonical → s.live d = true → k < 2 →
     (∀ pc, pc < 64 → bitOf (s.rg d .hbm k 0) 24 = true → bitOf (s.rg d .hbm k 0) 26 = false →
       ∃ t, exec (.perBankRefresh d k pc) s = .next t ∧ s.SameMemory t ∧ s.SameRegsBut [] t ∧
         t.hbm d k = { s.hbm d k with refreshes := (s.hbm d k).refreshes + 1 }) ∧
     (∃ t, exec (.flushSb d k) s = .next t ∧ s.SameMemory t ∧ s.SameRegsBut [] t ∧
       t.hbm d k = { s.hbm d k with sbCache := (s.hbm d k).sbCache.map (fun e => (e.1, false)) })) ∧
  ∀ (s : State) (d k : Nat) (below : Bool), s.Canonical → s.live d = true → k < 2 →
    let temp := s.fld d .hbm k 0x30 0 8
    let rate := s.fld d .hbm k 0 27 2
    let want := if 95 < temp then 2 else if 85 < temp then 1 else 0
    ∃ t, exec (.refreshRateEval d k below) s = .next t ∧ s.SameMemory t ∧ s.SameRegsBut [regAddr d .hbm k 0] t ∧
      (rate ≤ want → t.fld d .hbm k 0 27 2 = want) ∧
      (want < rate → t.fld d .hbm k 0 27 2 = rate ∨ (t.fld d .hbm k 0 27 2 = rate - 1 ∧ below = true ∧ 9 ≤ (s.hbm d k).below ∧
        temp + 3 ≤ (if rate = 2 then 95 else 85)))

/-- The commands of an HBM controller: a retirement takes the lowest free pool unit and is installed when its copy is done; maintenance holds the
stack, an MBIST and an IEEE 1500 operation run only in it, and after an MBIST the stack is zero-filled when maintenance ends; bring-up zero-fills the
stack, and a second failure or a missing record is TRAIN_FAIL. While a command runs another is refused with CONFIG_BUSY (R193, R194, R195, R196, R197,
R198). -/
def Obligations.HbmCommands : Prop :=
  ∀ (s : State) (d k : Nat), s.Canonical → s.live d = true → k < 2 →
    let busy := fun t : State => t.rg d .hbm k 0 = s.rg d .hbm k 0 ||| bitMask 3 ∧ t.hbms = s.hbms ∧ s.SameMemory t
    let mine := fun a : Nat => a / hbmSlice = d ∧ (hbmPlace a).1 = k
    ((s.hbm d k).cmd ≠ none → ∀ pc u pat w n, (∃ t, exec (.hbmRetire d k pc u) s = .next t ∧ busy t) ∧
      (∃ t, exec (.mbist d k pat) s = .next t ∧ busy t) ∧ (∃ t, exec (.hbm1500Go d k w n) s = .next t ∧ busy t) ∧
      exec (.maintExit d k) s = .next s) ∧
    ((s.hbm d k).cmd = none → ∀ pc u, pc < 64 → u ≤ 15103 →
      (∀ n, n < 256 → (s.hbm d k).poolFree pc n = true → (∀ m, m < n → (s.hbm d k).poolFree pc m = false) →
        ∃ t, exec (.hbmRetire d k pc u) s = .next t ∧ t.hbm d k = { s.hbm d k with cmd := some (.retire pc u n) } ∧
          s.SameRegsBut [] t ∧ s.SameMemory t) ∧
      ((∀ n, n < 256 → (s.hbm d k).poolFree pc n = false) → ∃ t, exec (.hbmRetire d k pc u) s = .next t ∧ t.StatSet d .hbm k 16 ∧
        t.hbms = s.hbms ∧ s.SameMemory t)) ∧
    (∀ pc u n, (s.hbm d k).cmd = some (.retire pc u n) → ∃ t, exec (.retireDone d k []) s = .next t ∧ (t.hbm d k).cmd = none ∧
      smGet 0 (t.hbm d k).remap (pc * 16384 + u) = n + 1 ∧ t.StatSet d .hbm k 17 ∧
      t.rg d .hbm k 0x218 = s.rg d .hbm k 0x218 + 1 ∧ (∃ e ∈ t.modc.repair, e.1 = d) ∧ s.SameMemory t) ∧
    (∃ t, exec (.maintEnter d k) s = .next t ∧ t.StatSet d .hbm k 25 ∧ s.SameMemory t ∧ s.SameRegsBut [regAddr d .hbm k 0] t ∧
      (t.hbm d k).sbCache = (s.hbm d k).sbCache.map (fun e => (e.1, false))) ∧
    (s.maint d k = true → (s.hbm d k).cmd = none → ∃ t, exec (.maintExit d k) s = .next t ∧ t.maint d k = false ∧
      (t.hbm d k).wiped = false ∧ s.SameRegsBut [regAddr d .hbm k 0] t ∧ ((s.hbm d k).wiped = false → s.SameMemory t) ∧
      ((s.hbm d k).wiped = true → ∀ a, (mine a → t.byte a = 0) ∧ (¬ mine a → t.byte a = s.byte a))) ∧
    (s.maint d k = false → ∀ pat w n, (∃ t, exec (.mbist d k pat) s = .next t ∧ busy t) ∧
      (∃ t, exec (.hbm1500Go d k w n) s = .next t ∧ busy t) ∧ exec (.maintExit d k) s = .next s) ∧
    (s.maint d k = true → (s.hbm d k).cmd = none → (∀ pat, pat ≤ 2 → ∃ t, exec (.mbist d k pat) s = .next t ∧
      t.hbm d k = { s.hbm d k with cmd := some (.mbist pat), wiped := true } ∧ s.SameRegsBut [] t ∧ s.SameMemory t) ∧
      ∀ w n, w < 65536 → 1 ≤ n → n ≤ 2048 → ∃ t, exec (.hbm1500Go d k w n) s = .next t ∧
        t.rg d .hbm k 0x38 = wordOf (w + n * 65536) ∧ t.hbm d k = { s.hbm d k with cmd := some .shift } ∧
        s.SameRegsBut [regAddr d .hbm k 0x38] t ∧ s.SameMemory t) ∧
    (∀ pat, (s.hbm d k).cmd = some (.mbist pat) →
      (∃ t, exec (.mbistDone d k none) s = .next t ∧ (t.hbm d k).cmd = none ∧ t.StatSet d .hbm k 18 ∧
        s.SameRegsBut [regAddr d .hbm k 0] t ∧ s.SameMemory t) ∧
      ∀ pc sl, ∃ t, exec (.mbistDone d k (some (pc, sl))) s = .next t ∧ (t.hbm d k).cmd = none ∧ t.StatSet d .hbm k 18 ∧
        t.StatSet d .hbm k 19 ∧ bitOf (t.rg d .hbm k 0x10) 7 = true ∧ s.SameMemory t) ∧
    ((s.hbm d k).cmd = some .shift → ∀ out, ∃ t, exec (.hbm1500Done d k out) s = .next t ∧ (t.hbm d k).cmd = none ∧
      bitOf (t.rg d .hbm k 0x38) 29 = true ∧ s.SameMemory t ∧
      ∀ i, i < 32 → 64 * i < s.fld d .hbm k 0x38 16 12 →
        let w := min 64 (s.fld d .hbm k 0x38 16 12 - 64 * i)
        t.fld d .hbm k (0x100 + 8 * i) 0 w = out / 2 ^ (64 * i) % 2 ^ w) ∧
    (bitOf (s.rg d .hbm k 0) 24 = false →
      let rec_ := fun r : FlashRec => r.typ = 0x22 ∧ r.die = d ∧ r.hdrOk = true ∧ r.hashOk = true ∧ r.sigOk = true
      (∀ n, n < 2 → (∃ r ∈ s.modc.loaded, rec_ r) → ∃ t, exec (.hbmBringup d k n) s = .next t ∧ t.StatSet d .hbm k 24 ∧
        ∀ a, (mine a → t.byte a = 0) ∧ (¬ mine a → t.byte a = s.byte a)) ∧
      (∀ n, (2 ≤ n ∨ ∀ r ∈ s.modc.loaded, ¬ rec_ r) → ∃ t, exec (.hbmBringup d k n) s = .next t ∧ t.StatSet d .hbm k 14 ∧
        bitOf (t.rg d .hbm k 0) 24 = false ∧ (t.die d).stopDue ≠ none ∧ s.SameMemory t))

/-! ### The Drail fabric -/

/-- A fabric request at its home: a READ returns the line and its sideband, a full WRITE replaces them and a masked one its bytes, an ATOMIC returns
the old word and stores the new one with a new check value, and a SIGNAL adds its increment to the counter that its reference names; a line that no
die serves is answered ADDR, a damaged payload CRC. Each answer carries the request's tag and number to its issuer (R201, R204, R206, R207, R210). -/
def Obligations.FabricRequestsAtHome : Prop :=
  ∀ (s : State) (d : Nat) (r : FRec) (env : Env), s.Canonical → s.HomeReady d r →
    let a := gaLocal r.addr / 128 * 128
    let n := gaLocal r.addr / 128
    (r.op = opRead → (s.served a = true → ∃ t, exec (.read d r) s = .next t ∧ s.SameMemory t ∧
        s.Answered d r 0 (padTo 128 (s.line n).bytes ++ leBytes 8 (s.sideOf n).toNat) t ∧
        t.rg (s.homeOf d r) .fab 0 0x108 = s.rg (s.homeOf d r) .fab 0 0x108 + 1) ∧
      (s.served a = false → ∃ t, exec (.read d r) s = .next t ∧ s.SameMemory t ∧ s.Answered d r 1 [] t)) ∧
    (r.op = opWrite ∨ r.op = opMcast →
      let l := payLine (r.pay.take 136) 1 0
      let mask := leAt r.pay 136 16
      (s.served a = false → ∃ t, exec (.write d r) s = .next t ∧ s.SameMemory t ∧ s.Answered d r 1 [] t) ∧
      (s.served a = true → mask = 2 ^ 128 - 1 → ctrlClass (s.homeClass d r) = false → ∃ t, exec (.write d r) s = .next t ∧
        s.LineWritten n l.bytes l.sb t ∧ s.Answered d r 0 [] t) ∧
      (s.served a = true → ¬ (mask = 2 ^ 128 - 1 ∧ ctrlClass (s.homeClass d r) = false) →
        ((sbPoison l.sb = true ∨ l.crcOk = true) → ∃ t, exec (.write d r) s = .next t ∧ s.Answered d r 0 [] t ∧ s.SameBytesBut [n] t ∧
          ∀ i, i < 128 → t.byte (128 * n + i) = if nbit mask i then l.bytes.getD i 0 else s.byte (128 * n + i)) ∧
        (sbPoison l.sb = false → l.crcOk = false → ∃ t, exec (.write d r) s = .next t ∧ s.Answered d r 2 [] t ∧ s.SameMemory t ∧
          t.StatSet (homeDie a) .fab 0 10))) ∧
    (r.op = opAtomic → (s.served a = false → ∃ t, exec (.atomic d r env false) s = .next t ∧ s.SameMemory t ∧ s.Answered d r 1 [] t) ∧
      (s.served a = true → sbPoison (s.sideOf n) = true → ∃ t, exec (.atomic d r env false) s = .next t ∧ s.SameMemory t ∧
        s.Answered d r 3 [] t) ∧
      (s.served a = true → sbPoison (s.sideOf n) = false → (s.line n).crcOk = true → r.word < 16 →
        let old := wordOf (leAt (s.line n).bytes (8 * r.word) 8)
        let x := wordOf (leAt r.pay 0 8)
        let y := wordOf (leAt r.pay 8 8)
        let new := if r.akind = 0 then old + x else if r.akind = 1 then x else if r.akind = 2 then (if old = x then y else old)
          else if old.slt x then x else old
        ∃ t, exec (.atomic d r env false) s = .next t ∧ s.Answered d r 0 (leBytes 8 old.toNat) t ∧ s.SameBytesBut [n] t ∧
          wordOf (leAt (t.line n).bytes (8 * r.word) 8) = new ∧
          (∀ i, i < 128 → i / 8 ≠ r.word → t.byte (128 * n + i) = s.byte (128 * n + i)) ∧
          t.sideOf n = mkSide (crc32c (t.line n).bytes) (sbVer (s.sideOf n)) (sbFmt (s.sideOf n)) (sbFlags (s.sideOf n)))) ∧
    (r.op = opSignal →
      let cref := r.addr % 2 ^ 32
      let td := nbits cref 8 3
      (s.live td = true → ∃ t, exec (.signal d r false) s = .next t ∧ s.SameMemory t ∧ s.Answered d r 0 [] t ∧
        t.rg td .seq 0 (cntOff (nbits cref 28 3) (nbits cref 0 8)) =
          s.rg td .seq 0 (cntOff (nbits cref 28 3) (nbits cref 0 8)) + wordOf (r.addr / 2 ^ 32)) ∧
      (s.live td = false → ∃ t, exec (.signal d r false) s = .next t ∧ s.SameMemory t ∧ s.Answered d r 1 [] t))

/-- A REDSTORE of INT32 lines adds the payload into the target line, element by element, saturating; format and version stay, the check value is new,
and a poisoned input poisons the result. A payload of another format changes no byte, poisons the target, and is answered FORMAT; a payload that fails
its check is answered CRC (R205, R228, R261). -/
def Obligations.RedstoreAddsLines : Prop :=
  ∀ (s : State) (d : Nat) (r : FRec), s.Canonical → s.HomeReady d r → r.op = opRedstore → r.stat = fINT32 →
    let n := gaLocal r.addr / 128
    let l := payLine r.pay 1 0
    (s.served (128 * n) = false → ∃ t, exec (.redstore d r false) s = .next t ∧ s.SameMemory t ∧ s.Answered d r 1 [] t) ∧
    (s.served (128 * n) = true → sbPoison l.sb = false → l.crcOk = false → ∃ t, exec (.redstore d r false) s = .next t ∧
      s.SameMemory t ∧ s.Answered d r 2 [] t) ∧
    (s.served (128 * n) = true → (sbPoison l.sb = true ∨ l.crcOk = true) → sbFmt l.sb ≠ fINT32 →
      ∃ t, exec (.redstore d r false) s = .next t ∧ s.Answered d r 4 [] t ∧ (∀ b, t.byte b = s.byte b) ∧
        t.sideOf n = withBits (s.sideOf n) 56 8 1 ∧ ∀ m, m ≠ n → t.sideOf m = s.sideOf m) ∧
    (s.served (128 * n) = true → (sbPoison l.sb = true ∨ l.crcOk = true) → sbFmt l.sb = fINT32 → sbFmt (s.sideOf n) = fINT32 →
      ∃ t, exec (.redstore d r false) s = .next t ∧ s.Answered d r 0 [] t ∧ s.SameBytesBut [n] t ∧
        (∀ i, i < 32 → signedOf 32 (leAt (t.line n).bytes (4 * i) 4) =
          clampInt (-(2 ^ 31)) (2 ^ 31 - 1) (signedOf 32 (leAt l.bytes (4 * i) 4) + signedOf 32 (leAt (s.line n).bytes (4 * i) 4))) ∧
        t.sideOf n = mkSide (crc32c (t.line n).bytes) (sbVer (s.sideOf n)) fINT32
          (if sbPoison l.sb = true ∨ sbPoison (s.sideOf n) = true then 3 else 0))

/-- A request that was applied before is answered again with the response it received, and nothing is applied; one that comes out of order in the
control class is dropped; with ACCEPT clear every request is answered, and changes nothing; a request that needs a line in the host's hands changes
nothing while the host is asked; two copies of an adder that disagree on an ATOMIC or a SIGNAL stop the die with CTRL_UE (R201, R227, R289, R379). -/
def Obligations.FabricRequestsTurnedAway : Prop :=
  ∀ (s : State) (d : Nat) (r : FRec) (env : Env) (i : Instr), s.Canonical → s.forHome d r = true →
    ((i = .read d r ∧ r.op = opRead) ∨ (i = .write d r ∧ (r.op = opWrite ∨ r.op = opMcast)) ∨
      (i = .redstore d r false ∧ r.op = opRedstore) ∨ (i = .atomic d r env false ∧ r.op = opAtomic) ∨
      (i = .signal d r false ∧ r.op = opSignal)) →
    let cls := s.homeClass d r
    (s.applied? cls r ≠ none → ∃ t, exec i s = .next t ∧ s.SameMemory t ∧ t.rg d .fab 0 0x128 = s.rg d .fab 0 0x128 + 1 ∧
      t.rg d .fab 0 0x108 = s.rg d .fab 0 0x108 ∧ t.applied? cls r = s.applied? cls r) ∧
    (s.applied? cls r = none → s.outOfOrder cls r = true → ∃ t, exec i s = .next t ∧ s.SameMemory t ∧ t.applied? cls r = none) ∧
    (s.applied? cls r = none → s.outOfOrder cls r = false → bitOf (s.rg d .fab 0 0x20) 7 = false →
      (∀ e, smGet [] (s.router e).merged (memberKey r) = []) → ∃ t, exec i s = .next t ∧ s.SameMemory t ∧ s.Answered d r 8 [] t) ∧
    (s.applied? cls r = none → s.outOfOrder cls r = false → bitOf (s.rg d .fab 0 0x20) 7 = true → s.waits (FRec.access r) ≠ [] →
      ∃ t, exec i s = .next t ∧ s.SameMemory t ∧ t.applied? cls r = none) ∧
    (r.op = opAtomic → s.homeOf d r < s.nd → ∃ t, exec (.atomic d r env true) s = .next t ∧ s.SameMemory t ∧
      t.StatSet (s.homeOf d r) .saf 0 11 ∧ (t.die (s.homeOf d r)).stopDue ≠ none) ∧
    (r.op = opSignal → ∃ t e, exec (.signal d r true) s = .next t ∧ s.SameMemory t ∧ t.StatSet e .saf 0 11 ∧ (t.die e).stopDue ≠ none ∧
      e = if nbits r.addr 8 3 < s.nd then nbits r.addr 8 3 else d)

/-- A response returns its tag: of a signal nothing else happens on OK, and any other status traps the context with REMOTE_FAIL, whose word 2 names
the target and the status; of a line that an engine read, the line is stored where the engine wanted it, with the version of R121 (R121, R134, R210).
A response without its tag changes nothing. -/
def Obligations.FabricResponses : Prop :=
  ∀ (s : State) (d tag st : Nat) (bs : List Byte) (sb : Word), s.Canonical → s.live d = true →
    ((∀ e ∈ (s.router d).tags, e.1 ≠ tag) → exec (.fabricResponse d tag st bs sb) s = .next s) ∧
    ∀ e, (s.router d).tags.find? (fun e => e.1 = tag) = some (tag, e) → (s.router d).waitq = [] → (∀ x ∈ (s.router d).inq, x.2.kind ≠ 1) →
      (∀ u q idx tb, e.own = .sig u q idx tb →
        (st = 0 → ∃ t, exec (.fabricResponse d tag st bs sb) s = .next t ∧ s.SameMemory t ∧ s.SameRegsBut [] t ∧
          (t.router d).tags = (s.router d).tags.filter (fun x => x.1 ≠ tag)) ∧
        (st ≠ 0 → (s.ctx d e.r.ctx).st = .running → ∃ t, exec (.fabricResponse d tag st bs sb) s = .next t ∧
          (t.router d).tags = (s.router d).tags.filter (fun x => x.1 ≠ tag) ∧
          s.TrappedWith d e.r.ctx 0x30 (e.r.addr % 2 ^ 32 + st * 2 ^ 32) 0 t)) ∧
      (∀ fid i dst f, e.own = .eng fid i (.line dst) → s.flight fid = some f → f.failed = false → f.todo = [] → s.served dst = true →
        s.mustWait 1 (dst / 128) = false → st = 0 → ∃ t, exec (.fabricResponse d tag st bs sb) s = .next t ∧
          s.LineWritten (dst / 128) bs (withBits sb 32 16 (verCopy f.ws (sbVer sb))) t ∧
          (t.router d).tags = (s.router d).tags.filter (fun x => x.1 ≠ tag))

/-- A hold window of a hot line ends: the merged request leaves for its target, and an empty window is counted; a hot line of four empty windows
leaves the table (R218). A bulk record with no credit on any productive port moves to its escape class, TC4 or TC2, and leaves as control traffic
does; the hold of failed ports ends where no control request sent on them is open (R222, R224). -/
def Obligations.HotLinesAndEscape : Prop :=
  (∀ (s : State) (d i : Nat) (h : Hot), s.Canonical → s.live d = true → (s.router d).hot[i]? = some h →
     (h.req = none → ∃ t, exec (.hotLineWindow d i false) s = .next t ∧ s.SameMemory t ∧ s.SameRegsBut [] t ∧
       t.router d = { s.router d with hot := (s.router d).hot.set i { h with idle := h.idle + 1 } }) ∧
     (∀ r, h.req = some r → ∃ t, exec (.hotLineWindow d i false) s = .next t ∧ s.SameMemory t ∧
       (t.router d).hot = (s.router d).hot.set i { h with req := none, members := [], idle := 0 } ∧
       (r.dstMod = s.ownId d → (t.router d).inq = (s.router d).inq ++ [(h.key.2.2 % 8, r)] ∧
         (2 ≤ h.members.length → smGet [] (t.router d).merged (memberKey r) = h.members))) ∧
     (h.req = none → 4 ≤ h.idle → ∃ t, exec (.hotLineFree d i) s = .next t ∧ s.SameMemory t ∧ s.SameRegsBut [] t ∧
       t.router d = { s.router d with hot := (s.router d).hot.eraseIdx i }) ∧
     (h.req ≠ none ∨ h.idle < 4 → exec (.hotLineFree d i) s = .next s)) ∧
  (∀ (s : State) (d p i cls : Nat) (r : FRec) (x : Nat × Nat), s.Canonical → s.live d = true →
    (s.port d p).txq[i]? = some (cls, r) → (cls = 5 ∨ cls = 3) → s.inTorus d r.dstMod = true → s.dirHeld d r.dstMod = false →
    s.route d r.dstMod true (cls - 1) = some x →
    ((∀ y ∈ (s.productive d r.dstMod).flatMap (fun y => s.dirPorts y.1 y.2), s.portCredit y cls = 0) →
      ∃ t, exec (.bulkEscape d p i) s = .next t ∧ s.SameMemory t ∧ s.SameRegsBut [] t ∧
        (t.port x.1 x.2).txq.getLast? = some (cls - 1, r) ∧
        (x.1 * 8 + x.2 ≠ d * 8 + p → (t.port d p).txq = (s.port d p).txq.eraseIdx i)) ∧
    ((∃ y ∈ (s.productive d r.dstMod).flatMap (fun y => s.dirPorts y.1 y.2), s.portCredit y cls ≠ 0) →
      exec (.bulkEscape d p i) s = .next s)) ∧
  ∀ (s : State) (d : Nat), s.Canonical → s.live d = true →
    ∃ t, exec (.ctrlHoldRelease d) s = .next t ∧ s.SameMemory t ∧ (∀ p ∈ (t.router d).failed, s.viaOpen d p = true) ∧
      ((∀ p ∈ (s.router d).failed, s.viaOpen d p = false) → (t.router d).failed = [] ∧ t.fld d .fab 0 0 16 1 = 0)

/-- The two retry levels: frames that are not acknowledged in time, or from the one that a NAK names, leave again with the present acknowledgement;
after eight tries the port goes down. A request that is not answered in time is sent again on TC1 with RETX, counted and logged, and after the last
retransmission its issuer learns TIMEOUT (R226, R227). -/
def Obligations.FabricRetries : Prop :=
  (∀ (s : State) (d p : Nat) (f : Frame) (rest : List Frame) (i : Instr), s.Canonical → s.portLive d p = true → s.portUp d p = true →
    (s.port d p).unacked = f :: rest →
    ((i = .hopAckTimeout d p ∧ (s.port d p).txHold = false) ∨
      (i = .nak d p f.hseq ∧ ∀ g ∈ f :: rest, g.hseq ≠ (f.hseq + 2047) % 2048)) →
    ((s.port d p).tries < 8 → ∃ t, exec i s = .next t ∧ s.SameMemory t ∧ (t.port d p).unacked = f :: rest ∧
      (t.port d p).tries = (s.port d p).tries + 1 ∧ t.StatSet d .fab 0 11 ∧
      t.rg d .fab 0 0x118 = s.rg d .fab 0 0x118 + wordOf (rest.length + 1) ∧
      ∀ g ∈ f :: rest, OutMsg.frame d p { g with hack := some (((s.port d p).rxNext + 2047) % 2048) } ∈ t.out) ∧
    (8 ≤ (s.port d p).tries → (∀ g ∈ f :: rest, ∀ r ∈ g.recs, s.tagOf r = none) → (s.port d p).txq = [] →
      ∃ t, exec i s = .next t ∧ s.SameMemory t ∧ t.portUp d p = false ∧ t.StatSet d .fab 0 14 ∧ (t.port d p).unacked = [])) ∧
  ∀ (s : State) (d tag : Nat) (e : TagEnt), s.Canonical → s.live d = true →
    (s.router d).tags.find? (fun e => e.1 = tag) = some (tag, e) →
    (e.tries < s.fld d .fab 0 0x38 16 3 → e.r.dstMod = s.ownId d → ∃ t, exec (.e2eTimeout d tag) s = .next t ∧ s.SameMemory t ∧
      t.StatSet d .fab 0 12 ∧ t.rg d .fab 0 0x120 = s.rg d .fab 0 0x120 + 1 ∧
      (t.router d).inq = (s.router d).inq ++ [(1, { e.r with retx := true })] ∧
      (tag, { e with r := { e.r with retx := true }, tries := e.tries + 1, via := none }) ∈ (t.router d).tags) ∧
    (e.tries < s.fld d .fab 0 0x38 16 3 → e.r.dstMod ≠ s.ownId d → s.dirHeld d e.r.dstMod = false →
      ∀ x, s.route d e.r.dstMod (decide (e.r.op = opSignal ∨ e.r.op = opAtomic)) 1 = some x →
      ∃ t, exec (.e2eTimeout d tag) s = .next t ∧ s.SameMemory t ∧ t.StatSet d .fab 0 12 ∧
        t.rg d .fab 0 0x120 = s.rg d .fab 0 0x120 + 1 ∧
        (t.port x.1 x.2).txq = (s.port x.1 x.2).txq ++ [(1, { e.r with retx := true })] ∧
        (tag, { e with r := { e.r with retx := true }, tries := e.tries + 1, via := some (x.1 * 8 + x.2) }) ∈ (t.router d).tags) ∧
    (s.fld d .fab 0 0x38 16 3 ≤ e.tries → (s.router d).waitq = [] → (s.ctx d e.r.ctx).st = .running →
      ∀ u q idx tb, e.own = .sig u q idx tb → ∃ t, exec (.e2eTimeout d tag) s = .next t ∧
        s.TrappedWith d e.r.ctx 0x30 (e.r.addr % 2 ^ 32 + 5 * 2 ^ 32) 0 t ∧
        (t.router d).tags = (s.router d).tags.filter (fun x => x.1 ≠ tag))



/-! ### The Ethernet ports -/

/-- What a frame does that does not reach a router: shorter than 64 bytes with its FCS it counts in RUNT; longer than MAX_FRAME, or with a wrong FCS,
it is dropped and counted in OVERSIZE or FCS_ERR, and a DIRECT port asks once for the frame it expects; a PFC frame pauses the classes that it enables
with a time, and releases those with a time of 0; a host frame without a queue, or before a full one, is dropped, counted in DROP_HQ and raises
RX_DROP, and otherwise it stands in the next slot behind RX_PROD with HOST_RX raised (R226, R236, R241, R245). -/
def Obligations.FramesFromOutside : Prop :=
  ∀ (s : State) (d p : Nat) (bs : List Byte) (fcs : Bool), s.Canonical → s.portLive d p = true → (s.port d p).rxMove = none →
    (s.portUp d p = true ∨ (s.port d p).trained = true) →
    let len := bs.length + 4
    let cnt (k : Nat) : Nat := regAddr d .mac (p % 4) (0x100 + 8 * k)
    let head := (frameHead bs).1
    let etype := (frameHead bs).2.1
    (len < 64 → ∃ t, exec (.frameReceive d p bs fcs) s = .next t ∧ s.SameMemory t ∧ s.SameRegsBut [cnt 5] t ∧
      t.reg (cnt 5) = s.reg (cnt 5) + 1 ∧ t.port d p = s.port d p) ∧
    (∀ k, 64 ≤ len → ((k = 6 ∧ s.maxFrame d p < len) ∨ (k = 4 ∧ len ≤ s.maxFrame d p ∧ fcs = false)) →
      ∃ t, exec (.frameReceive d p bs fcs) s = .next t ∧ s.SameMemory t ∧ s.SameRegsBut [cnt k] t ∧ t.reg (cnt k) = s.reg (cnt k) + 1 ∧
        t.port d p = if s.direct d p = true ∧ (s.port d p).naked = false then
            { s.port d p with naked := true,
                              ctlq := (s.port d p).ctlq ++ [{ kind := 2, op := 1, pay := leBytes 2 (s.port d p).rxNext }] }
          else s.port d p) ∧
    (64 ≤ len → len ≤ s.maxFrame d p → fcs = true → etype = 0x8808 → beAt bs head 2 = 0x0101 →
      ∃ t, exec (.frameReceive d p bs fcs) s = .next t ∧ s.SameMemory t ∧ t.reg (cnt 11) = s.reg (cnt 11) + 1 ∧
        t.reg (cnt 0) = s.reg (cnt 0) + 1 ∧ ∀ c, (t.port d p).paused.contains c =
          if c < 8 ∧ nbit (beAt bs (head + 2) 2) c = true then decide (beAt bs (head + 4 + 2 * c) 2 ≠ 0)
          else (s.port d p).paused.contains c) ∧
    (64 ≤ len → len ≤ s.maxFrame d p → fcs = true → etype ≠ 0x8808 → etype ≠ 0x88F7 → etype ≠ s.fld d .mac (p % 4) 0x20 24 16 →
      s.portUp d p = true → s.passes d p bs = true →
      let cls := match (frameHead bs).2.2 with
        | none => 0
        | some pcp => s.fld d .mac (p % 4) 0x40 (3 * pcp) 3
      let q := s.rg d .mac (p % 4) 0x60
      let prod := s.fld d .mac (p % 4) 0x70 0 16
      let cons := s.fld d .mac (p % 4) 0x70 16 16
      (cls = 0 → (s.port d p).heldOf 0 + (bs.length + 127) / 128 ≤ s.fld d .mac (p % 4) 0x28 48 16) →
      ((bitOf q 54 = false ∨ (prod + 65536 - cons) % 65536 = 2 ^ bits q 50 4) → ∃ t, exec (.frameReceive d p bs fcs) s = .next t ∧
        s.SameMemory t ∧ t.reg (cnt 9) = s.reg (cnt 9) + 1 ∧ t.StatSet d .mac (p % 4) 13) ∧
      (bitOf q 54 = true → (prod + 65536 - cons) % 65536 ≠ 2 ^ bits q 50 4 →
        let fa := cloAddr (bits q 0 25 + 72 * (prod % 2 ^ bits q 50 4))
        let da := cloAddr (bits q 25 25) + 8 * (prod % 2 ^ bits q 50 4)
        (∀ i, i < bs.length → s.isMem (fa + i) = true) → s.isMem da = true → (da / 128 < fa / 128 ∨ fa / 128 + 73 ≤ da / 128) →
        bs.length ≤ 73 * 128 → ∃ t, exec (.frameReceive d p bs fcs) s = .next t ∧ t.StatSet d .mac (p % 4) 14 ∧
          t.fld d .mac (p % 4) 0x70 0 16 = (prod + 1) % 65536 ∧ (∀ i, i < bs.length → t.byte (fa + i) = bs.getD i 0) ∧
          ∀ i, i < 8 → t.byte (da + i) = (leBytes 8 (bs.length % 16384 + cls * 16384)).getD i 0))

/-- A fabric frame that a DIRECT port accepts whole: in order, its lines are held, HSEQ expected rises by one, the acknowledgement falls due, and a
request for this module goes to the router; a repeated one is acknowledged again and dropped, and one from the future is asked for again once; without
room for its lines it is dropped, counted in DROP_NOBUF and raises RX_DROP (R226, R236, R239, R241). -/
def Obligations.FabricFramesArrive : Prop :=
  ∀ (s : State) (d p cls : Nat) (bs : List Byte) (r : FRec), s.Canonical → s.portLive d p = true → (s.port d p).rxMove = none →
    s.portUp d p = true → s.direct d p = true → 64 ≤ bs.length + 4 → bs.length + 4 ≤ s.maxFrame d p →
    frameHead bs = (18, s.fld d .mac (p % 4) 0x20 24 16, some cls) → s.fld d .mac (p % 4) 0x20 24 16 ≠ 0x8808 →
    s.fld d .mac (p % 4) 0x20 24 16 ≠ 0x88F7 → beAt bs 0 6 = s.fabAddr d p (s.ownId d) →
    leAt (bs.drop 18) 4 1 % 16 = 1 → leAt (bs.drop 18) 5 1 = 1 → parseRecs 1 (bs.drop 26) = some [r] → r.kind = 0 →
    r.dstMod = s.ownId d → s.combineOn d = false →
    let k := s.port d p
    let q := leAt (bs.drop 18) 0 2 % 2048
    let lines := (bs.length + 127) / 128
    let room : Prop := if cls = 0 then k.heldOf 0 + lines ≤ s.fld d .mac (p % 4) 0x28 48 16
      else k.heldAll + lines ≤ 1024 * s.fld d .cel 0 0x30 0 6
    (q ≠ k.rxNext → (k.rxNext + 2048 - q) % 2048 ≤ 1024 → ∃ t, exec (.frameReceive d p bs true) s = .next t ∧ s.SameMemory t ∧
      s.SameRegsBut [] t ∧ t.routers = s.routers ∧ (t.port d p).rxNext = k.rxNext ∧ (t.port d p).ackDue = true) ∧
    (q ≠ k.rxNext → 1024 < (k.rxNext + 2048 - q) % 2048 → k.naked = false → ∃ t, exec (.frameReceive d p bs true) s = .next t ∧
      s.SameMemory t ∧ s.SameRegsBut [] t ∧ t.routers = s.routers ∧ (t.port d p).rxNext = k.rxNext ∧ (t.port d p).naked = true ∧
      (t.port d p).ctlq = k.ctlq ++ [{ kind := 2, op := 1, pay := leBytes 2 k.rxNext }]) ∧
    (q = k.rxNext → ¬ room → ∃ t, exec (.frameReceive d p bs true) s = .next t ∧ s.SameMemory t ∧ t.routers = s.routers ∧
      (t.port d p).rxNext = k.rxNext ∧ t.rg d .mac (p % 4) 0x140 = s.rg d .mac (p % 4) 0x140 + 1 ∧ t.StatSet d .mac (p % 4) 13) ∧
    (q = k.rxNext → room → ∃ t, exec (.frameReceive d p bs true) s = .next t ∧ s.SameMemory t ∧
      (t.port d p).rxNext = (k.rxNext + 1) % 2048 ∧ (t.port d p).ackDue = true ∧ (t.port d p).held = k.held ++ [(cls, lines, r)] ∧
      (t.router d).inq = (s.router d).inq ++ [(cls, r)] ∧ t.rg d .mac (p % 4) 0x100 = s.rg d .mac (p % 4) 0x100 + 1)

/-- What a port sends. Link control leaves before all else, up to 32 records in a frame with the present acknowledgement; then a fabric frame of the
class that may start, its records out of the queue, numbered and kept until acknowledged on a DIRECT port; or the host frame of the next transmit
slot, which holds the port until its last bit has left and TX_CONS advances with HOST_TX; a bad transmit descriptor is consumed and counted in
TX_BAD_DESC. A held acknowledgement leaves alone in a frame of 64 bytes (R226, R237, R239, R240, R245, R378). -/
def Obligations.FramesLeave : Prop :=
  ∀ (s : State) (d p : Nat), s.Canonical → s.portLive d p = true →
    let k := s.port d p
    let ack : Option Nat := some ((k.rxNext + 2047) % 2048)
    let cnt (j : Nat) : Nat := regAddr d .mac (p % 4) (0x100 + 8 * j)
    (k.ctlq ≠ [] → (s.portUp d p = true ∨ k.trained = true) → ∃ t, exec (.frameTransmit d p) s = .next t ∧ s.SameMemory t ∧
      t.port d p = { k with ctlq := k.ctlq.drop 32, ackDue := false } ∧
      t.out = OutMsg.frame d p (s.fabFrame d p 7 0 ack (k.ctlq.take 32)) :: s.out ∧ s.SameRegsBut [cnt 2, cnt 3] t ∧
      t.reg (cnt 2) = s.reg (cnt 2) + 1) ∧
    (k.ctlq = [] → s.portUp d p = true → k.txHold = false → ∀ c, s.pickClass d p = some (c, false) →
      let rs := s.nextRecs d p c
      let f := s.fabFrame d p c (if s.direct d p = true then k.hseq else 0) (if s.direct d p = true then ack else none)
        (s.exitRecs d p rs).2
      ∃ t, exec (.frameTransmit d p) s = .next t ∧ OutMsg.frame d p f ∈ t.out ∧ (t.port d p).txq = dropSent c rs k.txq ∧
        (s.direct d p = true → (t.port d p).hseq = (k.hseq + 1) % 2048 ∧ (t.port d p).unacked = k.unacked ++ [f]) ∧
        ((∀ r ∈ rs, recLines r = 0) → s.SameMemory t ∧ f.recs = rs)) ∧
    (k.ctlq = [] → s.portUp d p = true → k.txHold = false → ∀ c a len tc, s.pickClass d p = some (c, true) →
      (s.hostSlot d p = some (a, len, tc, false) → ∃ t, exec (.frameTransmit d p) s = .next t ∧ s.SameMemory t ∧
        t.reg (cnt 15) = s.reg (cnt 15) + 1 ∧
        t.fld d .mac (p % 4) 0x70 48 16 = (s.fld d .mac (p % 4) 0x70 48 16 + 1) % 65536 ∧ t.port d p = k) ∧
      (s.hostSlot d p = some (a, len, tc, true) → ∃ t bad, exec (.frameTransmit d p) s = .next t ∧
        OutMsg.host d p (padTo (max 60 len) (s.bytesFrom a len)) bad ∈ t.out ∧ t.port d p = { k with hostTx := true } ∧
        t.reg (cnt 2) = s.reg (cnt 2) + 1)) ∧
    (k.hostTx = true → ∃ t, exec (.frameTxEnd d p) s = .next t ∧ s.SameMemory t ∧ t.port d p = { k with hostTx := false } ∧
      t.fld d .mac (p % 4) 0x70 48 16 = (s.fld d .mac (p % 4) 0x70 48 16 + 1) % 65536 ∧ t.StatSet d .mac (p % 4) 15) ∧
    (k.hostTx = false → exec (.frameTxEnd d p) s = .next s) ∧
    (s.portUp d p = true → s.direct d p = true → k.ackDue = true → ∃ t, exec (.ackOnlyFrame d p) s = .next t ∧ s.SameMemory t ∧
      t.port d p = { k with ackDue := false } ∧ t.out = OutMsg.frame d p (s.fabFrame d p 7 0 ack []) :: s.out) ∧
    (k.ackDue = false → exec (.ackOnlyFrame d p) s = .next s)

/-- Priority flow control, gates, and the host's queue indices: a received pause holds its class until its time ends, or a time of 0; a port repeats
the pause of each class whose lines are at XON or above; at each entry of the gate list the entry's gates hold, and the list starts over at its end;
RX_CONS and TX_PROD take what the host writes (R241, R243, R245). -/
def Obligations.FlowControlAndQueues : Prop :=
  ∀ (s : State) (d p cls v : Nat), s.Canonical → s.portLive d p = true →
    let k := s.port d p
    let idx := regAddr d .mac (p % 4) 0x70
    (s.portUp d p = true → cls < 8 → ∃ t, exec (.pfcReceive d p cls v) s = .next t ∧ s.SameMemory t ∧
      s.SameRegsBut [regAddr d .mac (p % 4) 0x158] t ∧ t.rg d .mac (p % 4) 0x158 = s.rg d .mac (p % 4) 0x158 + 1 ∧
      t.port d p = { k with paused := k.paused.filter (· ≠ cls) ++ (if v = 0 then [] else [cls]) }) ∧
    (s.portUp d p = true → ∃ t, exec (.pfcRepeat d p) s = .next t ∧ s.SameMemory t ∧ t.ports = s.ports ∧
      t.rg d .mac (p % 4) 0x150 = s.rg d .mac (p % 4) 0x150 +
        wordOf (k.pausing.countP (fun c => decide (s.fld d .mac (p % 4) 0x28 16 16 ≤ k.heldOf c))) ∧
      ∀ c ∈ k.pausing, s.fld d .mac (p % 4) 0x28 16 16 ≤ k.heldOf c → OutMsg.pfc d p c 0xFFFF ∈ t.out) ∧
    (∃ t, exec (.pauseExpiry d p cls) s = .next t ∧ s.SameMemory t ∧ s.SameRegsBut [] t ∧
      t.port d p = { k with paused := k.paused.filter (· ≠ cls) }) ∧
    (s.gateSegs d p = [] → ∃ t, exec (.gateEntry d p) s = .next t ∧ s.SameMemory t ∧ s.SameRegsBut [] t ∧ (t.port d p).gates = 255) ∧
    (∀ x, k.gcl ≠ 0 → (s.gateSegs d p)[k.gcl]? = some x → ∃ t, exec (.gateEntry d p) s = .next t ∧ s.SameMemory t ∧ s.SameRegsBut [] t ∧
      t.port d p = { k with gates := x.2, gcl := (k.gcl + 1) % (s.gateSegs d p).length }) ∧
    (∀ x, k.gcl = 0 → (s.gateSegs d p)[0]? = some x → ∃ t, exec (.gateEntry d p) s = .next t ∧ s.SameMemory t ∧
      s.SameRegsBut [regAddr d .mac (p % 4) 0x160] t ∧ (t.port d p).gates = x.2 ∧
      t.rg d .mac (p % 4) 0x160 = s.rg d .mac (p % 4) 0x160 +
        wordOf (k.heads.countP (fun e => k.gateWait.contains e && !k.gateDone.contains e))) ∧
    (∃ t, exec (.hqRxCons d p v) s = .next t ∧ s.SameMemory t ∧ s.SameRegsBut [idx] t ∧ t.fld d .mac (p % 4) 0x70 16 16 = v % 65536 ∧
      t.fld d .mac (p % 4) 0x70 0 16 = s.fld d .mac (p % 4) 0x70 0 16 ∧ t.fld d .mac (p % 4) 0x70 32 32 = s.fld d .mac (p % 4) 0x70 32 32) ∧
    (∃ t, exec (.hqTxProd d p v) s = .next t ∧ s.SameMemory t ∧ s.SameRegsBut [idx] t ∧ t.fld d .mac (p % 4) 0x70 32 16 = v % 65536 ∧
      t.fld d .mac (p % 4) 0x70 0 32 = s.fld d .mac (p % 4) 0x70 0 32 ∧ t.fld d .mac (p % 4) 0x70 48 16 = s.fld d .mac (p % 4) 0x70 48 16)

/-- A port comes up and loses lanes. With a lane unlocked it stays down; with all locked a SWITCH port is up, and a DIRECT port sends HELLO and is up
once the neighbour's HELLO names the module and port that the torus calls for, and else raises MISCABLED; RETRAIN, and AUTO_RETRAIN on a port that is
down, start training anew. A lost lane moves to the spare where that is free and allowed, or the port goes down with LANE_FAIL; SPARE_REQ holds new
frames, and SPARE_DONE ends the hold; symbol errors beyond the threshold raise LANE_DEGRADED (R233, R234, R235). -/
def Obligations.PortsComeUp : Prop :=
  ∀ (s : State) (d p x y : Nat), s.Canonical → s.portLive d p = true → p < 4 →
    let k := s.port d p
    let hello : FRec := { kind := 2, op := 2, pay := leBytes 3 (s.ownId d + (4 * d + p) * 65536) }
    let req (l : Nat) : FRec := { kind := 2, op := 3, pay := leBytes 1 l }
    let spare := s.fld d .mac p 0x50 0 4
    (s.portUp d p = false → ∃ t, exec (.portBringUp d p x) s = .next t ∧ s.SameMemory t ∧ t.fld d .mac p 0x50 8 9 = x % 512 ∧
      ((∃ l, l < 9 ∧ l ≠ spare ∧ nbit x l = false) → t.port d p = k ∧ t.portUp d p = false) ∧
      ((∀ l, l < 9 → l ≠ spare → nbit x l = true) →
        (s.direct d p = true → t.port d p = { k with trained := true, ctlq := [hello] } ∧ t.portUp d p = false) ∧
        (s.direct d p = false → t.portUp d p = true ∧ t.StatSet d .mac p 12 ∧ (t.port d p).hseq = 0 ∧ (t.port d p).rxNext = 0))) ∧
    (s.portUp d p = false → s.direct d p = true → k.trained = true → x < 4096 → y < 32 →
      (s.miscabled d p x y = false → ∃ t, exec (.hello d p x y) s = .next t ∧ s.SameMemory t ∧ t.portUp d p = true ∧
        t.StatSet d .mac p 12 ∧ (t.port d p).peer = x ∧ (t.port d p).hseq = 0 ∧ (t.port d p).rxNext = 0) ∧
      (s.miscabled d p x y = true → ∃ t, exec (.hello d p x y) s = .next t ∧ s.SameMemory t ∧ t.portUp d p = false ∧
        t.StatSet d .mac p 11 ∧ t.port d p = { k with trained := false })) ∧
    (s.portUp d p = false → ∃ t, exec (.macRetrain d p) s = .next t ∧ s.SameMemory t ∧ s.SameRegsBut [] t ∧
      t.port d p = { k with trained := false } ∧
      (bitOf (s.rg d .mac p 0x20) 5 = true → exec (.portRetrainTimer d p) s = .next t) ∧
      (bitOf (s.rg d .mac p 0x20) 5 = false → exec (.portRetrainTimer d p) s = .next s)) ∧
    (s.portUp d p = true → (∀ q ∈ s.halves d p, (s.port d q).unacked = [] ∧ (s.port d q).txq = []) →
      ∃ t, exec (.macRetrain d p) s = .next t ∧ s.SameMemory t ∧
      t.portUp d p = false ∧ t.StatSet d .fab 0 14) ∧
    (x < 9 → s.portUp d p = true → s.macMode d p = 1 → (s.lanesUsed d p).contains x = true → bitOf (s.rg d .mac p 0x20) 4 = true →
      bitOf (s.rg d .mac p 0x50) 16 = true → x ≠ 8 →
      (s.spareFree d p = true → s.autoSpare 2 = true → ∃ t, exec (.laneLockLoss d p x) s = .next t ∧ s.SameMemory t ∧
        t.fld d .mac p 0x50 (8 + x) 1 = 0 ∧ t.portUp d p = true ∧
        t.port d p = { k with rxMove := some x, ctlq := k.ctlq ++ [req x] }) ∧
      (s.spareFree d p = false → s.autoSpare 2 = true → k.unacked = [] → k.txq = [] → ∃ t, exec (.laneLockLoss d p x) s = .next t ∧
        s.SameMemory t ∧ t.fld d .mac p 0x50 (8 + x) 1 = 0 ∧ t.portUp d p = false ∧ t.StatSet d .mac p 10 ∧ t.StatSet 0 .mod 0 18)) ∧
    (s.spareFree d p = true → s.portUp d p = true → x < 8 → ∃ t, exec (.macSpareIn d p x) s = .next t ∧ s.SameMemory t ∧
      s.SameRegsBut [] t ∧ t.port d p = { k with rxMove := some x, ctlq := k.ctlq ++ [req x] }) ∧
    (s.spareFree d p = false → ∃ t, exec (.macSpareIn d p x) s = .next t ∧ s.SameMemory t ∧ t.ports = s.ports ∧ t.StatSet d .mac p 3) ∧
    (s.portUp d p = true → s.direct d p = true → s.macMode d p = 1 → x < 8 → ∃ t, exec (.spareReq d p x) s = .next t ∧ s.SameMemory t ∧
      t.port d p = { k with txHold := true, ackDue := true } ∧ t.fld d .mac p 0x50 4 4 = x ∧ t.fld d .mac p 0 18 1 = 1) ∧
    (∀ l, s.portUp d p = true → k.rxMove = some l → l < 8 → ∃ t, exec (.pcsRealigned d p) s = .next t ∧ s.SameMemory t ∧
      t.port d p = { k with rxMove := none, ctlq := k.ctlq ++ [{ kind := 2, op := 4 }] } ∧ t.fld d .mac p 0x50 0 4 = l ∧
      t.fld d .mac p 0 17 1 = 1 ∧ t.StatSet d .mac p 9) ∧
    (k.txHold = true → k.unacked = [] → ∃ t, exec (.spareDone d p) s = .next t ∧ s.SameMemory t ∧ s.SameRegsBut [] t ∧
      t.port d p = { k with txHold := false }) ∧
    (k.txHold = false → exec (.spareDone d p) s = .next s) ∧
    (x < 9 → ∃ t, exec (.laneSerWindow d p x y) s = .next t ∧ s.SameMemory t ∧
      t.rg d .mac p (0x180 + 8 * x) = s.rg d .mac p (0x180 + 8 * x) + wordOf y ∧
      (s.fld d .mac p 0x48 0 16 < y → t.StatSet d .mac p 8) ∧ (y ≤ s.fld d .mac p 0x48 0 16 →
        s.SameRegsBut [regAddr d .mac p (0x180 + 8 * x)] t))

/-! ### Reduction -/

/-- A reduction channel. Its next bucket starts with ORD raised by one and BSEQ set, or traps: a bad group, a repeated BSEQ, a work area that does not
serve. A chunk that loads stands in region A. A header line that fails its check, and a word of it that is not a count of this bucket, trap. With one
rank the result is the rank's own data. A bucket whose chunks are all forwarded and answered leaves the channel with its digest entry written and its
step ended; a header word that the channel waits on too long traps (R247, R248, R249, R251, R252, R253, R255, R256, R263). -/
def Obligations.ReductionChannels : Prop :=
  ∀ (s : State) (d c h : Nat) (b : Bucket) (rest : List Bucket) (f : Flight) (env : Env), s.Canonical → s.live d = true → c < 8 → h < 16 →
    (s.chan d c h).accepted = b :: rest → (s.ctx d c).st = .running → s.flight b.fid = some f → f.d = d → f.c = c →
    let g := s.groupAt (s.groupAddr d b.rgroup)
    let j0 : RedJob := ⟨d, c, h, b, { nranks := g.nranks, rank := g.rank }⟩
    let ord := s.chanOrd d c h
    let w := s.workBase d c h
    let dig := s.fld d .fab 0 (rchOff c h + 8) 7 41 * 128 + 128 * (ord % 64)
    ((s.chan d c h).phase = 0 → (∀ n ∈ s.startLines d b j0 g, s.served (128 * n) = true) →
      s.waits ((s.startLines d b j0 g).map (fun n => (0, n))) = [] →
      (∀ k, s.groupCheck g j0 = some k → ∃ t, exec (.bucketStart d c h) s = .next t ∧
        s.TrappedWith d c 0x39 (h + b.rgroup * 256 + k * 65536) (s.groupAddr d b.rgroup) t) ∧
      (s.groupCheck g j0 = none → (s.chan d c h).prev = some (b.bseq, b.gen) → ∃ t, exec (.bucketStart d c h) s = .next t ∧
        s.TrappedWith d c 0x3A (h + 15 * 16 + (ord + 1) % 65536 * 65536) b.bseq t) ∧
      (s.groupCheck g j0 = none → (s.chan d c h).prev ≠ some (b.bseq, b.gen) → s.workBad d c h b.size = true →
        ∃ t, exec (.bucketStart d c h) s = .next t ∧
          s.TrappedWith d c 0x3C (h + b.size * 256) (s.rg d .fab 0 (rchOff c h)).toNat t) ∧
      (s.groupCheck g j0 = none → (s.chan d c h).prev ≠ some (b.bseq, b.gen) → s.workBad d c h b.size = false →
        (sbPoison (s.sideOf (b.src / 128)) = true ∨ (s.line (b.src / 128)).crcOk = true) →
        sbFmt (s.sideOf (b.src / 128)) ∈ [fBS16, fINT32, fINT16] →
        ∃ t, exec (.bucketStart d c h) s = .next t ∧ s.SameMemory t ∧ s.SameRegsBut [regAddr d .fab 0 (rchOff c h + 0x10)] t ∧
          t.chanOrd d c h = (ord + 1) % 65536 ∧ t.fld d .fab 0 (rchOff c h + 0x10) 32 32 = b.bseq % 2 ^ 32 ∧
          (t.chan d c h).phase = 1 ∧ (t.chan d c h).accepted = b :: rest ∧ (t.chan d c h).nranks = g.nranks ∧
          (t.chan d c h).rank = g.rank ∧ (t.chan d c h).fmt = sbFmt (s.sideOf (b.src / 128)))) ∧
    ∀ j, s.redJob d c h = some j →
      (let k := j.ch.loaded
       k < j.n → s.waits ((chunkLines j.ch.fmt b.size b.src k).map (fun n => (0, n)) ++ (j.partLines w k).map (fun n => (1, n))) = [] →
        s.loadBad j k = none → (∀ n ∈ j.partLines w k, s.served (128 * n) = true) →
        ∃ t u, exec (.chunkLoaded d c h env) s = .next t ∧ exec (.channelHeaderUpdate d c h env false) u = .next t ∧
          (u.chan d c h).loaded = k + 1 ∧ s.SameBytesBut (j.partLines w k) u ∧
          (j.blk = false → (∀ i ∈ j.units k, ∀ i' ∈ j.units k, w / 128 + i ≠ b.src / 128 + i') →
            ∀ i ∈ j.units k, u.line (w / 128 + i) = s.line (b.src / 128 + i))) ∧
      (s.waits (s.redAccess j) = [] → s.served (128 * s.hdrLine j) = true →
        (sbPoison (s.sideOf (s.hdrLine j)) = false → (s.line (s.hdrLine j)).crcOk = false →
          ∃ t, exec (.channelHeaderUpdate d c h env false) s = .next t ∧ s.TrappedWith d c 0x3D h (128 * s.hdrLine j) t) ∧
        ((s.line (s.hdrLine j)).crcOk = true → ∀ i, s.hdrBad j = some i → ∃ t, exec (.channelHeaderUpdate d c h env false) s = .next t ∧
          s.TrappedWith d c 0x3A (h + i * 16 + ord * 65536) (s.hdrWord j i) t) ∧
        ((s.line (s.hdrLine j)).crcOk = true → j.ch.nranks = 1 → j.ch.rank = 0 → j.ch.fmt = fINT32 →
          j.ch.fwd = j.ch.res → j.ch.loaded = j.ch.res + 1 → s.badLine (j.partLines w j.ch.res) = none →
          (∀ n ∈ chunkLines fINT32 b.size b.dst j.ch.res, s.served (128 * n) = true) →
          ∃ t, exec (.channelHeaderUpdate d c h env false) s = .next t ∧ (t.chan d c h).fwd = j.ch.res + 1 ∧
            s.SameBytesBut (chunkLines fINT32 b.size b.dst j.ch.res) t ∧
            ∀ i ∈ j.units j.ch.res, ∀ m, m < 128 → t.byte (128 * (b.dst / 128 + i) + m) = s.byte (128 * (w / 128 + i) + m))) ∧
      (j.ch.fwd = j.n → j.ch.wait = 0 → (s.isMem dig = true → s.mustWait 1 (dig / 128) = false) → f.units = [0] →
        (s.hc c).clearing = false → (stSigEn f.ws = true → s.sigInside d f.ws ∧ s.crefBad d (stSigCref f.ws) false = false) →
        ∃ t, exec (.bucketComplete d c h) s = .next t ∧ t.chan d c h = { accepted := rest, prev := some (b.bseq, b.gen) } ∧
          (∀ x ∈ t.flights, x.id ≠ b.fid) ∧ s.SameBytesBut [dig / 128] t ∧
          (128 * 64 ≤ dig → s.isMem dig = true → ∀ i, i < 4 → t.byte (dig + i) = (leBytes 4 b.bseq).getD i 0) ∧
          (f.failed = false → stSigEn f.ws = true → t.reg (sigCounter d c f.ws) = s.reg (sigCounter d c f.ws) + 1)) ∧
      (j.ch.fwd < j.n ∨ j.ch.wait ≠ 0 → exec (.bucketComplete d c h) s = .next s) ∧
      (∀ i, s.fld d .fab 0 0x58 0 16 ≠ 0 → s.waitsOn j i = true → ∃ t, exec (.redTimeout d c h i) s = .next t ∧
        s.TrappedWith d c 0x3B (h + i * 16 + ord * 65536) (s.hdrWord j i) t) ∧
      (∀ i, s.fld d .fab 0 0x58 0 16 = 0 ∨ s.waitsOn j i = false → exec (.redTimeout d c h i) s = .next s)


/-! ### The Aigraic Link -/

/-- The states of a link port: training starts from DOWN on an enabled port, and again by itself with AUTO_RETRAIN; with every lane, or with half of
them where that is allowed, the port sends INIT and aligns; a good INIT of the host takes it UP with the credits it names, a bad one raises PROTOCOL;
RETRAIN leaves UP, and a retrain that fails three times, or DOWN, ends the port: the filter empties and each E line is poisoned (R280, R281, R283,
R284, R296). -/
def Obligations.LinkStates : Prop :=
  ∀ (s : State) (d lanes side cr cs cp : Nat), s.Canonical → s.aglLive d = true → s.NoneStalled →
    let k := s.link d
    let x8 := bitOf (s.rg d .agl 0 0x20) 2
    let slots (w : Nat) : List Byte := [1, 0] ++ leBytes 1 (if d = 0 then 0 else 1) ++ leBytes 1 w ++ leBytes 2 8192 ++ leBytes 2 0 ++ leBytes 2 8192
    let sent (w : Nat) : OutMsg := .flit d { ftype := 3, init := slots w }
    (s.lkState d = lkDown → bitOf (s.rg d .agl 0 0x20) 0 = true → ∃ t, exec (.aglLinkTrain d) s = .next t ∧ s.SameMemory t ∧
      t.links = s.links ∧ t.lkState d = lkTrain ∧
      s.SameRegsBut [regAddr d .agl 0 0x40, regAddr d .agl 0 0, regAddr 0 .mod 0 0x20] t ∧
      (bitOf (s.rg d .agl 0 0x20) 1 = true → exec (.aglAutoRetrain d) s = .next t)) ∧
    (s.lkState d ≠ lkDown ∨ bitOf (s.rg d .agl 0 0x20) 0 = false →
      exec (.aglLinkTrain d) s = .next s ∧ exec (.aglAutoRetrain d) s = .next s) ∧
    (s.lkState d = lkTrain ∨ s.lkState d = lkRetrain →
      (lanes % 65536 = 65535 → ∃ t, exec (.aglLanesTrained d lanes) s = .next t ∧ s.SameMemory t ∧ t.lkState d = lkAlign ∧
        t.fld d .agl 0 0x40 3 2 = 0 ∧ sent 16 ∈ t.out) ∧
      (x8 = true → lanes % 65536 ≠ 65535 → (lanes % 256 = 255 ∨ lanes / 256 % 256 = 255) →
        ∃ t, exec (.aglLanesTrained d lanes) s = .next t ∧ s.SameMemory t ∧ t.lkState d = lkAlign ∧ t.StatSet d .agl 0 10 ∧
          t.fld d .agl 0 0x40 3 2 = (if lanes % 256 = 255 then 1 else 3) ∧ sent 8 ∈ t.out) ∧
      (lanes % 65536 ≠ 65535 → (x8 = false ∨ (lanes % 256 ≠ 255 ∧ lanes / 256 % 256 ≠ 255)) →
        (k.keep = false → ∃ t, exec (.aglLanesTrained d lanes) s = .next t ∧ s.SameMemory t ∧ t.lkState d = lkDown) ∧
        (k.keep = true → k.fails < 2 → ∃ t, exec (.aglLanesTrained d lanes) s = .next t ∧ s.SameMemory t ∧ t.lkState d = lkRetrain ∧
          t.link d = { k with fails := k.fails + 1 }) ∧
        (k.keep = true → 2 ≤ k.fails → k.hreqs = [] → ∃ t, exec (.aglLanesTrained d lanes) s = .next t ∧ t.lkState d = lkDown ∧
          t.StatSet d .agl 0 11))) ∧
    (s.lkState d = lkAlign → k.sendq = [] →
      (side = 0 ∨ cr < 1024 ∨ cs < 1024 ∨ cp < 1024 → ∃ t, exec (.aglInit d 1 side cr cs cp) s = .next t ∧ s.SameMemory t ∧
        t.lkState d = lkAlign ∧ t.StatSet d .agl 0 12) ∧
      (side ≠ 0 → 1024 ≤ cr → 1024 ≤ cs → 1024 ≤ cp → k.keep = false → ∃ t, exec (.aglInit d 1 side cr cs cp) s = .next t ∧
        s.SameMemory t ∧ t.lkState d = lkUp ∧ t.StatSet d .agl 0 15 ∧ t.StatSet d .agl 0 16 ∧ (t.link d).fseq = 0 ∧
        (t.link d).rxNext = 0 ∧ (t.link d).credit = (cr, cs, cp) ∧ (t.link d).unacked = [])) ∧
    (s.lkState d = lkUp → ∃ t, exec (.aglRetrain d) s = .next t ∧ s.SameMemory t ∧ t.lkState d = lkRetrain ∧
      t.rg d .agl 0 0x118 = s.rg d .agl 0 0x118 + 1 ∧ t.StatSet d .agl 0 9 ∧ (t.link d).unacked = k.unacked ∧ (t.link d).fseq = k.fseq) ∧
    (s.lkState d ≠ lkUp → exec (.aglRetrain d) s = .next s) ∧
    (k.hreqs = [] → ∃ t, exec (.aglDown d) s = .next t ∧ t.lkState d = lkDown ∧ t.link d = { nextTag := k.nextTag } ∧
      (∀ a, t.byte a = s.byte a) ∧ (∀ n, t.sideOf n = if (n, true) ∈ k.filter then withBits (s.sideOf n) 56 8 1 else s.sideOf n) ∧
      t.rg d .agl 0 0x148 = s.rg d .agl 0 0x148 + wordOf (k.intrq.length + (k.sendq.filter (fun m => m.opc = 0x15)).length))

/-- Flits: one that fails its check, or comes out of sequence, is discarded with a NAK; one in sequence is accepted, its credit taken, and a request
in it is answered; an acknowledgement releases every flit up to it; a NAK, and a replay timeout, send the unacknowledged flits again, each counted and
logged, and after eight replays the port retrains. An interrupt vector whose block's writes are acknowledged leaves as INTR, or is counted lost on a
port that is DOWN (R282, R283, R284, R292). -/
def Obligations.FlitsAndInterrupts : Prop :=
  (∀ (s : State) (d : Nat) (bs : List Byte), s.Canonical → s.HostReady d → bs.length = 256 →
    let k := s.link d
    let w := leAt bs 0 4
    let ack : Option Nat := some ((k.rxNext + 4095) % 4096)
    let good := (crc32c (bs.take 252)).toNat = leAt bs 252 4 ∧ nbits w 28 4 = 0 ∧ leAt bs 250 2 = 0
    ((crc32c (bs.take 252)).toNat ≠ leAt bs 252 4 ∨ (good ∧ nbits w 25 3 = 0 ∧ nbits w 0 12 ≠ k.rxNext) →
      ∃ t, exec (.flitReceive d bs) s = .next t ∧ s.SameMemory t ∧ t.links = s.links ∧
        t.out = OutMsg.flit d { ftype := 2, fack := ack } :: s.out ∧
        t.rg d .agl 0 0x108 = s.rg d .agl 0 0x108 + 1) ∧
    (good → nbits w 25 3 = 0 → nbits w 0 12 = k.rxNext → nbit w 24 = false → k.partMsg = [] → k.sendq = [] →
      (parseMsgs 300 ((bs.drop 4).take 240) = ([], [], none) → ∃ t, exec (.flitReceive d bs) s = .next t ∧ s.SameMemory t ∧
        (t.link d).rxNext = (k.rxNext + 1) % 4096 ∧
        (t.link d).credit = (k.credit.1 + leAt bs 244 2, k.credit.2.1 + leAt bs 246 2, k.credit.2.2 + leAt bs 248 2)) ∧
      (∀ tag a, parseMsgs 300 ((bs.drop 4).take 240) = ([{ opc := 1, tag := tag, addr := a }], [], none) → a % 128 = 0 →
        s.served a = true → s.mustWait 0 (a / 128) = false → (s.line (a / 128)).crcOk = true →
        sbPoison (s.sideOf (a / 128)) = false → ∃ t, exec (.flitReceive d bs) s = .next t ∧ s.SameMemory t ∧
          t.Sends d { opc := 0x32, tag := tag, pay := payPL (s.line (a / 128)) 0 })) ∧
    (good → nbits w 25 3 = 1 → nbit w 24 = true → k.sendq = [] → ∀ pre f post, k.unacked = pre ++ f :: post →
      f.fseq = nbits w 12 12 → (∀ g ∈ pre, g.fseq ≠ f.fseq) → ∃ t, exec (.flitReceive d bs) s = .next t ∧ s.SameMemory t ∧
        (t.link d).unacked = post ∧ (t.link d).replays = 0)) ∧
  (∀ (s : State) (d fack : Nat), s.Canonical → s.aglLive d = true → s.lkState d = lkUp →
    let k := s.link d
    let again (f : Flit) : OutMsg := .flit d { f with fack := some ((k.rxNext + 4095) % 4096) }
    (k.unacked = [] → exec (.flitReplayTimeout d) s = .next s) ∧
    (k.unacked ≠ [] → k.replays < 8 → ∃ t, exec (.flitReplayTimeout d) s = .next t ∧ s.SameMemory t ∧
      (t.link d).unacked = k.unacked ∧ (t.link d).replays = k.replays + 1 ∧ t.StatSet d .agl 0 8 ∧ (∀ f ∈ k.unacked, again f ∈ t.out) ∧
      t.rg d .agl 0 0x110 = s.rg d .agl 0 0x110 + wordOf k.unacked.length) ∧
    (k.unacked ≠ [] → 8 ≤ k.replays → ∃ t, exec (.flitReplayTimeout d) s = .next t ∧ s.SameMemory t ∧ t.lkState d = lkRetrain) ∧
    ((∀ f ∈ k.unacked, f.fseq ≠ fack) → exec (.aglNak d fack) s = exec (.flitReplayTimeout d) s) ∧
    (k.sendq = [] → ∀ pre f post, k.unacked = pre ++ f :: post → f.fseq = fack → (∀ g ∈ pre, g.fseq ≠ fack) →
      ∃ t, exec (.aglNak d fack) s = .next t ∧ s.SameMemory t ∧ (t.link d).unacked = post ∧ ∀ g ∈ post, again g ∈ t.out)) ∧
  ∀ (s : State) (d v : Nat), s.Canonical → s.aglLive d = true → (s.link d).intrq.find? (fun v => !s.vectorHeld v) = some v →
    (s.lkState d = lkUp → ∃ t, exec (.intr d) s = .next t ∧ s.SameMemory t ∧ (t.link d).intrq = (s.link d).intrq.erase v ∧
      t.Sends d { opc := 0x15, addr := v } ∧ t.rg d .agl 0 0x140 = s.rg d .agl 0 0x140 + 1) ∧
    (s.lkState d = lkDown → ∃ t, exec (.intr d) s = .next t ∧ s.SameMemory t ∧ (t.link d).intrq = (s.link d).intrq.erase v ∧
      t.rg d .agl 0 0x148 = s.rg d .agl 0 0x148 + 1)

/-- What the host asks of a line. A read returns it, poisoned where it is or fails its check, when it is also poisoned where it stands and EXIT_CRC is
raised; RD_SHARED and RD_OWN enter it in the snoop filter. Writes store whole lines, masked bytes or eight bytes, each with a new check value; WR_BACK
stores only what the host held as E, and it and EVICT end the entry; an ATOMIC returns the old word and stores the new one, and disagreeing adders
stop the line's home die. A request that does not fit is answered with its status, and changes nothing (R171, R175, R206, R287, R289, R290, R378,
R379). -/
def Obligations.HostRequests : Prop :=
  ∀ (s : State) (d tag a : Nat) (bs : List Byte) (sb v x y : Word) (mask kind : Nat) (env : Env), s.Canonical → s.HostReady d →
    let n := a / 128
    let l := s.line n
    let read : LMsg := { opc := 0x32, tag := tag, stat := if sbPoison l.sb = true then 3 else 0, poison := sbPoison l.sb, pay := payPL l 0 }
    let done : LMsg := { opc := 0x30, tag := tag }
    let rows : List (Instr × LMsg) := [(.rdOnce d tag a, { opc := 1, tag := tag, addr := a }),
      (.rdShared d tag a, { opc := 2, tag := tag, addr := a }), (.rdOwn d tag a, { opc := 3, tag := tag, addr := a }),
      (.rd8 d tag a, { opc := 4, tag := tag, addr := a }),
      (.wrLine d tag a bs sb, { opc := 5, tag := tag, addr := a, pay := payPL { bytes := bs, sb := sb } 0 }),
      (.wrPart d tag a bs sb mask, { opc := 6, tag := tag, addr := a, pay := payPM { bytes := bs, sb := sb } 0 mask }),
      (.wr8 d tag a v, { opc := 7, tag := tag, addr := a, pay := padTo 16 (leBytes 8 v.toNat) }),
      (.wrBack d tag a bs sb, { opc := 8, tag := tag, addr := a, pay := payPL { bytes := bs, sb := sb } 0 }),
      (.evict d tag a, { opc := 9, tag := tag, addr := a }),
      (.hostAtomic d tag a kind x y env false,
        { opc := 0xA, tag := tag, ak := kind, addr := a, pay := leBytes 8 x.toNat ++ leBytes 8 y.toNat })]
    (∀ r ∈ rows, s.proxyOut d = false → s.hostStatus d r.2 ≠ 0 → ∃ t, exec r.1 s = .next t ∧ s.SameMemory t ∧
      t.Sends d (r.2.answer (s.hostStatus d r.2)) ∧ t.rg d .agl 0 0x128 = s.rg d .agl 0 0x128 + 1) ∧
    (∀ r ∈ rows, s.hostStatus d r.2 = 0 → isRegAddr a = false → s.hostWaits d r.2 = false → s.proxyOut d = false →
      (r.2.opc ≤ 3 → (sbPoison l.sb = true ∨ l.crcOk = true) → ∃ t, exec r.1 s = .next t ∧ s.SameMemory t ∧ t.Sends d read ∧
        (1 < r.2.opc → sbPoison l.sb = false → (t.link d).filter =
          (n, (s.link d).filter.any (fun e => e.1 = n && e.2) || decide (r.2.opc = 3)) :: (s.link d).filter.filter (fun e => e.1 ≠ n))) ∧
      (r.2.opc ≤ 3 → sbPoison l.sb = false → l.crcOk = false → ∃ t, exec r.1 s = .next t ∧ (∀ b, t.byte b = s.byte b) ∧
        t.sideOf n = withBits (s.sideOf n) 56 8 1 ∧ t.StatSet d .saf 0 8 ∧ (t.link d).filter = (s.link d).filter ∧
        t.Sends d { opc := 0x32, tag := tag, stat := 3, poison := true, pay := payPL { l with sb := withBits l.sb 56 8 1 } 0 }) ∧
      (r.2.opc = 4 → sbPoison l.sb = false → l.crcOk = true → ∃ t, exec r.1 s = .next t ∧ s.SameMemory t ∧
        t.Sends d { opc := 0x31, tag := tag, pay := padTo 16 (leBytes 8 (leAt l.bytes (a % 128) 8)) }) ∧
      (r.2.opc = 5 → ∃ t, exec r.1 s = .next t ∧ t.Sends d done ∧
        s.LineWritten n bs (mkSide (crc32c (padTo 128 bs)) (sbVer sb) (sbFmt sb) (sbFlags sb % 4)) t) ∧
      (r.2.opc = 6 → ∃ t, exec r.1 s = .next t ∧ t.Sends d done ∧ s.SameBytesBut [n] t ∧
        (∀ i, i < 128 → t.byte (128 * n + i) = if nbit mask i then (padTo 128 bs).getD i 0 else s.byte (128 * n + i)) ∧
        t.sideOf n = mkSide (crc32c (t.line n).bytes) (sbVer sb) (sbFmt sb) (Nat.lor (sbFlags l.sb) (sbFlags sb % 4))) ∧
      (r.2.opc = 7 → ∃ t, exec r.1 s = .next t ∧ t.Sends d done ∧ (∀ i, i < 8 → t.byte (a + i) = (leBytes 8 v.toNat).getD i 0) ∧
        (∀ b, (b < a ∨ a + 8 ≤ b) → t.byte b = s.byte b) ∧
        t.sideOf n = mkSide (crc32c (t.line n).bytes) (sbVer l.sb) (sbFmt l.sb) (sbFlags l.sb)) ∧
      (r.2.opc = 8 → ∃ t, exec r.1 s = .next t ∧ t.Sends d done ∧ (t.link d).filter = (s.link d).filter.filter (fun e => e.1 ≠ n) ∧
        ((s.link d).filter.contains (n, true) = false → s.SameMemory t) ∧
        ((s.link d).filter.contains (n, true) = true → fmtReserved (sbFmt sb) = false →
          s.LineWritten n bs (mkSide (crc32c (padTo 128 bs)) (sbVer sb) (sbFmt sb) (sbFlags sb % 4)) t)) ∧
      (r.2.opc = 9 → ∃ t, exec r.1 s = .next t ∧ s.SameMemory t ∧ t.Sends d done ∧
        (t.link d).filter = (s.link d).filter.filter (fun e => e.1 ≠ n)) ∧
      (r.2.opc = 0xA → sbPoison l.sb = true → ∃ t, exec r.1 s = .next t ∧ s.SameMemory t ∧ t.Sends d (r.2.answer 3)) ∧
      (r.2.opc = 0xA → sbPoison l.sb = false → l.crcOk = true →
        let old := wordOf (leAt l.bytes (a % 128) 8)
        ∃ t, exec r.1 s = .next t ∧ t.Sends d { opc := 0x31, tag := tag, pay := padTo 16 (leBytes 8 old.toNat) } ∧
          (∀ i, i < 8 → t.byte (a + i) =
            (leBytes 8 (if kind = 0 then old + x else if kind = 1 then x else if old = x then y else old).toNat).getD i 0) ∧
          ∀ b, (b < a ∨ a + 8 ≤ b) → t.byte b = s.byte b) ∧
      (r.2.opc = 0xA → ∃ t, exec (.hostAtomic d tag a kind x y env true) s = .next t ∧ s.SameMemory t ∧
        t.StatSet (homeDie a) .saf 0 11 ∧ (t.die (homeDie a)).stopDue ≠ none))

/-- What the host answers. A response to nothing is late, and counted; one to a snoop ends it, with the returned data of an E line stored first; one
to a module request ends it, and the line that an engine read is stored with the version of R121. A snoop without an answer ends its entry, an E line
poisoned, and a request without one ends with TIMEOUT, each logged (R121, R286, R288, R290, R293, R294). -/
def Obligations.HostAnswers : Prop :=
  ∀ (s : State) (d tag st : Nat) (bs : List Byte) (sb v : Word), s.Canonical → s.HostReady d →
    let k := s.link d
    let late := regAddr d .agl 0 0x120
    let snp (x : Snoop) (t : State) : Prop := (t.link d).snoops = k.snoops.filter (fun z => z.tag ≠ x.tag) ∧
      (t.link d).filter = if x.inv = true then k.filter.filter (fun e => e.1 ≠ x.ln)
        else k.filter.map (fun e => if e.1 = x.ln then (e.1, false) else e)
    (∀ i ∈ [Instr.rsp d tag st, .rsp8 d tag st v, .rspData d tag st bs sb], s.snoopOf d tag = none →
      (∀ q ∈ k.hreqs, q.tag ≠ tag) → ∃ t, exec i s = .next t ∧ s.SameMemory t ∧ s.SameRegsBut [late] t ∧
        t.reg late = s.reg late + 1 ∧ t.link d = k) ∧
    (s.snoopOf d tag = none → ∃ t, exec (.rsp8 d tag st v) s = .next t ∧ s.SameMemory t ∧ s.SameRegsBut [late] t ∧
      t.reg late = s.reg late + 1) ∧
    (∀ x, s.snoopOf d tag = some x → (∃ t, exec (.rsp d tag st) s = .next t ∧ s.SameMemory t ∧ snp x t) ∧
      ((x.excl = false ∨ x.discard = true) → ∃ t, exec (.rspData d tag st bs sb) s = .next t ∧ s.SameMemory t ∧ snp x t) ∧
      (x.excl = true → x.discard = false → fmtReserved (sbFmt sb) = false → ∃ t, exec (.rspData d tag st bs sb) s = .next t ∧
        s.LineWritten x.ln bs (mkSide (crc32c (padTo 128 bs)) (sbVer sb) (sbFmt sb) (sbFlags sb % 4)) t ∧ snp x t) ∧
      ∃ t, exec (.snpTimeout d tag) s = .next t ∧ t.StatSet d .agl 0 14 ∧ (∀ a, t.byte a = s.byte a) ∧
        t.sideOf x.ln = (if x.excl = true then withBits (s.sideOf x.ln) 56 8 1 else s.sideOf x.ln) ∧
        (∀ n, n ≠ x.ln → t.sideOf n = s.sideOf n) ∧ (t.link d).filter = k.filter.filter (fun e => e.1 ≠ x.ln)) ∧
    (s.snoopOf d tag = none → exec (.snpTimeout d tag) s = .next s) ∧
    (s.snoopOf d tag = none → ∀ q, k.hreqs.find? (fun q => q.tag = tag) = some q →
      (∀ c, q.own = .trap c → q.opc ≠ 0x11 → ∃ t, exec (.rsp d tag st) s = .next t ∧ s.SameMemory t ∧ s.SameRegsBut [] t ∧
        (t.link d).hreqs = k.hreqs.filter (fun r => r.tag ≠ tag)) ∧
      (∀ fid i dst f, q.own = .eng fid i (.line dst) → q.opc = 0x11 → s.flight fid = some f → f.failed = false → f.todo = [] →
        s.served dst = true → s.mustWait 1 (dst / 128) = false → s.isKept d (q.la / 128 * 128) = false →
        ∃ t, exec (.rspData d tag 0 bs sb) s = .next t ∧ (t.link d).hreqs = k.hreqs.filter (fun r => r.tag ≠ tag) ∧
          s.LineWritten (dst / 128) bs
            (withBits (mkSide (crc32c (padTo 128 bs)) 0 0 0) 32 16 (verCopy f.ws 0)) t) ∧
      (∀ c, q.own = .trap c → ∃ t, exec (.rspTimeout d tag) s = .next t ∧ s.SameMemory t ∧ t.StatSet d .agl 0 13 ∧
        (t.link d).hreqs = k.hreqs.filter (fun r => r.tag ≠ tag))) ∧
    ((∀ q ∈ k.hreqs, q.tag ≠ tag) → exec (.rspTimeout d tag) s = .next s)


/-! ### Start-up and security -/

/-- Start-up. RST_N falling returns every register to its reset value and holds every die, and the flash stays. The controller's firmware, where a
record passes its checks, takes the module to stage 2 with the plane powered and the boot counted, and else raises BOOT_FAIL; a die is released when
its clock is present and its records pass, and raises BOOT_FAIL or SELFTEST_DIE otherwise; a stage that misses its bound ends in 0xF; with every die,
stack and port ready the module is at stage 6 with READY (R298, R299, R303, R304, R383). -/
def Obligations.StartsUp : Prop :=
  (∀ s : State, s.Canonical →
    (∃ t, exec .rstNFall s = .next t ∧ (∀ a, t.reg a = regReset s.part a) ∧ (∀ d, t.live d = false) ∧ t.modc.rstLow = true ∧
      t.modc.flash = s.modc.flash ∧ t.modc.minSvn = s.modc.minSvn ∧ t.flights = [] ∧ t.pending = s.pending ∧ t.part = s.part) ∧
    (s.modc.good = true → s.modc.rstLow = false → s.stage ≠ 15 → bitOf (s.rg 0 .mod 0 0x20) 4 = false →
      ∃ t, exec .bootStageTimeout s = .next t ∧ s.SameMemory t ∧ t.stage = 15 ∧ t.StatSet 0 .sec 0 8) ∧
    (s.modc.good = false ∨ s.modc.rstLow = true ∨ s.stage = 15 ∨ bitOf (s.rg 0 .mod 0 0x20) 4 = true →
      exec .bootStageTimeout s = .next s) ∧
    (s.allReady = true → s.stage ≠ 15 → ∃ t, exec .moduleReady s = .next t ∧ s.SameMemory t ∧ t.stage = 6 ∧
      t.fld 0 .mod 0 0x20 4 1 = 1 ∧ s.SameRegsBut [regAddr 0 .mod 0 0x20] t ∧ ∀ x ∈ t.modc.pendUpd, x < 65536) ∧
    (s.allReady = false → exec .moduleReady s = .next s)) ∧
  (∀ (s : State) (slot : Nat) (recs : List FlashRec) (mcBad : Bool), s.Canonical → s.modc.pendUpd = [] →
    let m : ModCtl := { s.coreReset.modc with good := true, rstLow := false, slotId := slot % 8, boots := s.modc.boots + 1,
                                              flash := if recs = [] then s.modc.flash else recs }
    ((m.firmware 0x10 255).1 ≠ none → ∃ t, exec (.startUp slot recs mcBad) s = .next t ∧ t.stage = 2 ∧ t.modc.plane = true ∧
      t.modc.boots = s.modc.boots + 1 ∧ t.modc.slotId = slot % 8 ∧ t.modc.flash = m.flash ∧ (∀ d, t.live d = false) ∧
      (mcBad = true → t.StatSet 0 .mod 0 22 ∧ t.modc.stopDue ≠ none)) ∧
    ((m.firmware 0x10 255).1 = none → ∃ t, exec (.startUp slot recs mcBad) s = .next t ∧ t.stage = 0 ∧ t.modc.plane = false ∧
      t.StatSet 0 .sec 0 8)) ∧
  ∀ (s : State) (d : Nat) (dieBad : Bool), s.Canonical → d < s.nd → s.stage = 2 → s.modc.plane = true → (s.die d).up = false →
    s.modc.rstLow = false →
    (∃ t, exec (.dieRelease d false [] dieBad) s = .next t ∧ s.SameMemory t ∧ s.SameRegsBut [] t ∧ t.dies = s.dies ∧
      t.modc.refclk = false) ∧
    ((s.modc.firmware 0x11 d).1 = none → ∃ t, exec (.dieRelease d true [] dieBad) s = .next t ∧ s.SameMemory t ∧
      (t.die d).up = false ∧ t.StatSet d .sec 0 8) ∧
    ((s.modc.firmware 0x11 d).1 ≠ none → (s.modc.pick (s.modc.recs 0x20 d)).1 ≠ none → (s.modc.pick (s.modc.recs 0x12 d)).1 ≠ none →
      (s.modc.field 0x22 d).1 ≠ none → s.modc.failedDies.contains d = false →
      (∃ t, exec (.dieRelease d true [] false) s = .next t ∧ s.SameMemory t ∧ (t.die d).up = true ∧ t.fld d .clk 0 0 16 1 = 1 ∧
        t.fld 0 .mod 0 0x20 (8 + d) 1 = 1) ∧
      ∃ t, exec (.dieRelease d true [] true) s = .next t ∧ s.SameMemory t ∧ (t.die d).up = false ∧ t.StatSet d .saf 0 13 ∧
        (t.die d).stopDue ≠ none)

/-- The security commands. UPDATE stores a record that passes its checks in the slot not in use and marks its type pending; COMMIT raises each minimum
SVN to that of its active slot; ATTEST answers with the length of its report; OWNER_INSTALL puts an owner key or policy in force. Each refuses what
does not pass with the code of Table 17.6, and ends with SEC_RESULT and CMD_DONE or CMD_ERR; one given while another runs is refused (R305, R307,
R309, R310, R311). -/
def Obligations.SecurityCommands : Prop :=
  ∀ (s : State) (r : FlashRec) (nonce sig : List Byte) (wr : Bool), s.Canonical → s.live 0 = true →
    let typ := s.fld 0 .sec 0 0x30 32 16
    let len := s.fld 0 .sec 0 0x30 0 32
    let ends (i : Instr) (op code n : Nat) : Prop := ∃ t, exec i s = .next t ∧ s.SameMemory t ∧
      t.modc.sec = some (op, some (code, n)) ∧ t.modc.flash = s.modc.flash ∧ t.modc.minSvn = s.modc.minSvn ∧
      t.modc.owner = s.modc.owner
    (∀ x, s.modc.sec = some x → ∀ e ∈ [(1, Instr.update (some r) wr), (2, .commit wr), (3, .attest (some nonce) sig wr),
        (4, .ownerInstall (some r) wr)], x ≠ (e.1, none) → ∃ t, exec e.2 s = .next t ∧ s.SameMemory t ∧
      s.SameRegsBut [regAddr 0 .sec 0 0] t ∧ t.modc = s.modc ∧ t.StatSet 0 .sec 0 3) ∧
    (s.modc.sec = none ∨ s.modc.sec = some (1, none) →
      ((typ ≠ 0x10 ∧ typ ≠ 0x11) ∨ len < 128 → ends (.update (some r) wr) 1 1 0) ∧
      ((typ = 0x10 ∨ typ = 0x11) → 128 ≤ len → ends (.update none wr) 1 6 0) ∧
      ((typ = 0x10 ∨ typ = 0x11) → 128 ≤ len → r.typ = typ →
        (∀ c, s.modc.cmdCode r = some c → ends (.update (some r) wr) 1 c 0) ∧
        (s.modc.cmdCode r = none → ends (.update (some r) false) 1 5 0) ∧
        (s.modc.cmdCode r = none → ∃ t, exec (.update (some r) true) s = .next t ∧ s.SameMemory t ∧
          t.modc.sec = some (1, some (0, 0)) ∧ { r with slot := 1 - s.modc.activeSlot typ } ∈ t.modc.flash ∧
          t.modc.pendUpd.contains typ = true ∧
          ∀ x ∈ s.modc.flash, (x.typ ≠ typ ∨ x.die ≠ r.die ∨ x.slot ≠ 1 - s.modc.activeSlot typ) → x ∈ t.modc.flash))) ∧
    (s.modc.sec = none ∨ s.modc.sec = some (2, none) →
      let low (t : Nat) : Prop := smGet 0 s.modc.minSvn t < s.modc.activeSvn t
      (¬ low 0x10 → ¬ low 0x11 → ends (.commit wr) 2 7 0) ∧
      ((low 0x10 ∨ low 0x11) → ends (.commit false) 2 5 0 ∧
        ∃ t, exec (.commit true) s = .next t ∧ s.SameMemory t ∧ t.modc.sec = some (2, some (0, 0)) ∧ t.modc.flash = s.modc.flash ∧
          ∀ x, smGet 0 t.modc.minSvn x = if (x = 0x10 ∨ x = 0x11) ∧ smGet 0 s.modc.minSvn x < s.modc.activeSvn x then s.modc.activeSvn x
            else smGet 0 s.modc.minSvn x)) ∧
    (s.modc.sec = none ∨ s.modc.sec = some (3, none) →
      let n := 512 + 64 * min 128 s.modc.loaded.length
      (s.modc.serial = none → ends (.attest (some nonce) sig wr) 3 7 0) ∧
      (s.modc.serial ≠ none → len < n → ends (.attest (some nonce) sig wr) 3 1 0) ∧
      (s.modc.serial ≠ none → n ≤ len → ends (.attest none sig wr) 3 6 0 ∧ ends (.attest (some nonce) sig true) 3 0 n ∧
        ends (.attest (some nonce) sig false) 3 6 0)) ∧
    (s.modc.sec = none ∨ s.modc.sec = some (4, none) →
      ends (.ownerInstall none wr) 4 6 0 ∧ (r.typ ≠ 2 → r.typ ≠ 3 → ends (.ownerInstall (some r) wr) 4 1 0) ∧
      (r.typ = 2 ∨ r.typ = 3 → (∀ c, s.modc.cmdCode r = some c → ends (.ownerInstall (some r) wr) 4 c 0) ∧
        (s.modc.cmdCode r = none →
          (r.typ = 2 → some r.serial ≠ s.modc.serial → ends (.ownerInstall (some r) wr) 4 4 0) ∧
          (r.typ = 3 → s.modc.owner = none → ends (.ownerInstall (some r) wr) 4 2 0) ∧
          (r.typ = 2 → some r.serial = s.modc.serial → ends (.ownerInstall (some r) false) 4 5 0 ∧
            ∃ t, exec (.ownerInstall (some r) true) s = .next t ∧ s.SameMemory t ∧ t.modc.sec = some (4, some (0, 0)) ∧
              t.modc.owner = some (leAt r.pay 0 32) ∧ { r with slot := 0 } ∈ t.modc.flash ∧ t.StatSet 0 .sec 0 17) ∧
          (r.typ = 3 → s.modc.owner ≠ none → ∃ t, exec (.ownerInstall (some r) true) s = .next t ∧ s.SameMemory t ∧
            t.modc.sec = some (4, some (0, 0)) ∧ t.modc.owner = s.modc.owner ∧ { r with slot := 0 } ∈ t.modc.flash)))) ∧
    (∀ op code n, s.modc.sec = some (op, some (code, n)) → ∃ t, exec .secCommandEnd s = .next t ∧ s.SameMemory t ∧
      s.SameRegsBut [regAddr 0 .sec 0 0, regAddr 0 .sec 0 0x38] t ∧ t.modc = { s.modc with sec := none } ∧
      t.rg 0 .sec 0 0x38 = wordOf (code + n * 2 ^ 32) ∧ t.fld 0 .sec 0 0 16 1 = 0 ∧
      t.StatSet 0 .sec 0 (if code = 0 then 13 else 14)) ∧
    (s.modc.sec = none → exec .secCommandEnd s = .next s)


/-! ### Clocks and time -/

/-- The clock of a cluster. A change to a step between 8 and the maximum starts at once downward, and upward with the rail raised first unless a droop
defers it; during a change the latest request waits; at the restart the step and the rail code are the new ones. A replica slack below MARGIN_WARN
lowers the maximum by one step; a lost oscillator leaves the cluster at step 8; a lost root PLL, or REFCLK, is fatal; a lost SerDes PLL takes its
ports down. Data at a stopped crossing wakes its cluster (R314, R315, R316, R317, R319, R344). -/
def Obligations.ClusterClocks : Prop :=
  (∀ (s : State) (d p n : Nat), s.Canonical → s.clOn d p = true →
    let x := s.ph d p
    let cur := s.stepN d p
    let page := regAddr d .clk 0 (0x10100 + 8 * p)
    (n < 8 ∨ s.fmax d p < n → exec (.freqChangeRequest d p n) s = .next s) ∧
    (8 ≤ n → n ≤ s.fmax d p →
      (x.target ≠ none → ∃ t, exec (.freqChangeRequest d p n) s = .next t ∧ s.SameMemory t ∧ s.SameRegsBut [] t ∧
        t.ph d p = { x with next := some n }) ∧
      (x.target = none → n < cur → ∃ t, exec (.freqChangeRequest d p n) s = .next t ∧ s.SameMemory t ∧ s.SameRegsBut [page] t ∧
        t.clkStopped d p = true ∧ t.ph d p = { x with target := some n, deferred := none }) ∧
      (x.target = none → n = cur → exec (.freqChangeRequest d p n) s = .next s) ∧
      (x.target = none → cur < n → x.deferred ≠ none → ∃ t, exec (.freqChangeRequest d p n) s = .next t ∧ s.SameMemory t ∧
        s.SameRegsBut [] t ∧ t.ph d p = { x with deferred := some n }) ∧
      (x.target = none → cur < n → x.deferred = none → s.droopRecent d p = true → ∃ t, exec (.freqChangeRequest d p n) s = .next t ∧
        s.SameMemory t ∧ t.ph d p = { x with deferred := some n } ∧ t.rg d .clk 0 0x30 = s.rg d .clk 0 0x30 + 1) ∧
      (x.target = none → cur < n → x.deferred = none → s.droopRecent d p = false → ∃ t, exec (.freqChangeRequest d p n) s = .next t ∧
        s.SameMemory t ∧ t.clkStopped d p = true ∧ t.ph d p = { x with target := some n } ∧
        t.fld d .pwr 0 (0x10100 + 8 * p) 0 5 = x.rail (s.vfIndex d p n) % 32)) ∧
    (x.target = none → exec (.freqChangeRestart d p) s = .next s) ∧
    (x.target = some n → x.next = none → ∃ t, exec (.freqChangeRestart d p) s = .next t ∧ s.SameMemory t ∧ t.stepN d p = n % 32 ∧
      t.clkStopped d p = false ∧ t.ph d p = { x with target := none, latched := false } ∧
      t.rg d .clk 0 0x28 = s.rg d .clk 0 0x28 + 1 ∧ t.fld d .pwr 0 (0x10100 + 8 * p) 0 5 = x.rail (s.vfIndex d p n) % 32 ∧
      t.rg d .pwr 0 0x70 = s.rg d .pwr 0 0x70 + (if x.latched = true then 64 else 0)) ∧
    (x.deferred = none → exec (.deferredIncrease d p) s = .next s) ∧
    (x.deferred = some n → s.droopRecent d p = true → ∃ t, exec (.deferredIncrease d p) s = .next t ∧ s.SameMemory t ∧ t.ph d p = x ∧
      t.rg d .clk 0 0x30 = s.rg d .clk 0 0x30 + 1) ∧
    (x.deferred = some n → s.droopRecent d p = false → exec (.deferredIncrease d p) s =
      exec (.freqChangeRequest d p (min n (s.fmax d p))) (s.putPh d p { x with deferred := none })) ∧
    (s.fld d .clk 0 0x20 0 8 ≤ min n 255 → ∃ t, exec (.marginWarn d p n) s = .next t ∧ s.SameMemory t ∧ s.SameRegsBut [page] t ∧
      t.fld d .clk 0 (0x10100 + 8 * p) 16 8 = min n 255 ∧ t.fmax d p = s.fmax d p) ∧
    (min n 255 < s.fld d .clk 0 0x20 0 8 → ∃ t, exec (.marginWarn d p n) s = .next t ∧ s.SameMemory t ∧ t.StatSet d .clk 0 8 ∧
      t.fmax d p = max 8 (s.fmax d p - 1)) ∧
    (∃ t, exec (.oscFallback d p) s = .next t ∧ s.SameMemory t ∧ t.stepN d p = 8 ∧ t.fmax d p = 8 ∧ t.clkStopped d p = false ∧
      t.fld d .clk 0 (0x10100 + 8 * p) 11 1 = 1 ∧ t.StatSet d .clk 0 9 ∧ (t.ph d p).target = none)) ∧
  (∀ (s : State) (d p : Nat), s.Canonical → s.live d = true →
    (∃ t, exec (.pllUnlock d) s = .next t ∧ s.SameMemory t ∧ t.fld d .clk 0 0 16 1 = 0 ∧ t.StatSet d .clk 0 10 ∧
      (t.die d).stopDue ≠ none) ∧
    (s.modc.refclk = true → ∃ t, exec .refLost s = .next t ∧ s.SameMemory t ∧ t.modc.refclk = false ∧
      ∀ e, e < s.nd → s.live e = true → t.StatSet e .clk 0 11 ∧ (t.die e).stopDue ≠ none) ∧
    (s.modc.refclk = false → exec .refLost s = .next s) ∧
    (p < 4 → s.portUp d p = true → (∀ q ∈ s.halves d p, (s.port d q).unacked = [] ∧ (s.port d q).txq = []) →
      ∃ t, exec (.serdesPllUnlock d (2 ^ p) false) s = .next t ∧ s.SameMemory t ∧ t.portUp d p = false ∧ t.StatSet d .fab 0 14) ∧
    (d ∈ s.linkDies → s.lkState d ≠ lkDown → (s.link d).hreqs = [] → ∃ t, exec (.serdesPllUnlock d 0 true) s = .next t ∧
      t.lkState d = lkDown ∧ t.StatSet d .agl 0 11)) ∧
  ∀ (s : State) (d p : Nat), s.Canonical → s.live d = true → p < 52 →
    (s.railSt d p = 1 → (∀ e ∈ (s.die d).onReq, e.1 ≠ p) → ∃ t, exec (.crossingWake d p) s = .next t ∧ s.SameMemory t ∧
      (t.die d).onReq = (s.die d).onReq ++ [(p, 0)] ∧ t.rg d .clk 0 0x40 = s.rg d .clk 0 0x40 + 1) ∧
    (s.railSt d p = 0 → s.clkStopped d p = true → s.part = .t8l → (s.ph d p).target = none →
      ∃ t, exec (.crossingWake d p) s = .next t ∧ s.SameMemory t ∧ t.clkStopped d p = false ∧
        t.rg d .clk 0 0x40 = s.rg d .clk 0 0x40 + 1) ∧
    (s.railSt d p = 0 → s.clkStopped d p = true → s.part ≠ .t8l → (s.die d).heldX.contains p = false →
      ∃ t, exec (.crossingWake d p) s = .next t ∧ s.SameMemory t ∧ s.SameRegsBut [] t ∧ (t.die d).heldX = (s.die d).heldX ++ [p]) ∧
    (s.railSt d p = 0 → s.clkStopped d p = false → exec (.crossingWake d p) s = .next s) ∧
    (s.part = .t8l → exec (.heldCrossingScan d) s = .next s) ∧
    (s.part ≠ .t8l → (s.die d).heldX = [p] → s.railSt d p = 0 → s.clkStopped d p = true →
      ((s.ph d p).target = none → ∃ t, exec (.heldCrossingScan d) s = .next t ∧ s.SameMemory t ∧ (t.die d).heldX = [] ∧
        t.clkStopped d p = false ∧ t.rg d .clk 0 0x40 = s.rg d .clk 0 0x40 + 1) ∧
      ((s.ph d p).target ≠ none → ∃ t, exec (.heldCrossingScan d) s = .next t ∧ s.SameMemory t ∧ s.SameRegsBut [] t ∧
        (t.die d).heldX = [p]))

/-- The time base: a correction up to STEP_LIMIT is slewed, a greater one forward stepped, a greater one backward slewed fast; dies more than 4 ns
from die 0 step to it and raise PKG_SKEW; TIM_OFFSET is refused unless SRC is FREE; a pulse is measured against TIM_PPS_SEC, which advances; the
grandmaster sends time on every port that is up, another module counts the intervals without a sync; what a message measures is kept (R321, R322,
R323, R324, R325, R326). -/
def Obligations.TimeBase : Prop :=
  (∀ (s : State) (d : Nat) (v : Word), s.Canonical → s.live d = true →
    let lim := s.fld 0 .tim 0 0x20 32 16
    (s.timSrc = 0 → ∃ t, exec (.timOffset d v) s = .next t ∧ s.SameMemory t ∧ s.SameRegsBut [] t ∧
      t.die d = if v.toInt.natAbs ≤ lim then { s.die d with slew := v.toInt * 2 ^ 32, fastSlew := false }
        else if 0 < v.toInt then { s.die d with now := (s.die d).now + v.toInt.toNat, slew := 0, fastSlew := false }
        else { s.die d with slew := v.toInt * 2 ^ 32, fastSlew := true }) ∧
    (s.timSrc ≠ 0 → ∃ t, exec (.timOffset d v) s = .next t ∧ s.SameMemory t ∧ s.SameRegsBut [regAddr d .tim 0 0] t ∧
      t.StatSet d .tim 0 3 ∧ t.dies = s.dies) ∧
    ((s.die d).swapReq = [] → exec (.domainTimeCorrect d) s = .next s) ∧
    ((s.die d).swapReq = [regAddr d .clk 0 0x18] → s.sfld d .clk 0 0x20 0 8 ≠ 0 → ∃ t, exec (.domainTimeCorrect d) s = .next t ∧
      s.SameMemory t ∧ (t.die d).swapReq = [] ∧ t.fld d .clk 0 0x20 0 8 = s.sfld d .clk 0 0x20 0 8) ∧
    (d ≠ 0 → s.live 0 = true →
      let skew : Int := (s.die d).now - (s.die 0).now
      (4 < skew.natAbs → ∃ t, exec (.pkgSync d) s = .next t ∧ s.SameMemory t ∧ t.StatSet d .tim 0 9 ∧
        (t.die d).now = (s.die 0).now ∧ (t.die d).frac = (s.die 0).frac ∧ (t.die d).slew = 0) ∧
      (skew.natAbs ≤ 4 → ∃ t, exec (.pkgSync d) s = .next t ∧ s.SameMemory t ∧
        t.die d = { s.die d with slew := -skew * 2 ^ 32, fastSlew := false }))) ∧
  (∀ s : State, s.Canonical → s.live 0 = true →
    let sec := s.fld 0 .tim 0 0x38 0 48
    let err : Int := (s.time 0 : Int) - (sec * 1000000000 : Nat)
    (s.timSrc = 2 → ∃ t, exec .ppsEdge s = .next t ∧ s.SameMemory t ∧ t.rg 0 .tim 0 0x40 = BitVec.ofInt 64 err ∧
      t.fld 0 .tim 0 0x38 0 48 = (sec + 1) % 2 ^ 48 ∧ (t.die 0).missed = 0 ∧
      (t.die 0).goodSync = (if err.natAbs ≤ 50 then (s.die 0).goodSync + 1 else 0)) ∧
    (s.timSrc ≠ 2 → exec .ppsEdge s = .next s) ∧
    (s.timSrc ≠ 0 → s.isGm = true → ∃ t, exec .syncInterval s = .next t ∧ s.SameMemory t ∧ t.fld 0 .tim 0 0 17 1 = 1 ∧
      t.rg 0 .tim 0 0x50 = wordOf s.clockId ∧
      ∀ e p, e < s.nd → p < 8 → s.live e = true → s.portUp e p = true → OutMsg.ptp e p .sync ∈ t.out ∧
        OutMsg.ptp e p (.followUp (s.time 0)) ∈ t.out) ∧
    (s.timSrc = 1 → s.isGm = false → ∃ t, exec .syncInterval s = .next t ∧ s.SameMemory t ∧ t.fld 0 .tim 0 0 17 1 = 0 ∧ t.out = s.out ∧
      t.die 0 = { s.die 0 with missed := (s.die 0).missed + 1 }) ∧
    (s.timSrc = 0 → exec .syncInterval s = .next s) ∧
    (s.timSrc = 2 ∨ (s.timSrc = 1 ∧ 3 ≤ (s.die 0).missed) → ∃ t, exec .syncLost s = .next t ∧ s.SameMemory t ∧ t.StatSet 0 .tim 0 8 ∧
      t.die 0 = { s.die 0 with goodSync := 0, missed := 0 }) ∧
    (s.timSrc = 0 ∨ (s.timSrc = 1 ∧ (s.die 0).missed < 3) → exec .syncLost s = .next s)) ∧
  ∀ (s : State) (d p : Nat), s.Canonical → s.live d = true →
    (s.timSrc ≠ 0 → s.portUp d p = true →
      (∃ t, exec (.ptpMessage d p .pdelayReq) s = .next t ∧ s.SameMemory t ∧ s.SameRegsBut [] t ∧
        t.out = OutMsg.ptp d p (.pdelayResp 0) :: s.out) ∧
      (∃ t, exec (.ptpMessage d p .sync) s = .next t ∧ s.SameMemory t ∧ s.SameRegsBut [] t ∧
        t.die d = { s.die d with syncAt := (s.die d).syncAt.filter (fun e => e.1 ≠ p) ++ [(p, (s.die d).now)] }) ∧
      (∀ v, ∃ t, exec (.ptpMessage d p (.pdelayResp v)) s = .next t ∧ s.SameMemory t ∧ s.SameRegsBut [] t ∧
        t.die d = { s.die d with pdelay := smPut 0 (s.die d).pdelay p v }) ∧
      (∀ a b c i, s.modc.best = none → ∃ t, exec (.ptpMessage d p (.announce a b c i)) s = .next t ∧ s.SameMemory t ∧ s.SameRegsBut [] t ∧
        t.modc.best = some (a, b, c, i)) ∧
      (∀ o t0, (s.die d).syncAt.find? (fun e => e.1 = p) = some (p, t0) → s.isGm = false → s.timSrc = 1 →
        ∃ t, exec (.ptpMessage d p (.followUp o)) s = .next t ∧ s.SameMemory t ∧
          t.rg 0 .tim 0 0x40 = BitVec.ofInt 64 ((t0 : Int) - ((o + smGet 0 (s.die d).pdelay p : Nat) : Int)) ∧
          (t.die d).syncAt = (s.die d).syncAt.filter (fun e => e.1 ≠ p))) ∧
    (∀ m, s.timSrc = 0 ∨ s.portUp d p = false → exec (.ptpMessage d p m) s = .next s)

/-! ### Power -/

/-- Power delivery. An input out of range, the last converter, and a fixed rail out of range are fatal; of a cluster rail the first failed phase is
carried by the spare, the second caps its current, the third switches it off. An empty cluster goes into retention, and comes back when a quadrant's
headroom admits it, or slowly after 20 evaluations; a ramp that ends starts its clock, and data still held there raises CROSS_DROP (R328, R330, R332,
R333, R336, R338, R339). -/
def Obligations.PowerDelivery : Prop :=
  (∀ (s : State) (v i : Nat), s.Canonical → s.fed = true →
    (v < 3600 ∨ 5000 < v → ∃ t, exec (.vinStop v) s = .next t ∧ s.SameMemory t ∧ t.StatSet 0 .mod 0 9 ∧ t.modc.good = false ∧
      t.modc.stopDue ≠ none ∧ t.fld 0 .mod 0 0x28 0 16 = v % 65536) ∧
    (3600 ≤ v → v ≤ 5000 → exec (.vinStop v) s = .next s) ∧
    (i < Part.ibcs s.part → s.fld 0 .mod 0 0x28 (32 + i) 1 = 1 →
      (s.fld 0 .mod 0 0x28 32 4 ≠ 2 ^ i → ∃ t, exec (.ibcFail i) s = .next t ∧ s.SameMemory t ∧ t.StatSet 0 .mod 0 8 ∧
        t.fld 0 .mod 0 0x28 (32 + i) 1 = 0 ∧ t.modc.stopped = s.modc.stopped) ∧
      (s.fld 0 .mod 0 0x28 32 4 = 2 ^ i → ∃ t, exec (.ibcFail i) s = .next t ∧ t.modc.stopped = true ∧ t.modc.plane = false ∧
        t.fld 0 .mod 0 0x28 32 4 = 0))) ∧
  (∀ (s : State) (d p k : Nat), s.Canonical → s.live d = true →
    (52 ≤ p → p ≤ 59 → ∃ t, exec (.railFault d p) s = .next t ∧ s.SameMemory t ∧ t.StatSet d .pwr 0 11 ∧ (t.die d).stopDue ≠ none) ∧
    (p < 52 ∨ 59 < p → exec (.railFault d p) s = .next s) ∧
    (p < 52 → k < 5 → s.railSt d p ≠ 3 → nbit (s.fld d .pwr 0 (0x10100 + 8 * p) 5 5) k = true → s.modc.sw = none →
      let left := popcount (s.fld d .pwr 0 (0x10100 + 8 * p) 5 5) 5 - 1
      (left = 4 → ∃ t, exec (.phaseFail d p k) s = .next t ∧ s.SameMemory t ∧ t.StatSet d .pwr 0 8 ∧
        t.fld d .pwr 0 (0x10100 + 8 * p) (5 + k) 1 = 0 ∧ t.railSt d p = s.railSt d p) ∧
      (left = 3 → ∃ t, exec (.phaseFail d p k) s = .next t ∧ s.SameMemory t ∧ t.StatSet d .pwr 0 9 ∧
        t.fld d .pwr 0 (0x10100 + 8 * p) 12 1 = 1 ∧ t.StatSet 0 .mod 0 18) ∧
      (left < 3 → ∃ t, exec (.phaseFail d p k) s = .next t ∧ t.StatSet d .pwr 0 10 ∧ t.railSt d p = 3)) ∧
    (p < 52 → k < 5 → nbit (s.fld d .pwr 0 (0x10100 + 8 * p) 5 5) k = false → exec (.phaseFail d p k) s = .next s)) ∧
  (∀ (s : State) (d p : Nat) (held : Bool), s.Canonical → s.live d = true → p < 52 →
    (s.railSt d p = 0 → s.fld d .pwr 0 0x20 0 16 ≠ 0 → s.logical d p < 48 → s.clEmpty d (s.logical d p) = true →
      (s.ph d p).target = none → (s.cl d (s.logical d p)).held = false → ∃ t, exec (.retentionEnter d p) s = .next t ∧ s.SameMemory t ∧
        t.railSt d p = 1 ∧ t.clkStopped d p = true ∧ t.rg d .pwr 0 0x48 = s.rg d .pwr 0 0x48 + 1) ∧
    (s.railSt d p ≠ 0 ∨ s.fld d .pwr 0 0x20 0 16 = 0 ∨ s.clEmpty d (s.logical d p) = false → exec (.retentionEnter d p) s = .next s) ∧
    (s.railSt d p = 1 → (∀ e ∈ (s.die d).onReq, e.1 ≠ p) → ∃ t, exec (.powerOnRequest d p) s = .next t ∧ s.SameMemory t ∧
      s.SameRegsBut [] t ∧ (t.die d).onReq = (s.die d).onReq ++ [(p, 0)]) ∧
    (s.railSt d p ≠ 1 → exec (.powerOnRequest d p) s = .next s) ∧
    (s.railSt d p ≠ 2 → exec (.rampDone d p held) s = .next s) ∧
    (s.railSt d p = 2 → ∃ t, exec (.rampDone d p held) s = .next t ∧ t.railSt d p = 0 ∧ t.clkStopped d p = false ∧
      (t.ph d p).slow = false ∧ (held = false → s.SameMemory t) ∧ (held = true → t.StatSet d .clk 0 12 ∧
        ∀ c, s.logical d p < 48 → (s.cl d (s.logical d p)).resident = some c → (s.ctx d c).st = .running → (t.ctx d c).st = .trapped))) ∧
  (∀ (s : State) (d quad amps p n : Nat), s.Canonical → s.live d = true →
    (∀ x, x < 52 → x / 13 = quad → s.railSt d x ≠ 2) → (s.die d).onReq.find? (fun e => e.1 / 13 = quad) = some (p, n) → p < 52 →
    let fits := amps + s.fld d .pwr 0 0x20 16 8 * 100 ≤ 25000
    (fits ∨ 19 ≤ n → ∃ t, exec (.admissionEval d quad amps) s = .next t ∧ s.SameMemory t ∧ t.railSt d p = 2 ∧
      (t.die d).onReq = (s.die d).onReq.filter (fun e => e.1 ≠ p) ∧ ((t.ph d p).slow = true ↔ ¬ fits) ∧
      (¬ fits → t.StatSet d .pwr 0 12)) ∧
    (¬ fits → n < 19 → ∃ t, exec (.admissionEval d quad amps) s = .next t ∧ s.SameMemory t ∧
      (t.die d).onReq = (s.die d).onReq.map (fun e => if e.1 = p then (p, n + 1) else e) ∧
      t.rg d .pwr 0 0x50 = s.rg d .pwr 0 0x50 + (if n = 0 then 1 else 0))) ∧
  ∀ (s : State) (d rail mv tm : Nat), s.Canonical → s.awake d = true → rail < 60 → (rail < 52 → s.railSt d rail < 2) →
    ∃ t, exec (.lowWaterRecord d rail mv tm) s = .next t ∧ s.SameMemory t ∧ s.SameRegsBut [] t ∧
      smGet (0, 0) (t.die d).lowWater (rail * 16 + smGet 0 (s.die d).lwHead rail) = (mv % 4096 + 4096, tm) ∧
      smGet 0 (t.die d).lwHead rail = (smGet 0 (s.die d).lwHead rail + 1) % 16 ∧
      (rail = 52 → mv < 420 → (s.cel d).retained = true → (t.cel d).lost = true)

/-- Power control. Each evaluation notes what every rail draws; a droop stretches the clock, or is latched during a change, and too much stretching
lowers the droop ceiling; a light-load entry tagged too long is excluded, and the die's table is written as a field record. The cap of the module is
the least of its sources, and what no partition was charged is the rest of the input energy; a die's NCAP follows its budget. In the low-power state
every rail of a cluster is dark, and those that were on return (R306, R315, R340, R341, R345, R346, R349, R350, R352, R353, R354, R358). -/
def Obligations.PowerControl : Prop :=
  (∀ (s : State) (d p cycles e : Nat) (sm : PowerSample), s.Canonical → s.live d = true → p < 52 →
    let x := s.ph d p
    (∃ t, exec (.powerEval d sm) s = .next t ∧ (t.ph d p).amps = (sm.amps.getD p 0 :: x.amps).take 10 ∧
      (p < sm.volts.length → t.fld d .pwr 0 (0x10100 + 8 * p) 16 12 = sm.volts.getD p 0 % 4096)) ∧
    (s.railSt d p = 0 →
      (x.target ≠ none → ∃ t, exec (.droopTrip d p) s = .next t ∧ s.SameMemory t ∧
        t.ph d p = { x with droopAt := some s.tick, shuntOk := false, latched := true } ∧
        t.rg d .pwr 0 0x40 = s.rg d .pwr 0 0x40 + 1 ∧ t.rg d .clk 0 0x38 = s.rg d .clk 0 0x38 + 1) ∧
      (x.target = none → s.clkStopped d p = false → x.stretch = false → ∃ t, exec (.droopTrip d p) s = .next t ∧ s.SameMemory t ∧
        t.ph d p = { x with droopAt := some s.tick, shuntOk := false, stretch := true, holdAt := s.tick } ∧
        t.rg d .pwr 0 0x40 = s.rg d .pwr 0 0x40 + 1 ∧ t.rg d .pwr 0 0x68 = s.rg d .pwr 0 0x68 + 1)) ∧
    (x.stretch = false → exec (.stretchHoldEnd d p cycles) s = .next s) ∧
    (x.stretch = true → x.stretched = [] → ∃ t, exec (.stretchHoldEnd d p cycles) s = .next t ∧ s.SameMemory t ∧
      (t.ph d p).stretch = false ∧ t.rg d .pwr 0 0x70 = s.rg d .pwr 0 0x70 + wordOf cycles ∧
      (235 * s.stepN d p < 2 * cycles → (t.ph d p).droopCeil = max 8 (s.stepN d p - 1) ∧ t.StatSet d .pwr 0 19) ∧
      (2 * cycles ≤ 235 * s.stepN d p → (t.ph d p).droopCeil = x.droopCeil)) ∧
    (e < 24 → x.tagged e = true → (∃ u ∈ x.used, u.1 = e) → x.excluded.contains e = false →
      ∃ t, exec (.llExpiry d p e) s = .next t ∧ s.SameMemory t ∧ (t.ph d p).excluded = x.excluded ++ [e] ∧ t.StatSet d .pwr 0 21) ∧
    (x.tagged e = false → exec (.llExpiry d p e) s = .next s) ∧
    (exec (.vfRecordWrite d false) s = .next s) ∧
    (∃ t r, exec (.vfRecordWrite d true) s = .next t ∧ s.SameMemory t ∧ s.SameRegsBut [] t ∧ r ∈ t.modc.flash ∧ r.typ = 0x21 ∧
      r.die = d ∧ r.pay = s.vfPayload d ∧ r.seq = smGet 0 s.modc.curSeq (0x21 * 256 + d) + 1)) ∧
  (∀ (s : State) (sm : CapSample) (v i : Nat), s.Canonical →
    (s.fed = true → ∃ t, exec (.inputSample v i) s = .next t ∧ s.SameMemory t ∧ s.SameRegsBut [regAddr 0 .mod 0 0x28] t ∧
      t.fld 0 .mod 0 0x28 0 16 = v % 65536 ∧ t.modc.vins = (v :: s.modc.vins).take 10 ∧ t.modc.inPj = s.modc.inPj + 100 * v * i) ∧
    (s.fed = true → ∃ t, exec (.capEval sm) s = .next t ∧ s.SameMemory t ∧
      t.fld 0 .mod 0 0x40 0 16 = s.effCap.1 % 65536 ∧ t.fld 0 .mod 0 0x40 16 3 = s.effCap.2 ∧
      (∀ x ∈ s.capSources, s.effCap.1 ≤ x) ∧ s.effCap.1 ∈ s.capSources ∧
      (s.supplyCap < s.part.maxWatts → t.StatSet 0 .mod 0 11) ∧ t.modc.inPj = 0 ∧
      t.rg 0 .mod 0 0x50 = t.rg 0 .mod 0 0x48 - (List.range 32).foldl (fun n k => n + t.rg 0 .mod 0 (0x100 + 8 * k)) 0) ∧
    (s.fed = false → exec (.capEval sm) s = .next s ∧ exec (.inputSample v i) s = .next s)) ∧
  (∀ (s : State) (d watts : Nat), s.Canonical → s.live d = true →
    let b := s.fld d .pwr 0 0x60 0 16
    let n := s.fld d .pwr 0 0x60 16 5
    ∃ t, exec (.dieBudgetEval d watts) s = .next t ∧ s.SameMemory t ∧ t.fld d .pwr 0 0x60 0 16 = b ∧
      t.fld d .pwr 0 0x60 16 5 = max 8 (min 19 (if 12 * b < 10 * watts then n - 2 else if b < watts then n - 1
        else if 100 * watts < 95 * b then n + 1 else n))) ∧
  ∀ s : State, s.Canonical →
    (s.lpReady = false → ∃ t, exec .enterLp s = .next t ∧ s.SameMemory t ∧ s.SameRegsBut [regAddr 0 .mod 0 0] t ∧ t.StatSet 0 .mod 0 3) ∧
    (s.lpReady = true → ∃ t, exec .enterLp s = .next t ∧ t.lowPower = true ∧ t.StatSet 0 .mod 0 10 ∧
      ∀ d p, d < s.nd → s.live d = true → p < 52 → t.railSt d p = 3) ∧
    (s.lowPower = false → exec .exitLp s = .next s) ∧
    (s.lowPower = true → ∃ t, exec .exitLp s = .next t ∧ t.lowPower = false ∧ t.modc.saved = [] ∧
      ∀ d p, d < s.nd → s.awake d = true → p < 52 → s.modc.saved.contains (d * 64 + p) = true →
        t.railSt d p = 0 ∧ t.clkStopped d p = false)

/-- Heat. A conversion enters its sensor's mean of four; where a cluster's temperature crosses a threshold from below it is throttled, held at step 8,
in emergency, or the die is to stop; a pair that differs too long is faulty; the ceiling falls while the cluster stays hot, and rises once it has
cooled. A stack is hot at 100 °C and trips at 105 °C. The tray's readings are kept, and a coolant stop that has not ended in 2 s is fatal (R361, R362,
R363, R364, R365, R366, R369). -/
def Obligations.Heat : Prop :=
  (∀ (s : State) (d i x : Nat), s.Canonical → s.live d = true → i < 114 →
    let mean (n : Nat) : Nat := ((min x 4095 :: smGet [] (s.die d).conv n).take 4).foldl (· + ·) 0 /
      ((min x 4095 :: smGet [] (s.die d).conv n).take 4).length
    let new := max (mean i) (s.fld d .thm 0 (0x100 + 8 * (if i % 2 = 0 then i + 1 else i - 1)) 0 12)
    ∃ t, exec (.sensorConversion d i x) s = .next t ∧ s.SameMemory t ∧ t.fld d .thm 0 (0x100 + 8 * i) 0 12 = mean i ∧
      (i < 104 → s.pairBad d (i / 2) = false → t.temp d (i / 2) = new ∧
        (s.temp d (i / 2) < 760 → 760 ≤ new → t.StatSet d .thm 0 10) ∧
        (s.temp d (i / 2) < 840 → 840 ≤ new → t.StatSet d .thm 0 11 ∧ t.fld d .thm 0 (0x10400 + 8 * (i / 2)) 0 5 = 8) ∧
        (s.temp d (i / 2) < 920 → 920 ≤ new → t.StatSet d .thm 0 12 ∧ t.fld d .thm 0 (0x10400 + 8 * (i / 2)) 5 1 = 1) ∧
        (s.temp d (i / 2) < 1000 → 1000 ≤ new → t.StatSet d .thm 0 13 ∧ (t.die d).stopDue ≠ none))) ∧
  (∀ (s : State) (d p : Nat), s.Canonical → s.live d = true → p < 52 →
    let ceil := s.fld d .thm 0 (0x10400 + 8 * p) 0 5
    (s.pairBad d p = false → 80 < s.pairDiff d p → ∃ t, exec (.pairFault d p) s = .next t ∧ s.SameMemory t ∧ t.pairBad d p = true ∧
      t.StatSet d .thm 0 9) ∧
    (s.pairBad d p = true ∨ s.pairDiff d p ≤ 80 → exec (.pairFault d p) s = .next s) ∧
    (760 ≤ s.temp d p → ∃ t, exec (.throttleStep d p) s = .next t ∧ s.SameMemory t ∧ t.StatSet d .thm 0 10 ∧
      t.fld d .thm 0 (0x10400 + 8 * p) 0 5 = max 8 (min ceil (s.stepN d p - 1))) ∧
    (s.temp d p < 760 → exec (.throttleStep d p) s = .next s) ∧
    (896 ≤ s.temp d p → exec (.thermalUndo d (2 * p)) s = .next s) ∧
    (s.temp d p < 896 → ∃ t, exec (.thermalUndo d (2 * p)) s = .next t ∧ s.SameMemory t ∧
      s.SameRegsBut [regAddr d .thm 0 (0x10400 + 8 * p)] t ∧ t.fld d .thm 0 (0x10400 + 8 * p) 5 1 = 0 ∧
      t.fld d .thm 0 (0x10400 + 8 * p) 0 5 = if s.temp d p < 736 then min 19 (ceil + 1) else ceil)) ∧
  (∀ (s : State) (d k x : Nat), s.Canonical → s.live d = true → k < 2 → x < 256 →
    ∃ t, exec (.hbmTempRead d k x) s = .next t ∧ s.SameMemory t ∧ t.fld d .hbm k 0x30 0 8 = x ∧
      (s.fld d .hbm k 0x30 0 8 < 100 → 100 ≤ x → t.StatSet d .thm 0 14) ∧
      (s.fld d .hbm k 0x30 0 8 < 105 → 105 ≤ x → t.StatSet d .thm 0 15 ∧ (t.die d).stopDue ≠ none)) ∧
  ∀ (s : State) (a b : Int) (f n : Nat), s.Canonical →
    (s.modc.good = true → s.modc.rstLow = false → s.part.air = false → (s.die 0).swapReq = [] →
      ∃ t, exec (.trayRead (some a) (some b) (some f)) s = .next t ∧ s.SameMemory t ∧ t.fld 0 .mod 0 0x58 0 16 = f % 65536 ∧
        t.fld 0 .mod 0 0x58 16 16 = unsignedOf 16 a ∧ t.fld 0 .mod 0 0x58 32 16 = unsignedOf 16 b ∧
        t.modc.flows = (f % 65536 :: s.modc.flows).take 100 ∧ t.modc.outs = (b :: s.modc.outs).take 10 ∧ t.modc.noAns = (0, 0, 0)) ∧
    (s.modc.good = true → s.modc.rstLow = false → s.part.air = false → (s.die 0).swapReq = [] → s.modc.noAns.2.2 = 2 →
      ∃ t, exec (.trayRead (some a) (some b) none) s = .next t ∧ s.SameMemory t ∧ t.StatSet 0 .mod 0 15 ∧ t.missing 2 = true) ∧
    (s.modc.good = false ∨ s.modc.rstLow = true → exec (.trayRead (some a) (some b) (some f)) s = .next s) ∧
    (s.modc.coolStop = some n → 2000 ≤ n → ∃ t, exec .coolantShutdown s = .next t ∧ s.SameMemory t ∧ t.StatSet 0 .mod 0 14 ∧
      t.modc.stopDue ≠ none) ∧
    ((∀ n, s.modc.coolStop = some n → n < 2000) → exec .coolantShutdown s = .next s)

/-! ### Faults, stops and clears -/

/-- Stops and clears. A pin that reads high while it is driven low raises ERRN_STUCK; a fatal cause that waits stops its die in order, with the record
of the cause and the time, every context halted, the die's steps gone, its clusters dark and its memory lost, or stops the module and switches the
converters off; a bridge resends a rejected flit, and the eighth rejection of a resend is fatal for both dies; ones written to a status register clear
the cause bits that no rule holds, and the class bits that no cause holds any more (R371, R374, R384, R385, R387, R405). -/
def Obligations.StopsAndClears : Prop :=
  (∀ s : State, s.Canonical →
    (s.errnLow = false → exec .errnStuck s = .next s) ∧
    (s.errnLow = true → ∃ t, exec .errnStuck s = .next t ∧ s.SameMemory t ∧ s.SameRegsBut [regAddr 0 .mod 0 0, regAddr 0 .mod 0 0x10] t ∧
      t.StatSet 0 .mod 0 16 ∧ t.StatSet 0 .mod 0 2 ∧ t.errnStuck = true ∧ t.modc.stopDue ≠ none) ∧
    (s.modc.stopDue = none ∨ s.modc.stopped = true → exec .moduleStop s = .next s) ∧
    (s.modc.stopDue ≠ none → s.modc.stopped = false → ∃ t, exec .moduleStop s = .next t ∧ t.modc.stopped = true ∧
      t.modc.plane = false ∧ t.modc.stopDue = none ∧ t.fld 0 .mod 0 0x28 32 4 = 0 ∧
      ∀ d, s.awake d = true → (t.die d).stopped = true)) ∧
  (∀ (s : State) (d bit : Nat) (b : Blk), s.Canonical →
    (s.awake d = false ∨ (s.die d).stopDue ≠ some (b, bit) → exec (.dieStop d b bit) s = .next s) ∧
    (s.awake d = true → (s.die d).stopDue = some (b, bit) → ∃ t, exec (.dieStop d b bit) s = .next t ∧
      (t.die d).stopped = true ∧ (t.die d).stopDue = none ∧ t.fld d .saf 0 0 16 1 = 1 ∧ t.StatSet d .saf 0 14 ∧
      t.rg d .saf 0 0x28 = wordOf (b.pos + bit * 256 + 8192) ∧ t.rg d .saf 0 0x30 = wordOf (s.time d) ∧
      (∀ e c, e < s.nd → c < 8 → (t.ctx e c).st ≠ .running) ∧ (∀ f ∈ t.flights, f.d ≠ d) ∧
      (∀ p, p < 52 → t.railSt d p = 3) ∧ ∀ a, d * hbmSlice ≤ a → a < (d + 1) * hbmSlice → t.byte a = 0)) ∧
  (∀ (s : State) (d peer n : Nat), s.Canonical →
    (s.live d = false ∨ s.live peer = false ∨ d = peer → exec (.bridgeFlitReject d peer n) s = .next s) ∧
    (s.live d = true → s.live peer = true → d ≠ peer →
      (n < 8 → ∃ t, exec (.bridgeFlitReject d peer n) s = .next t ∧ s.SameMemory t ∧ t.StatSet d .trl 0 8 ∧
        t.rg d .trl 0 0x20 = s.rg d .trl 0 0x20 + 1 ∧ t.out = .bridge d peer :: s.out ∧
        s.SameRegsBut [regAddr d .trl 0 0, regAddr d .trl 0 0x10, regAddr d .trl 0 0x20] t) ∧
      (8 ≤ n → ∃ t, exec (.bridgeFlitReject d peer n) s = .next t ∧ s.SameMemory t ∧ t.StatSet d .trl 0 9 ∧ t.StatSet peer .trl 0 9 ∧
        (t.die d).stopDue ≠ none ∧ (t.die peer).stopDue ≠ none))) ∧
  ∀ (s : State) (d i : Nat) (b : Blk) (v : Word), s.Canonical →
    (s.hasInst d b i = false ∨ s.regsUp d b = false → exec (.statusClear d b i v) s = .next s) ∧
    (s.hasInst d b i = true → s.regsUp d b = true → ∃ t, exec (.statusClear d b i v) s = .next t ∧ s.SameMemory t ∧
      s.SameRegsBut [regAddr d b i 0] t ∧
      let old := s.rg d b i 0
      let new := t.rg d b i 0
      (∀ k, 8 ≤ k → k < 64 → bitOf new k = (bitOf old k && !(bitOf v k && bitOf (causeMask b) k && !bitOf (s.stuckBits d b) k))) ∧
      bitOf new 3 = (bitOf old 3 && !bitOf v 3) ∧
      ∀ k, k < 3 → bitOf new k = (bitOf old k && !(bitOf v k && !bitOf (s.stuckBits d b) k && !s.holdsClass d b i new k)))

/-! ### Spares -/

/-- Spare commands. CL_IN and TEST_CL start the switch-in of the lowest free spare; BANK_IN notes the copy of a bank; LANE_IN moves a lane to the
spare; RETIRE takes a unit from the pool. A target that does not exist ends with code 1, no spare with code 2; a command given while a switch-in or a
test runs is refused with CONFIG_BUSY (R16, R182, R194, R234, R389, R394, R395). -/
def Obligations.SpareCommands : Prop :=
  ∀ (s : State) (d x k pc lane : Nat), s.Canonical →
    let done (code : Nat) (t : State) : Prop := t.rg 0 .mod 0 0x88 = wordOf (2 + code * 256)
    let all := [Instr.clIn d x, .testCl d x, .bankIn d x, .laneIn d x lane, .spareRetire d k pc x]
    (s.mcUp = false → ∀ i ∈ all, exec i s = .next s) ∧
    (s.mcUp = true → s.switchBusy = true → ∀ i ∈ all, ∃ t, exec i s = .next t ∧ s.SameMemory t ∧ s.SameRegsBut [regAddr 0 .mod 0 0] t ∧
      t.StatSet 0 .mod 0 3 ∧ t.modc = s.modc) ∧
    (s.mcUp = true → s.switchBusy = false → s.modc.due = [] →
      (∀ e ∈ [(Instr.clIn d x, false), (.testCl d x, true)],
        (s.live d = false ∨ 48 ≤ x ∨ s.serving d x = none → ∃ t, exec e.1 s = .next t ∧ s.SameMemory t ∧
          s.SameRegsBut [regAddr 0 .mod 0 0x88] t ∧ done 1 t) ∧
        ∀ p, s.live d = true → x < 48 → s.serving d x = some p →
          (s.freeSpare d = none → ∃ t, exec e.1 s = .next t ∧ s.SameMemory t ∧ s.SameRegsBut [regAddr 0 .mod 0 0x88] t ∧ done 2 t) ∧
          ∀ n, s.freeSpare d = some n → ∃ t, exec e.1 s = .next t ∧ s.SameMemory t ∧ t.modc.sw = some (d, x, p, n, 0, e.2) ∧
            t.fld 0 .mod 0 0x88 0 1 = 1 ∧ t.railSt d n = 2 ∧ t.stepN d n = min (s.stepN d p) (s.fmax d n) % 32) ∧
      (s.live d = false ∨ 1024 ≤ x → ∃ t, exec (.bankIn d x) s = .next t ∧ s.SameMemory t ∧ done 1 t) ∧
      (s.live d = true → x < 1024 →
        ((∀ n, n < 32 → s.fld d .cel 0 (spareOff n) 0 1 = 1) → ∃ t, exec (.bankIn d x) s = .next t ∧ s.SameMemory t ∧ done 2 t) ∧
        ∀ n, (List.range 32).find? (fun n => s.fld d .cel 0 (spareOff n) 0 1 = 0) = some n →
          (s.celBusy d = true → ∃ t, exec (.bankIn d x) s = .next t ∧ s.SameMemory t ∧ t.StatSet d .cel 0 3 ∧ t.cels = s.cels ∧ done 1 t) ∧
          (s.celBusy d = false → (∀ m, m < 32 → s.fld d .cel 0 (spareOff m) 0 1 = 1 → s.fld d .cel 0 (spareOff m) 1 10 ≠ x) →
            ∃ t, exec (.bankIn d x) s = .next t ∧ s.SameMemory t ∧ (t.cel d).spare = some (x, n) ∧ t.StatSet 0 .mod 0 21 ∧ done 4 t)) ∧
      (s.live d = false ∨ 4 ≤ x ∨ 8 ≤ lane → ∃ t, exec (.laneIn d x lane) s = .next t ∧ s.SameMemory t ∧ done 1 t) ∧
      (s.live d = true → x < 4 → lane < 8 →
        (s.spareFree d x = true → s.portUp d x = true → ∃ t, exec (.laneIn d x lane) s = .next t ∧ s.SameMemory t ∧
          (t.port d x).rxMove = some lane ∧ done 0 t) ∧
        (s.spareFree d x = false → ∃ t, exec (.laneIn d x lane) s = .next t ∧ s.SameMemory t ∧ t.ports = s.ports ∧ t.StatSet d .mac x 3 ∧
          done 2 t)) ∧
      (s.hbmLive d k = false ∨ 15104 ≤ x → ∃ t, exec (.spareRetire d k pc x) s = .next t ∧ s.SameMemory t ∧ done 1 t) ∧
      (s.hbmLive d k = true → x < 15104 → (s.hbm d k).cmd = none →
        ((s.hbm d k).freeUnits (pc % 64) = 0 → ∃ t, exec (.spareRetire d k pc x) s = .next t ∧ s.SameMemory t ∧ t.StatSet d .hbm k 16 ∧
          t.hbms = s.hbms ∧ done 2 t) ∧
        ((s.hbm d k).freeUnits (pc % 64) ≠ 0 → ∃ t n, exec (.spareRetire d k pc x) s = .next t ∧ s.SameMemory t ∧
          (s.hbm d k).poolFree (pc % 64) n = true ∧ (∀ m, m < n → (s.hbm d k).poolFree (pc % 64) m = false) ∧
          (t.hbm d k).cmd = some (.retire (pc % 64) x n) ∧ done 0 t)))

/-- The switch-in of a cluster: a spare that powered on and fails its test is retired with SELFTEST_CL, one that passes lets no further step to the
logical cluster; once the old cluster is empty, or at once where it went dark, the logical cluster moves and the old one is dark, retired, or tested
where that was asked; the pattern test makes it a spare or retires it. A die's REPAIR record is written, and a write that fails is marked for one
retry (R390, R391, R393, R394). -/
def Obligations.SwitchIn : Prop :=
  (∀ (s : State) (d l p k : Nat) (test : Bool), s.Canonical → d < 8 → l < 48 → p < 52 → k < 52 → p ≠ k →
    (s.modc.sw = some (d, l, p, k, 0, test) →
      (s.live d = false ∨ s.railSt d k ≠ 0 → ∀ bad, exec (.clusterSwitchHold bad) s = .next s) ∧
      (s.live d = true → s.railSt d k = 0 →
        (∃ t, exec (.clusterSwitchHold false) s = .next t ∧ s.SameMemory t ∧ s.SameRegsBut [] t ∧ t.modc.sw = some (d, l, p, k, 1, test) ∧
          (t.cl d l).held = true) ∧
        ∃ t, exec (.clusterSwitchHold true) s = .next t ∧ s.SameMemory t ∧ t.StatSet d .saf 0 12 ∧ t.StatSet 0 .mod 0 20 ∧
          (t.ph d k).retired = true ∧ t.railSt d k = 3) ∧
      exec .clusterSwitchCopy s = .next s) ∧
    (s.modc.sw = some (d, l, p, k, 1, test) → s.modc.due = [] →
      (∀ bad, exec (.clusterSwitchHold bad) s = .next s) ∧
      (s.live d = false ∨ (s.railSt d p ≠ 3 ∧ (s.clEmpty d l = false ∨ (s.cl d l).preload ≠ none)) →
        exec .clusterSwitchCopy s = .next s) ∧
      (s.live d = true → s.railSt d p = 3 ∨ (s.clEmpty d l = true ∧ (s.cl d l).preload = none) →
        ∃ t, exec .clusterSwitchCopy s = .next t ∧ s.SameMemory t ∧ t.logical d k = l ∧ t.logical d p = 0x3F ∧ t.railSt d p = 3 ∧
          t.StatSet 0 .mod 0 17 ∧ (t.cl d l).held = false ∧ (t.ph d p).retired = !test ∧ t.modc.sw = none ∧
          (s.railSt d p = 3 → (t.cl d l).arr = [] ∧ t.reg (regAddr d .mma l 0x20) = regReset s.part (regAddr d .mma l 0x20)) ∧
          (s.railSt d p ≠ 3 → (t.cl d l).arr = (s.cl d l).arr) ∧
          (test = true → t.modc.test = some (d, p)) ∧
          (test = false → t.modc.test = none ∧ t.rg 0 .mod 0 0x88 = 2))) ∧
    (s.modc.test = some (d, p) → s.modc.due = [] → ∀ bad : Bool, ∃ t, exec (.patternTestEnd bad) s = .next t ∧ s.SameMemory t ∧
      s.SameRegsBut [regAddr 0 .mod 0 0x88] t ∧ (t.ph d p).retired = bad ∧ t.modc.test = none ∧
      t.rg 0 .mod 0 0x88 = wordOf (2 + (if bad then 3 else 0) * 256))) ∧
  ∀ (s : State) (d : Nat) (wr bad : Bool), s.Canonical →
    (s.modc.sw = none → exec (.clusterSwitchHold bad) s = .next s ∧ exec .clusterSwitchCopy s = .next s) ∧
    (s.modc.test = none → exec (.patternTestEnd bad) s = .next s) ∧
    ∀ e ∈ [(Instr.repairRecordWrite d wr, false), (.repairRetry d wr, true)],
      (s.mcUp = false ∨ s.modc.repair.contains (d, e.2) = false → exec e.1 s = .next s) ∧
      (s.mcUp = true → s.modc.repair.contains (d, e.2) = true →
        (wr = true → ∃ t r, exec e.1 s = .next t ∧ s.SameMemory t ∧ s.SameRegsBut [] t ∧ r ∈ t.modc.flash ∧ r.typ = 0x22 ∧ r.die = d ∧
          r.pay = s.repairPayload d ∧ t.modc.repair = s.modc.repair.filter (fun y => y ≠ (d, e.2))) ∧
        (wr = false → e.2 = true → exec e.1 s = .next s) ∧
        (wr = false → e.2 = false → ∃ t, exec e.1 s = .next t ∧ s.SameMemory t ∧ t.modc.repair.contains (d, true) = true ∧
          t.modc.repair.contains (d, false) = false ∧ t.modc.flash = s.modc.flash ∧ t.StatSet 0 .mod 0 19))

/-! ### Registers and the management bus -/

/-- Swaps. A request marks its block, and for SEQ makes the control field active at once; at the quiescent point the fields with a shadow take the
shadow's values and nothing else changes; a set that the block calls unswappable is not taken and sets CONFIG_BUSY; the fields of a context of SEQ
follow when the context does not run (R115, R117, R163, R402). -/
def Obligations.RegisterSwaps : Prop :=
  ∀ (s : State) (d i : Nat) (b : Blk), s.Canonical →
    let took (a : Nat) : Word := (s.reg a &&& ~~~ (defAt s.part a).rws) ||| (s.shad a &&& (defAt s.part a).rws)
    let mark := swapMark d b i
    (s.hasInst d b i = false ∨ (b ≠ .mod ∧ s.live d = false) → exec (.swapRequest d b i) s = .next s) ∧
    (s.hasInst d b i = true → (b = .mod ∨ s.live d = true) → (b = .agl → s.linkDies.contains d = true) →
      (byCluster b = true → s.modc.absent.contains (d * 64 + i) = false) →
      (hasShadow b = false → exec (.swapRequest d b i) s = .next s) ∧
      (hasShadow b = true → b ≠ .seq → ∃ t, exec (.swapRequest d b i) s = .next t ∧ s.SameMemory t ∧ s.SameRegsBut [] t ∧ s.SameShadow t ∧
        mark ∈ (t.die d).swapReq ∧ ∀ a ∈ (s.die d).swapReq, a ∈ (t.die d).swapReq) ∧
      (b = .seq → ∃ t, exec (.swapRequest d b i) s = .next t ∧ s.SameMemory t ∧ s.SameRegsBut [regAddr d .seq 0 0x20] t ∧
        t.reg (regAddr d .seq 0 0x20) = took (regAddr d .seq 0 0x20) ∧ ∀ c, c < 8 → ∀ a ∈ seqMarks d c, a ∈ (t.die d).swapReq)) ∧
    (s.swapLive d b i = false → exec (.blockSwap d b i) s = .next s) ∧
    (s.swapLive d b i = true → b ≠ .seq → b ≠ .agl → (s.die d).swapReq.contains mark = false ∨ s.quiescent d b i = false →
      exec (.blockSwap d b i) s = .next s) ∧
    (s.swapLive d b i = true → b ∉ [Blk.seq, .cel, .mac, .agl] → (s.die d).swapReq.contains mark = true → s.quiescent d b i = true →
      (s.unswappable d b i = false → ∃ t, exec (.blockSwap d b i) s = .next t ∧ s.SameMemory t ∧ s.SameShadow t ∧
        (∀ a, inBlock d b i a = true → t.reg a = took a) ∧ (∀ a, inBlock d b i a = false → t.reg a = s.reg a) ∧
        (t.die d).swapReq = (s.die d).swapReq.filter (fun a => a ≠ mark)) ∧
      (s.unswappable d b i = true → ∃ t, exec (.blockSwap d b i) s = .next t ∧ s.SameMemory t ∧ s.SameRegsBut [regAddr d b i 0] t ∧
        t.StatSet d b i 3 ∧ (t.die d).swapReq = (s.die d).swapReq.filter (fun a => a ≠ mark))) ∧
    (s.swapLive d .seq 0 = true → ∃ t, exec (.blockSwap d .seq 0) s = .next t ∧ s.SameMemory t ∧ s.SameShadow t ∧ ∀ c, c < 8 →
      ((s.die d).swapReq.contains (regAddr d .seq 0 (0x100 + 0x40 * c)) = true → (s.ctx d c).st ≠ .running →
        (∀ a ∈ seqCtxRegs d c, t.reg a = took a) ∧ regAddr d .seq 0 (0x100 + 0x40 * c) ∉ (t.die d).swapReq) ∧
      ((s.die d).swapReq.contains (regAddr d .seq 0 (0x100 + 0x40 * c)) = false ∨ (s.ctx d c).st = .running →
        ∀ a ∈ seqCtxRegs d c, t.reg a = s.reg a))

/-- Register writes. An address that is no register, a reserved one, and one of a block held in reset change nothing; a mask is taken at once and a
cause that it uncovers sends the block's vector; RW and LIVE fields are taken at once and RWS fields in the shadow set, but not while a preload locks
the cluster; the test registers arm one error (R10, R115, R161, R163, R164, R398). -/
def Obligations.RegisterWrites : Prop :=
  (∀ (s : State) (d i : Nat) (b : Blk) (v : Word), s.Canonical →
    (s.hasInst d b i = false ∨ (b ≠ .mod ∧ s.live d = false) → exec (.interruptMaskWrite d b i v) s = .next s) ∧
    (s.hasInst d b i = true → (b = .mod ∨ s.live d = true) → (b = .agl → s.linkDies.contains d = true) →
      (byCluster b = true → s.modc.absent.contains (d * 64 + i) = false) → ∃ t, exec (.interruptMaskWrite d b i v) s = .next t ∧ s.SameMemory t ∧
        s.SameRegsBut [regAddr d b i 8] t ∧ t.rg d b i 8 = v &&& imaskMask b ∧
        (s.rg d b i 8 &&& ~~~ (v &&& imaskMask b) &&& s.rg d b i 0 &&& causeMask b = 0 → t.links = s.links) ∧
        (s.rg d b i 8 &&& ~~~ (v &&& imaskMask b) &&& s.rg d b i 0 &&& causeMask b ≠ 0 →
          (t.link (s.portDie d)).intrq = (s.link (s.portDie d)).intrq ++ [vectorOf d b i]))) ∧
  (∀ (s : State) (a : Nat) (v : Word), s.Canonical →
    (isRegWord a = false → exec (.registerWrite a v) s = .next s) ∧
    (isRegWord a = true →
      (s.regAt a = .absent ∨ s.regAt a = .reserved ∨ (∃ l r, s.regAt a = .held l r) → exec (.registerWrite a v) s = .next s) ∧
      (∀ l r, s.regAt a = .still l r → l.f ≠ 0 → l.f ≠ 0x10 → exec (.registerWrite a v) s = .next s) ∧
      ∀ l r, s.regAt a = .live l r → 0x20 ≤ l.f → l.b ∈ [Blk.trl, .cvu, .srg, .clk, .pwr, .thm, .eng] →
        let x := regAddr l.d l.b l.i l.f
        let m := r.rw ||| r.live
        (r.rws ≠ 0 → s.preloadLocked l.d l.b l.i = true → ∃ t, exec (.registerWrite a v) s = .next t ∧ s.SameMemory t ∧
          s.SameRegsBut [regAddr l.d l.b l.i 0] t ∧ s.SameShadow t ∧ t.StatSet l.d l.b l.i 3) ∧
        (r.rws = 0 ∨ s.preloadLocked l.d l.b l.i = false → ∃ t, exec (.registerWrite a v) s = .next t ∧ s.SameMemory t ∧
          s.SameRegsBut [x] t ∧ t.reg x = (s.reg x &&& ~~~ m) ||| (v &&& m) ∧
          t.shad x = (s.shad x &&& ~~~ r.rws) ||| (v &&& r.rws) ∧ ∀ y, y ≠ x → t.shad y = s.shad y))) ∧
  ∀ (s : State) (d l x : Nat), s.Canonical →
    (s.live d = false → exec (.injectExitCrc d x) s = .next s ∧ exec (.injectResidue d l x) s = .next s) ∧
    (s.live d = true → x < 8 →
      (l < 48 → s.modc.absent.contains (d * 64 + l) = false → ∃ t, exec (.injectResidue d l x) s = .next t ∧ s.SameMemory t ∧
        s.SameRegsBut [] t ∧ (smGet {} (t.cl d l).arr (x % 4)).inject = true ∧
        ∀ k, k ≠ x % 4 → smGet {} (t.cl d l).arr k = smGet {} (s.cl d l).arr k) ∧
      (x < 5 → ∃ t, exec (.injectExitCrc d x) s = .next t ∧ s.SameMemory t ∧ s.SameRegsBut [] t ∧ (t.die d).exitInj.contains x = true) ∧
      (5 ≤ x → exec (.injectExitCrc d x) s = .next s))

/-- The management bus. A private write of 15 bytes does what the register's write does and leaves its status; one of seven bytes names the register
that the next private read returns; any other length is REFUSED; a read of nine bytes returns the status and the data that wait, and empties them. Of
the common commands the module takes the address, gives its identity and its status, and ignores the rest (R400, R412). -/
def Obligations.ManagementBus : Prop :=
  ∀ (s : State) (bs : List Byte) (len x : Nat), s.Canonical →
    (s.busUp = false → exec (.i3cWrite bs) s = .next s ∧ exec (.i3cRead bs len) s = .next s ∧ ∀ cmd, exec (.commonCommand cmd) s = .next s) ∧
    (s.busUp = true →
      let a := leAt bs 1 6
      (bs.length = 15 → leAt bs 0 1 = 1 → isRegWord a = true → s.regWaits a = none →
        ∃ t u, exec (.registerWrite a (wordOf (leAt bs 7 8))) s = .next u ∧ exec (.i3cWrite bs) s = .next t ∧
          t = { u with modc := { u.modc with i3cAns := some ((s.regWrite a (wordOf (leAt bs 7 8))).2, Config.i3cData u.free) },
                       free := u.free + 1 }) ∧
      (bs.length = 7 → leAt bs 0 1 = 2 → isRegWord a = true → s.regWaits a = none → ∃ t, exec (.i3cWrite bs) s = .next t ∧
        ((s.regRead a).1 = 0 → t = { s with modc := { s.modc with i3cAns := some (0, (s.regRead a).2) } }) ∧
        ((s.regRead a).1 ≠ 0 → t = { s with modc := { s.modc with i3cAns := some ((s.regRead a).1, Config.i3cData s.free) },
                                            free := s.free + 1 })) ∧
      (∀ code : Nat, (code = 5 ∧ ¬ (bs.length = 15 ∧ leAt bs 0 1 = 1) ∧ ¬ (bs.length = 7 ∧ leAt bs 0 1 = 2)) ∨
          (code = 1 ∧ ((bs.length = 15 ∧ leAt bs 0 1 = 1) ∨ (bs.length = 7 ∧ leAt bs 0 1 = 2)) ∧ isRegWord a = false) →
        exec (.i3cWrite bs) s = .next { s with modc := { s.modc with i3cAns := some (code, Config.i3cData s.free) }, free := s.free + 1 }) ∧
      (∀ u, bs ≠ [] → exec (.i3cWrite bs) s = .next u → u.busUp = true → exec (.i3cRead bs len) s = exec (.i3cRead [] len) u) ∧
      (∀ y, s.modc.i3cAns = some y → exec (.i3cRead [] 9) s = .next
        { s with modc := { s.modc with i3cAns := none }, out := .i3c (leBytes 1 y.1 ++ leBytes 8 y.2.toNat) :: s.out }) ∧
      (s.modc.i3cAns = none → ∃ t, exec (.i3cRead [] len) s = .next t ∧ s.SameMemory t ∧ s.SameRegsBut [] t ∧ t.modc = s.modc ∧
        t.out = .i3c ((leBytes 1 5 ++ leBytes 8 (Config.i3cData s.free).toNat).take len) :: s.out) ∧
      (s.modc.dyn = none →
        exec (.commonCommand (.entdaa x)) s = .next
          { s with modc := { s.modc with dyn := some x },
                   out := .i3c (leBytes 6 Config.i3cId.1.toNat ++ [Config.i3cId.2.1, Config.i3cId.2.2]) :: s.out } ∧
        exec (.commonCommand (.setdasa x)) s = .next { s with modc := { s.modc with dyn := some x } }) ∧
      (s.modc.dyn ≠ none → exec (.commonCommand (.entdaa x)) s = .next s ∧ exec (.commonCommand (.setdasa x)) s = .next s) ∧
      exec (.commonCommand .rstdaa) s = .next { s with modc := { s.modc with dyn := none } } ∧
      exec (.commonCommand .getpid) s = .next { s with out := .i3c (leBytes 6 Config.i3cId.1.toNat) :: s.out } ∧
      exec (.commonCommand .getbcr) s = .next { s with out := .i3c [Config.i3cId.2.1] :: s.out } ∧
      exec (.commonCommand .getdcr) s = .next { s with out := .i3c [Config.i3cId.2.2] :: s.out } ∧
      exec (.commonCommand .getstatus) s =
        .next { s with out := .i3c (leBytes 2 (Config.i3cStatus s.free).toNat) :: s.out, free := s.free + 1 } ∧
      ∀ cmd ∈ [Ccc.enec, .disec, .other x], exec (.commonCommand cmd) s = .next s)

end Slice0
end

