-- ==== Sys2Proof/Laws/Sparse.lean ====
section
/-! SUPPORT. Laws of sparse maps: reads after writes, and that every operation keeps the canonical form. -/

namespace Sys2Proof.Machine

variable {α : Type}

/-- The canonical form, as the order of the keys and the absence of defaults. -/
theorem smWf_iff [DecidableEq α] (d : Nat → α) (m : List (Nat × α)) :
    smWf d m = true ↔ m.Pairwise (fun a b => a.1 < b.1) ∧ ∀ e ∈ m, e.2 ≠ d e.1 := by
  induction m with
  | nil => simp [smWf]
  | cons x r ih =>
    cases r with
    | nil => simp [smWf]
    | cons y r =>
      obtain ⟨k, v⟩ := x
      obtain ⟨j, w⟩ := y
      have hstep : smWf d ((k, v) :: (j, w) :: r) = true ↔ (v ≠ d k ∧ k < j) ∧ smWf d ((j, w) :: r) = true := by
        simp [smWf]
      rw [hstep, ih]
      constructor
      · rintro ⟨⟨hv, hk⟩, hp, hd⟩
        refine ⟨List.pairwise_cons.2 ⟨?_, hp⟩, ?_⟩
        · intro e he
          rcases List.mem_cons.1 he with rfl | he
          · exact hk
          · exact Nat.lt_trans hk ((List.pairwise_cons.1 hp).1 e he)
        · intro e he
          rcases List.mem_cons.1 he with rfl | he
          · exact hv
          · exact hd e he
      · rintro ⟨hlp, hd⟩
        obtain ⟨hl, hp⟩ := List.pairwise_cons.1 hlp
        exact ⟨⟨hd (k, v) (by simp), hl (j, w) (by simp)⟩, hp, fun e he => hd e (List.mem_cons_of_mem _ he)⟩

/-- The canonical form passes to a sublist. -/
theorem smWf_sublist [DecidableEq α] {d : Nat → α} {m l : List (Nat × α)} (h : smWf d m = true) (hs : l.Sublist m) :
    smWf d l = true := by
  rw [smWf_iff] at *
  exact ⟨h.1.sublist hs, fun e he => h.2 e (hs.subset he)⟩

/-- Keeping the entries that meet a test keeps the canonical form. -/
theorem smWf_filter [DecidableEq α] {d : Nat → α} {m : List (Nat × α)} (h : smWf d m = true) (p : Nat × α → Bool) :
    smWf d (m.filter p) = true := smWf_sublist h List.filter_sublist

/-- Removing a key leaves a sublist. -/
theorem smDel_sublist (m : List (Nat × α)) (k : Nat) : (smDel m k).Sublist m := by
  induction m with
  | nil => exact List.Sublist.refl _
  | cons x r ih =>
    obtain ⟨j, v⟩ := x
    simp only [smDel]
    split
    · exact ih.cons _
    · exact ih.cons_cons _

/-- The entries of an insertion are the new one and old ones. -/
theorem mem_smIns {m : List (Nat × α)} {k : Nat} {v : α} {e : Nat × α} (h : e ∈ smIns m k v) : e = (k, v) ∨ e ∈ m := by
  induction m with
  | nil => simpa [smIns] using h
  | cons x r ih =>
    obtain ⟨j, w⟩ := x
    simp only [smIns] at h
    split at h
    · simpa using h
    · split at h
      · rcases List.mem_cons.1 h with h | h
        · exact .inl h
        · exact .inr (List.mem_cons_of_mem _ h)
      · rcases List.mem_cons.1 h with h | h
        · exact .inr (h ▸ List.mem_cons_self)
        · exact (ih h).imp id (List.mem_cons_of_mem _)

/-- An insertion keeps the order of the keys. -/
theorem smIns_sorted {m : List (Nat × α)} (k : Nat) (v : α) (h : m.Pairwise (fun a b => a.1 < b.1)) :
    (smIns m k v).Pairwise (fun a b => a.1 < b.1) := by
  induction m with
  | nil => simp [smIns]
  | cons x r ih =>
    obtain ⟨j, w⟩ := x
    have h1 := List.pairwise_cons.1 h
    simp only [smIns]
    split
    · rename_i hkj
      refine List.pairwise_cons.2 ⟨fun e he => ?_, h⟩
      rcases List.mem_cons.1 he with rfl | he
      · exact hkj
      · exact Nat.lt_trans hkj (h1.1 e he)
    · split
      · rename_i hkj
        subst hkj
        exact List.pairwise_cons.2 ⟨h1.1, h1.2⟩
      · rename_i h2 h3
        refine List.pairwise_cons.2 ⟨fun e he => ?_, ih h1.2⟩
        rcases mem_smIns he with rfl | he
        · exact Nat.lt_of_le_of_ne (Nat.not_lt.1 h2) (Ne.symm h3)
        · exact h1.1 e he

/-- A write keeps the canonical form, where the default it is given is that of its key. -/
theorem smPut_wf [DecidableEq α] {d : Nat → α} {m : List (Nat × α)} (k : Nat) (v : α) (h : smWf d m = true) :
    smWf d (smPut (d k) m k v) = true := by
  unfold smPut
  split
  · exact smWf_sublist h (smDel_sublist m k)
  · rename_i hv
    rw [smWf_iff] at *
    refine ⟨smIns_sorted k v h.1, fun e he => ?_⟩
    rcases mem_smIns he with rfl | he
    · exact hv
    · exact h.2 e he

/-- A write keeps the canonical form of a map with one default. -/
theorem smPut_wf_const [DecidableEq α] {d : α} {m : List (Nat × α)} (k : Nat) (v : α)
    (h : smWf (fun _ => d) m = true) : smWf (fun _ => d) (smPut d m k v) = true := smPut_wf (d := fun _ => d) k v h

/-- Writes of a run of keys keep the canonical form. -/
theorem smPuts_wf [DecidableEq α] {d : α} {m : List (Nat × α)} (k : Nat) (vs : List α)
    (h : smWf (fun _ => d) m = true) : smWf (fun _ => d) (smPuts d m k vs) = true := by
  induction vs generalizing m k with
  | nil => exact h
  | cons v r ih => exact ih _ (smPut_wf_const k v h)

/-! ### Reads after writes -/

/-- A key that no entry has reads as the default. -/
theorem smGet_absent {d : α} {m : List (Nat × α)} {k : Nat} (h : ∀ e ∈ m, e.1 ≠ k) : smGet d m k = d := by
  induction m with
  | nil => rfl
  | cons x r ih =>
    obtain ⟨j, v⟩ := x
    have hj : j ≠ k := h (j, v) (by simp)
    simp only [smGet, hj, if_false]
    exact ih fun e he => h e (List.mem_cons_of_mem _ he)

/-- After an insertion the key reads as the new value. -/
theorem smGet_smIns (d : α) (m : List (Nat × α)) (k : Nat) (v : α) : smGet d (smIns m k v) k = v := by
  induction m with
  | nil => simp [smIns, smGet]
  | cons x r ih =>
    obtain ⟨j, w⟩ := x
    simp only [smIns]
    split
    · simp [smGet]
    · split
      · simp [smGet]
      · rename_i h
        simp [smGet, Ne.symm h, ih]

/-- An insertion leaves every other key alone. -/
theorem smGet_smIns_ne (d : α) (m : List (Nat × α)) {k j : Nat} (v : α) (hkj : j ≠ k) :
    smGet d (smIns m k v) j = smGet d m j := by
  induction m with
  | nil => simp [smIns, smGet, Ne.symm hkj]
  | cons x r ih =>
    obtain ⟨i, w⟩ := x
    simp only [smIns]
    split
    · simp [smGet, Ne.symm hkj]
    · split
      · rename_i h
        subst h
        simp [smGet, Ne.symm hkj]
      · simp [smGet, ih]

/-- A removal leaves every other key alone. -/
theorem smGet_smDel_ne (d : α) (m : List (Nat × α)) {k j : Nat} (hkj : j ≠ k) :
    smGet d (smDel m k) j = smGet d m j := by
  induction m with
  | nil => rfl
  | cons x r ih =>
    obtain ⟨i, w⟩ := x
    simp only [smDel]
    split
    · rename_i h
      subst h
      simp [smGet, Ne.symm hkj, ih]
    · simp [smGet, ih]

/-- After a removal the key reads as the default. -/
theorem smGet_smDel (d : α) (m : List (Nat × α)) (k : Nat) : smGet d (smDel m k) k = d := by
  induction m with
  | nil => rfl
  | cons x r ih =>
    obtain ⟨i, w⟩ := x
    simp only [smDel]
    split
    · exact ih
    · rename_i hi
      simp [smGet, hi, ih]

/-- A write leaves every other key alone. -/
theorem smGet_smPut_ne [DecidableEq α] (d d' : α) (m : List (Nat × α)) {k j : Nat} (v : α) (hkj : j ≠ k) :
    smGet d (smPut d' m k v) j = smGet d m j := by
  unfold smPut
  split
  · exact smGet_smDel_ne d m hkj
  · exact smGet_smIns_ne d m v hkj

/-- A write is read back. -/
theorem smGet_smPut [DecidableEq α] (d : α) (m : List (Nat × α)) (k : Nat) (v : α) : smGet d (smPut d m k v) k = v := by
  unfold smPut
  split
  · rename_i hv
    rw [hv]
    exact smGet_smDel d m k
  · exact smGet_smIns d m k v

end Sys2Proof.Machine
end

