-- ==== Sys2Proof/Laws/State.lean ====
section
/-! SUPPORT. What each update of the state leaves alone: one lemma per field per update, so that no proof unfolds a record
update. -/

namespace Sys2Proof.Machine

variable (s : State)

/-! ### putDie -/

@[simp] theorem State.putDie_pending (d : Nat) (x : DieSt) : (s.putDie d x).pending = s.pending := rfl
@[simp] theorem State.putDie_part (d : Nat) (x : DieSt) : (s.putDie d x).part = s.part := rfl
@[simp] theorem State.putDie_tick (d : Nat) (x : DieSt) : (s.putDie d x).tick = s.tick := rfl
@[simp] theorem State.putDie_free (d : Nat) (x : DieSt) : (s.putDie d x).free = s.free := rfl
@[simp] theorem State.putDie_mem (d : Nat) (x : DieSt) : (s.putDie d x).mem = s.mem := rfl
@[simp] theorem State.putDie_side (d : Nat) (x : DieSt) : (s.putDie d x).side = s.side := rfl
@[simp] theorem State.putDie_regs (d : Nat) (x : DieSt) : (s.putDie d x).regs = s.regs := rfl
@[simp] theorem State.putDie_shadow (d : Nat) (x : DieSt) : (s.putDie d x).shadow = s.shadow := rfl
@[simp] theorem State.putDie_classes (d : Nat) (x : DieSt) : (s.putDie d x).classes = s.classes := rfl
@[simp] theorem State.putDie_ctxs (d : Nat) (x : DieSt) : (s.putDie d x).ctxs = s.ctxs := rfl
@[simp] theorem State.putDie_hctx (d : Nat) (x : DieSt) : (s.putDie d x).hctx = s.hctx := rfl
@[simp] theorem State.putDie_flights (d : Nat) (x : DieSt) : (s.putDie d x).flights = s.flights := rfl
@[simp] theorem State.putDie_nextId (d : Nat) (x : DieSt) : (s.putDie d x).nextId = s.nextId := rfl
@[simp] theorem State.putDie_clus (d : Nat) (x : DieSt) : (s.putDie d x).clus = s.clus := rfl
@[simp] theorem State.putDie_phys (d : Nat) (x : DieSt) : (s.putDie d x).phys = s.phys := rfl
@[simp] theorem State.putDie_routers (d : Nat) (x : DieSt) : (s.putDie d x).routers = s.routers := rfl
@[simp] theorem State.putDie_ports (d : Nat) (x : DieSt) : (s.putDie d x).ports = s.ports := rfl
@[simp] theorem State.putDie_links (d : Nat) (x : DieSt) : (s.putDie d x).links = s.links := rfl
@[simp] theorem State.putDie_chans (d : Nat) (x : DieSt) : (s.putDie d x).chans = s.chans := rfl
@[simp] theorem State.putDie_cels (d : Nat) (x : DieSt) : (s.putDie d x).cels = s.cels := rfl
@[simp] theorem State.putDie_hbms (d : Nat) (x : DieSt) : (s.putDie d x).hbms = s.hbms := rfl
@[simp] theorem State.putDie_modc (d : Nat) (x : DieSt) : (s.putDie d x).modc = s.modc := rfl
@[simp] theorem State.putDie_errnStuck (d : Nat) (x : DieSt) : (s.putDie d x).errnStuck = s.errnStuck := rfl
@[simp] theorem State.putDie_out (d : Nat) (x : DieSt) : (s.putDie d x).out = s.out := rfl
@[simp] theorem State.putDie_router_frame (d : Nat) (x : DieSt) (d' : Nat) : (s.putDie d x).router d' = s.router d' := rfl
@[simp] theorem State.putDie_link_frame (d : Nat) (x : DieSt) (d' : Nat) : (s.putDie d x).link d' = s.link d' := rfl
@[simp] theorem State.putDie_cel_frame (d : Nat) (x : DieSt) (d' : Nat) : (s.putDie d x).cel d' = s.cel d' := rfl
@[simp] theorem State.putDie_ctx_frame (d : Nat) (x : DieSt) (d' c' : Nat) : (s.putDie d x).ctx d' c' = s.ctx d' c' := rfl
@[simp] theorem State.putDie_hc_frame (d : Nat) (x : DieSt) (c' : Nat) : (s.putDie d x).hc c' = s.hc c' := rfl
@[simp] theorem State.putDie_cl_frame (d : Nat) (x : DieSt) (d' l' : Nat) : (s.putDie d x).cl d' l' = s.cl d' l' := rfl
@[simp] theorem State.putDie_ph_frame (d : Nat) (x : DieSt) (d' p' : Nat) : (s.putDie d x).ph d' p' = s.ph d' p' := rfl
@[simp] theorem State.putDie_port_frame (d : Nat) (x : DieSt) (d' p' : Nat) : (s.putDie d x).port d' p' = s.port d' p' := rfl
@[simp] theorem State.putDie_chan_frame (d : Nat) (x : DieSt) (d' c' h' : Nat) : (s.putDie d x).chan d' c' h' = s.chan d' c' h' := rfl
@[simp] theorem State.putDie_hbm_frame (d : Nat) (x : DieSt) (d' k' : Nat) : (s.putDie d x).hbm d' k' = s.hbm d' k' := rfl
@[simp] theorem State.putDie_reg_frame (d : Nat) (x : DieSt) (a' : Nat) : (s.putDie d x).reg a' = s.reg a' := rfl
@[simp] theorem State.putDie_shad_frame (d : Nat) (x : DieSt) (a' : Nat) : (s.putDie d x).shad a' = s.shad a' := rfl
@[simp] theorem State.putDie_byte_frame (d : Nat) (x : DieSt) (a' : Nat) : (s.putDie d x).byte a' = s.byte a' := rfl
@[simp] theorem State.putDie_sideOf_frame (d : Nat) (x : DieSt) (n' : Nat) : (s.putDie d x).sideOf n' = s.sideOf n' := rfl
@[simp] theorem State.putDie_nd_frame (d : Nat) (x : DieSt) : (s.putDie d x).nd = s.nd := rfl
@[simp] theorem State.putDie_rg_frame (d : Nat) (x : DieSt) (d' : Nat) (b' : Blk) (i' f' : Nat) : (s.putDie d x).rg d' b' i' f' = s.rg d' b' i' f' := rfl

/-! ### putRouter -/

@[simp] theorem State.putRouter_pending (d : Nat) (x : Router) : (s.putRouter d x).pending = s.pending := rfl
@[simp] theorem State.putRouter_part (d : Nat) (x : Router) : (s.putRouter d x).part = s.part := rfl
@[simp] theorem State.putRouter_tick (d : Nat) (x : Router) : (s.putRouter d x).tick = s.tick := rfl
@[simp] theorem State.putRouter_free (d : Nat) (x : Router) : (s.putRouter d x).free = s.free := rfl
@[simp] theorem State.putRouter_mem (d : Nat) (x : Router) : (s.putRouter d x).mem = s.mem := rfl
@[simp] theorem State.putRouter_side (d : Nat) (x : Router) : (s.putRouter d x).side = s.side := rfl
@[simp] theorem State.putRouter_regs (d : Nat) (x : Router) : (s.putRouter d x).regs = s.regs := rfl
@[simp] theorem State.putRouter_shadow (d : Nat) (x : Router) : (s.putRouter d x).shadow = s.shadow := rfl
@[simp] theorem State.putRouter_classes (d : Nat) (x : Router) : (s.putRouter d x).classes = s.classes := rfl
@[simp] theorem State.putRouter_ctxs (d : Nat) (x : Router) : (s.putRouter d x).ctxs = s.ctxs := rfl
@[simp] theorem State.putRouter_hctx (d : Nat) (x : Router) : (s.putRouter d x).hctx = s.hctx := rfl
@[simp] theorem State.putRouter_flights (d : Nat) (x : Router) : (s.putRouter d x).flights = s.flights := rfl
@[simp] theorem State.putRouter_nextId (d : Nat) (x : Router) : (s.putRouter d x).nextId = s.nextId := rfl
@[simp] theorem State.putRouter_clus (d : Nat) (x : Router) : (s.putRouter d x).clus = s.clus := rfl
@[simp] theorem State.putRouter_phys (d : Nat) (x : Router) : (s.putRouter d x).phys = s.phys := rfl
@[simp] theorem State.putRouter_dies (d : Nat) (x : Router) : (s.putRouter d x).dies = s.dies := rfl
@[simp] theorem State.putRouter_ports (d : Nat) (x : Router) : (s.putRouter d x).ports = s.ports := rfl
@[simp] theorem State.putRouter_links (d : Nat) (x : Router) : (s.putRouter d x).links = s.links := rfl
@[simp] theorem State.putRouter_chans (d : Nat) (x : Router) : (s.putRouter d x).chans = s.chans := rfl
@[simp] theorem State.putRouter_cels (d : Nat) (x : Router) : (s.putRouter d x).cels = s.cels := rfl
@[simp] theorem State.putRouter_hbms (d : Nat) (x : Router) : (s.putRouter d x).hbms = s.hbms := rfl
@[simp] theorem State.putRouter_modc (d : Nat) (x : Router) : (s.putRouter d x).modc = s.modc := rfl
@[simp] theorem State.putRouter_errnStuck (d : Nat) (x : Router) : (s.putRouter d x).errnStuck = s.errnStuck := rfl
@[simp] theorem State.putRouter_out (d : Nat) (x : Router) : (s.putRouter d x).out = s.out := rfl
@[simp] theorem State.putRouter_die_frame (d : Nat) (x : Router) (d' : Nat) : (s.putRouter d x).die d' = s.die d' := rfl
@[simp] theorem State.putRouter_link_frame (d : Nat) (x : Router) (d' : Nat) : (s.putRouter d x).link d' = s.link d' := rfl
@[simp] theorem State.putRouter_cel_frame (d : Nat) (x : Router) (d' : Nat) : (s.putRouter d x).cel d' = s.cel d' := rfl
@[simp] theorem State.putRouter_ctx_frame (d : Nat) (x : Router) (d' c' : Nat) : (s.putRouter d x).ctx d' c' = s.ctx d' c' := rfl
@[simp] theorem State.putRouter_hc_frame (d : Nat) (x : Router) (c' : Nat) : (s.putRouter d x).hc c' = s.hc c' := rfl
@[simp] theorem State.putRouter_cl_frame (d : Nat) (x : Router) (d' l' : Nat) : (s.putRouter d x).cl d' l' = s.cl d' l' := rfl
@[simp] theorem State.putRouter_ph_frame (d : Nat) (x : Router) (d' p' : Nat) : (s.putRouter d x).ph d' p' = s.ph d' p' := rfl
@[simp] theorem State.putRouter_port_frame (d : Nat) (x : Router) (d' p' : Nat) : (s.putRouter d x).port d' p' = s.port d' p' := rfl
@[simp] theorem State.putRouter_chan_frame (d : Nat) (x : Router) (d' c' h' : Nat) : (s.putRouter d x).chan d' c' h' = s.chan d' c' h' := rfl
@[simp] theorem State.putRouter_hbm_frame (d : Nat) (x : Router) (d' k' : Nat) : (s.putRouter d x).hbm d' k' = s.hbm d' k' := rfl
@[simp] theorem State.putRouter_reg_frame (d : Nat) (x : Router) (a' : Nat) : (s.putRouter d x).reg a' = s.reg a' := rfl
@[simp] theorem State.putRouter_shad_frame (d : Nat) (x : Router) (a' : Nat) : (s.putRouter d x).shad a' = s.shad a' := rfl
@[simp] theorem State.putRouter_byte_frame (d : Nat) (x : Router) (a' : Nat) : (s.putRouter d x).byte a' = s.byte a' := rfl
@[simp] theorem State.putRouter_sideOf_frame (d : Nat) (x : Router) (n' : Nat) : (s.putRouter d x).sideOf n' = s.sideOf n' := rfl
@[simp] theorem State.putRouter_nd_frame (d : Nat) (x : Router) : (s.putRouter d x).nd = s.nd := rfl
@[simp] theorem State.putRouter_rg_frame (d : Nat) (x : Router) (d' : Nat) (b' : Blk) (i' f' : Nat) : (s.putRouter d x).rg d' b' i' f' = s.rg d' b' i' f' := rfl

/-! ### putLink -/

@[simp] theorem State.putLink_pending (d : Nat) (x : Link) : (s.putLink d x).pending = s.pending := rfl
@[simp] theorem State.putLink_part (d : Nat) (x : Link) : (s.putLink d x).part = s.part := rfl
@[simp] theorem State.putLink_tick (d : Nat) (x : Link) : (s.putLink d x).tick = s.tick := rfl
@[simp] theorem State.putLink_free (d : Nat) (x : Link) : (s.putLink d x).free = s.free := rfl
@[simp] theorem State.putLink_mem (d : Nat) (x : Link) : (s.putLink d x).mem = s.mem := rfl
@[simp] theorem State.putLink_side (d : Nat) (x : Link) : (s.putLink d x).side = s.side := rfl
@[simp] theorem State.putLink_regs (d : Nat) (x : Link) : (s.putLink d x).regs = s.regs := rfl
@[simp] theorem State.putLink_shadow (d : Nat) (x : Link) : (s.putLink d x).shadow = s.shadow := rfl
@[simp] theorem State.putLink_classes (d : Nat) (x : Link) : (s.putLink d x).classes = s.classes := rfl
@[simp] theorem State.putLink_ctxs (d : Nat) (x : Link) : (s.putLink d x).ctxs = s.ctxs := rfl
@[simp] theorem State.putLink_hctx (d : Nat) (x : Link) : (s.putLink d x).hctx = s.hctx := rfl
@[simp] theorem State.putLink_flights (d : Nat) (x : Link) : (s.putLink d x).flights = s.flights := rfl
@[simp] theorem State.putLink_nextId (d : Nat) (x : Link) : (s.putLink d x).nextId = s.nextId := rfl
@[simp] theorem State.putLink_clus (d : Nat) (x : Link) : (s.putLink d x).clus = s.clus := rfl
@[simp] theorem State.putLink_phys (d : Nat) (x : Link) : (s.putLink d x).phys = s.phys := rfl
@[simp] theorem State.putLink_dies (d : Nat) (x : Link) : (s.putLink d x).dies = s.dies := rfl
@[simp] theorem State.putLink_routers (d : Nat) (x : Link) : (s.putLink d x).routers = s.routers := rfl
@[simp] theorem State.putLink_ports (d : Nat) (x : Link) : (s.putLink d x).ports = s.ports := rfl
@[simp] theorem State.putLink_chans (d : Nat) (x : Link) : (s.putLink d x).chans = s.chans := rfl
@[simp] theorem State.putLink_cels (d : Nat) (x : Link) : (s.putLink d x).cels = s.cels := rfl
@[simp] theorem State.putLink_hbms (d : Nat) (x : Link) : (s.putLink d x).hbms = s.hbms := rfl
@[simp] theorem State.putLink_modc (d : Nat) (x : Link) : (s.putLink d x).modc = s.modc := rfl
@[simp] theorem State.putLink_errnStuck (d : Nat) (x : Link) : (s.putLink d x).errnStuck = s.errnStuck := rfl
@[simp] theorem State.putLink_out (d : Nat) (x : Link) : (s.putLink d x).out = s.out := rfl
@[simp] theorem State.putLink_die_frame (d : Nat) (x : Link) (d' : Nat) : (s.putLink d x).die d' = s.die d' := rfl
@[simp] theorem State.putLink_router_frame (d : Nat) (x : Link) (d' : Nat) : (s.putLink d x).router d' = s.router d' := rfl
@[simp] theorem State.putLink_cel_frame (d : Nat) (x : Link) (d' : Nat) : (s.putLink d x).cel d' = s.cel d' := rfl
@[simp] theorem State.putLink_ctx_frame (d : Nat) (x : Link) (d' c' : Nat) : (s.putLink d x).ctx d' c' = s.ctx d' c' := rfl
@[simp] theorem State.putLink_hc_frame (d : Nat) (x : Link) (c' : Nat) : (s.putLink d x).hc c' = s.hc c' := rfl
@[simp] theorem State.putLink_cl_frame (d : Nat) (x : Link) (d' l' : Nat) : (s.putLink d x).cl d' l' = s.cl d' l' := rfl
@[simp] theorem State.putLink_ph_frame (d : Nat) (x : Link) (d' p' : Nat) : (s.putLink d x).ph d' p' = s.ph d' p' := rfl
@[simp] theorem State.putLink_port_frame (d : Nat) (x : Link) (d' p' : Nat) : (s.putLink d x).port d' p' = s.port d' p' := rfl
@[simp] theorem State.putLink_chan_frame (d : Nat) (x : Link) (d' c' h' : Nat) : (s.putLink d x).chan d' c' h' = s.chan d' c' h' := rfl
@[simp] theorem State.putLink_hbm_frame (d : Nat) (x : Link) (d' k' : Nat) : (s.putLink d x).hbm d' k' = s.hbm d' k' := rfl
@[simp] theorem State.putLink_reg_frame (d : Nat) (x : Link) (a' : Nat) : (s.putLink d x).reg a' = s.reg a' := rfl
@[simp] theorem State.putLink_shad_frame (d : Nat) (x : Link) (a' : Nat) : (s.putLink d x).shad a' = s.shad a' := rfl
@[simp] theorem State.putLink_byte_frame (d : Nat) (x : Link) (a' : Nat) : (s.putLink d x).byte a' = s.byte a' := rfl
@[simp] theorem State.putLink_sideOf_frame (d : Nat) (x : Link) (n' : Nat) : (s.putLink d x).sideOf n' = s.sideOf n' := rfl
@[simp] theorem State.putLink_nd_frame (d : Nat) (x : Link) : (s.putLink d x).nd = s.nd := rfl
@[simp] theorem State.putLink_rg_frame (d : Nat) (x : Link) (d' : Nat) (b' : Blk) (i' f' : Nat) : (s.putLink d x).rg d' b' i' f' = s.rg d' b' i' f' := rfl

/-! ### putCel -/

@[simp] theorem State.putCel_pending (d : Nat) (x : Cellar) : (s.putCel d x).pending = s.pending := rfl
@[simp] theorem State.putCel_part (d : Nat) (x : Cellar) : (s.putCel d x).part = s.part := rfl
@[simp] theorem State.putCel_tick (d : Nat) (x : Cellar) : (s.putCel d x).tick = s.tick := rfl
@[simp] theorem State.putCel_free (d : Nat) (x : Cellar) : (s.putCel d x).free = s.free := rfl
@[simp] theorem State.putCel_mem (d : Nat) (x : Cellar) : (s.putCel d x).mem = s.mem := rfl
@[simp] theorem State.putCel_side (d : Nat) (x : Cellar) : (s.putCel d x).side = s.side := rfl
@[simp] theorem State.putCel_regs (d : Nat) (x : Cellar) : (s.putCel d x).regs = s.regs := rfl
@[simp] theorem State.putCel_shadow (d : Nat) (x : Cellar) : (s.putCel d x).shadow = s.shadow := rfl
@[simp] theorem State.putCel_classes (d : Nat) (x : Cellar) : (s.putCel d x).classes = s.classes := rfl
@[simp] theorem State.putCel_ctxs (d : Nat) (x : Cellar) : (s.putCel d x).ctxs = s.ctxs := rfl
@[simp] theorem State.putCel_hctx (d : Nat) (x : Cellar) : (s.putCel d x).hctx = s.hctx := rfl
@[simp] theorem State.putCel_flights (d : Nat) (x : Cellar) : (s.putCel d x).flights = s.flights := rfl
@[simp] theorem State.putCel_nextId (d : Nat) (x : Cellar) : (s.putCel d x).nextId = s.nextId := rfl
@[simp] theorem State.putCel_clus (d : Nat) (x : Cellar) : (s.putCel d x).clus = s.clus := rfl
@[simp] theorem State.putCel_phys (d : Nat) (x : Cellar) : (s.putCel d x).phys = s.phys := rfl
@[simp] theorem State.putCel_dies (d : Nat) (x : Cellar) : (s.putCel d x).dies = s.dies := rfl
@[simp] theorem State.putCel_routers (d : Nat) (x : Cellar) : (s.putCel d x).routers = s.routers := rfl
@[simp] theorem State.putCel_ports (d : Nat) (x : Cellar) : (s.putCel d x).ports = s.ports := rfl
@[simp] theorem State.putCel_links (d : Nat) (x : Cellar) : (s.putCel d x).links = s.links := rfl
@[simp] theorem State.putCel_chans (d : Nat) (x : Cellar) : (s.putCel d x).chans = s.chans := rfl
@[simp] theorem State.putCel_hbms (d : Nat) (x : Cellar) : (s.putCel d x).hbms = s.hbms := rfl
@[simp] theorem State.putCel_modc (d : Nat) (x : Cellar) : (s.putCel d x).modc = s.modc := rfl
@[simp] theorem State.putCel_errnStuck (d : Nat) (x : Cellar) : (s.putCel d x).errnStuck = s.errnStuck := rfl
@[simp] theorem State.putCel_out (d : Nat) (x : Cellar) : (s.putCel d x).out = s.out := rfl
@[simp] theorem State.putCel_die_frame (d : Nat) (x : Cellar) (d' : Nat) : (s.putCel d x).die d' = s.die d' := rfl
@[simp] theorem State.putCel_router_frame (d : Nat) (x : Cellar) (d' : Nat) : (s.putCel d x).router d' = s.router d' := rfl
@[simp] theorem State.putCel_link_frame (d : Nat) (x : Cellar) (d' : Nat) : (s.putCel d x).link d' = s.link d' := rfl
@[simp] theorem State.putCel_ctx_frame (d : Nat) (x : Cellar) (d' c' : Nat) : (s.putCel d x).ctx d' c' = s.ctx d' c' := rfl
@[simp] theorem State.putCel_hc_frame (d : Nat) (x : Cellar) (c' : Nat) : (s.putCel d x).hc c' = s.hc c' := rfl
@[simp] theorem State.putCel_cl_frame (d : Nat) (x : Cellar) (d' l' : Nat) : (s.putCel d x).cl d' l' = s.cl d' l' := rfl
@[simp] theorem State.putCel_ph_frame (d : Nat) (x : Cellar) (d' p' : Nat) : (s.putCel d x).ph d' p' = s.ph d' p' := rfl
@[simp] theorem State.putCel_port_frame (d : Nat) (x : Cellar) (d' p' : Nat) : (s.putCel d x).port d' p' = s.port d' p' := rfl
@[simp] theorem State.putCel_chan_frame (d : Nat) (x : Cellar) (d' c' h' : Nat) : (s.putCel d x).chan d' c' h' = s.chan d' c' h' := rfl
@[simp] theorem State.putCel_hbm_frame (d : Nat) (x : Cellar) (d' k' : Nat) : (s.putCel d x).hbm d' k' = s.hbm d' k' := rfl
@[simp] theorem State.putCel_reg_frame (d : Nat) (x : Cellar) (a' : Nat) : (s.putCel d x).reg a' = s.reg a' := rfl
@[simp] theorem State.putCel_shad_frame (d : Nat) (x : Cellar) (a' : Nat) : (s.putCel d x).shad a' = s.shad a' := rfl
@[simp] theorem State.putCel_byte_frame (d : Nat) (x : Cellar) (a' : Nat) : (s.putCel d x).byte a' = s.byte a' := rfl
@[simp] theorem State.putCel_sideOf_frame (d : Nat) (x : Cellar) (n' : Nat) : (s.putCel d x).sideOf n' = s.sideOf n' := rfl
@[simp] theorem State.putCel_nd_frame (d : Nat) (x : Cellar) : (s.putCel d x).nd = s.nd := rfl
@[simp] theorem State.putCel_rg_frame (d : Nat) (x : Cellar) (d' : Nat) (b' : Blk) (i' f' : Nat) : (s.putCel d x).rg d' b' i' f' = s.rg d' b' i' f' := rfl

/-! ### putCtx -/

@[simp] theorem State.putCtx_pending (d c : Nat) (x : Ctx) : (s.putCtx d c x).pending = s.pending := rfl
@[simp] theorem State.putCtx_part (d c : Nat) (x : Ctx) : (s.putCtx d c x).part = s.part := rfl
@[simp] theorem State.putCtx_tick (d c : Nat) (x : Ctx) : (s.putCtx d c x).tick = s.tick := rfl
@[simp] theorem State.putCtx_free (d c : Nat) (x : Ctx) : (s.putCtx d c x).free = s.free := rfl
@[simp] theorem State.putCtx_mem (d c : Nat) (x : Ctx) : (s.putCtx d c x).mem = s.mem := rfl
@[simp] theorem State.putCtx_side (d c : Nat) (x : Ctx) : (s.putCtx d c x).side = s.side := rfl
@[simp] theorem State.putCtx_regs (d c : Nat) (x : Ctx) : (s.putCtx d c x).regs = s.regs := rfl
@[simp] theorem State.putCtx_shadow (d c : Nat) (x : Ctx) : (s.putCtx d c x).shadow = s.shadow := rfl
@[simp] theorem State.putCtx_classes (d c : Nat) (x : Ctx) : (s.putCtx d c x).classes = s.classes := rfl
@[simp] theorem State.putCtx_hctx (d c : Nat) (x : Ctx) : (s.putCtx d c x).hctx = s.hctx := rfl
@[simp] theorem State.putCtx_flights (d c : Nat) (x : Ctx) : (s.putCtx d c x).flights = s.flights := rfl
@[simp] theorem State.putCtx_nextId (d c : Nat) (x : Ctx) : (s.putCtx d c x).nextId = s.nextId := rfl
@[simp] theorem State.putCtx_clus (d c : Nat) (x : Ctx) : (s.putCtx d c x).clus = s.clus := rfl
@[simp] theorem State.putCtx_phys (d c : Nat) (x : Ctx) : (s.putCtx d c x).phys = s.phys := rfl
@[simp] theorem State.putCtx_dies (d c : Nat) (x : Ctx) : (s.putCtx d c x).dies = s.dies := rfl
@[simp] theorem State.putCtx_routers (d c : Nat) (x : Ctx) : (s.putCtx d c x).routers = s.routers := rfl
@[simp] theorem State.putCtx_ports (d c : Nat) (x : Ctx) : (s.putCtx d c x).ports = s.ports := rfl
@[simp] theorem State.putCtx_links (d c : Nat) (x : Ctx) : (s.putCtx d c x).links = s.links := rfl
@[simp] theorem State.putCtx_chans (d c : Nat) (x : Ctx) : (s.putCtx d c x).chans = s.chans := rfl
@[simp] theorem State.putCtx_cels (d c : Nat) (x : Ctx) : (s.putCtx d c x).cels = s.cels := rfl
@[simp] theorem State.putCtx_hbms (d c : Nat) (x : Ctx) : (s.putCtx d c x).hbms = s.hbms := rfl
@[simp] theorem State.putCtx_modc (d c : Nat) (x : Ctx) : (s.putCtx d c x).modc = s.modc := rfl
@[simp] theorem State.putCtx_errnStuck (d c : Nat) (x : Ctx) : (s.putCtx d c x).errnStuck = s.errnStuck := rfl
@[simp] theorem State.putCtx_out (d c : Nat) (x : Ctx) : (s.putCtx d c x).out = s.out := rfl
@[simp] theorem State.putCtx_die_frame (d c : Nat) (x : Ctx) (d' : Nat) : (s.putCtx d c x).die d' = s.die d' := rfl
@[simp] theorem State.putCtx_router_frame (d c : Nat) (x : Ctx) (d' : Nat) : (s.putCtx d c x).router d' = s.router d' := rfl
@[simp] theorem State.putCtx_link_frame (d c : Nat) (x : Ctx) (d' : Nat) : (s.putCtx d c x).link d' = s.link d' := rfl
@[simp] theorem State.putCtx_cel_frame (d c : Nat) (x : Ctx) (d' : Nat) : (s.putCtx d c x).cel d' = s.cel d' := rfl
@[simp] theorem State.putCtx_hc_frame (d c : Nat) (x : Ctx) (c' : Nat) : (s.putCtx d c x).hc c' = s.hc c' := rfl
@[simp] theorem State.putCtx_cl_frame (d c : Nat) (x : Ctx) (d' l' : Nat) : (s.putCtx d c x).cl d' l' = s.cl d' l' := rfl
@[simp] theorem State.putCtx_ph_frame (d c : Nat) (x : Ctx) (d' p' : Nat) : (s.putCtx d c x).ph d' p' = s.ph d' p' := rfl
@[simp] theorem State.putCtx_port_frame (d c : Nat) (x : Ctx) (d' p' : Nat) : (s.putCtx d c x).port d' p' = s.port d' p' := rfl
@[simp] theorem State.putCtx_chan_frame (d c : Nat) (x : Ctx) (d' c' h' : Nat) : (s.putCtx d c x).chan d' c' h' = s.chan d' c' h' := rfl
@[simp] theorem State.putCtx_hbm_frame (d c : Nat) (x : Ctx) (d' k' : Nat) : (s.putCtx d c x).hbm d' k' = s.hbm d' k' := rfl
@[simp] theorem State.putCtx_reg_frame (d c : Nat) (x : Ctx) (a' : Nat) : (s.putCtx d c x).reg a' = s.reg a' := rfl
@[simp] theorem State.putCtx_shad_frame (d c : Nat) (x : Ctx) (a' : Nat) : (s.putCtx d c x).shad a' = s.shad a' := rfl
@[simp] theorem State.putCtx_byte_frame (d c : Nat) (x : Ctx) (a' : Nat) : (s.putCtx d c x).byte a' = s.byte a' := rfl
@[simp] theorem State.putCtx_sideOf_frame (d c : Nat) (x : Ctx) (n' : Nat) : (s.putCtx d c x).sideOf n' = s.sideOf n' := rfl
@[simp] theorem State.putCtx_nd_frame (d c : Nat) (x : Ctx) : (s.putCtx d c x).nd = s.nd := rfl
@[simp] theorem State.putCtx_rg_frame (d c : Nat) (x : Ctx) (d' : Nat) (b' : Blk) (i' f' : Nat) : (s.putCtx d c x).rg d' b' i' f' = s.rg d' b' i' f' := rfl

/-! ### putHc -/

@[simp] theorem State.putHc_pending (c : Nat) (x : HCtx) : (s.putHc c x).pending = s.pending := rfl
@[simp] theorem State.putHc_part (c : Nat) (x : HCtx) : (s.putHc c x).part = s.part := rfl
@[simp] theorem State.putHc_tick (c : Nat) (x : HCtx) : (s.putHc c x).tick = s.tick := rfl
@[simp] theorem State.putHc_free (c : Nat) (x : HCtx) : (s.putHc c x).free = s.free := rfl
@[simp] theorem State.putHc_mem (c : Nat) (x : HCtx) : (s.putHc c x).mem = s.mem := rfl
@[simp] theorem State.putHc_side (c : Nat) (x : HCtx) : (s.putHc c x).side = s.side := rfl
@[simp] theorem State.putHc_regs (c : Nat) (x : HCtx) : (s.putHc c x).regs = s.regs := rfl
@[simp] theorem State.putHc_shadow (c : Nat) (x : HCtx) : (s.putHc c x).shadow = s.shadow := rfl
@[simp] theorem State.putHc_classes (c : Nat) (x : HCtx) : (s.putHc c x).classes = s.classes := rfl
@[simp] theorem State.putHc_ctxs (c : Nat) (x : HCtx) : (s.putHc c x).ctxs = s.ctxs := rfl
@[simp] theorem State.putHc_flights (c : Nat) (x : HCtx) : (s.putHc c x).flights = s.flights := rfl
@[simp] theorem State.putHc_nextId (c : Nat) (x : HCtx) : (s.putHc c x).nextId = s.nextId := rfl
@[simp] theorem State.putHc_clus (c : Nat) (x : HCtx) : (s.putHc c x).clus = s.clus := rfl
@[simp] theorem State.putHc_phys (c : Nat) (x : HCtx) : (s.putHc c x).phys = s.phys := rfl
@[simp] theorem State.putHc_dies (c : Nat) (x : HCtx) : (s.putHc c x).dies = s.dies := rfl
@[simp] theorem State.putHc_routers (c : Nat) (x : HCtx) : (s.putHc c x).routers = s.routers := rfl
@[simp] theorem State.putHc_ports (c : Nat) (x : HCtx) : (s.putHc c x).ports = s.ports := rfl
@[simp] theorem State.putHc_links (c : Nat) (x : HCtx) : (s.putHc c x).links = s.links := rfl
@[simp] theorem State.putHc_chans (c : Nat) (x : HCtx) : (s.putHc c x).chans = s.chans := rfl
@[simp] theorem State.putHc_cels (c : Nat) (x : HCtx) : (s.putHc c x).cels = s.cels := rfl
@[simp] theorem State.putHc_hbms (c : Nat) (x : HCtx) : (s.putHc c x).hbms = s.hbms := rfl
@[simp] theorem State.putHc_modc (c : Nat) (x : HCtx) : (s.putHc c x).modc = s.modc := rfl
@[simp] theorem State.putHc_errnStuck (c : Nat) (x : HCtx) : (s.putHc c x).errnStuck = s.errnStuck := rfl
@[simp] theorem State.putHc_out (c : Nat) (x : HCtx) : (s.putHc c x).out = s.out := rfl
@[simp] theorem State.putHc_die_frame (c : Nat) (x : HCtx) (d' : Nat) : (s.putHc c x).die d' = s.die d' := rfl
@[simp] theorem State.putHc_router_frame (c : Nat) (x : HCtx) (d' : Nat) : (s.putHc c x).router d' = s.router d' := rfl
@[simp] theorem State.putHc_link_frame (c : Nat) (x : HCtx) (d' : Nat) : (s.putHc c x).link d' = s.link d' := rfl
@[simp] theorem State.putHc_cel_frame (c : Nat) (x : HCtx) (d' : Nat) : (s.putHc c x).cel d' = s.cel d' := rfl
@[simp] theorem State.putHc_ctx_frame (c : Nat) (x : HCtx) (d' c' : Nat) : (s.putHc c x).ctx d' c' = s.ctx d' c' := rfl
@[simp] theorem State.putHc_cl_frame (c : Nat) (x : HCtx) (d' l' : Nat) : (s.putHc c x).cl d' l' = s.cl d' l' := rfl
@[simp] theorem State.putHc_ph_frame (c : Nat) (x : HCtx) (d' p' : Nat) : (s.putHc c x).ph d' p' = s.ph d' p' := rfl
@[simp] theorem State.putHc_port_frame (c : Nat) (x : HCtx) (d' p' : Nat) : (s.putHc c x).port d' p' = s.port d' p' := rfl
@[simp] theorem State.putHc_chan_frame (c : Nat) (x : HCtx) (d' c' h' : Nat) : (s.putHc c x).chan d' c' h' = s.chan d' c' h' := rfl
@[simp] theorem State.putHc_hbm_frame (c : Nat) (x : HCtx) (d' k' : Nat) : (s.putHc c x).hbm d' k' = s.hbm d' k' := rfl
@[simp] theorem State.putHc_reg_frame (c : Nat) (x : HCtx) (a' : Nat) : (s.putHc c x).reg a' = s.reg a' := rfl
@[simp] theorem State.putHc_shad_frame (c : Nat) (x : HCtx) (a' : Nat) : (s.putHc c x).shad a' = s.shad a' := rfl
@[simp] theorem State.putHc_byte_frame (c : Nat) (x : HCtx) (a' : Nat) : (s.putHc c x).byte a' = s.byte a' := rfl
@[simp] theorem State.putHc_sideOf_frame (c : Nat) (x : HCtx) (n' : Nat) : (s.putHc c x).sideOf n' = s.sideOf n' := rfl
@[simp] theorem State.putHc_nd_frame (c : Nat) (x : HCtx) : (s.putHc c x).nd = s.nd := rfl
@[simp] theorem State.putHc_rg_frame (c : Nat) (x : HCtx) (d' : Nat) (b' : Blk) (i' f' : Nat) : (s.putHc c x).rg d' b' i' f' = s.rg d' b' i' f' := rfl

/-! ### putCl -/

@[simp] theorem State.putCl_pending (d l : Nat) (x : Cluster) : (s.putCl d l x).pending = s.pending := rfl
@[simp] theorem State.putCl_part (d l : Nat) (x : Cluster) : (s.putCl d l x).part = s.part := rfl
@[simp] theorem State.putCl_tick (d l : Nat) (x : Cluster) : (s.putCl d l x).tick = s.tick := rfl
@[simp] theorem State.putCl_free (d l : Nat) (x : Cluster) : (s.putCl d l x).free = s.free := rfl
@[simp] theorem State.putCl_mem (d l : Nat) (x : Cluster) : (s.putCl d l x).mem = s.mem := rfl
@[simp] theorem State.putCl_side (d l : Nat) (x : Cluster) : (s.putCl d l x).side = s.side := rfl
@[simp] theorem State.putCl_regs (d l : Nat) (x : Cluster) : (s.putCl d l x).regs = s.regs := rfl
@[simp] theorem State.putCl_shadow (d l : Nat) (x : Cluster) : (s.putCl d l x).shadow = s.shadow := rfl
@[simp] theorem State.putCl_classes (d l : Nat) (x : Cluster) : (s.putCl d l x).classes = s.classes := rfl
@[simp] theorem State.putCl_ctxs (d l : Nat) (x : Cluster) : (s.putCl d l x).ctxs = s.ctxs := rfl
@[simp] theorem State.putCl_hctx (d l : Nat) (x : Cluster) : (s.putCl d l x).hctx = s.hctx := rfl
@[simp] theorem State.putCl_flights (d l : Nat) (x : Cluster) : (s.putCl d l x).flights = s.flights := rfl
@[simp] theorem State.putCl_nextId (d l : Nat) (x : Cluster) : (s.putCl d l x).nextId = s.nextId := rfl
@[simp] theorem State.putCl_phys (d l : Nat) (x : Cluster) : (s.putCl d l x).phys = s.phys := rfl
@[simp] theorem State.putCl_dies (d l : Nat) (x : Cluster) : (s.putCl d l x).dies = s.dies := rfl
@[simp] theorem State.putCl_routers (d l : Nat) (x : Cluster) : (s.putCl d l x).routers = s.routers := rfl
@[simp] theorem State.putCl_ports (d l : Nat) (x : Cluster) : (s.putCl d l x).ports = s.ports := rfl
@[simp] theorem State.putCl_links (d l : Nat) (x : Cluster) : (s.putCl d l x).links = s.links := rfl
@[simp] theorem State.putCl_chans (d l : Nat) (x : Cluster) : (s.putCl d l x).chans = s.chans := rfl
@[simp] theorem State.putCl_cels (d l : Nat) (x : Cluster) : (s.putCl d l x).cels = s.cels := rfl
@[simp] theorem State.putCl_hbms (d l : Nat) (x : Cluster) : (s.putCl d l x).hbms = s.hbms := rfl
@[simp] theorem State.putCl_modc (d l : Nat) (x : Cluster) : (s.putCl d l x).modc = s.modc := rfl
@[simp] theorem State.putCl_errnStuck (d l : Nat) (x : Cluster) : (s.putCl d l x).errnStuck = s.errnStuck := rfl
@[simp] theorem State.putCl_out (d l : Nat) (x : Cluster) : (s.putCl d l x).out = s.out := rfl
@[simp] theorem State.putCl_die_frame (d l : Nat) (x : Cluster) (d' : Nat) : (s.putCl d l x).die d' = s.die d' := rfl
@[simp] theorem State.putCl_router_frame (d l : Nat) (x : Cluster) (d' : Nat) : (s.putCl d l x).router d' = s.router d' := rfl
@[simp] theorem State.putCl_link_frame (d l : Nat) (x : Cluster) (d' : Nat) : (s.putCl d l x).link d' = s.link d' := rfl
@[simp] theorem State.putCl_cel_frame (d l : Nat) (x : Cluster) (d' : Nat) : (s.putCl d l x).cel d' = s.cel d' := rfl
@[simp] theorem State.putCl_ctx_frame (d l : Nat) (x : Cluster) (d' c' : Nat) : (s.putCl d l x).ctx d' c' = s.ctx d' c' := rfl
@[simp] theorem State.putCl_hc_frame (d l : Nat) (x : Cluster) (c' : Nat) : (s.putCl d l x).hc c' = s.hc c' := rfl
@[simp] theorem State.putCl_ph_frame (d l : Nat) (x : Cluster) (d' p' : Nat) : (s.putCl d l x).ph d' p' = s.ph d' p' := rfl
@[simp] theorem State.putCl_port_frame (d l : Nat) (x : Cluster) (d' p' : Nat) : (s.putCl d l x).port d' p' = s.port d' p' := rfl
@[simp] theorem State.putCl_chan_frame (d l : Nat) (x : Cluster) (d' c' h' : Nat) : (s.putCl d l x).chan d' c' h' = s.chan d' c' h' := rfl
@[simp] theorem State.putCl_hbm_frame (d l : Nat) (x : Cluster) (d' k' : Nat) : (s.putCl d l x).hbm d' k' = s.hbm d' k' := rfl
@[simp] theorem State.putCl_reg_frame (d l : Nat) (x : Cluster) (a' : Nat) : (s.putCl d l x).reg a' = s.reg a' := rfl
@[simp] theorem State.putCl_shad_frame (d l : Nat) (x : Cluster) (a' : Nat) : (s.putCl d l x).shad a' = s.shad a' := rfl
@[simp] theorem State.putCl_byte_frame (d l : Nat) (x : Cluster) (a' : Nat) : (s.putCl d l x).byte a' = s.byte a' := rfl
@[simp] theorem State.putCl_sideOf_frame (d l : Nat) (x : Cluster) (n' : Nat) : (s.putCl d l x).sideOf n' = s.sideOf n' := rfl
@[simp] theorem State.putCl_nd_frame (d l : Nat) (x : Cluster) : (s.putCl d l x).nd = s.nd := rfl
@[simp] theorem State.putCl_rg_frame (d l : Nat) (x : Cluster) (d' : Nat) (b' : Blk) (i' f' : Nat) : (s.putCl d l x).rg d' b' i' f' = s.rg d' b' i' f' := rfl

/-! ### putPh -/

@[simp] theorem State.putPh_pending (d p : Nat) (x : Phys) : (s.putPh d p x).pending = s.pending := rfl
@[simp] theorem State.putPh_part (d p : Nat) (x : Phys) : (s.putPh d p x).part = s.part := rfl
@[simp] theorem State.putPh_tick (d p : Nat) (x : Phys) : (s.putPh d p x).tick = s.tick := rfl
@[simp] theorem State.putPh_free (d p : Nat) (x : Phys) : (s.putPh d p x).free = s.free := rfl
@[simp] theorem State.putPh_mem (d p : Nat) (x : Phys) : (s.putPh d p x).mem = s.mem := rfl
@[simp] theorem State.putPh_side (d p : Nat) (x : Phys) : (s.putPh d p x).side = s.side := rfl
@[simp] theorem State.putPh_regs (d p : Nat) (x : Phys) : (s.putPh d p x).regs = s.regs := rfl
@[simp] theorem State.putPh_shadow (d p : Nat) (x : Phys) : (s.putPh d p x).shadow = s.shadow := rfl
@[simp] theorem State.putPh_classes (d p : Nat) (x : Phys) : (s.putPh d p x).classes = s.classes := rfl
@[simp] theorem State.putPh_ctxs (d p : Nat) (x : Phys) : (s.putPh d p x).ctxs = s.ctxs := rfl
@[simp] theorem State.putPh_hctx (d p : Nat) (x : Phys) : (s.putPh d p x).hctx = s.hctx := rfl
@[simp] theorem State.putPh_flights (d p : Nat) (x : Phys) : (s.putPh d p x).flights = s.flights := rfl
@[simp] theorem State.putPh_nextId (d p : Nat) (x : Phys) : (s.putPh d p x).nextId = s.nextId := rfl
@[simp] theorem State.putPh_clus (d p : Nat) (x : Phys) : (s.putPh d p x).clus = s.clus := rfl
@[simp] theorem State.putPh_dies (d p : Nat) (x : Phys) : (s.putPh d p x).dies = s.dies := rfl
@[simp] theorem State.putPh_routers (d p : Nat) (x : Phys) : (s.putPh d p x).routers = s.routers := rfl
@[simp] theorem State.putPh_ports (d p : Nat) (x : Phys) : (s.putPh d p x).ports = s.ports := rfl
@[simp] theorem State.putPh_links (d p : Nat) (x : Phys) : (s.putPh d p x).links = s.links := rfl
@[simp] theorem State.putPh_chans (d p : Nat) (x : Phys) : (s.putPh d p x).chans = s.chans := rfl
@[simp] theorem State.putPh_cels (d p : Nat) (x : Phys) : (s.putPh d p x).cels = s.cels := rfl
@[simp] theorem State.putPh_hbms (d p : Nat) (x : Phys) : (s.putPh d p x).hbms = s.hbms := rfl
@[simp] theorem State.putPh_modc (d p : Nat) (x : Phys) : (s.putPh d p x).modc = s.modc := rfl
@[simp] theorem State.putPh_errnStuck (d p : Nat) (x : Phys) : (s.putPh d p x).errnStuck = s.errnStuck := rfl
@[simp] theorem State.putPh_out (d p : Nat) (x : Phys) : (s.putPh d p x).out = s.out := rfl
@[simp] theorem State.putPh_die_frame (d p : Nat) (x : Phys) (d' : Nat) : (s.putPh d p x).die d' = s.die d' := rfl
@[simp] theorem State.putPh_router_frame (d p : Nat) (x : Phys) (d' : Nat) : (s.putPh d p x).router d' = s.router d' := rfl
@[simp] theorem State.putPh_link_frame (d p : Nat) (x : Phys) (d' : Nat) : (s.putPh d p x).link d' = s.link d' := rfl
@[simp] theorem State.putPh_cel_frame (d p : Nat) (x : Phys) (d' : Nat) : (s.putPh d p x).cel d' = s.cel d' := rfl
@[simp] theorem State.putPh_ctx_frame (d p : Nat) (x : Phys) (d' c' : Nat) : (s.putPh d p x).ctx d' c' = s.ctx d' c' := rfl
@[simp] theorem State.putPh_hc_frame (d p : Nat) (x : Phys) (c' : Nat) : (s.putPh d p x).hc c' = s.hc c' := rfl
@[simp] theorem State.putPh_cl_frame (d p : Nat) (x : Phys) (d' l' : Nat) : (s.putPh d p x).cl d' l' = s.cl d' l' := rfl
@[simp] theorem State.putPh_port_frame (d p : Nat) (x : Phys) (d' p' : Nat) : (s.putPh d p x).port d' p' = s.port d' p' := rfl
@[simp] theorem State.putPh_chan_frame (d p : Nat) (x : Phys) (d' c' h' : Nat) : (s.putPh d p x).chan d' c' h' = s.chan d' c' h' := rfl
@[simp] theorem State.putPh_hbm_frame (d p : Nat) (x : Phys) (d' k' : Nat) : (s.putPh d p x).hbm d' k' = s.hbm d' k' := rfl
@[simp] theorem State.putPh_reg_frame (d p : Nat) (x : Phys) (a' : Nat) : (s.putPh d p x).reg a' = s.reg a' := rfl
@[simp] theorem State.putPh_shad_frame (d p : Nat) (x : Phys) (a' : Nat) : (s.putPh d p x).shad a' = s.shad a' := rfl
@[simp] theorem State.putPh_byte_frame (d p : Nat) (x : Phys) (a' : Nat) : (s.putPh d p x).byte a' = s.byte a' := rfl
@[simp] theorem State.putPh_sideOf_frame (d p : Nat) (x : Phys) (n' : Nat) : (s.putPh d p x).sideOf n' = s.sideOf n' := rfl
@[simp] theorem State.putPh_nd_frame (d p : Nat) (x : Phys) : (s.putPh d p x).nd = s.nd := rfl
@[simp] theorem State.putPh_rg_frame (d p : Nat) (x : Phys) (d' : Nat) (b' : Blk) (i' f' : Nat) : (s.putPh d p x).rg d' b' i' f' = s.rg d' b' i' f' := rfl

/-! ### putPort -/

@[simp] theorem State.putPort_pending (d p : Nat) (x : Port) : (s.putPort d p x).pending = s.pending := rfl
@[simp] theorem State.putPort_part (d p : Nat) (x : Port) : (s.putPort d p x).part = s.part := rfl
@[simp] theorem State.putPort_tick (d p : Nat) (x : Port) : (s.putPort d p x).tick = s.tick := rfl
@[simp] theorem State.putPort_free (d p : Nat) (x : Port) : (s.putPort d p x).free = s.free := rfl
@[simp] theorem State.putPort_mem (d p : Nat) (x : Port) : (s.putPort d p x).mem = s.mem := rfl
@[simp] theorem State.putPort_side (d p : Nat) (x : Port) : (s.putPort d p x).side = s.side := rfl
@[simp] theorem State.putPort_regs (d p : Nat) (x : Port) : (s.putPort d p x).regs = s.regs := rfl
@[simp] theorem State.putPort_shadow (d p : Nat) (x : Port) : (s.putPort d p x).shadow = s.shadow := rfl
@[simp] theorem State.putPort_classes (d p : Nat) (x : Port) : (s.putPort d p x).classes = s.classes := rfl
@[simp] theorem State.putPort_ctxs (d p : Nat) (x : Port) : (s.putPort d p x).ctxs = s.ctxs := rfl
@[simp] theorem State.putPort_hctx (d p : Nat) (x : Port) : (s.putPort d p x).hctx = s.hctx := rfl
@[simp] theorem State.putPort_flights (d p : Nat) (x : Port) : (s.putPort d p x).flights = s.flights := rfl
@[simp] theorem State.putPort_nextId (d p : Nat) (x : Port) : (s.putPort d p x).nextId = s.nextId := rfl
@[simp] theorem State.putPort_clus (d p : Nat) (x : Port) : (s.putPort d p x).clus = s.clus := rfl
@[simp] theorem State.putPort_phys (d p : Nat) (x : Port) : (s.putPort d p x).phys = s.phys := rfl
@[simp] theorem State.putPort_dies (d p : Nat) (x : Port) : (s.putPort d p x).dies = s.dies := rfl
@[simp] theorem State.putPort_routers (d p : Nat) (x : Port) : (s.putPort d p x).routers = s.routers := rfl
@[simp] theorem State.putPort_links (d p : Nat) (x : Port) : (s.putPort d p x).links = s.links := rfl
@[simp] theorem State.putPort_chans (d p : Nat) (x : Port) : (s.putPort d p x).chans = s.chans := rfl
@[simp] theorem State.putPort_cels (d p : Nat) (x : Port) : (s.putPort d p x).cels = s.cels := rfl
@[simp] theorem State.putPort_hbms (d p : Nat) (x : Port) : (s.putPort d p x).hbms = s.hbms := rfl
@[simp] theorem State.putPort_modc (d p : Nat) (x : Port) : (s.putPort d p x).modc = s.modc := rfl
@[simp] theorem State.putPort_errnStuck (d p : Nat) (x : Port) : (s.putPort d p x).errnStuck = s.errnStuck := rfl
@[simp] theorem State.putPort_out (d p : Nat) (x : Port) : (s.putPort d p x).out = s.out := rfl
@[simp] theorem State.putPort_die_frame (d p : Nat) (x : Port) (d' : Nat) : (s.putPort d p x).die d' = s.die d' := rfl
@[simp] theorem State.putPort_router_frame (d p : Nat) (x : Port) (d' : Nat) : (s.putPort d p x).router d' = s.router d' := rfl
@[simp] theorem State.putPort_link_frame (d p : Nat) (x : Port) (d' : Nat) : (s.putPort d p x).link d' = s.link d' := rfl
@[simp] theorem State.putPort_cel_frame (d p : Nat) (x : Port) (d' : Nat) : (s.putPort d p x).cel d' = s.cel d' := rfl
@[simp] theorem State.putPort_ctx_frame (d p : Nat) (x : Port) (d' c' : Nat) : (s.putPort d p x).ctx d' c' = s.ctx d' c' := rfl
@[simp] theorem State.putPort_hc_frame (d p : Nat) (x : Port) (c' : Nat) : (s.putPort d p x).hc c' = s.hc c' := rfl
@[simp] theorem State.putPort_cl_frame (d p : Nat) (x : Port) (d' l' : Nat) : (s.putPort d p x).cl d' l' = s.cl d' l' := rfl
@[simp] theorem State.putPort_ph_frame (d p : Nat) (x : Port) (d' p' : Nat) : (s.putPort d p x).ph d' p' = s.ph d' p' := rfl
@[simp] theorem State.putPort_chan_frame (d p : Nat) (x : Port) (d' c' h' : Nat) : (s.putPort d p x).chan d' c' h' = s.chan d' c' h' := rfl
@[simp] theorem State.putPort_hbm_frame (d p : Nat) (x : Port) (d' k' : Nat) : (s.putPort d p x).hbm d' k' = s.hbm d' k' := rfl
@[simp] theorem State.putPort_reg_frame (d p : Nat) (x : Port) (a' : Nat) : (s.putPort d p x).reg a' = s.reg a' := rfl
@[simp] theorem State.putPort_shad_frame (d p : Nat) (x : Port) (a' : Nat) : (s.putPort d p x).shad a' = s.shad a' := rfl
@[simp] theorem State.putPort_byte_frame (d p : Nat) (x : Port) (a' : Nat) : (s.putPort d p x).byte a' = s.byte a' := rfl
@[simp] theorem State.putPort_sideOf_frame (d p : Nat) (x : Port) (n' : Nat) : (s.putPort d p x).sideOf n' = s.sideOf n' := rfl
@[simp] theorem State.putPort_nd_frame (d p : Nat) (x : Port) : (s.putPort d p x).nd = s.nd := rfl
@[simp] theorem State.putPort_rg_frame (d p : Nat) (x : Port) (d' : Nat) (b' : Blk) (i' f' : Nat) : (s.putPort d p x).rg d' b' i' f' = s.rg d' b' i' f' := rfl

/-! ### putChan -/

@[simp] theorem State.putChan_pending (d c h : Nat) (x : Chan) : (s.putChan d c h x).pending = s.pending := rfl
@[simp] theorem State.putChan_part (d c h : Nat) (x : Chan) : (s.putChan d c h x).part = s.part := rfl
@[simp] theorem State.putChan_tick (d c h : Nat) (x : Chan) : (s.putChan d c h x).tick = s.tick := rfl
@[simp] theorem State.putChan_free (d c h : Nat) (x : Chan) : (s.putChan d c h x).free = s.free := rfl
@[simp] theorem State.putChan_mem (d c h : Nat) (x : Chan) : (s.putChan d c h x).mem = s.mem := rfl
@[simp] theorem State.putChan_side (d c h : Nat) (x : Chan) : (s.putChan d c h x).side = s.side := rfl
@[simp] theorem State.putChan_regs (d c h : Nat) (x : Chan) : (s.putChan d c h x).regs = s.regs := rfl
@[simp] theorem State.putChan_shadow (d c h : Nat) (x : Chan) : (s.putChan d c h x).shadow = s.shadow := rfl
@[simp] theorem State.putChan_classes (d c h : Nat) (x : Chan) : (s.putChan d c h x).classes = s.classes := rfl
@[simp] theorem State.putChan_ctxs (d c h : Nat) (x : Chan) : (s.putChan d c h x).ctxs = s.ctxs := rfl
@[simp] theorem State.putChan_hctx (d c h : Nat) (x : Chan) : (s.putChan d c h x).hctx = s.hctx := rfl
@[simp] theorem State.putChan_flights (d c h : Nat) (x : Chan) : (s.putChan d c h x).flights = s.flights := rfl
@[simp] theorem State.putChan_nextId (d c h : Nat) (x : Chan) : (s.putChan d c h x).nextId = s.nextId := rfl
@[simp] theorem State.putChan_clus (d c h : Nat) (x : Chan) : (s.putChan d c h x).clus = s.clus := rfl
@[simp] theorem State.putChan_phys (d c h : Nat) (x : Chan) : (s.putChan d c h x).phys = s.phys := rfl
@[simp] theorem State.putChan_dies (d c h : Nat) (x : Chan) : (s.putChan d c h x).dies = s.dies := rfl
@[simp] theorem State.putChan_routers (d c h : Nat) (x : Chan) : (s.putChan d c h x).routers = s.routers := rfl
@[simp] theorem State.putChan_ports (d c h : Nat) (x : Chan) : (s.putChan d c h x).ports = s.ports := rfl
@[simp] theorem State.putChan_links (d c h : Nat) (x : Chan) : (s.putChan d c h x).links = s.links := rfl
@[simp] theorem State.putChan_cels (d c h : Nat) (x : Chan) : (s.putChan d c h x).cels = s.cels := rfl
@[simp] theorem State.putChan_hbms (d c h : Nat) (x : Chan) : (s.putChan d c h x).hbms = s.hbms := rfl
@[simp] theorem State.putChan_modc (d c h : Nat) (x : Chan) : (s.putChan d c h x).modc = s.modc := rfl
@[simp] theorem State.putChan_errnStuck (d c h : Nat) (x : Chan) : (s.putChan d c h x).errnStuck = s.errnStuck := rfl
@[simp] theorem State.putChan_out (d c h : Nat) (x : Chan) : (s.putChan d c h x).out = s.out := rfl
@[simp] theorem State.putChan_die_frame (d c h : Nat) (x : Chan) (d' : Nat) : (s.putChan d c h x).die d' = s.die d' := rfl
@[simp] theorem State.putChan_router_frame (d c h : Nat) (x : Chan) (d' : Nat) : (s.putChan d c h x).router d' = s.router d' := rfl
@[simp] theorem State.putChan_link_frame (d c h : Nat) (x : Chan) (d' : Nat) : (s.putChan d c h x).link d' = s.link d' := rfl
@[simp] theorem State.putChan_cel_frame (d c h : Nat) (x : Chan) (d' : Nat) : (s.putChan d c h x).cel d' = s.cel d' := rfl
@[simp] theorem State.putChan_ctx_frame (d c h : Nat) (x : Chan) (d' c' : Nat) : (s.putChan d c h x).ctx d' c' = s.ctx d' c' := rfl
@[simp] theorem State.putChan_hc_frame (d c h : Nat) (x : Chan) (c' : Nat) : (s.putChan d c h x).hc c' = s.hc c' := rfl
@[simp] theorem State.putChan_cl_frame (d c h : Nat) (x : Chan) (d' l' : Nat) : (s.putChan d c h x).cl d' l' = s.cl d' l' := rfl
@[simp] theorem State.putChan_ph_frame (d c h : Nat) (x : Chan) (d' p' : Nat) : (s.putChan d c h x).ph d' p' = s.ph d' p' := rfl
@[simp] theorem State.putChan_port_frame (d c h : Nat) (x : Chan) (d' p' : Nat) : (s.putChan d c h x).port d' p' = s.port d' p' := rfl
@[simp] theorem State.putChan_hbm_frame (d c h : Nat) (x : Chan) (d' k' : Nat) : (s.putChan d c h x).hbm d' k' = s.hbm d' k' := rfl
@[simp] theorem State.putChan_reg_frame (d c h : Nat) (x : Chan) (a' : Nat) : (s.putChan d c h x).reg a' = s.reg a' := rfl
@[simp] theorem State.putChan_shad_frame (d c h : Nat) (x : Chan) (a' : Nat) : (s.putChan d c h x).shad a' = s.shad a' := rfl
@[simp] theorem State.putChan_byte_frame (d c h : Nat) (x : Chan) (a' : Nat) : (s.putChan d c h x).byte a' = s.byte a' := rfl
@[simp] theorem State.putChan_sideOf_frame (d c h : Nat) (x : Chan) (n' : Nat) : (s.putChan d c h x).sideOf n' = s.sideOf n' := rfl
@[simp] theorem State.putChan_nd_frame (d c h : Nat) (x : Chan) : (s.putChan d c h x).nd = s.nd := rfl
@[simp] theorem State.putChan_rg_frame (d c h : Nat) (x : Chan) (d' : Nat) (b' : Blk) (i' f' : Nat) : (s.putChan d c h x).rg d' b' i' f' = s.rg d' b' i' f' := rfl

/-! ### putHbm -/

@[simp] theorem State.putHbm_pending (d k : Nat) (x : Hbm) : (s.putHbm d k x).pending = s.pending := rfl
@[simp] theorem State.putHbm_part (d k : Nat) (x : Hbm) : (s.putHbm d k x).part = s.part := rfl
@[simp] theorem State.putHbm_tick (d k : Nat) (x : Hbm) : (s.putHbm d k x).tick = s.tick := rfl
@[simp] theorem State.putHbm_free (d k : Nat) (x : Hbm) : (s.putHbm d k x).free = s.free := rfl
@[simp] theorem State.putHbm_mem (d k : Nat) (x : Hbm) : (s.putHbm d k x).mem = s.mem := rfl
@[simp] theorem State.putHbm_side (d k : Nat) (x : Hbm) : (s.putHbm d k x).side = s.side := rfl
@[simp] theorem State.putHbm_regs (d k : Nat) (x : Hbm) : (s.putHbm d k x).regs = s.regs := rfl
@[simp] theorem State.putHbm_shadow (d k : Nat) (x : Hbm) : (s.putHbm d k x).shadow = s.shadow := rfl
@[simp] theorem State.putHbm_classes (d k : Nat) (x : Hbm) : (s.putHbm d k x).classes = s.classes := rfl
@[simp] theorem State.putHbm_ctxs (d k : Nat) (x : Hbm) : (s.putHbm d k x).ctxs = s.ctxs := rfl
@[simp] theorem State.putHbm_hctx (d k : Nat) (x : Hbm) : (s.putHbm d k x).hctx = s.hctx := rfl
@[simp] theorem State.putHbm_flights (d k : Nat) (x : Hbm) : (s.putHbm d k x).flights = s.flights := rfl
@[simp] theorem State.putHbm_nextId (d k : Nat) (x : Hbm) : (s.putHbm d k x).nextId = s.nextId := rfl
@[simp] theorem State.putHbm_clus (d k : Nat) (x : Hbm) : (s.putHbm d k x).clus = s.clus := rfl
@[simp] theorem State.putHbm_phys (d k : Nat) (x : Hbm) : (s.putHbm d k x).phys = s.phys := rfl
@[simp] theorem State.putHbm_dies (d k : Nat) (x : Hbm) : (s.putHbm d k x).dies = s.dies := rfl
@[simp] theorem State.putHbm_routers (d k : Nat) (x : Hbm) : (s.putHbm d k x).routers = s.routers := rfl
@[simp] theorem State.putHbm_ports (d k : Nat) (x : Hbm) : (s.putHbm d k x).ports = s.ports := rfl
@[simp] theorem State.putHbm_links (d k : Nat) (x : Hbm) : (s.putHbm d k x).links = s.links := rfl
@[simp] theorem State.putHbm_chans (d k : Nat) (x : Hbm) : (s.putHbm d k x).chans = s.chans := rfl
@[simp] theorem State.putHbm_cels (d k : Nat) (x : Hbm) : (s.putHbm d k x).cels = s.cels := rfl
@[simp] theorem State.putHbm_modc (d k : Nat) (x : Hbm) : (s.putHbm d k x).modc = s.modc := rfl
@[simp] theorem State.putHbm_errnStuck (d k : Nat) (x : Hbm) : (s.putHbm d k x).errnStuck = s.errnStuck := rfl
@[simp] theorem State.putHbm_out (d k : Nat) (x : Hbm) : (s.putHbm d k x).out = s.out := rfl
@[simp] theorem State.putHbm_die_frame (d k : Nat) (x : Hbm) (d' : Nat) : (s.putHbm d k x).die d' = s.die d' := rfl
@[simp] theorem State.putHbm_router_frame (d k : Nat) (x : Hbm) (d' : Nat) : (s.putHbm d k x).router d' = s.router d' := rfl
@[simp] theorem State.putHbm_link_frame (d k : Nat) (x : Hbm) (d' : Nat) : (s.putHbm d k x).link d' = s.link d' := rfl
@[simp] theorem State.putHbm_cel_frame (d k : Nat) (x : Hbm) (d' : Nat) : (s.putHbm d k x).cel d' = s.cel d' := rfl
@[simp] theorem State.putHbm_ctx_frame (d k : Nat) (x : Hbm) (d' c' : Nat) : (s.putHbm d k x).ctx d' c' = s.ctx d' c' := rfl
@[simp] theorem State.putHbm_hc_frame (d k : Nat) (x : Hbm) (c' : Nat) : (s.putHbm d k x).hc c' = s.hc c' := rfl
@[simp] theorem State.putHbm_cl_frame (d k : Nat) (x : Hbm) (d' l' : Nat) : (s.putHbm d k x).cl d' l' = s.cl d' l' := rfl
@[simp] theorem State.putHbm_ph_frame (d k : Nat) (x : Hbm) (d' p' : Nat) : (s.putHbm d k x).ph d' p' = s.ph d' p' := rfl
@[simp] theorem State.putHbm_port_frame (d k : Nat) (x : Hbm) (d' p' : Nat) : (s.putHbm d k x).port d' p' = s.port d' p' := rfl
@[simp] theorem State.putHbm_chan_frame (d k : Nat) (x : Hbm) (d' c' h' : Nat) : (s.putHbm d k x).chan d' c' h' = s.chan d' c' h' := rfl
@[simp] theorem State.putHbm_reg_frame (d k : Nat) (x : Hbm) (a' : Nat) : (s.putHbm d k x).reg a' = s.reg a' := rfl
@[simp] theorem State.putHbm_shad_frame (d k : Nat) (x : Hbm) (a' : Nat) : (s.putHbm d k x).shad a' = s.shad a' := rfl
@[simp] theorem State.putHbm_byte_frame (d k : Nat) (x : Hbm) (a' : Nat) : (s.putHbm d k x).byte a' = s.byte a' := rfl
@[simp] theorem State.putHbm_sideOf_frame (d k : Nat) (x : Hbm) (n' : Nat) : (s.putHbm d k x).sideOf n' = s.sideOf n' := rfl
@[simp] theorem State.putHbm_nd_frame (d k : Nat) (x : Hbm) : (s.putHbm d k x).nd = s.nd := rfl
@[simp] theorem State.putHbm_rg_frame (d k : Nat) (x : Hbm) (d' : Nat) (b' : Blk) (i' f' : Nat) : (s.putHbm d k x).rg d' b' i' f' = s.rg d' b' i' f' := rfl

/-! ### setReg -/

/-- setReg as a record update. -/
theorem State.setReg_eq (a : Nat) (v : Word) : s.setReg a v =
    { s with regs := smPut (regReset s.part a) s.regs a v } := rfl

theorem State.setRegWith_pending (m : List (Nat × Word)) : ({ s with regs := m } : State).pending = s.pending := rfl
@[simp] theorem State.setReg_pending (a : Nat) (v : Word) : (s.setReg a v).pending = s.pending :=
  (congrArg (fun t => State.pending t) (s.setReg_eq a v)).trans (s.setRegWith_pending _ )
theorem State.setRegWith_part (m : List (Nat × Word)) : ({ s with regs := m } : State).part = s.part := rfl
@[simp] theorem State.setReg_part (a : Nat) (v : Word) : (s.setReg a v).part = s.part :=
  (congrArg (fun t => State.part t) (s.setReg_eq a v)).trans (s.setRegWith_part _ )
theorem State.setRegWith_tick (m : List (Nat × Word)) : ({ s with regs := m } : State).tick = s.tick := rfl
@[simp] theorem State.setReg_tick (a : Nat) (v : Word) : (s.setReg a v).tick = s.tick :=
  (congrArg (fun t => State.tick t) (s.setReg_eq a v)).trans (s.setRegWith_tick _ )
theorem State.setRegWith_free (m : List (Nat × Word)) : ({ s with regs := m } : State).free = s.free := rfl
@[simp] theorem State.setReg_free (a : Nat) (v : Word) : (s.setReg a v).free = s.free :=
  (congrArg (fun t => State.free t) (s.setReg_eq a v)).trans (s.setRegWith_free _ )
theorem State.setRegWith_mem (m : List (Nat × Word)) : ({ s with regs := m } : State).mem = s.mem := rfl
@[simp] theorem State.setReg_mem (a : Nat) (v : Word) : (s.setReg a v).mem = s.mem :=
  (congrArg (fun t => State.mem t) (s.setReg_eq a v)).trans (s.setRegWith_mem _ )
theorem State.setRegWith_side (m : List (Nat × Word)) : ({ s with regs := m } : State).side = s.side := rfl
@[simp] theorem State.setReg_side (a : Nat) (v : Word) : (s.setReg a v).side = s.side :=
  (congrArg (fun t => State.side t) (s.setReg_eq a v)).trans (s.setRegWith_side _ )
theorem State.setRegWith_shadow (m : List (Nat × Word)) : ({ s with regs := m } : State).shadow = s.shadow := rfl
@[simp] theorem State.setReg_shadow (a : Nat) (v : Word) : (s.setReg a v).shadow = s.shadow :=
  (congrArg (fun t => State.shadow t) (s.setReg_eq a v)).trans (s.setRegWith_shadow _ )
theorem State.setRegWith_classes (m : List (Nat × Word)) : ({ s with regs := m } : State).classes = s.classes := rfl
@[simp] theorem State.setReg_classes (a : Nat) (v : Word) : (s.setReg a v).classes = s.classes :=
  (congrArg (fun t => State.classes t) (s.setReg_eq a v)).trans (s.setRegWith_classes _ )
theorem State.setRegWith_ctxs (m : List (Nat × Word)) : ({ s with regs := m } : State).ctxs = s.ctxs := rfl
@[simp] theorem State.setReg_ctxs (a : Nat) (v : Word) : (s.setReg a v).ctxs = s.ctxs :=
  (congrArg (fun t => State.ctxs t) (s.setReg_eq a v)).trans (s.setRegWith_ctxs _ )
theorem State.setRegWith_hctx (m : List (Nat × Word)) : ({ s with regs := m } : State).hctx = s.hctx := rfl
@[simp] theorem State.setReg_hctx (a : Nat) (v : Word) : (s.setReg a v).hctx = s.hctx :=
  (congrArg (fun t => State.hctx t) (s.setReg_eq a v)).trans (s.setRegWith_hctx _ )
theorem State.setRegWith_flights (m : List (Nat × Word)) : ({ s with regs := m } : State).flights = s.flights := rfl
@[simp] theorem State.setReg_flights (a : Nat) (v : Word) : (s.setReg a v).flights = s.flights :=
  (congrArg (fun t => State.flights t) (s.setReg_eq a v)).trans (s.setRegWith_flights _ )
theorem State.setRegWith_nextId (m : List (Nat × Word)) : ({ s with regs := m } : State).nextId = s.nextId := rfl
@[simp] theorem State.setReg_nextId (a : Nat) (v : Word) : (s.setReg a v).nextId = s.nextId :=
  (congrArg (fun t => State.nextId t) (s.setReg_eq a v)).trans (s.setRegWith_nextId _ )
theorem State.setRegWith_clus (m : List (Nat × Word)) : ({ s with regs := m } : State).clus = s.clus := rfl
@[simp] theorem State.setReg_clus (a : Nat) (v : Word) : (s.setReg a v).clus = s.clus :=
  (congrArg (fun t => State.clus t) (s.setReg_eq a v)).trans (s.setRegWith_clus _ )
theorem State.setRegWith_phys (m : List (Nat × Word)) : ({ s with regs := m } : State).phys = s.phys := rfl
@[simp] theorem State.setReg_phys (a : Nat) (v : Word) : (s.setReg a v).phys = s.phys :=
  (congrArg (fun t => State.phys t) (s.setReg_eq a v)).trans (s.setRegWith_phys _ )
theorem State.setRegWith_dies (m : List (Nat × Word)) : ({ s with regs := m } : State).dies = s.dies := rfl
@[simp] theorem State.setReg_dies (a : Nat) (v : Word) : (s.setReg a v).dies = s.dies :=
  (congrArg (fun t => State.dies t) (s.setReg_eq a v)).trans (s.setRegWith_dies _ )
theorem State.setRegWith_routers (m : List (Nat × Word)) : ({ s with regs := m } : State).routers = s.routers := rfl
@[simp] theorem State.setReg_routers (a : Nat) (v : Word) : (s.setReg a v).routers = s.routers :=
  (congrArg (fun t => State.routers t) (s.setReg_eq a v)).trans (s.setRegWith_routers _ )
theorem State.setRegWith_ports (m : List (Nat × Word)) : ({ s with regs := m } : State).ports = s.ports := rfl
@[simp] theorem State.setReg_ports (a : Nat) (v : Word) : (s.setReg a v).ports = s.ports :=
  (congrArg (fun t => State.ports t) (s.setReg_eq a v)).trans (s.setRegWith_ports _ )
theorem State.setRegWith_links (m : List (Nat × Word)) : ({ s with regs := m } : State).links = s.links := rfl
@[simp] theorem State.setReg_links (a : Nat) (v : Word) : (s.setReg a v).links = s.links :=
  (congrArg (fun t => State.links t) (s.setReg_eq a v)).trans (s.setRegWith_links _ )
theorem State.setRegWith_chans (m : List (Nat × Word)) : ({ s with regs := m } : State).chans = s.chans := rfl
@[simp] theorem State.setReg_chans (a : Nat) (v : Word) : (s.setReg a v).chans = s.chans :=
  (congrArg (fun t => State.chans t) (s.setReg_eq a v)).trans (s.setRegWith_chans _ )
theorem State.setRegWith_cels (m : List (Nat × Word)) : ({ s with regs := m } : State).cels = s.cels := rfl
@[simp] theorem State.setReg_cels (a : Nat) (v : Word) : (s.setReg a v).cels = s.cels :=
  (congrArg (fun t => State.cels t) (s.setReg_eq a v)).trans (s.setRegWith_cels _ )
theorem State.setRegWith_hbms (m : List (Nat × Word)) : ({ s with regs := m } : State).hbms = s.hbms := rfl
@[simp] theorem State.setReg_hbms (a : Nat) (v : Word) : (s.setReg a v).hbms = s.hbms :=
  (congrArg (fun t => State.hbms t) (s.setReg_eq a v)).trans (s.setRegWith_hbms _ )
theorem State.setRegWith_modc (m : List (Nat × Word)) : ({ s with regs := m } : State).modc = s.modc := rfl
@[simp] theorem State.setReg_modc (a : Nat) (v : Word) : (s.setReg a v).modc = s.modc :=
  (congrArg (fun t => State.modc t) (s.setReg_eq a v)).trans (s.setRegWith_modc _ )
theorem State.setRegWith_errnStuck (m : List (Nat × Word)) : ({ s with regs := m } : State).errnStuck = s.errnStuck := rfl
@[simp] theorem State.setReg_errnStuck (a : Nat) (v : Word) : (s.setReg a v).errnStuck = s.errnStuck :=
  (congrArg (fun t => State.errnStuck t) (s.setReg_eq a v)).trans (s.setRegWith_errnStuck _ )
theorem State.setRegWith_out (m : List (Nat × Word)) : ({ s with regs := m } : State).out = s.out := rfl
@[simp] theorem State.setReg_out (a : Nat) (v : Word) : (s.setReg a v).out = s.out :=
  (congrArg (fun t => State.out t) (s.setReg_eq a v)).trans (s.setRegWith_out _ )
theorem State.setRegWith_die_frame (m : List (Nat × Word)) (d' : Nat) : ({ s with regs := m } : State).die d' = s.die d' := rfl
@[simp] theorem State.setReg_die_frame (a : Nat) (v : Word) (d' : Nat) : (s.setReg a v).die d' = s.die d' :=
  (congrArg (fun t => State.die t d') (s.setReg_eq a v)).trans (s.setRegWith_die_frame _ d')
theorem State.setRegWith_router_frame (m : List (Nat × Word)) (d' : Nat) : ({ s with regs := m } : State).router d' = s.router d' := rfl
@[simp] theorem State.setReg_router_frame (a : Nat) (v : Word) (d' : Nat) : (s.setReg a v).router d' = s.router d' :=
  (congrArg (fun t => State.router t d') (s.setReg_eq a v)).trans (s.setRegWith_router_frame _ d')
theorem State.setRegWith_link_frame (m : List (Nat × Word)) (d' : Nat) : ({ s with regs := m } : State).link d' = s.link d' := rfl
@[simp] theorem State.setReg_link_frame (a : Nat) (v : Word) (d' : Nat) : (s.setReg a v).link d' = s.link d' :=
  (congrArg (fun t => State.link t d') (s.setReg_eq a v)).trans (s.setRegWith_link_frame _ d')
theorem State.setRegWith_cel_frame (m : List (Nat × Word)) (d' : Nat) : ({ s with regs := m } : State).cel d' = s.cel d' := rfl
@[simp] theorem State.setReg_cel_frame (a : Nat) (v : Word) (d' : Nat) : (s.setReg a v).cel d' = s.cel d' :=
  (congrArg (fun t => State.cel t d') (s.setReg_eq a v)).trans (s.setRegWith_cel_frame _ d')
theorem State.setRegWith_ctx_frame (m : List (Nat × Word)) (d' c' : Nat) : ({ s with regs := m } : State).ctx d' c' = s.ctx d' c' := rfl
@[simp] theorem State.setReg_ctx_frame (a : Nat) (v : Word) (d' c' : Nat) : (s.setReg a v).ctx d' c' = s.ctx d' c' :=
  (congrArg (fun t => State.ctx t d' c') (s.setReg_eq a v)).trans (s.setRegWith_ctx_frame _ d' c')
theorem State.setRegWith_hc_frame (m : List (Nat × Word)) (c' : Nat) : ({ s with regs := m } : State).hc c' = s.hc c' := rfl
@[simp] theorem State.setReg_hc_frame (a : Nat) (v : Word) (c' : Nat) : (s.setReg a v).hc c' = s.hc c' :=
  (congrArg (fun t => State.hc t c') (s.setReg_eq a v)).trans (s.setRegWith_hc_frame _ c')
theorem State.setRegWith_cl_frame (m : List (Nat × Word)) (d' l' : Nat) : ({ s with regs := m } : State).cl d' l' = s.cl d' l' := rfl
@[simp] theorem State.setReg_cl_frame (a : Nat) (v : Word) (d' l' : Nat) : (s.setReg a v).cl d' l' = s.cl d' l' :=
  (congrArg (fun t => State.cl t d' l') (s.setReg_eq a v)).trans (s.setRegWith_cl_frame _ d' l')
theorem State.setRegWith_ph_frame (m : List (Nat × Word)) (d' p' : Nat) : ({ s with regs := m } : State).ph d' p' = s.ph d' p' := rfl
@[simp] theorem State.setReg_ph_frame (a : Nat) (v : Word) (d' p' : Nat) : (s.setReg a v).ph d' p' = s.ph d' p' :=
  (congrArg (fun t => State.ph t d' p') (s.setReg_eq a v)).trans (s.setRegWith_ph_frame _ d' p')
theorem State.setRegWith_port_frame (m : List (Nat × Word)) (d' p' : Nat) : ({ s with regs := m } : State).port d' p' = s.port d' p' := rfl
@[simp] theorem State.setReg_port_frame (a : Nat) (v : Word) (d' p' : Nat) : (s.setReg a v).port d' p' = s.port d' p' :=
  (congrArg (fun t => State.port t d' p') (s.setReg_eq a v)).trans (s.setRegWith_port_frame _ d' p')
theorem State.setRegWith_chan_frame (m : List (Nat × Word)) (d' c' h' : Nat) : ({ s with regs := m } : State).chan d' c' h' = s.chan d' c' h' := rfl
@[simp] theorem State.setReg_chan_frame (a : Nat) (v : Word) (d' c' h' : Nat) : (s.setReg a v).chan d' c' h' = s.chan d' c' h' :=
  (congrArg (fun t => State.chan t d' c' h') (s.setReg_eq a v)).trans (s.setRegWith_chan_frame _ d' c' h')
theorem State.setRegWith_hbm_frame (m : List (Nat × Word)) (d' k' : Nat) : ({ s with regs := m } : State).hbm d' k' = s.hbm d' k' := rfl
@[simp] theorem State.setReg_hbm_frame (a : Nat) (v : Word) (d' k' : Nat) : (s.setReg a v).hbm d' k' = s.hbm d' k' :=
  (congrArg (fun t => State.hbm t d' k') (s.setReg_eq a v)).trans (s.setRegWith_hbm_frame _ d' k')
theorem State.setRegWith_shad_frame (m : List (Nat × Word)) (a' : Nat) : ({ s with regs := m } : State).shad a' = s.shad a' := rfl
@[simp] theorem State.setReg_shad_frame (a : Nat) (v : Word) (a' : Nat) : (s.setReg a v).shad a' = s.shad a' :=
  (congrArg (fun t => State.shad t a') (s.setReg_eq a v)).trans (s.setRegWith_shad_frame _ a')
theorem State.setRegWith_byte_frame (m : List (Nat × Word)) (a' : Nat) : ({ s with regs := m } : State).byte a' = s.byte a' := rfl
@[simp] theorem State.setReg_byte_frame (a : Nat) (v : Word) (a' : Nat) : (s.setReg a v).byte a' = s.byte a' :=
  (congrArg (fun t => State.byte t a') (s.setReg_eq a v)).trans (s.setRegWith_byte_frame _ a')
theorem State.setRegWith_sideOf_frame (m : List (Nat × Word)) (n' : Nat) : ({ s with regs := m } : State).sideOf n' = s.sideOf n' := rfl
@[simp] theorem State.setReg_sideOf_frame (a : Nat) (v : Word) (n' : Nat) : (s.setReg a v).sideOf n' = s.sideOf n' :=
  (congrArg (fun t => State.sideOf t n') (s.setReg_eq a v)).trans (s.setRegWith_sideOf_frame _ n')
theorem State.setRegWith_nd_frame (m : List (Nat × Word)) : ({ s with regs := m } : State).nd = s.nd := rfl
@[simp] theorem State.setReg_nd_frame (a : Nat) (v : Word) : (s.setReg a v).nd = s.nd :=
  (congrArg (fun t => State.nd t) (s.setReg_eq a v)).trans (s.setRegWith_nd_frame _ )

/-! ### setShad -/

/-- setShad as a record update. -/
theorem State.setShad_eq (a : Nat) (v : Word) : s.setShad a v =
    { s with shadow := smPut (regReset s.part a) s.shadow a v } := rfl

theorem State.setShadWith_pending (m : List (Nat × Word)) : ({ s with shadow := m } : State).pending = s.pending := rfl
@[simp] theorem State.setShad_pending (a : Nat) (v : Word) : (s.setShad a v).pending = s.pending :=
  (congrArg (fun t => State.pending t) (s.setShad_eq a v)).trans (s.setShadWith_pending _ )
theorem State.setShadWith_part (m : List (Nat × Word)) : ({ s with shadow := m } : State).part = s.part := rfl
@[simp] theorem State.setShad_part (a : Nat) (v : Word) : (s.setShad a v).part = s.part :=
  (congrArg (fun t => State.part t) (s.setShad_eq a v)).trans (s.setShadWith_part _ )
theorem State.setShadWith_tick (m : List (Nat × Word)) : ({ s with shadow := m } : State).tick = s.tick := rfl
@[simp] theorem State.setShad_tick (a : Nat) (v : Word) : (s.setShad a v).tick = s.tick :=
  (congrArg (fun t => State.tick t) (s.setShad_eq a v)).trans (s.setShadWith_tick _ )
theorem State.setShadWith_free (m : List (Nat × Word)) : ({ s with shadow := m } : State).free = s.free := rfl
@[simp] theorem State.setShad_free (a : Nat) (v : Word) : (s.setShad a v).free = s.free :=
  (congrArg (fun t => State.free t) (s.setShad_eq a v)).trans (s.setShadWith_free _ )
theorem State.setShadWith_mem (m : List (Nat × Word)) : ({ s with shadow := m } : State).mem = s.mem := rfl
@[simp] theorem State.setShad_mem (a : Nat) (v : Word) : (s.setShad a v).mem = s.mem :=
  (congrArg (fun t => State.mem t) (s.setShad_eq a v)).trans (s.setShadWith_mem _ )
theorem State.setShadWith_side (m : List (Nat × Word)) : ({ s with shadow := m } : State).side = s.side := rfl
@[simp] theorem State.setShad_side (a : Nat) (v : Word) : (s.setShad a v).side = s.side :=
  (congrArg (fun t => State.side t) (s.setShad_eq a v)).trans (s.setShadWith_side _ )
theorem State.setShadWith_regs (m : List (Nat × Word)) : ({ s with shadow := m } : State).regs = s.regs := rfl
@[simp] theorem State.setShad_regs (a : Nat) (v : Word) : (s.setShad a v).regs = s.regs :=
  (congrArg (fun t => State.regs t) (s.setShad_eq a v)).trans (s.setShadWith_regs _ )
theorem State.setShadWith_classes (m : List (Nat × Word)) : ({ s with shadow := m } : State).classes = s.classes := rfl
@[simp] theorem State.setShad_classes (a : Nat) (v : Word) : (s.setShad a v).classes = s.classes :=
  (congrArg (fun t => State.classes t) (s.setShad_eq a v)).trans (s.setShadWith_classes _ )
theorem State.setShadWith_ctxs (m : List (Nat × Word)) : ({ s with shadow := m } : State).ctxs = s.ctxs := rfl
@[simp] theorem State.setShad_ctxs (a : Nat) (v : Word) : (s.setShad a v).ctxs = s.ctxs :=
  (congrArg (fun t => State.ctxs t) (s.setShad_eq a v)).trans (s.setShadWith_ctxs _ )
theorem State.setShadWith_hctx (m : List (Nat × Word)) : ({ s with shadow := m } : State).hctx = s.hctx := rfl
@[simp] theorem State.setShad_hctx (a : Nat) (v : Word) : (s.setShad a v).hctx = s.hctx :=
  (congrArg (fun t => State.hctx t) (s.setShad_eq a v)).trans (s.setShadWith_hctx _ )
theorem State.setShadWith_flights (m : List (Nat × Word)) : ({ s with shadow := m } : State).flights = s.flights := rfl
@[simp] theorem State.setShad_flights (a : Nat) (v : Word) : (s.setShad a v).flights = s.flights :=
  (congrArg (fun t => State.flights t) (s.setShad_eq a v)).trans (s.setShadWith_flights _ )
theorem State.setShadWith_nextId (m : List (Nat × Word)) : ({ s with shadow := m } : State).nextId = s.nextId := rfl
@[simp] theorem State.setShad_nextId (a : Nat) (v : Word) : (s.setShad a v).nextId = s.nextId :=
  (congrArg (fun t => State.nextId t) (s.setShad_eq a v)).trans (s.setShadWith_nextId _ )
theorem State.setShadWith_clus (m : List (Nat × Word)) : ({ s with shadow := m } : State).clus = s.clus := rfl
@[simp] theorem State.setShad_clus (a : Nat) (v : Word) : (s.setShad a v).clus = s.clus :=
  (congrArg (fun t => State.clus t) (s.setShad_eq a v)).trans (s.setShadWith_clus _ )
theorem State.setShadWith_phys (m : List (Nat × Word)) : ({ s with shadow := m } : State).phys = s.phys := rfl
@[simp] theorem State.setShad_phys (a : Nat) (v : Word) : (s.setShad a v).phys = s.phys :=
  (congrArg (fun t => State.phys t) (s.setShad_eq a v)).trans (s.setShadWith_phys _ )
theorem State.setShadWith_dies (m : List (Nat × Word)) : ({ s with shadow := m } : State).dies = s.dies := rfl
@[simp] theorem State.setShad_dies (a : Nat) (v : Word) : (s.setShad a v).dies = s.dies :=
  (congrArg (fun t => State.dies t) (s.setShad_eq a v)).trans (s.setShadWith_dies _ )
theorem State.setShadWith_routers (m : List (Nat × Word)) : ({ s with shadow := m } : State).routers = s.routers := rfl
@[simp] theorem State.setShad_routers (a : Nat) (v : Word) : (s.setShad a v).routers = s.routers :=
  (congrArg (fun t => State.routers t) (s.setShad_eq a v)).trans (s.setShadWith_routers _ )
theorem State.setShadWith_ports (m : List (Nat × Word)) : ({ s with shadow := m } : State).ports = s.ports := rfl
@[simp] theorem State.setShad_ports (a : Nat) (v : Word) : (s.setShad a v).ports = s.ports :=
  (congrArg (fun t => State.ports t) (s.setShad_eq a v)).trans (s.setShadWith_ports _ )
theorem State.setShadWith_links (m : List (Nat × Word)) : ({ s with shadow := m } : State).links = s.links := rfl
@[simp] theorem State.setShad_links (a : Nat) (v : Word) : (s.setShad a v).links = s.links :=
  (congrArg (fun t => State.links t) (s.setShad_eq a v)).trans (s.setShadWith_links _ )
theorem State.setShadWith_chans (m : List (Nat × Word)) : ({ s with shadow := m } : State).chans = s.chans := rfl
@[simp] theorem State.setShad_chans (a : Nat) (v : Word) : (s.setShad a v).chans = s.chans :=
  (congrArg (fun t => State.chans t) (s.setShad_eq a v)).trans (s.setShadWith_chans _ )
theorem State.setShadWith_cels (m : List (Nat × Word)) : ({ s with shadow := m } : State).cels = s.cels := rfl
@[simp] theorem State.setShad_cels (a : Nat) (v : Word) : (s.setShad a v).cels = s.cels :=
  (congrArg (fun t => State.cels t) (s.setShad_eq a v)).trans (s.setShadWith_cels _ )
theorem State.setShadWith_hbms (m : List (Nat × Word)) : ({ s with shadow := m } : State).hbms = s.hbms := rfl
@[simp] theorem State.setShad_hbms (a : Nat) (v : Word) : (s.setShad a v).hbms = s.hbms :=
  (congrArg (fun t => State.hbms t) (s.setShad_eq a v)).trans (s.setShadWith_hbms _ )
theorem State.setShadWith_modc (m : List (Nat × Word)) : ({ s with shadow := m } : State).modc = s.modc := rfl
@[simp] theorem State.setShad_modc (a : Nat) (v : Word) : (s.setShad a v).modc = s.modc :=
  (congrArg (fun t => State.modc t) (s.setShad_eq a v)).trans (s.setShadWith_modc _ )
theorem State.setShadWith_errnStuck (m : List (Nat × Word)) : ({ s with shadow := m } : State).errnStuck = s.errnStuck := rfl
@[simp] theorem State.setShad_errnStuck (a : Nat) (v : Word) : (s.setShad a v).errnStuck = s.errnStuck :=
  (congrArg (fun t => State.errnStuck t) (s.setShad_eq a v)).trans (s.setShadWith_errnStuck _ )
theorem State.setShadWith_out (m : List (Nat × Word)) : ({ s with shadow := m } : State).out = s.out := rfl
@[simp] theorem State.setShad_out (a : Nat) (v : Word) : (s.setShad a v).out = s.out :=
  (congrArg (fun t => State.out t) (s.setShad_eq a v)).trans (s.setShadWith_out _ )
theorem State.setShadWith_die_frame (m : List (Nat × Word)) (d' : Nat) : ({ s with shadow := m } : State).die d' = s.die d' := rfl
@[simp] theorem State.setShad_die_frame (a : Nat) (v : Word) (d' : Nat) : (s.setShad a v).die d' = s.die d' :=
  (congrArg (fun t => State.die t d') (s.setShad_eq a v)).trans (s.setShadWith_die_frame _ d')
theorem State.setShadWith_router_frame (m : List (Nat × Word)) (d' : Nat) : ({ s with shadow := m } : State).router d' = s.router d' := rfl
@[simp] theorem State.setShad_router_frame (a : Nat) (v : Word) (d' : Nat) : (s.setShad a v).router d' = s.router d' :=
  (congrArg (fun t => State.router t d') (s.setShad_eq a v)).trans (s.setShadWith_router_frame _ d')
theorem State.setShadWith_link_frame (m : List (Nat × Word)) (d' : Nat) : ({ s with shadow := m } : State).link d' = s.link d' := rfl
@[simp] theorem State.setShad_link_frame (a : Nat) (v : Word) (d' : Nat) : (s.setShad a v).link d' = s.link d' :=
  (congrArg (fun t => State.link t d') (s.setShad_eq a v)).trans (s.setShadWith_link_frame _ d')
theorem State.setShadWith_cel_frame (m : List (Nat × Word)) (d' : Nat) : ({ s with shadow := m } : State).cel d' = s.cel d' := rfl
@[simp] theorem State.setShad_cel_frame (a : Nat) (v : Word) (d' : Nat) : (s.setShad a v).cel d' = s.cel d' :=
  (congrArg (fun t => State.cel t d') (s.setShad_eq a v)).trans (s.setShadWith_cel_frame _ d')
theorem State.setShadWith_ctx_frame (m : List (Nat × Word)) (d' c' : Nat) : ({ s with shadow := m } : State).ctx d' c' = s.ctx d' c' := rfl
@[simp] theorem State.setShad_ctx_frame (a : Nat) (v : Word) (d' c' : Nat) : (s.setShad a v).ctx d' c' = s.ctx d' c' :=
  (congrArg (fun t => State.ctx t d' c') (s.setShad_eq a v)).trans (s.setShadWith_ctx_frame _ d' c')
theorem State.setShadWith_hc_frame (m : List (Nat × Word)) (c' : Nat) : ({ s with shadow := m } : State).hc c' = s.hc c' := rfl
@[simp] theorem State.setShad_hc_frame (a : Nat) (v : Word) (c' : Nat) : (s.setShad a v).hc c' = s.hc c' :=
  (congrArg (fun t => State.hc t c') (s.setShad_eq a v)).trans (s.setShadWith_hc_frame _ c')
theorem State.setShadWith_cl_frame (m : List (Nat × Word)) (d' l' : Nat) : ({ s with shadow := m } : State).cl d' l' = s.cl d' l' := rfl
@[simp] theorem State.setShad_cl_frame (a : Nat) (v : Word) (d' l' : Nat) : (s.setShad a v).cl d' l' = s.cl d' l' :=
  (congrArg (fun t => State.cl t d' l') (s.setShad_eq a v)).trans (s.setShadWith_cl_frame _ d' l')
theorem State.setShadWith_ph_frame (m : List (Nat × Word)) (d' p' : Nat) : ({ s with shadow := m } : State).ph d' p' = s.ph d' p' := rfl
@[simp] theorem State.setShad_ph_frame (a : Nat) (v : Word) (d' p' : Nat) : (s.setShad a v).ph d' p' = s.ph d' p' :=
  (congrArg (fun t => State.ph t d' p') (s.setShad_eq a v)).trans (s.setShadWith_ph_frame _ d' p')
theorem State.setShadWith_port_frame (m : List (Nat × Word)) (d' p' : Nat) : ({ s with shadow := m } : State).port d' p' = s.port d' p' := rfl
@[simp] theorem State.setShad_port_frame (a : Nat) (v : Word) (d' p' : Nat) : (s.setShad a v).port d' p' = s.port d' p' :=
  (congrArg (fun t => State.port t d' p') (s.setShad_eq a v)).trans (s.setShadWith_port_frame _ d' p')
theorem State.setShadWith_chan_frame (m : List (Nat × Word)) (d' c' h' : Nat) : ({ s with shadow := m } : State).chan d' c' h' = s.chan d' c' h' := rfl
@[simp] theorem State.setShad_chan_frame (a : Nat) (v : Word) (d' c' h' : Nat) : (s.setShad a v).chan d' c' h' = s.chan d' c' h' :=
  (congrArg (fun t => State.chan t d' c' h') (s.setShad_eq a v)).trans (s.setShadWith_chan_frame _ d' c' h')
theorem State.setShadWith_hbm_frame (m : List (Nat × Word)) (d' k' : Nat) : ({ s with shadow := m } : State).hbm d' k' = s.hbm d' k' := rfl
@[simp] theorem State.setShad_hbm_frame (a : Nat) (v : Word) (d' k' : Nat) : (s.setShad a v).hbm d' k' = s.hbm d' k' :=
  (congrArg (fun t => State.hbm t d' k') (s.setShad_eq a v)).trans (s.setShadWith_hbm_frame _ d' k')
theorem State.setShadWith_reg_frame (m : List (Nat × Word)) (a' : Nat) : ({ s with shadow := m } : State).reg a' = s.reg a' := rfl
@[simp] theorem State.setShad_reg_frame (a : Nat) (v : Word) (a' : Nat) : (s.setShad a v).reg a' = s.reg a' :=
  (congrArg (fun t => State.reg t a') (s.setShad_eq a v)).trans (s.setShadWith_reg_frame _ a')
theorem State.setShadWith_byte_frame (m : List (Nat × Word)) (a' : Nat) : ({ s with shadow := m } : State).byte a' = s.byte a' := rfl
@[simp] theorem State.setShad_byte_frame (a : Nat) (v : Word) (a' : Nat) : (s.setShad a v).byte a' = s.byte a' :=
  (congrArg (fun t => State.byte t a') (s.setShad_eq a v)).trans (s.setShadWith_byte_frame _ a')
theorem State.setShadWith_sideOf_frame (m : List (Nat × Word)) (n' : Nat) : ({ s with shadow := m } : State).sideOf n' = s.sideOf n' := rfl
@[simp] theorem State.setShad_sideOf_frame (a : Nat) (v : Word) (n' : Nat) : (s.setShad a v).sideOf n' = s.sideOf n' :=
  (congrArg (fun t => State.sideOf t n') (s.setShad_eq a v)).trans (s.setShadWith_sideOf_frame _ n')
theorem State.setShadWith_nd_frame (m : List (Nat × Word)) : ({ s with shadow := m } : State).nd = s.nd := rfl
@[simp] theorem State.setShad_nd_frame (a : Nat) (v : Word) : (s.setShad a v).nd = s.nd :=
  (congrArg (fun t => State.nd t) (s.setShad_eq a v)).trans (s.setShadWith_nd_frame _ )
theorem State.setShadWith_rg_frame (m : List (Nat × Word)) (d' : Nat) (b' : Blk) (i' f' : Nat) : ({ s with shadow := m } : State).rg d' b' i' f' = s.rg d' b' i' f' := rfl
@[simp] theorem State.setShad_rg_frame (a : Nat) (v : Word) (d' : Nat) (b' : Blk) (i' f' : Nat) : (s.setShad a v).rg d' b' i' f' = s.rg d' b' i' f' :=
  (congrArg (fun t => State.rg t d' b' i' f') (s.setShad_eq a v)).trans (s.setShadWith_rg_frame _ d' b' i' f')

/-! ### putSide -/

/-- putSide as a record update. -/
theorem State.putSide_eq (n : Nat) (w : Word) : s.putSide n w =
    { s with side := smPut zeroSide s.side n w } := rfl

theorem State.putSideWith_pending (m : List (Nat × Word)) : ({ s with side := m } : State).pending = s.pending := rfl
@[simp] theorem State.putSide_pending (n : Nat) (w : Word) : (s.putSide n w).pending = s.pending :=
  (congrArg (fun t => State.pending t) (s.putSide_eq n w)).trans (s.putSideWith_pending _ )
theorem State.putSideWith_part (m : List (Nat × Word)) : ({ s with side := m } : State).part = s.part := rfl
@[simp] theorem State.putSide_part (n : Nat) (w : Word) : (s.putSide n w).part = s.part :=
  (congrArg (fun t => State.part t) (s.putSide_eq n w)).trans (s.putSideWith_part _ )
theorem State.putSideWith_tick (m : List (Nat × Word)) : ({ s with side := m } : State).tick = s.tick := rfl
@[simp] theorem State.putSide_tick (n : Nat) (w : Word) : (s.putSide n w).tick = s.tick :=
  (congrArg (fun t => State.tick t) (s.putSide_eq n w)).trans (s.putSideWith_tick _ )
theorem State.putSideWith_free (m : List (Nat × Word)) : ({ s with side := m } : State).free = s.free := rfl
@[simp] theorem State.putSide_free (n : Nat) (w : Word) : (s.putSide n w).free = s.free :=
  (congrArg (fun t => State.free t) (s.putSide_eq n w)).trans (s.putSideWith_free _ )
theorem State.putSideWith_mem (m : List (Nat × Word)) : ({ s with side := m } : State).mem = s.mem := rfl
@[simp] theorem State.putSide_mem (n : Nat) (w : Word) : (s.putSide n w).mem = s.mem :=
  (congrArg (fun t => State.mem t) (s.putSide_eq n w)).trans (s.putSideWith_mem _ )
theorem State.putSideWith_regs (m : List (Nat × Word)) : ({ s with side := m } : State).regs = s.regs := rfl
@[simp] theorem State.putSide_regs (n : Nat) (w : Word) : (s.putSide n w).regs = s.regs :=
  (congrArg (fun t => State.regs t) (s.putSide_eq n w)).trans (s.putSideWith_regs _ )
theorem State.putSideWith_shadow (m : List (Nat × Word)) : ({ s with side := m } : State).shadow = s.shadow := rfl
@[simp] theorem State.putSide_shadow (n : Nat) (w : Word) : (s.putSide n w).shadow = s.shadow :=
  (congrArg (fun t => State.shadow t) (s.putSide_eq n w)).trans (s.putSideWith_shadow _ )
theorem State.putSideWith_classes (m : List (Nat × Word)) : ({ s with side := m } : State).classes = s.classes := rfl
@[simp] theorem State.putSide_classes (n : Nat) (w : Word) : (s.putSide n w).classes = s.classes :=
  (congrArg (fun t => State.classes t) (s.putSide_eq n w)).trans (s.putSideWith_classes _ )
theorem State.putSideWith_ctxs (m : List (Nat × Word)) : ({ s with side := m } : State).ctxs = s.ctxs := rfl
@[simp] theorem State.putSide_ctxs (n : Nat) (w : Word) : (s.putSide n w).ctxs = s.ctxs :=
  (congrArg (fun t => State.ctxs t) (s.putSide_eq n w)).trans (s.putSideWith_ctxs _ )
theorem State.putSideWith_hctx (m : List (Nat × Word)) : ({ s with side := m } : State).hctx = s.hctx := rfl
@[simp] theorem State.putSide_hctx (n : Nat) (w : Word) : (s.putSide n w).hctx = s.hctx :=
  (congrArg (fun t => State.hctx t) (s.putSide_eq n w)).trans (s.putSideWith_hctx _ )
theorem State.putSideWith_flights (m : List (Nat × Word)) : ({ s with side := m } : State).flights = s.flights := rfl
@[simp] theorem State.putSide_flights (n : Nat) (w : Word) : (s.putSide n w).flights = s.flights :=
  (congrArg (fun t => State.flights t) (s.putSide_eq n w)).trans (s.putSideWith_flights _ )
theorem State.putSideWith_nextId (m : List (Nat × Word)) : ({ s with side := m } : State).nextId = s.nextId := rfl
@[simp] theorem State.putSide_nextId (n : Nat) (w : Word) : (s.putSide n w).nextId = s.nextId :=
  (congrArg (fun t => State.nextId t) (s.putSide_eq n w)).trans (s.putSideWith_nextId _ )
theorem State.putSideWith_clus (m : List (Nat × Word)) : ({ s with side := m } : State).clus = s.clus := rfl
@[simp] theorem State.putSide_clus (n : Nat) (w : Word) : (s.putSide n w).clus = s.clus :=
  (congrArg (fun t => State.clus t) (s.putSide_eq n w)).trans (s.putSideWith_clus _ )
theorem State.putSideWith_phys (m : List (Nat × Word)) : ({ s with side := m } : State).phys = s.phys := rfl
@[simp] theorem State.putSide_phys (n : Nat) (w : Word) : (s.putSide n w).phys = s.phys :=
  (congrArg (fun t => State.phys t) (s.putSide_eq n w)).trans (s.putSideWith_phys _ )
theorem State.putSideWith_dies (m : List (Nat × Word)) : ({ s with side := m } : State).dies = s.dies := rfl
@[simp] theorem State.putSide_dies (n : Nat) (w : Word) : (s.putSide n w).dies = s.dies :=
  (congrArg (fun t => State.dies t) (s.putSide_eq n w)).trans (s.putSideWith_dies _ )
theorem State.putSideWith_routers (m : List (Nat × Word)) : ({ s with side := m } : State).routers = s.routers := rfl
@[simp] theorem State.putSide_routers (n : Nat) (w : Word) : (s.putSide n w).routers = s.routers :=
  (congrArg (fun t => State.routers t) (s.putSide_eq n w)).trans (s.putSideWith_routers _ )
theorem State.putSideWith_ports (m : List (Nat × Word)) : ({ s with side := m } : State).ports = s.ports := rfl
@[simp] theorem State.putSide_ports (n : Nat) (w : Word) : (s.putSide n w).ports = s.ports :=
  (congrArg (fun t => State.ports t) (s.putSide_eq n w)).trans (s.putSideWith_ports _ )
theorem State.putSideWith_links (m : List (Nat × Word)) : ({ s with side := m } : State).links = s.links := rfl
@[simp] theorem State.putSide_links (n : Nat) (w : Word) : (s.putSide n w).links = s.links :=
  (congrArg (fun t => State.links t) (s.putSide_eq n w)).trans (s.putSideWith_links _ )
theorem State.putSideWith_chans (m : List (Nat × Word)) : ({ s with side := m } : State).chans = s.chans := rfl
@[simp] theorem State.putSide_chans (n : Nat) (w : Word) : (s.putSide n w).chans = s.chans :=
  (congrArg (fun t => State.chans t) (s.putSide_eq n w)).trans (s.putSideWith_chans _ )
theorem State.putSideWith_cels (m : List (Nat × Word)) : ({ s with side := m } : State).cels = s.cels := rfl
@[simp] theorem State.putSide_cels (n : Nat) (w : Word) : (s.putSide n w).cels = s.cels :=
  (congrArg (fun t => State.cels t) (s.putSide_eq n w)).trans (s.putSideWith_cels _ )
theorem State.putSideWith_hbms (m : List (Nat × Word)) : ({ s with side := m } : State).hbms = s.hbms := rfl
@[simp] theorem State.putSide_hbms (n : Nat) (w : Word) : (s.putSide n w).hbms = s.hbms :=
  (congrArg (fun t => State.hbms t) (s.putSide_eq n w)).trans (s.putSideWith_hbms _ )
theorem State.putSideWith_modc (m : List (Nat × Word)) : ({ s with side := m } : State).modc = s.modc := rfl
@[simp] theorem State.putSide_modc (n : Nat) (w : Word) : (s.putSide n w).modc = s.modc :=
  (congrArg (fun t => State.modc t) (s.putSide_eq n w)).trans (s.putSideWith_modc _ )
theorem State.putSideWith_errnStuck (m : List (Nat × Word)) : ({ s with side := m } : State).errnStuck = s.errnStuck := rfl
@[simp] theorem State.putSide_errnStuck (n : Nat) (w : Word) : (s.putSide n w).errnStuck = s.errnStuck :=
  (congrArg (fun t => State.errnStuck t) (s.putSide_eq n w)).trans (s.putSideWith_errnStuck _ )
theorem State.putSideWith_out (m : List (Nat × Word)) : ({ s with side := m } : State).out = s.out := rfl
@[simp] theorem State.putSide_out (n : Nat) (w : Word) : (s.putSide n w).out = s.out :=
  (congrArg (fun t => State.out t) (s.putSide_eq n w)).trans (s.putSideWith_out _ )
theorem State.putSideWith_die_frame (m : List (Nat × Word)) (d' : Nat) : ({ s with side := m } : State).die d' = s.die d' := rfl
@[simp] theorem State.putSide_die_frame (n : Nat) (w : Word) (d' : Nat) : (s.putSide n w).die d' = s.die d' :=
  (congrArg (fun t => State.die t d') (s.putSide_eq n w)).trans (s.putSideWith_die_frame _ d')
theorem State.putSideWith_router_frame (m : List (Nat × Word)) (d' : Nat) : ({ s with side := m } : State).router d' = s.router d' := rfl
@[simp] theorem State.putSide_router_frame (n : Nat) (w : Word) (d' : Nat) : (s.putSide n w).router d' = s.router d' :=
  (congrArg (fun t => State.router t d') (s.putSide_eq n w)).trans (s.putSideWith_router_frame _ d')
theorem State.putSideWith_link_frame (m : List (Nat × Word)) (d' : Nat) : ({ s with side := m } : State).link d' = s.link d' := rfl
@[simp] theorem State.putSide_link_frame (n : Nat) (w : Word) (d' : Nat) : (s.putSide n w).link d' = s.link d' :=
  (congrArg (fun t => State.link t d') (s.putSide_eq n w)).trans (s.putSideWith_link_frame _ d')
theorem State.putSideWith_cel_frame (m : List (Nat × Word)) (d' : Nat) : ({ s with side := m } : State).cel d' = s.cel d' := rfl
@[simp] theorem State.putSide_cel_frame (n : Nat) (w : Word) (d' : Nat) : (s.putSide n w).cel d' = s.cel d' :=
  (congrArg (fun t => State.cel t d') (s.putSide_eq n w)).trans (s.putSideWith_cel_frame _ d')
theorem State.putSideWith_ctx_frame (m : List (Nat × Word)) (d' c' : Nat) : ({ s with side := m } : State).ctx d' c' = s.ctx d' c' := rfl
@[simp] theorem State.putSide_ctx_frame (n : Nat) (w : Word) (d' c' : Nat) : (s.putSide n w).ctx d' c' = s.ctx d' c' :=
  (congrArg (fun t => State.ctx t d' c') (s.putSide_eq n w)).trans (s.putSideWith_ctx_frame _ d' c')
theorem State.putSideWith_hc_frame (m : List (Nat × Word)) (c' : Nat) : ({ s with side := m } : State).hc c' = s.hc c' := rfl
@[simp] theorem State.putSide_hc_frame (n : Nat) (w : Word) (c' : Nat) : (s.putSide n w).hc c' = s.hc c' :=
  (congrArg (fun t => State.hc t c') (s.putSide_eq n w)).trans (s.putSideWith_hc_frame _ c')
theorem State.putSideWith_cl_frame (m : List (Nat × Word)) (d' l' : Nat) : ({ s with side := m } : State).cl d' l' = s.cl d' l' := rfl
@[simp] theorem State.putSide_cl_frame (n : Nat) (w : Word) (d' l' : Nat) : (s.putSide n w).cl d' l' = s.cl d' l' :=
  (congrArg (fun t => State.cl t d' l') (s.putSide_eq n w)).trans (s.putSideWith_cl_frame _ d' l')
theorem State.putSideWith_ph_frame (m : List (Nat × Word)) (d' p' : Nat) : ({ s with side := m } : State).ph d' p' = s.ph d' p' := rfl
@[simp] theorem State.putSide_ph_frame (n : Nat) (w : Word) (d' p' : Nat) : (s.putSide n w).ph d' p' = s.ph d' p' :=
  (congrArg (fun t => State.ph t d' p') (s.putSide_eq n w)).trans (s.putSideWith_ph_frame _ d' p')
theorem State.putSideWith_port_frame (m : List (Nat × Word)) (d' p' : Nat) : ({ s with side := m } : State).port d' p' = s.port d' p' := rfl
@[simp] theorem State.putSide_port_frame (n : Nat) (w : Word) (d' p' : Nat) : (s.putSide n w).port d' p' = s.port d' p' :=
  (congrArg (fun t => State.port t d' p') (s.putSide_eq n w)).trans (s.putSideWith_port_frame _ d' p')
theorem State.putSideWith_chan_frame (m : List (Nat × Word)) (d' c' h' : Nat) : ({ s with side := m } : State).chan d' c' h' = s.chan d' c' h' := rfl
@[simp] theorem State.putSide_chan_frame (n : Nat) (w : Word) (d' c' h' : Nat) : (s.putSide n w).chan d' c' h' = s.chan d' c' h' :=
  (congrArg (fun t => State.chan t d' c' h') (s.putSide_eq n w)).trans (s.putSideWith_chan_frame _ d' c' h')
theorem State.putSideWith_hbm_frame (m : List (Nat × Word)) (d' k' : Nat) : ({ s with side := m } : State).hbm d' k' = s.hbm d' k' := rfl
@[simp] theorem State.putSide_hbm_frame (n : Nat) (w : Word) (d' k' : Nat) : (s.putSide n w).hbm d' k' = s.hbm d' k' :=
  (congrArg (fun t => State.hbm t d' k') (s.putSide_eq n w)).trans (s.putSideWith_hbm_frame _ d' k')
theorem State.putSideWith_reg_frame (m : List (Nat × Word)) (a' : Nat) : ({ s with side := m } : State).reg a' = s.reg a' := rfl
@[simp] theorem State.putSide_reg_frame (n : Nat) (w : Word) (a' : Nat) : (s.putSide n w).reg a' = s.reg a' :=
  (congrArg (fun t => State.reg t a') (s.putSide_eq n w)).trans (s.putSideWith_reg_frame _ a')
theorem State.putSideWith_shad_frame (m : List (Nat × Word)) (a' : Nat) : ({ s with side := m } : State).shad a' = s.shad a' := rfl
@[simp] theorem State.putSide_shad_frame (n : Nat) (w : Word) (a' : Nat) : (s.putSide n w).shad a' = s.shad a' :=
  (congrArg (fun t => State.shad t a') (s.putSide_eq n w)).trans (s.putSideWith_shad_frame _ a')
theorem State.putSideWith_byte_frame (m : List (Nat × Word)) (a' : Nat) : ({ s with side := m } : State).byte a' = s.byte a' := rfl
@[simp] theorem State.putSide_byte_frame (n : Nat) (w : Word) (a' : Nat) : (s.putSide n w).byte a' = s.byte a' :=
  (congrArg (fun t => State.byte t a') (s.putSide_eq n w)).trans (s.putSideWith_byte_frame _ a')
theorem State.putSideWith_nd_frame (m : List (Nat × Word)) : ({ s with side := m } : State).nd = s.nd := rfl
@[simp] theorem State.putSide_nd_frame (n : Nat) (w : Word) : (s.putSide n w).nd = s.nd :=
  (congrArg (fun t => State.nd t) (s.putSide_eq n w)).trans (s.putSideWith_nd_frame _ )
theorem State.putSideWith_rg_frame (m : List (Nat × Word)) (d' : Nat) (b' : Blk) (i' f' : Nat) : ({ s with side := m } : State).rg d' b' i' f' = s.rg d' b' i' f' := rfl
@[simp] theorem State.putSide_rg_frame (n : Nat) (w : Word) (d' : Nat) (b' : Blk) (i' f' : Nat) : (s.putSide n w).rg d' b' i' f' = s.rg d' b' i' f' :=
  (congrArg (fun t => State.rg t d' b' i' f') (s.putSide_eq n w)).trans (s.putSideWith_rg_frame _ d' b' i' f')

/-! ### putLine -/

/-- putLine as a record update. -/
theorem State.putLine_eq (n : Nat) (l : Line) : s.putLine n l =
    { s with mem := smPuts memDefault s.mem (128 * n) (padTo 128 l.bytes), side := smPut zeroSide s.side n l.sb } := rfl

theorem State.putLineWith_pending (m : List Host.Cell) (x : List (Nat × Word)) : ({ s with mem := m, side := x } : State).pending = s.pending := rfl
@[simp] theorem State.putLine_pending (n : Nat) (l : Line) : (s.putLine n l).pending = s.pending :=
  (congrArg (fun t => State.pending t) (s.putLine_eq n l)).trans (s.putLineWith_pending _ _ )
theorem State.putLineWith_part (m : List Host.Cell) (x : List (Nat × Word)) : ({ s with mem := m, side := x } : State).part = s.part := rfl
@[simp] theorem State.putLine_part (n : Nat) (l : Line) : (s.putLine n l).part = s.part :=
  (congrArg (fun t => State.part t) (s.putLine_eq n l)).trans (s.putLineWith_part _ _ )
theorem State.putLineWith_tick (m : List Host.Cell) (x : List (Nat × Word)) : ({ s with mem := m, side := x } : State).tick = s.tick := rfl
@[simp] theorem State.putLine_tick (n : Nat) (l : Line) : (s.putLine n l).tick = s.tick :=
  (congrArg (fun t => State.tick t) (s.putLine_eq n l)).trans (s.putLineWith_tick _ _ )
theorem State.putLineWith_free (m : List Host.Cell) (x : List (Nat × Word)) : ({ s with mem := m, side := x } : State).free = s.free := rfl
@[simp] theorem State.putLine_free (n : Nat) (l : Line) : (s.putLine n l).free = s.free :=
  (congrArg (fun t => State.free t) (s.putLine_eq n l)).trans (s.putLineWith_free _ _ )
theorem State.putLineWith_regs (m : List Host.Cell) (x : List (Nat × Word)) : ({ s with mem := m, side := x } : State).regs = s.regs := rfl
@[simp] theorem State.putLine_regs (n : Nat) (l : Line) : (s.putLine n l).regs = s.regs :=
  (congrArg (fun t => State.regs t) (s.putLine_eq n l)).trans (s.putLineWith_regs _ _ )
theorem State.putLineWith_shadow (m : List Host.Cell) (x : List (Nat × Word)) : ({ s with mem := m, side := x } : State).shadow = s.shadow := rfl
@[simp] theorem State.putLine_shadow (n : Nat) (l : Line) : (s.putLine n l).shadow = s.shadow :=
  (congrArg (fun t => State.shadow t) (s.putLine_eq n l)).trans (s.putLineWith_shadow _ _ )
theorem State.putLineWith_classes (m : List Host.Cell) (x : List (Nat × Word)) : ({ s with mem := m, side := x } : State).classes = s.classes := rfl
@[simp] theorem State.putLine_classes (n : Nat) (l : Line) : (s.putLine n l).classes = s.classes :=
  (congrArg (fun t => State.classes t) (s.putLine_eq n l)).trans (s.putLineWith_classes _ _ )
theorem State.putLineWith_ctxs (m : List Host.Cell) (x : List (Nat × Word)) : ({ s with mem := m, side := x } : State).ctxs = s.ctxs := rfl
@[simp] theorem State.putLine_ctxs (n : Nat) (l : Line) : (s.putLine n l).ctxs = s.ctxs :=
  (congrArg (fun t => State.ctxs t) (s.putLine_eq n l)).trans (s.putLineWith_ctxs _ _ )
theorem State.putLineWith_hctx (m : List Host.Cell) (x : List (Nat × Word)) : ({ s with mem := m, side := x } : State).hctx = s.hctx := rfl
@[simp] theorem State.putLine_hctx (n : Nat) (l : Line) : (s.putLine n l).hctx = s.hctx :=
  (congrArg (fun t => State.hctx t) (s.putLine_eq n l)).trans (s.putLineWith_hctx _ _ )
theorem State.putLineWith_flights (m : List Host.Cell) (x : List (Nat × Word)) : ({ s with mem := m, side := x } : State).flights = s.flights := rfl
@[simp] theorem State.putLine_flights (n : Nat) (l : Line) : (s.putLine n l).flights = s.flights :=
  (congrArg (fun t => State.flights t) (s.putLine_eq n l)).trans (s.putLineWith_flights _ _ )
theorem State.putLineWith_nextId (m : List Host.Cell) (x : List (Nat × Word)) : ({ s with mem := m, side := x } : State).nextId = s.nextId := rfl
@[simp] theorem State.putLine_nextId (n : Nat) (l : Line) : (s.putLine n l).nextId = s.nextId :=
  (congrArg (fun t => State.nextId t) (s.putLine_eq n l)).trans (s.putLineWith_nextId _ _ )
theorem State.putLineWith_clus (m : List Host.Cell) (x : List (Nat × Word)) : ({ s with mem := m, side := x } : State).clus = s.clus := rfl
@[simp] theorem State.putLine_clus (n : Nat) (l : Line) : (s.putLine n l).clus = s.clus :=
  (congrArg (fun t => State.clus t) (s.putLine_eq n l)).trans (s.putLineWith_clus _ _ )
theorem State.putLineWith_phys (m : List Host.Cell) (x : List (Nat × Word)) : ({ s with mem := m, side := x } : State).phys = s.phys := rfl
@[simp] theorem State.putLine_phys (n : Nat) (l : Line) : (s.putLine n l).phys = s.phys :=
  (congrArg (fun t => State.phys t) (s.putLine_eq n l)).trans (s.putLineWith_phys _ _ )
theorem State.putLineWith_dies (m : List Host.Cell) (x : List (Nat × Word)) : ({ s with mem := m, side := x } : State).dies = s.dies := rfl
@[simp] theorem State.putLine_dies (n : Nat) (l : Line) : (s.putLine n l).dies = s.dies :=
  (congrArg (fun t => State.dies t) (s.putLine_eq n l)).trans (s.putLineWith_dies _ _ )
theorem State.putLineWith_routers (m : List Host.Cell) (x : List (Nat × Word)) : ({ s with mem := m, side := x } : State).routers = s.routers := rfl
@[simp] theorem State.putLine_routers (n : Nat) (l : Line) : (s.putLine n l).routers = s.routers :=
  (congrArg (fun t => State.routers t) (s.putLine_eq n l)).trans (s.putLineWith_routers _ _ )
theorem State.putLineWith_ports (m : List Host.Cell) (x : List (Nat × Word)) : ({ s with mem := m, side := x } : State).ports = s.ports := rfl
@[simp] theorem State.putLine_ports (n : Nat) (l : Line) : (s.putLine n l).ports = s.ports :=
  (congrArg (fun t => State.ports t) (s.putLine_eq n l)).trans (s.putLineWith_ports _ _ )
theorem State.putLineWith_links (m : List Host.Cell) (x : List (Nat × Word)) : ({ s with mem := m, side := x } : State).links = s.links := rfl
@[simp] theorem State.putLine_links (n : Nat) (l : Line) : (s.putLine n l).links = s.links :=
  (congrArg (fun t => State.links t) (s.putLine_eq n l)).trans (s.putLineWith_links _ _ )
theorem State.putLineWith_chans (m : List Host.Cell) (x : List (Nat × Word)) : ({ s with mem := m, side := x } : State).chans = s.chans := rfl
@[simp] theorem State.putLine_chans (n : Nat) (l : Line) : (s.putLine n l).chans = s.chans :=
  (congrArg (fun t => State.chans t) (s.putLine_eq n l)).trans (s.putLineWith_chans _ _ )
theorem State.putLineWith_cels (m : List Host.Cell) (x : List (Nat × Word)) : ({ s with mem := m, side := x } : State).cels = s.cels := rfl
@[simp] theorem State.putLine_cels (n : Nat) (l : Line) : (s.putLine n l).cels = s.cels :=
  (congrArg (fun t => State.cels t) (s.putLine_eq n l)).trans (s.putLineWith_cels _ _ )
theorem State.putLineWith_hbms (m : List Host.Cell) (x : List (Nat × Word)) : ({ s with mem := m, side := x } : State).hbms = s.hbms := rfl
@[simp] theorem State.putLine_hbms (n : Nat) (l : Line) : (s.putLine n l).hbms = s.hbms :=
  (congrArg (fun t => State.hbms t) (s.putLine_eq n l)).trans (s.putLineWith_hbms _ _ )
theorem State.putLineWith_modc (m : List Host.Cell) (x : List (Nat × Word)) : ({ s with mem := m, side := x } : State).modc = s.modc := rfl
@[simp] theorem State.putLine_modc (n : Nat) (l : Line) : (s.putLine n l).modc = s.modc :=
  (congrArg (fun t => State.modc t) (s.putLine_eq n l)).trans (s.putLineWith_modc _ _ )
theorem State.putLineWith_errnStuck (m : List Host.Cell) (x : List (Nat × Word)) : ({ s with mem := m, side := x } : State).errnStuck = s.errnStuck := rfl
@[simp] theorem State.putLine_errnStuck (n : Nat) (l : Line) : (s.putLine n l).errnStuck = s.errnStuck :=
  (congrArg (fun t => State.errnStuck t) (s.putLine_eq n l)).trans (s.putLineWith_errnStuck _ _ )
theorem State.putLineWith_out (m : List Host.Cell) (x : List (Nat × Word)) : ({ s with mem := m, side := x } : State).out = s.out := rfl
@[simp] theorem State.putLine_out (n : Nat) (l : Line) : (s.putLine n l).out = s.out :=
  (congrArg (fun t => State.out t) (s.putLine_eq n l)).trans (s.putLineWith_out _ _ )
theorem State.putLineWith_die_frame (m : List Host.Cell) (x : List (Nat × Word)) (d' : Nat) : ({ s with mem := m, side := x } : State).die d' = s.die d' := rfl
@[simp] theorem State.putLine_die_frame (n : Nat) (l : Line) (d' : Nat) : (s.putLine n l).die d' = s.die d' :=
  (congrArg (fun t => State.die t d') (s.putLine_eq n l)).trans (s.putLineWith_die_frame _ _ d')
theorem State.putLineWith_router_frame (m : List Host.Cell) (x : List (Nat × Word)) (d' : Nat) : ({ s with mem := m, side := x } : State).router d' = s.router d' := rfl
@[simp] theorem State.putLine_router_frame (n : Nat) (l : Line) (d' : Nat) : (s.putLine n l).router d' = s.router d' :=
  (congrArg (fun t => State.router t d') (s.putLine_eq n l)).trans (s.putLineWith_router_frame _ _ d')
theorem State.putLineWith_link_frame (m : List Host.Cell) (x : List (Nat × Word)) (d' : Nat) : ({ s with mem := m, side := x } : State).link d' = s.link d' := rfl
@[simp] theorem State.putLine_link_frame (n : Nat) (l : Line) (d' : Nat) : (s.putLine n l).link d' = s.link d' :=
  (congrArg (fun t => State.link t d') (s.putLine_eq n l)).trans (s.putLineWith_link_frame _ _ d')
theorem State.putLineWith_cel_frame (m : List Host.Cell) (x : List (Nat × Word)) (d' : Nat) : ({ s with mem := m, side := x } : State).cel d' = s.cel d' := rfl
@[simp] theorem State.putLine_cel_frame (n : Nat) (l : Line) (d' : Nat) : (s.putLine n l).cel d' = s.cel d' :=
  (congrArg (fun t => State.cel t d') (s.putLine_eq n l)).trans (s.putLineWith_cel_frame _ _ d')
theorem State.putLineWith_ctx_frame (m : List Host.Cell) (x : List (Nat × Word)) (d' c' : Nat) : ({ s with mem := m, side := x } : State).ctx d' c' = s.ctx d' c' := rfl
@[simp] theorem State.putLine_ctx_frame (n : Nat) (l : Line) (d' c' : Nat) : (s.putLine n l).ctx d' c' = s.ctx d' c' :=
  (congrArg (fun t => State.ctx t d' c') (s.putLine_eq n l)).trans (s.putLineWith_ctx_frame _ _ d' c')
theorem State.putLineWith_hc_frame (m : List Host.Cell) (x : List (Nat × Word)) (c' : Nat) : ({ s with mem := m, side := x } : State).hc c' = s.hc c' := rfl
@[simp] theorem State.putLine_hc_frame (n : Nat) (l : Line) (c' : Nat) : (s.putLine n l).hc c' = s.hc c' :=
  (congrArg (fun t => State.hc t c') (s.putLine_eq n l)).trans (s.putLineWith_hc_frame _ _ c')
theorem State.putLineWith_cl_frame (m : List Host.Cell) (x : List (Nat × Word)) (d' l' : Nat) : ({ s with mem := m, side := x } : State).cl d' l' = s.cl d' l' := rfl
@[simp] theorem State.putLine_cl_frame (n : Nat) (l : Line) (d' l' : Nat) : (s.putLine n l).cl d' l' = s.cl d' l' :=
  (congrArg (fun t => State.cl t d' l') (s.putLine_eq n l)).trans (s.putLineWith_cl_frame _ _ d' l')
theorem State.putLineWith_ph_frame (m : List Host.Cell) (x : List (Nat × Word)) (d' p' : Nat) : ({ s with mem := m, side := x } : State).ph d' p' = s.ph d' p' := rfl
@[simp] theorem State.putLine_ph_frame (n : Nat) (l : Line) (d' p' : Nat) : (s.putLine n l).ph d' p' = s.ph d' p' :=
  (congrArg (fun t => State.ph t d' p') (s.putLine_eq n l)).trans (s.putLineWith_ph_frame _ _ d' p')
theorem State.putLineWith_port_frame (m : List Host.Cell) (x : List (Nat × Word)) (d' p' : Nat) : ({ s with mem := m, side := x } : State).port d' p' = s.port d' p' := rfl
@[simp] theorem State.putLine_port_frame (n : Nat) (l : Line) (d' p' : Nat) : (s.putLine n l).port d' p' = s.port d' p' :=
  (congrArg (fun t => State.port t d' p') (s.putLine_eq n l)).trans (s.putLineWith_port_frame _ _ d' p')
theorem State.putLineWith_chan_frame (m : List Host.Cell) (x : List (Nat × Word)) (d' c' h' : Nat) : ({ s with mem := m, side := x } : State).chan d' c' h' = s.chan d' c' h' := rfl
@[simp] theorem State.putLine_chan_frame (n : Nat) (l : Line) (d' c' h' : Nat) : (s.putLine n l).chan d' c' h' = s.chan d' c' h' :=
  (congrArg (fun t => State.chan t d' c' h') (s.putLine_eq n l)).trans (s.putLineWith_chan_frame _ _ d' c' h')
theorem State.putLineWith_hbm_frame (m : List Host.Cell) (x : List (Nat × Word)) (d' k' : Nat) : ({ s with mem := m, side := x } : State).hbm d' k' = s.hbm d' k' := rfl
@[simp] theorem State.putLine_hbm_frame (n : Nat) (l : Line) (d' k' : Nat) : (s.putLine n l).hbm d' k' = s.hbm d' k' :=
  (congrArg (fun t => State.hbm t d' k') (s.putLine_eq n l)).trans (s.putLineWith_hbm_frame _ _ d' k')
theorem State.putLineWith_reg_frame (m : List Host.Cell) (x : List (Nat × Word)) (a' : Nat) : ({ s with mem := m, side := x } : State).reg a' = s.reg a' := rfl
@[simp] theorem State.putLine_reg_frame (n : Nat) (l : Line) (a' : Nat) : (s.putLine n l).reg a' = s.reg a' :=
  (congrArg (fun t => State.reg t a') (s.putLine_eq n l)).trans (s.putLineWith_reg_frame _ _ a')
theorem State.putLineWith_shad_frame (m : List Host.Cell) (x : List (Nat × Word)) (a' : Nat) : ({ s with mem := m, side := x } : State).shad a' = s.shad a' := rfl
@[simp] theorem State.putLine_shad_frame (n : Nat) (l : Line) (a' : Nat) : (s.putLine n l).shad a' = s.shad a' :=
  (congrArg (fun t => State.shad t a') (s.putLine_eq n l)).trans (s.putLineWith_shad_frame _ _ a')
theorem State.putLineWith_nd_frame (m : List Host.Cell) (x : List (Nat × Word)) : ({ s with mem := m, side := x } : State).nd = s.nd := rfl
@[simp] theorem State.putLine_nd_frame (n : Nat) (l : Line) : (s.putLine n l).nd = s.nd :=
  (congrArg (fun t => State.nd t) (s.putLine_eq n l)).trans (s.putLineWith_nd_frame _ _ )
theorem State.putLineWith_rg_frame (m : List Host.Cell) (x : List (Nat × Word)) (d' : Nat) (b' : Blk) (i' f' : Nat) : ({ s with mem := m, side := x } : State).rg d' b' i' f' = s.rg d' b' i' f' := rfl
@[simp] theorem State.putLine_rg_frame (n : Nat) (l : Line) (d' : Nat) (b' : Blk) (i' f' : Nat) : (s.putLine n l).rg d' b' i' f' = s.rg d' b' i' f' :=
  (congrArg (fun t => State.rg t d' b' i' f') (s.putLine_eq n l)).trans (s.putLineWith_rg_frame _ _ d' b' i' f')

/-! ### emit -/

@[simp] theorem State.emit_pending (o : OutMsg) : (s.emit o).pending = s.pending := rfl
@[simp] theorem State.emit_part (o : OutMsg) : (s.emit o).part = s.part := rfl
@[simp] theorem State.emit_tick (o : OutMsg) : (s.emit o).tick = s.tick := rfl
@[simp] theorem State.emit_free (o : OutMsg) : (s.emit o).free = s.free := rfl
@[simp] theorem State.emit_mem (o : OutMsg) : (s.emit o).mem = s.mem := rfl
@[simp] theorem State.emit_side (o : OutMsg) : (s.emit o).side = s.side := rfl
@[simp] theorem State.emit_regs (o : OutMsg) : (s.emit o).regs = s.regs := rfl
@[simp] theorem State.emit_shadow (o : OutMsg) : (s.emit o).shadow = s.shadow := rfl
@[simp] theorem State.emit_classes (o : OutMsg) : (s.emit o).classes = s.classes := rfl
@[simp] theorem State.emit_ctxs (o : OutMsg) : (s.emit o).ctxs = s.ctxs := rfl
@[simp] theorem State.emit_hctx (o : OutMsg) : (s.emit o).hctx = s.hctx := rfl
@[simp] theorem State.emit_flights (o : OutMsg) : (s.emit o).flights = s.flights := rfl
@[simp] theorem State.emit_nextId (o : OutMsg) : (s.emit o).nextId = s.nextId := rfl
@[simp] theorem State.emit_clus (o : OutMsg) : (s.emit o).clus = s.clus := rfl
@[simp] theorem State.emit_phys (o : OutMsg) : (s.emit o).phys = s.phys := rfl
@[simp] theorem State.emit_dies (o : OutMsg) : (s.emit o).dies = s.dies := rfl
@[simp] theorem State.emit_routers (o : OutMsg) : (s.emit o).routers = s.routers := rfl
@[simp] theorem State.emit_ports (o : OutMsg) : (s.emit o).ports = s.ports := rfl
@[simp] theorem State.emit_links (o : OutMsg) : (s.emit o).links = s.links := rfl
@[simp] theorem State.emit_chans (o : OutMsg) : (s.emit o).chans = s.chans := rfl
@[simp] theorem State.emit_cels (o : OutMsg) : (s.emit o).cels = s.cels := rfl
@[simp] theorem State.emit_hbms (o : OutMsg) : (s.emit o).hbms = s.hbms := rfl
@[simp] theorem State.emit_modc (o : OutMsg) : (s.emit o).modc = s.modc := rfl
@[simp] theorem State.emit_errnStuck (o : OutMsg) : (s.emit o).errnStuck = s.errnStuck := rfl
@[simp] theorem State.emit_die_frame (o : OutMsg) (d' : Nat) : (s.emit o).die d' = s.die d' := rfl
@[simp] theorem State.emit_router_frame (o : OutMsg) (d' : Nat) : (s.emit o).router d' = s.router d' := rfl
@[simp] theorem State.emit_link_frame (o : OutMsg) (d' : Nat) : (s.emit o).link d' = s.link d' := rfl
@[simp] theorem State.emit_cel_frame (o : OutMsg) (d' : Nat) : (s.emit o).cel d' = s.cel d' := rfl
@[simp] theorem State.emit_ctx_frame (o : OutMsg) (d' c' : Nat) : (s.emit o).ctx d' c' = s.ctx d' c' := rfl
@[simp] theorem State.emit_hc_frame (o : OutMsg) (c' : Nat) : (s.emit o).hc c' = s.hc c' := rfl
@[simp] theorem State.emit_cl_frame (o : OutMsg) (d' l' : Nat) : (s.emit o).cl d' l' = s.cl d' l' := rfl
@[simp] theorem State.emit_ph_frame (o : OutMsg) (d' p' : Nat) : (s.emit o).ph d' p' = s.ph d' p' := rfl
@[simp] theorem State.emit_port_frame (o : OutMsg) (d' p' : Nat) : (s.emit o).port d' p' = s.port d' p' := rfl
@[simp] theorem State.emit_chan_frame (o : OutMsg) (d' c' h' : Nat) : (s.emit o).chan d' c' h' = s.chan d' c' h' := rfl
@[simp] theorem State.emit_hbm_frame (o : OutMsg) (d' k' : Nat) : (s.emit o).hbm d' k' = s.hbm d' k' := rfl
@[simp] theorem State.emit_reg_frame (o : OutMsg) (a' : Nat) : (s.emit o).reg a' = s.reg a' := rfl
@[simp] theorem State.emit_shad_frame (o : OutMsg) (a' : Nat) : (s.emit o).shad a' = s.shad a' := rfl
@[simp] theorem State.emit_byte_frame (o : OutMsg) (a' : Nat) : (s.emit o).byte a' = s.byte a' := rfl
@[simp] theorem State.emit_sideOf_frame (o : OutMsg) (n' : Nat) : (s.emit o).sideOf n' = s.sideOf n' := rfl
@[simp] theorem State.emit_nd_frame (o : OutMsg) : (s.emit o).nd = s.nd := rfl
@[simp] theorem State.emit_rg_frame (o : OutMsg) (d' : Nat) (b' : Blk) (i' f' : Nat) : (s.emit o).rg d' b' i' f' = s.rg d' b' i' f' := rfl

/-! ### fresh -/

@[simp] theorem State.fresh_pending : (s.fresh).pending = s.pending := rfl
@[simp] theorem State.fresh_part : (s.fresh).part = s.part := rfl
@[simp] theorem State.fresh_tick : (s.fresh).tick = s.tick := rfl
@[simp] theorem State.fresh_mem : (s.fresh).mem = s.mem := rfl
@[simp] theorem State.fresh_side : (s.fresh).side = s.side := rfl
@[simp] theorem State.fresh_regs : (s.fresh).regs = s.regs := rfl
@[simp] theorem State.fresh_shadow : (s.fresh).shadow = s.shadow := rfl
@[simp] theorem State.fresh_classes : (s.fresh).classes = s.classes := rfl
@[simp] theorem State.fresh_ctxs : (s.fresh).ctxs = s.ctxs := rfl
@[simp] theorem State.fresh_hctx : (s.fresh).hctx = s.hctx := rfl
@[simp] theorem State.fresh_flights : (s.fresh).flights = s.flights := rfl
@[simp] theorem State.fresh_nextId : (s.fresh).nextId = s.nextId := rfl
@[simp] theorem State.fresh_clus : (s.fresh).clus = s.clus := rfl
@[simp] theorem State.fresh_phys : (s.fresh).phys = s.phys := rfl
@[simp] theorem State.fresh_dies : (s.fresh).dies = s.dies := rfl
@[simp] theorem State.fresh_routers : (s.fresh).routers = s.routers := rfl
@[simp] theorem State.fresh_ports : (s.fresh).ports = s.ports := rfl
@[simp] theorem State.fresh_links : (s.fresh).links = s.links := rfl
@[simp] theorem State.fresh_chans : (s.fresh).chans = s.chans := rfl
@[simp] theorem State.fresh_cels : (s.fresh).cels = s.cels := rfl
@[simp] theorem State.fresh_hbms : (s.fresh).hbms = s.hbms := rfl
@[simp] theorem State.fresh_modc : (s.fresh).modc = s.modc := rfl
@[simp] theorem State.fresh_errnStuck : (s.fresh).errnStuck = s.errnStuck := rfl
@[simp] theorem State.fresh_out : (s.fresh).out = s.out := rfl
@[simp] theorem State.fresh_die_frame  (d' : Nat) : (s.fresh).die d' = s.die d' := rfl
@[simp] theorem State.fresh_router_frame  (d' : Nat) : (s.fresh).router d' = s.router d' := rfl
@[simp] theorem State.fresh_link_frame  (d' : Nat) : (s.fresh).link d' = s.link d' := rfl
@[simp] theorem State.fresh_cel_frame  (d' : Nat) : (s.fresh).cel d' = s.cel d' := rfl
@[simp] theorem State.fresh_ctx_frame  (d' c' : Nat) : (s.fresh).ctx d' c' = s.ctx d' c' := rfl
@[simp] theorem State.fresh_hc_frame  (c' : Nat) : (s.fresh).hc c' = s.hc c' := rfl
@[simp] theorem State.fresh_cl_frame  (d' l' : Nat) : (s.fresh).cl d' l' = s.cl d' l' := rfl
@[simp] theorem State.fresh_ph_frame  (d' p' : Nat) : (s.fresh).ph d' p' = s.ph d' p' := rfl
@[simp] theorem State.fresh_port_frame  (d' p' : Nat) : (s.fresh).port d' p' = s.port d' p' := rfl
@[simp] theorem State.fresh_chan_frame  (d' c' h' : Nat) : (s.fresh).chan d' c' h' = s.chan d' c' h' := rfl
@[simp] theorem State.fresh_hbm_frame  (d' k' : Nat) : (s.fresh).hbm d' k' = s.hbm d' k' := rfl
@[simp] theorem State.fresh_reg_frame  (a' : Nat) : (s.fresh).reg a' = s.reg a' := rfl
@[simp] theorem State.fresh_shad_frame  (a' : Nat) : (s.fresh).shad a' = s.shad a' := rfl
@[simp] theorem State.fresh_byte_frame  (a' : Nat) : (s.fresh).byte a' = s.byte a' := rfl
@[simp] theorem State.fresh_sideOf_frame  (n' : Nat) : (s.fresh).sideOf n' = s.sideOf n' := rfl
@[simp] theorem State.fresh_nd_frame : (s.fresh).nd = s.nd := rfl
@[simp] theorem State.fresh_rg_frame  (d' : Nat) (b' : Blk) (i' f' : Nat) : (s.fresh).rg d' b' i' f' = s.rg d' b' i' f' := rfl


end Sys2Proof.Machine
end

