-- ==== Sys2Proof/Laws/Keeps.lean ====
section
/-! SUPPORT. What every operation keeps: the part (R1), the queue of commands, and the canonical form of what is stored. Each lemma
passes the relation through one operation, so that no proof unfolds the operations below it. -/

namespace Sys2Proof.Machine

/-- What every operation keeps: the part, the queue, and the canonical form of what is stored. -/
structure Keeps (s t : State) : Prop where
  part : t.part = s.part
  pending : t.pending = s.pending
  wf : s.Canonical → t.Canonical
  nums : s.Numbered → t.Numbered

/-- The same of an outcome. -/
def KeepsO (s : State) (o : Host.Outcome State Fault Refusal) : Prop := ∀ t, o = .next t → Keeps s t

/-- Nothing changes. -/
theorem Keeps.refl (s : State) : Keeps s s := ⟨rfl, rfl, id, id⟩
/-- The relation passes through. -/
theorem keeps_letS {s0 : State} {e : State} {b : State → State} (h : Keeps s0 e) (hb : ∀ x, Keeps s0 x → Keeps s0 (b x)) :
  Keeps s0 (let x := e; b x) := hb _ h
/-- The relation passes through. -/
theorem keeps_letS1 {β : Type} {s0 : State} {e : State} {b : State → State × β} (h : Keeps s0 e) (hb : ∀ x, Keeps s0 x → Keeps s0 (b x).1) :
  Keeps s0 (let x := e; b x).1 := hb _ h
/-- The relation passes through. -/
theorem keeps_letP {α : Type} {s0 : State} {e : State × α} {b : State × α → State} (h : Keeps s0 e.1) (hb : ∀ x : State × α, Keeps s0 x.1 → Keeps s0 (b x)) :
  Keeps s0 (let x := e; b x) := hb _ h
/-- The relation passes through. -/
theorem keeps_letP1 {α β : Type} {s0 : State} {e : State × α} {b : State × α → State × β} (h : Keeps s0 e.1) (hb : ∀ x : State × α, Keeps s0 x.1 → Keeps s0 (b x).1) :
  Keeps s0 (let x := e; b x).1 := hb _ h
/-- The relation passes through. -/
theorem keepsO_letS {s0 : State} {e : State} {b : State → Host.Outcome State Fault Refusal} (h : Keeps s0 e) (hb : ∀ x, Keeps s0 x → KeepsO s0 (b x)) :
  KeepsO s0 (let x := e; b x) := hb _ h
/-- The relation passes through. -/
theorem keeps_ite {s0 a b : State} {c : Prop} [Decidable c] (ha : Keeps s0 a) (hb : Keeps s0 b) : Keeps s0 (if c then a else b) := by
  split <;> assumption
/-- The relation passes through. -/
theorem keeps_ite1 {β : Type} {s0 : State} {a b : State × β} {c : Prop} [Decidable c] (ha : Keeps s0 a.1) (hb : Keeps s0 b.1) : Keeps s0 (if c then a else b).1 := by
  split <;> assumption
/-- The relation passes through. -/
theorem keepsO_ite {s0 : State} {a b : Host.Outcome State Fault Refusal} {c : Prop} [Decidable c] (ha : KeepsO s0 a) (hb : KeepsO s0 b) : KeepsO s0 (if c then a else b) := by
  split <;> assumption
/-- The relation passes through. -/
theorem keepsO_next {s0 a : State} (h : Keeps s0 a) : KeepsO s0 (.next a) := by
  intro t ht; cases ht; exact h
/-- The relation passes through. -/
theorem keepsO_fault {s0 : State} {f : Fault} : KeepsO s0 (.fault f) := by
  intro t ht; cases ht
/-- A loop keeps what its body keeps. -/
theorem forEach_keeps {α : Type} {s0 s : State} {xs : List α} {f : α → State → State} (hf : ∀ x t, Keeps s0 t → Keeps s0 (f x t)) (h : Keeps s0 s) :
    Keeps s0 (forEach xs f s) := by
  unfold forEach
  induction xs generalizing s with
  | nil => exact h
  | cons x xs ih => exact ih (hf x s h)

/-- The relation passes through. -/
theorem keeps_let {α : Type} {s0 : State} {e : α} {b : α → State} (hb : ∀ x, Keeps s0 (b x)) : Keeps s0 (let x := e; b x) := hb _
/-- The relation passes through. -/
theorem keeps_let1 {α β : Type} {s0 : State} {e : α} {b : α → State × β} (hb : ∀ x, Keeps s0 (b x).1) :
    Keeps s0 (let x := e; b x).1 := hb _
/-- The relation passes through. -/
theorem keepsO_let {α : Type} {s0 : State} {e : α} {b : α → Host.Outcome State Fault Refusal} (hb : ∀ x, KeepsO s0 (b x)) :
    KeepsO s0 (let x := e; b x) := hb _


/-- The relation passes through a destructured pair. -/
theorem keeps_fst_eq {β : Type} {s0 t : State} {p : State × β} {o : β} (e : p = (t, o)) (h : Keeps s0 p.1) : Keeps s0 t := by
  rw [e] at h; exact h

/-- The relation passes along an equation of pairs. -/
theorem keeps_fst_of {β : Type} {s0 : State} {p q : State × β} (e : q = p) (h : Keeps s0 q.1) : Keeps s0 p.1 := e ▸ h

/-- The relation passes to a pair. -/
theorem keeps_pair {β : Type} {s0 a : State} {b : β} (h : Keeps s0 a) : Keeps s0 (a, b).1 := h

/-- A fold keeps what its body keeps. -/
theorem foldl_keeps {α : Type} {s0 s : State} {xs : List α} {f : State → α → State} (hf : ∀ t x, Keeps s0 t → Keeps s0 (f t x))
    (h : Keeps s0 s) : Keeps s0 (xs.foldl f s) := by
  induction xs generalizing s with
  | nil => exact h
  | cons x xs ih => exact ih (hf s x h)

/-- A fold over a pair keeps what its body keeps. -/
theorem foldl_keeps1 {α β : Type} {s0 : State} {p : State × β} {xs : List α} {f : State × β → α → State × β}
    (hf : ∀ t x, Keeps s0 t.1 → Keeps s0 (f t x).1) (h : Keeps s0 p.1) : Keeps s0 (xs.foldl f p).1 := by
  induction xs generalizing p with
  | nil => exact h
  | cons x xs ih => exact ih (hf p x h)

/-- One change keeps what the next one keeps. -/
theorem Keeps.trans {a b c : State} (h : Keeps a b) (k : Keeps b c) : Keeps a c :=
  ⟨k.part.trans h.part, k.pending.trans h.pending, fun w => k.wf (h.wf w), fun w => k.nums (h.nums w)⟩

/-- A change of the other fields. -/
theorem keeps_mk {s0 s : State} {f1 f2 f5 f6 f7} (h : Keeps s0 s) :
    Keeps s0 (State.mk s.pending s.part f1 f2 s.mem s.side s.regs s.shadow s.classes s.ctxs s.hctx s.flights s.nextId s.clus s.phys s.dies s.routers s.ports s.links s.chans s.cels s.hbms f5 f6 f7) := ⟨h.part, h.pending, h.wf, h.nums⟩

/-- The canonical form, part by part. -/
theorem canonical_iff (s : State) : s.Canonical ↔
    smWf (fun _ => memDefault) s.mem = true ∧ smWf (fun _ => zeroSide) s.side = true ∧ smWf (regReset s.part) s.regs = true ∧
    smWf (regReset s.part) s.shadow = true ∧ smWf (fun _ => 0) s.classes = true ∧ smWf (fun _ => {}) s.ctxs = true ∧ smWf (fun _ => {}) s.hctx = true ∧ smWf (fun _ => {}) s.clus = true ∧ smWf (fun _ => {}) s.phys = true ∧ smWf (fun _ => {}) s.dies = true ∧ smWf (fun _ => {}) s.routers = true ∧ smWf (fun _ => {}) s.ports = true ∧ smWf (fun _ => {}) s.links = true ∧ smWf (fun _ => {}) s.chans = true ∧ smWf (fun _ => {}) s.cels = true ∧ smWf (fun _ => {}) s.hbms = true := by
  simp only [State.Canonical, Memory.wf, State.tablesWf, Bool.and_eq_true, and_assoc]

/-- Writing this table keeps the rest. -/
theorem State_putDie_keeps {s0 s : State} (hk : Keeps s0 s) (d : Nat) (x : DieSt) : Keeps s0 (s.putDie d x) := by
  refine hk.trans ⟨rfl, rfl, fun w => ?_, id⟩
  rw [canonical_iff] at w
  exact (canonical_iff _).2 ⟨w.1, w.2.1, w.2.2.1, w.2.2.2.1, w.2.2.2.2.1, w.2.2.2.2.2.1, w.2.2.2.2.2.2.1, w.2.2.2.2.2.2.2.1, w.2.2.2.2.2.2.2.2.1, smPut_wf_const _ _ (w.2.2.2.2.2.2.2.2.2.1), w.2.2.2.2.2.2.2.2.2.2.1, w.2.2.2.2.2.2.2.2.2.2.2.1, w.2.2.2.2.2.2.2.2.2.2.2.2.1, w.2.2.2.2.2.2.2.2.2.2.2.2.2.1, w.2.2.2.2.2.2.2.2.2.2.2.2.2.2.1, w.2.2.2.2.2.2.2.2.2.2.2.2.2.2.2⟩
/-- Changing this table keeps the rest. -/
theorem State_updDie_keeps {s0 s : State} (hk : Keeps s0 s) (d : Nat) (f : DieSt → DieSt) : Keeps s0 (s.updDie d f) :=
  State_putDie_keeps hk d _

/-- Writing this table keeps the rest. -/
theorem State_putRouter_keeps {s0 s : State} (hk : Keeps s0 s) (d : Nat) (x : Router) : Keeps s0 (s.putRouter d x) := by
  refine hk.trans ⟨rfl, rfl, fun w => ?_, id⟩
  rw [canonical_iff] at w
  exact (canonical_iff _).2 ⟨w.1, w.2.1, w.2.2.1, w.2.2.2.1, w.2.2.2.2.1, w.2.2.2.2.2.1, w.2.2.2.2.2.2.1, w.2.2.2.2.2.2.2.1, w.2.2.2.2.2.2.2.2.1, w.2.2.2.2.2.2.2.2.2.1, smPut_wf_const _ _ (w.2.2.2.2.2.2.2.2.2.2.1), w.2.2.2.2.2.2.2.2.2.2.2.1, w.2.2.2.2.2.2.2.2.2.2.2.2.1, w.2.2.2.2.2.2.2.2.2.2.2.2.2.1, w.2.2.2.2.2.2.2.2.2.2.2.2.2.2.1, w.2.2.2.2.2.2.2.2.2.2.2.2.2.2.2⟩
/-- Changing this table keeps the rest. -/
theorem State_updRouter_keeps {s0 s : State} (hk : Keeps s0 s) (d : Nat) (f : Router → Router) : Keeps s0 (s.updRouter d f) :=
  State_putRouter_keeps hk d _

/-- Writing this table keeps the rest. -/
theorem State_putLink_keeps {s0 s : State} (hk : Keeps s0 s) (d : Nat) (x : Link) : Keeps s0 (s.putLink d x) := by
  refine hk.trans ⟨rfl, rfl, fun w => ?_, id⟩
  rw [canonical_iff] at w
  exact (canonical_iff _).2 ⟨w.1, w.2.1, w.2.2.1, w.2.2.2.1, w.2.2.2.2.1, w.2.2.2.2.2.1, w.2.2.2.2.2.2.1, w.2.2.2.2.2.2.2.1, w.2.2.2.2.2.2.2.2.1, w.2.2.2.2.2.2.2.2.2.1, w.2.2.2.2.2.2.2.2.2.2.1, w.2.2.2.2.2.2.2.2.2.2.2.1, smPut_wf_const _ _ (w.2.2.2.2.2.2.2.2.2.2.2.2.1), w.2.2.2.2.2.2.2.2.2.2.2.2.2.1, w.2.2.2.2.2.2.2.2.2.2.2.2.2.2.1, w.2.2.2.2.2.2.2.2.2.2.2.2.2.2.2⟩
/-- Changing this table keeps the rest. -/
theorem State_updLink_keeps {s0 s : State} (hk : Keeps s0 s) (d : Nat) (f : Link → Link) : Keeps s0 (s.updLink d f) :=
  State_putLink_keeps hk d _

/-- Writing this table keeps the rest. -/
theorem State_putCel_keeps {s0 s : State} (hk : Keeps s0 s) (d : Nat) (x : Cellar) : Keeps s0 (s.putCel d x) := by
  refine hk.trans ⟨rfl, rfl, fun w => ?_, id⟩
  rw [canonical_iff] at w
  exact (canonical_iff _).2 ⟨w.1, w.2.1, w.2.2.1, w.2.2.2.1, w.2.2.2.2.1, w.2.2.2.2.2.1, w.2.2.2.2.2.2.1, w.2.2.2.2.2.2.2.1, w.2.2.2.2.2.2.2.2.1, w.2.2.2.2.2.2.2.2.2.1, w.2.2.2.2.2.2.2.2.2.2.1, w.2.2.2.2.2.2.2.2.2.2.2.1, w.2.2.2.2.2.2.2.2.2.2.2.2.1, w.2.2.2.2.2.2.2.2.2.2.2.2.2.1, smPut_wf_const _ _ (w.2.2.2.2.2.2.2.2.2.2.2.2.2.2.1), w.2.2.2.2.2.2.2.2.2.2.2.2.2.2.2⟩
/-- Changing this table keeps the rest. -/
theorem State_updCel_keeps {s0 s : State} (hk : Keeps s0 s) (d : Nat) (f : Cellar → Cellar) : Keeps s0 (s.updCel d f) :=
  State_putCel_keeps hk d _

/-- Writing this table keeps the rest. -/
theorem State_putCtx_keeps {s0 s : State} (hk : Keeps s0 s) (d c : Nat) (x : Ctx) : Keeps s0 (s.putCtx d c x) := by
  refine hk.trans ⟨rfl, rfl, fun w => ?_, id⟩
  rw [canonical_iff] at w
  exact (canonical_iff _).2 ⟨w.1, w.2.1, w.2.2.1, w.2.2.2.1, w.2.2.2.2.1, smPut_wf_const _ _ (w.2.2.2.2.2.1), w.2.2.2.2.2.2.1, w.2.2.2.2.2.2.2.1, w.2.2.2.2.2.2.2.2.1, w.2.2.2.2.2.2.2.2.2.1, w.2.2.2.2.2.2.2.2.2.2.1, w.2.2.2.2.2.2.2.2.2.2.2.1, w.2.2.2.2.2.2.2.2.2.2.2.2.1, w.2.2.2.2.2.2.2.2.2.2.2.2.2.1, w.2.2.2.2.2.2.2.2.2.2.2.2.2.2.1, w.2.2.2.2.2.2.2.2.2.2.2.2.2.2.2⟩
/-- Changing this table keeps the rest. -/
theorem State_updCtx_keeps {s0 s : State} (hk : Keeps s0 s) (d c : Nat) (f : Ctx → Ctx) : Keeps s0 (s.updCtx d c f) :=
  State_putCtx_keeps hk d c _

/-- Writing this table keeps the rest. -/
theorem State_putHc_keeps {s0 s : State} (hk : Keeps s0 s) (c : Nat) (x : HCtx) : Keeps s0 (s.putHc c x) := by
  refine hk.trans ⟨rfl, rfl, fun w => ?_, id⟩
  rw [canonical_iff] at w
  exact (canonical_iff _).2 ⟨w.1, w.2.1, w.2.2.1, w.2.2.2.1, w.2.2.2.2.1, w.2.2.2.2.2.1, smPut_wf_const _ _ (w.2.2.2.2.2.2.1), w.2.2.2.2.2.2.2.1, w.2.2.2.2.2.2.2.2.1, w.2.2.2.2.2.2.2.2.2.1, w.2.2.2.2.2.2.2.2.2.2.1, w.2.2.2.2.2.2.2.2.2.2.2.1, w.2.2.2.2.2.2.2.2.2.2.2.2.1, w.2.2.2.2.2.2.2.2.2.2.2.2.2.1, w.2.2.2.2.2.2.2.2.2.2.2.2.2.2.1, w.2.2.2.2.2.2.2.2.2.2.2.2.2.2.2⟩
/-- Changing this table keeps the rest. -/
theorem State_updHc_keeps {s0 s : State} (hk : Keeps s0 s) (c : Nat) (f : HCtx → HCtx) : Keeps s0 (s.updHc c f) :=
  State_putHc_keeps hk c _

/-- Writing this table keeps the rest. -/
theorem State_putCl_keeps {s0 s : State} (hk : Keeps s0 s) (d l : Nat) (x : Cluster) : Keeps s0 (s.putCl d l x) := by
  refine hk.trans ⟨rfl, rfl, fun w => ?_, id⟩
  rw [canonical_iff] at w
  exact (canonical_iff _).2 ⟨w.1, w.2.1, w.2.2.1, w.2.2.2.1, w.2.2.2.2.1, w.2.2.2.2.2.1, w.2.2.2.2.2.2.1, smPut_wf_const _ _ (w.2.2.2.2.2.2.2.1), w.2.2.2.2.2.2.2.2.1, w.2.2.2.2.2.2.2.2.2.1, w.2.2.2.2.2.2.2.2.2.2.1, w.2.2.2.2.2.2.2.2.2.2.2.1, w.2.2.2.2.2.2.2.2.2.2.2.2.1, w.2.2.2.2.2.2.2.2.2.2.2.2.2.1, w.2.2.2.2.2.2.2.2.2.2.2.2.2.2.1, w.2.2.2.2.2.2.2.2.2.2.2.2.2.2.2⟩
/-- Changing this table keeps the rest. -/
theorem State_updCl_keeps {s0 s : State} (hk : Keeps s0 s) (d l : Nat) (f : Cluster → Cluster) : Keeps s0 (s.updCl d l f) :=
  State_putCl_keeps hk d l _

/-- Writing this table keeps the rest. -/
theorem State_putPh_keeps {s0 s : State} (hk : Keeps s0 s) (d p : Nat) (x : Phys) : Keeps s0 (s.putPh d p x) := by
  refine hk.trans ⟨rfl, rfl, fun w => ?_, id⟩
  rw [canonical_iff] at w
  exact (canonical_iff _).2 ⟨w.1, w.2.1, w.2.2.1, w.2.2.2.1, w.2.2.2.2.1, w.2.2.2.2.2.1, w.2.2.2.2.2.2.1, w.2.2.2.2.2.2.2.1, smPut_wf_const _ _ (w.2.2.2.2.2.2.2.2.1), w.2.2.2.2.2.2.2.2.2.1, w.2.2.2.2.2.2.2.2.2.2.1, w.2.2.2.2.2.2.2.2.2.2.2.1, w.2.2.2.2.2.2.2.2.2.2.2.2.1, w.2.2.2.2.2.2.2.2.2.2.2.2.2.1, w.2.2.2.2.2.2.2.2.2.2.2.2.2.2.1, w.2.2.2.2.2.2.2.2.2.2.2.2.2.2.2⟩
/-- Changing this table keeps the rest. -/
theorem State_updPh_keeps {s0 s : State} (hk : Keeps s0 s) (d p : Nat) (f : Phys → Phys) : Keeps s0 (s.updPh d p f) :=
  State_putPh_keeps hk d p _

/-- Writing this table keeps the rest. -/
theorem State_putPort_keeps {s0 s : State} (hk : Keeps s0 s) (d p : Nat) (x : Port) : Keeps s0 (s.putPort d p x) := by
  refine hk.trans ⟨rfl, rfl, fun w => ?_, id⟩
  rw [canonical_iff] at w
  exact (canonical_iff _).2 ⟨w.1, w.2.1, w.2.2.1, w.2.2.2.1, w.2.2.2.2.1, w.2.2.2.2.2.1, w.2.2.2.2.2.2.1, w.2.2.2.2.2.2.2.1, w.2.2.2.2.2.2.2.2.1, w.2.2.2.2.2.2.2.2.2.1, w.2.2.2.2.2.2.2.2.2.2.1, smPut_wf_const _ _ (w.2.2.2.2.2.2.2.2.2.2.2.1), w.2.2.2.2.2.2.2.2.2.2.2.2.1, w.2.2.2.2.2.2.2.2.2.2.2.2.2.1, w.2.2.2.2.2.2.2.2.2.2.2.2.2.2.1, w.2.2.2.2.2.2.2.2.2.2.2.2.2.2.2⟩
/-- Changing this table keeps the rest. -/
theorem State_updPort_keeps {s0 s : State} (hk : Keeps s0 s) (d p : Nat) (f : Port → Port) : Keeps s0 (s.updPort d p f) :=
  State_putPort_keeps hk d p _

/-- Writing this table keeps the rest. -/
theorem State_putChan_keeps {s0 s : State} (hk : Keeps s0 s) (d c h : Nat) (x : Chan) : Keeps s0 (s.putChan d c h x) := by
  refine hk.trans ⟨rfl, rfl, fun w => ?_, id⟩
  rw [canonical_iff] at w
  exact (canonical_iff _).2 ⟨w.1, w.2.1, w.2.2.1, w.2.2.2.1, w.2.2.2.2.1, w.2.2.2.2.2.1, w.2.2.2.2.2.2.1, w.2.2.2.2.2.2.2.1, w.2.2.2.2.2.2.2.2.1, w.2.2.2.2.2.2.2.2.2.1, w.2.2.2.2.2.2.2.2.2.2.1, w.2.2.2.2.2.2.2.2.2.2.2.1, w.2.2.2.2.2.2.2.2.2.2.2.2.1, smPut_wf_const _ _ (w.2.2.2.2.2.2.2.2.2.2.2.2.2.1), w.2.2.2.2.2.2.2.2.2.2.2.2.2.2.1, w.2.2.2.2.2.2.2.2.2.2.2.2.2.2.2⟩
/-- Changing this table keeps the rest. -/
theorem State_updChan_keeps {s0 s : State} (hk : Keeps s0 s) (d c h : Nat) (f : Chan → Chan) : Keeps s0 (s.updChan d c h f) :=
  State_putChan_keeps hk d c h _

/-- Writing this table keeps the rest. -/
theorem State_putHbm_keeps {s0 s : State} (hk : Keeps s0 s) (d k : Nat) (x : Hbm) : Keeps s0 (s.putHbm d k x) := by
  refine hk.trans ⟨rfl, rfl, fun w => ?_, id⟩
  rw [canonical_iff] at w
  exact (canonical_iff _).2 ⟨w.1, w.2.1, w.2.2.1, w.2.2.2.1, w.2.2.2.2.1, w.2.2.2.2.2.1, w.2.2.2.2.2.2.1, w.2.2.2.2.2.2.2.1, w.2.2.2.2.2.2.2.2.1, w.2.2.2.2.2.2.2.2.2.1, w.2.2.2.2.2.2.2.2.2.2.1, w.2.2.2.2.2.2.2.2.2.2.2.1, w.2.2.2.2.2.2.2.2.2.2.2.2.1, w.2.2.2.2.2.2.2.2.2.2.2.2.2.1, w.2.2.2.2.2.2.2.2.2.2.2.2.2.2.1, smPut_wf_const _ _ (w.2.2.2.2.2.2.2.2.2.2.2.2.2.2.2)⟩
/-- Changing this table keeps the rest. -/
theorem State_updHbm_keeps {s0 s : State} (hk : Keeps s0 s) (d k : Nat) (f : Hbm → Hbm) : Keeps s0 (s.updHbm d k f) :=
  State_putHbm_keeps hk d k _

/-- A change of the classes of one cause bit keeps the rest. -/
theorem keeps_classes {s0 s : State} (h : Keeps s0 s) (k v : Nat) : Keeps s0 { s with classes := smPut 0 s.classes k v } := by
  refine h.trans ⟨rfl, rfl, fun w => ?_, id⟩
  rw [canonical_iff] at w
  exact (canonical_iff _).2 ⟨w.1, w.2.1, w.2.2.1, w.2.2.2.1, smPut_wf_const _ _ (w.2.2.2.2.1), w.2.2.2.2.2.1, w.2.2.2.2.2.2.1, w.2.2.2.2.2.2.2.1, w.2.2.2.2.2.2.2.2.1, w.2.2.2.2.2.2.2.2.2.1, w.2.2.2.2.2.2.2.2.2.2.1, w.2.2.2.2.2.2.2.2.2.2.2.1, w.2.2.2.2.2.2.2.2.2.2.2.2.1, w.2.2.2.2.2.2.2.2.2.2.2.2.2.1, w.2.2.2.2.2.2.2.2.2.2.2.2.2.2.1, w.2.2.2.2.2.2.2.2.2.2.2.2.2.2.2⟩

/-- A register write keeps the canonical form. -/
theorem State_setReg_keeps {s0 s : State} (h : Keeps s0 s) (a : Nat) (v : Word) : Keeps s0 (s.setReg a v) := by
  refine h.trans ⟨State.setReg_part s a v, State.setReg_pending s a v, fun w => ?_,
    fun w => by unfold State.Numbered at *; rw [State.setReg_flights, State.setReg_nextId]; exact w⟩
  rw [canonical_iff] at w
  rw [State.setReg_eq]
  exact (canonical_iff _).2 ⟨w.1, w.2.1, smPut_wf (d := regReset s.part) a v (w.2.2.1), w.2.2.2.1, w.2.2.2.2.1, w.2.2.2.2.2.1, w.2.2.2.2.2.2.1, w.2.2.2.2.2.2.2.1, w.2.2.2.2.2.2.2.2.1, w.2.2.2.2.2.2.2.2.2.1, w.2.2.2.2.2.2.2.2.2.2.1, w.2.2.2.2.2.2.2.2.2.2.2.1, w.2.2.2.2.2.2.2.2.2.2.2.2.1, w.2.2.2.2.2.2.2.2.2.2.2.2.2.1, w.2.2.2.2.2.2.2.2.2.2.2.2.2.2.1, w.2.2.2.2.2.2.2.2.2.2.2.2.2.2.2⟩

/-- A shadow write keeps the canonical form. -/
theorem State_setShad_keeps {s0 s : State} (h : Keeps s0 s) (a : Nat) (v : Word) : Keeps s0 (s.setShad a v) := by
  refine h.trans ⟨State.setShad_part s a v, State.setShad_pending s a v, fun w => ?_,
    fun w => by unfold State.Numbered at *; rw [State.setShad_flights, State.setShad_nextId]; exact w⟩
  rw [canonical_iff] at w
  rw [State.setShad_eq]
  exact (canonical_iff _).2 ⟨w.1, w.2.1, w.2.2.1, smPut_wf (d := regReset s.part) a v (w.2.2.2.1), w.2.2.2.2.1, w.2.2.2.2.2.1, w.2.2.2.2.2.2.1, w.2.2.2.2.2.2.2.1, w.2.2.2.2.2.2.2.2.1, w.2.2.2.2.2.2.2.2.2.1, w.2.2.2.2.2.2.2.2.2.2.1, w.2.2.2.2.2.2.2.2.2.2.2.1, w.2.2.2.2.2.2.2.2.2.2.2.2.1, w.2.2.2.2.2.2.2.2.2.2.2.2.2.1, w.2.2.2.2.2.2.2.2.2.2.2.2.2.2.1, w.2.2.2.2.2.2.2.2.2.2.2.2.2.2.2⟩

/-- A line write keeps the canonical form. -/
theorem State_putLine_keeps {s0 s : State} (h : Keeps s0 s) (n : Nat) (l : Line) : Keeps s0 (s.putLine n l) := by
  refine h.trans ⟨State.putLine_part s n l, State.putLine_pending s n l, fun w => ?_,
    fun w => by unfold State.Numbered at *; rw [State.putLine_flights, State.putLine_nextId]; exact w⟩
  rw [canonical_iff] at w
  rw [State.putLine_eq]
  exact (canonical_iff _).2 ⟨smPuts_wf _ _ w.1, smPut_wf_const n l.sb w.2.1, w.2.2.1, w.2.2.2.1, w.2.2.2.2.1, w.2.2.2.2.2.1, w.2.2.2.2.2.2.1, w.2.2.2.2.2.2.2.1, w.2.2.2.2.2.2.2.2.1, w.2.2.2.2.2.2.2.2.2.1, w.2.2.2.2.2.2.2.2.2.2.1, w.2.2.2.2.2.2.2.2.2.2.2.1, w.2.2.2.2.2.2.2.2.2.2.2.2.1, w.2.2.2.2.2.2.2.2.2.2.2.2.2.1, w.2.2.2.2.2.2.2.2.2.2.2.2.2.2.1, w.2.2.2.2.2.2.2.2.2.2.2.2.2.2.2⟩

/-- A sideband write keeps the canonical form. -/
theorem State_putSide_keeps {s0 s : State} (h : Keeps s0 s) (n : Nat) (x : Word) : Keeps s0 (s.putSide n x) := by
  refine h.trans ⟨State.putSide_part s n x, State.putSide_pending s n x, fun w => ?_,
    fun w => by unfold State.Numbered at *; rw [State.putSide_flights, State.putSide_nextId]; exact w⟩
  rw [canonical_iff] at w
  rw [State.putSide_eq]
  exact (canonical_iff _).2 ⟨w.1, smPut_wf_const n x w.2.1, w.2.2.1, w.2.2.2.1, w.2.2.2.2.1, w.2.2.2.2.2.1, w.2.2.2.2.2.2.1, w.2.2.2.2.2.2.2.1, w.2.2.2.2.2.2.2.2.1, w.2.2.2.2.2.2.2.2.2.1, w.2.2.2.2.2.2.2.2.2.2.1, w.2.2.2.2.2.2.2.2.2.2.2.1, w.2.2.2.2.2.2.2.2.2.2.2.2.1, w.2.2.2.2.2.2.2.2.2.2.2.2.2.1, w.2.2.2.2.2.2.2.2.2.2.2.2.2.2.1, w.2.2.2.2.2.2.2.2.2.2.2.2.2.2.2⟩

/-- Losing entries of memory and of the sidebands keeps the canonical form. -/
theorem keeps_lose {s0 s : State} (h : Keeps s0 s) (p : Nat × Byte → Bool) (q : Nat × Word → Bool) :
    Keeps s0 { s with mem := s.mem.filter p, side := s.side.filter q } := by
  refine h.trans ⟨rfl, rfl, fun w => ?_, id⟩
  rw [canonical_iff] at w
  exact (canonical_iff _).2 ⟨smWf_filter w.1 p, smWf_filter w.2.1 q, w.2.2.1, w.2.2.2.1, w.2.2.2.2.1, w.2.2.2.2.2.1, w.2.2.2.2.2.2.1, w.2.2.2.2.2.2.2.1, w.2.2.2.2.2.2.2.2.1, w.2.2.2.2.2.2.2.2.2.1, w.2.2.2.2.2.2.2.2.2.2.1, w.2.2.2.2.2.2.2.2.2.2.2.1, w.2.2.2.2.2.2.2.2.2.2.2.2.1, w.2.2.2.2.2.2.2.2.2.2.2.2.2.1, w.2.2.2.2.2.2.2.2.2.2.2.2.2.2.1, w.2.2.2.2.2.2.2.2.2.2.2.2.2.2.2⟩

/-- R195: a zero-filled stack. -/
theorem State_zeroStack_keeps {s0 s : State} (h : Keeps s0 s) (d k : Nat) : Keeps s0 (s.zeroStack d k) := keeps_lose h _ _

/-- R179: zero-filled scratchpad lines. -/
theorem State_zeroScratch_keeps {s0 s : State} (h : Keeps s0 s) (d lo hi : Nat) : Keeps s0 (s.zeroScratch d lo hi) :=
  keeps_lose h _ _

/-- R384: memory of a die that is lost. -/
theorem State_loseMemory_keeps {s0 s : State} (h : Keeps s0 s) (d : Nat) : Keeps s0 (s.loseMemory d) := keeps_lose h _ _

/-- Losing entries of the registers, the shadow values and the classes keeps the canonical form. -/
theorem keeps_forget {s0 s : State} (h : Keeps s0 s) (p q : Nat × Word → Bool) (r : Nat × Nat → Bool) :
    Keeps s0 { s with regs := s.regs.filter p, shadow := s.shadow.filter q, classes := s.classes.filter r } := by
  refine h.trans ⟨rfl, rfl, fun w => ?_, id⟩
  rw [canonical_iff] at w
  exact (canonical_iff _).2 ⟨w.1, w.2.1, smWf_filter (d := regReset s.part) w.2.2.1 p, smWf_filter (d := regReset s.part) w.2.2.2.1 q, smWf_filter w.2.2.2.2.1 r, w.2.2.2.2.2.1, w.2.2.2.2.2.2.1, w.2.2.2.2.2.2.2.1, w.2.2.2.2.2.2.2.2.1, w.2.2.2.2.2.2.2.2.2.1, w.2.2.2.2.2.2.2.2.2.2.1, w.2.2.2.2.2.2.2.2.2.2.2.1, w.2.2.2.2.2.2.2.2.2.2.2.2.1, w.2.2.2.2.2.2.2.2.2.2.2.2.2.1, w.2.2.2.2.2.2.2.2.2.2.2.2.2.2.1, w.2.2.2.2.2.2.2.2.2.2.2.2.2.2.2⟩

/-- R391: a spare that starts empty. -/
theorem State_freshCluster_keeps {s0 s : State} (h : Keeps s0 s) (d l : Nat) : Keeps s0 (s.freshCluster d l) := by
  unfold State.freshCluster
  exact State_updCl_keeps (keeps_forget h _ _ _) d l _

/-- R298: the reset of the module. -/
theorem State_coreReset_keeps {s0 s : State} (h : Keeps s0 s) : Keeps s0 s.coreReset :=
  h.trans ⟨rfl, rfl, fun _ => rfl, fun _ f hf => nomatch (show f ∈ ([] : List Flight) from hf)⟩

/-- A poisoned sideband is not that of a zero-filled line. -/
theorem mkSide_poison_ne (crc : BitVec 32) (ver : Nat) : mkSide crc ver 0 flagPoison ≠ zeroSide := by
  intro h
  have h1 := congrArg (fun w : Word => w.getLsbD 56) h
  simp only [mkSide, wordOf, zeroSide, zeroLineCrc, flagPoison, BitVec.getLsbD_or, BitVec.getLsbD_setWidth, BitVec.getLsbD_ofNat] at h1
  have h2 : ((ver % 65536) * 2 ^ 32 + 0 % 256 * 2 ^ 48 + 1 % 256 * 2 ^ 56).testBit 56 = true := by
    have h3 : (ver % 65536) * 2 ^ 32 < 2 ^ 56 := by
      have := Nat.mod_lt ver (show 0 < 65536 by decide)
      omega
    have h4 : (ver % 65536) * 2 ^ 32 + 0 % 256 * 2 ^ 48 + 1 % 256 * 2 ^ 56 = 2 ^ 56 + (ver % 65536) * 2 ^ 32 := by omega
    rw [h4, Nat.testBit_two_pow_add_eq, Nat.testBit_lt_two_pow h3]
    rfl
  rw [h2] at h1
  simp at h1

/-- R181: every line of a scratchpad is marked poisoned. -/
theorem State_poisonScratch_keeps {s0 s : State} (h : Keeps s0 s) (d : Nat) : Keeps s0 (s.poisonScratch d) := by
  refine h.trans ⟨rfl, rfl, fun w => ?_, id⟩
  rw [canonical_iff] at w
  refine (canonical_iff _).2 ⟨w.1, ?_, w.2.2.1, w.2.2.2.1, w.2.2.2.2.1, w.2.2.2.2.2.1, w.2.2.2.2.2.2.1, w.2.2.2.2.2.2.2.1, w.2.2.2.2.2.2.2.2.1, w.2.2.2.2.2.2.2.2.2.1, w.2.2.2.2.2.2.2.2.2.2.1, w.2.2.2.2.2.2.2.2.2.2.2.1, w.2.2.2.2.2.2.2.2.2.2.2.2.1, w.2.2.2.2.2.2.2.2.2.2.2.2.2.1, w.2.2.2.2.2.2.2.2.2.2.2.2.2.2.1, w.2.2.2.2.2.2.2.2.2.2.2.2.2.2.2⟩
  have ws := (smWf_iff _ _).1 w.2.1
  refine (smWf_iff _ _).2 ⟨?_, ?_⟩
  · unfold State.poisonScratch
    refine List.pairwise_append.2 ⟨List.pairwise_append.2 ⟨ws.1.sublist List.filter_sublist, ?_, ?_⟩,
      ws.1.sublist List.filter_sublist, ?_⟩
    · rw [List.pairwise_map]
      exact List.Pairwise.imp (fun {a b} hab => by simpa using hab) List.pairwise_lt_range
    · intro a ha b hb
      obtain ⟨i, -, rfl⟩ := List.mem_map.1 hb
      have := (List.mem_filter.1 ha).2
      simp only [decide_eq_true_eq] at this
      exact Nat.lt_of_lt_of_le this (Nat.le_add_right _ _)
    · intro a ha b hb
      have hb2 := (List.mem_filter.1 hb).2
      simp only [decide_eq_true_eq] at hb2
      rcases List.mem_append.1 ha with ha | ha
      · have := (List.mem_filter.1 ha).2
        simp only [decide_eq_true_eq] at this
        exact Nat.lt_of_lt_of_le this (Nat.le_trans (Nat.le_add_right _ _) hb2)
      · obtain ⟨i, hi, rfl⟩ := List.mem_map.1 ha
        exact Nat.lt_of_lt_of_le (Nat.add_lt_add_left (List.mem_range.1 hi) _) hb2
  · intro e he
    rcases List.mem_append.1 he with he | he
    · rcases List.mem_append.1 he with he | he
      · exact ws.2 e (List.mem_filter.1 he).1
      · obtain ⟨i, -, rfl⟩ := List.mem_map.1 he
        exact mkSide_poison_ne _ _
    · exact ws.2 e (List.mem_filter.1 he).1

end Sys2Proof.Machine
end

