-- ==== Sys2Proof/Laws/Bytes.lean ====
section
/-! SUPPORT. What leaves memory alone. -/

namespace Sys2Proof.Machine

/-- Memory holds the same bytes. -/
def SameMem (s t : State) : Prop := t.mem = s.mem

/-- The same of an outcome. -/
def SameMemO (s : State) (o : Host.Outcome State Fault Refusal) : Prop := ∀ t, o = .next t → SameMem s t

/-- Nothing changes. -/
theorem SameMem.refl (s : State) : SameMem s s := rfl
/-- The relation passes through. -/
theorem bytes_letS {s0 : State} {e : State} {b : State → State} (h : SameMem s0 e) (hb : ∀ x, SameMem s0 x → SameMem s0 (b x)) :
  SameMem s0 (let x := e; b x) := hb _ h
/-- The relation passes through. -/
theorem bytes_letS1 {β : Type} {s0 : State} {e : State} {b : State → State × β} (h : SameMem s0 e) (hb : ∀ x, SameMem s0 x → SameMem s0 (b x).1) :
  SameMem s0 (let x := e; b x).1 := hb _ h
/-- The relation passes through. -/
theorem bytes_letP {α : Type} {s0 : State} {e : State × α} {b : State × α → State} (h : SameMem s0 e.1) (hb : ∀ x : State × α, SameMem s0 x.1 → SameMem s0 (b x)) :
  SameMem s0 (let x := e; b x) := hb _ h
/-- The relation passes through. -/
theorem bytes_letP1 {α β : Type} {s0 : State} {e : State × α} {b : State × α → State × β} (h : SameMem s0 e.1) (hb : ∀ x : State × α, SameMem s0 x.1 → SameMem s0 (b x).1) :
  SameMem s0 (let x := e; b x).1 := hb _ h
/-- The relation passes through. -/
theorem bytesO_letS {s0 : State} {e : State} {b : State → Host.Outcome State Fault Refusal} (h : SameMem s0 e) (hb : ∀ x, SameMem s0 x → SameMemO s0 (b x)) :
  SameMemO s0 (let x := e; b x) := hb _ h
/-- The relation passes through. -/
theorem bytes_ite {s0 a b : State} {c : Prop} [Decidable c] (ha : SameMem s0 a) (hb : SameMem s0 b) : SameMem s0 (if c then a else b) := by
  split <;> assumption
/-- The relation passes through. -/
theorem bytes_ite1 {β : Type} {s0 : State} {a b : State × β} {c : Prop} [Decidable c] (ha : SameMem s0 a.1) (hb : SameMem s0 b.1) : SameMem s0 (if c then a else b).1 := by
  split <;> assumption
/-- The relation passes through. -/
theorem bytesO_ite {s0 : State} {a b : Host.Outcome State Fault Refusal} {c : Prop} [Decidable c] (ha : SameMemO s0 a) (hb : SameMemO s0 b) : SameMemO s0 (if c then a else b) := by
  split <;> assumption
/-- The relation passes through. -/
theorem bytesO_next {s0 a : State} (h : SameMem s0 a) : SameMemO s0 (.next a) := by
  intro t ht; cases ht; exact h
/-- The relation passes through. -/
theorem bytesO_fault {s0 : State} {f : Fault} : SameMemO s0 (.fault f) := by
  intro t ht; cases ht
/-- A loop keeps what its body keeps. -/
theorem forEach_bytes {α : Type} {s0 s : State} {xs : List α} {f : α → State → State} (hf : ∀ x t, SameMem s0 t → SameMem s0 (f x t)) (h : SameMem s0 s) :
    SameMem s0 (forEach xs f s) := by
  unfold forEach
  induction xs generalizing s with
  | nil => exact h
  | cons x xs ih => exact ih (hf x s h)

/-- The relation passes through. -/
theorem bytes_let {α : Type} {s0 : State} {e : α} {b : α → State} (hb : ∀ x, SameMem s0 (b x)) : SameMem s0 (let x := e; b x) := hb _
/-- The relation passes through. -/
theorem bytes_let1 {α β : Type} {s0 : State} {e : α} {b : α → State × β} (hb : ∀ x, SameMem s0 (b x).1) :
    SameMem s0 (let x := e; b x).1 := hb _
/-- The relation passes through. -/
theorem bytesO_let {α : Type} {s0 : State} {e : α} {b : α → Host.Outcome State Fault Refusal} (hb : ∀ x, SameMemO s0 (b x)) :
    SameMemO s0 (let x := e; b x) := hb _


/-- The relation passes through a destructured pair. -/
theorem bytes_fst_eq {β : Type} {s0 t : State} {p : State × β} {o : β} (e : p = (t, o)) (h : SameMem s0 p.1) : SameMem s0 t := by
  rw [e] at h; exact h

/-- The relation passes along an equation of pairs. -/
theorem bytes_fst_of {β : Type} {s0 : State} {p q : State × β} (e : q = p) (h : SameMem s0 q.1) : SameMem s0 p.1 := e ▸ h

/-- The relation passes to a pair. -/
theorem bytes_pair {β : Type} {s0 a : State} {b : β} (h : SameMem s0 a) : SameMem s0 (a, b).1 := h

/-- A fold keeps what its body keeps. -/
theorem foldl_bytes {α : Type} {s0 s : State} {xs : List α} {f : State → α → State} (hf : ∀ t x, SameMem s0 t → SameMem s0 (f t x))
    (h : SameMem s0 s) : SameMem s0 (xs.foldl f s) := by
  induction xs generalizing s with
  | nil => exact h
  | cons x xs ih => exact ih (hf s x h)

/-- A fold over a pair keeps what its body keeps. -/
theorem foldl_bytes1 {α β : Type} {s0 : State} {p : State × β} {xs : List α} {f : State × β → α → State × β}
    (hf : ∀ t x, SameMem s0 t.1 → SameMem s0 (f t x).1) (h : SameMem s0 p.1) : SameMem s0 (xs.foldl f p).1 := by
  induction xs generalizing p with
  | nil => exact h
  | cons x xs ih => exact ih (hf p x h)

/-- One change keeps what the next one keeps. -/
theorem SameMem.trans {a b c : State} (h : SameMem a b) (k : SameMem b c) : SameMem a c :=
  Eq.trans k h

/-- A change of the other fields. -/
theorem bytes_mk {s0 s : State} {f1 f2 f3 f4 f5 f6 f7 f8 f9 f10 f11 f12 f13 f14 f15 f16 f17 f18 f19 f20 f21 f22 f23 f24} (h : SameMem s0 s) :
    SameMem s0 (State.mk f1 f2 f3 f4 s.mem f5 f6 f7 f8 f9 f10 f11 f12 f13 f14 f15 f16 f17 f18 f19 f20 f21 f22 f23 f24) := h

/-- Writing this table leaves memory alone. -/
theorem State_putDie_bytes {s0 s : State} (hk : SameMem s0 s) (d : Nat) (x : DieSt) : SameMem s0 (s.putDie d x) := hk
/-- Changing this table leaves memory alone. -/
theorem State_updDie_bytes {s0 s : State} (hk : SameMem s0 s) (d : Nat) (f : DieSt → DieSt) : SameMem s0 (s.updDie d f) := hk

/-- Writing this table leaves memory alone. -/
theorem State_putRouter_bytes {s0 s : State} (hk : SameMem s0 s) (d : Nat) (x : Router) : SameMem s0 (s.putRouter d x) := hk
/-- Changing this table leaves memory alone. -/
theorem State_updRouter_bytes {s0 s : State} (hk : SameMem s0 s) (d : Nat) (f : Router → Router) : SameMem s0 (s.updRouter d f) := hk

/-- Writing this table leaves memory alone. -/
theorem State_putLink_bytes {s0 s : State} (hk : SameMem s0 s) (d : Nat) (x : Link) : SameMem s0 (s.putLink d x) := hk
/-- Changing this table leaves memory alone. -/
theorem State_updLink_bytes {s0 s : State} (hk : SameMem s0 s) (d : Nat) (f : Link → Link) : SameMem s0 (s.updLink d f) := hk

/-- Writing this table leaves memory alone. -/
theorem State_putCel_bytes {s0 s : State} (hk : SameMem s0 s) (d : Nat) (x : Cellar) : SameMem s0 (s.putCel d x) := hk
/-- Changing this table leaves memory alone. -/
theorem State_updCel_bytes {s0 s : State} (hk : SameMem s0 s) (d : Nat) (f : Cellar → Cellar) : SameMem s0 (s.updCel d f) := hk

/-- Writing this table leaves memory alone. -/
theorem State_putCtx_bytes {s0 s : State} (hk : SameMem s0 s) (d c : Nat) (x : Ctx) : SameMem s0 (s.putCtx d c x) := hk
/-- Changing this table leaves memory alone. -/
theorem State_updCtx_bytes {s0 s : State} (hk : SameMem s0 s) (d c : Nat) (f : Ctx → Ctx) : SameMem s0 (s.updCtx d c f) := hk

/-- Writing this table leaves memory alone. -/
theorem State_putHc_bytes {s0 s : State} (hk : SameMem s0 s) (c : Nat) (x : HCtx) : SameMem s0 (s.putHc c x) := hk
/-- Changing this table leaves memory alone. -/
theorem State_updHc_bytes {s0 s : State} (hk : SameMem s0 s) (c : Nat) (f : HCtx → HCtx) : SameMem s0 (s.updHc c f) := hk

/-- Writing this table leaves memory alone. -/
theorem State_putCl_bytes {s0 s : State} (hk : SameMem s0 s) (d l : Nat) (x : Cluster) : SameMem s0 (s.putCl d l x) := hk
/-- Changing this table leaves memory alone. -/
theorem State_updCl_bytes {s0 s : State} (hk : SameMem s0 s) (d l : Nat) (f : Cluster → Cluster) : SameMem s0 (s.updCl d l f) := hk

/-- Writing this table leaves memory alone. -/
theorem State_putPh_bytes {s0 s : State} (hk : SameMem s0 s) (d p : Nat) (x : Phys) : SameMem s0 (s.putPh d p x) := hk
/-- Changing this table leaves memory alone. -/
theorem State_updPh_bytes {s0 s : State} (hk : SameMem s0 s) (d p : Nat) (f : Phys → Phys) : SameMem s0 (s.updPh d p f) := hk

/-- Writing this table leaves memory alone. -/
theorem State_putPort_bytes {s0 s : State} (hk : SameMem s0 s) (d p : Nat) (x : Port) : SameMem s0 (s.putPort d p x) := hk
/-- Changing this table leaves memory alone. -/
theorem State_updPort_bytes {s0 s : State} (hk : SameMem s0 s) (d p : Nat) (f : Port → Port) : SameMem s0 (s.updPort d p f) := hk

/-- Writing this table leaves memory alone. -/
theorem State_putChan_bytes {s0 s : State} (hk : SameMem s0 s) (d c h : Nat) (x : Chan) : SameMem s0 (s.putChan d c h x) := hk
/-- Changing this table leaves memory alone. -/
theorem State_updChan_bytes {s0 s : State} (hk : SameMem s0 s) (d c h : Nat) (f : Chan → Chan) : SameMem s0 (s.updChan d c h f) := hk

/-- Writing this table leaves memory alone. -/
theorem State_putHbm_bytes {s0 s : State} (hk : SameMem s0 s) (d k : Nat) (x : Hbm) : SameMem s0 (s.putHbm d k x) := hk
/-- Changing this table leaves memory alone. -/
theorem State_updHbm_bytes {s0 s : State} (hk : SameMem s0 s) (d k : Nat) (f : Hbm → Hbm) : SameMem s0 (s.updHbm d k f) := hk

/-- A change of the classes of one cause bit leaves memory alone. -/
theorem bytes_classes {s0 s : State} (h : SameMem s0 s) (k v : Nat) : SameMem s0 { s with classes := smPut 0 s.classes k v } := h
/-- A register write leaves memory alone. -/
theorem State_setReg_bytes {s0 s : State} (h : SameMem s0 s) (a : Nat) (v : Word) : SameMem s0 (s.setReg a v) :=
  (State.setReg_mem s a v).trans h
/-- A shadow write leaves memory alone. -/
theorem State_setShad_bytes {s0 s : State} (h : SameMem s0 s) (a : Nat) (v : Word) : SameMem s0 (s.setShad a v) :=
  (State.setShad_mem s a v).trans h
/-- A sideband write leaves memory alone. -/
theorem State_putSide_bytes {s0 s : State} (h : SameMem s0 s) (n : Nat) (x : Word) : SameMem s0 (s.putSide n x) :=
  (State.putSide_mem s n x).trans h
/-- R181: the bytes of a scratchpad stay where its sidebands are marked. -/
theorem State_poisonScratch_bytes {s0 s : State} (h : SameMem s0 s) (d : Nat) : SameMem s0 (s.poisonScratch d) := by
  unfold State.poisonScratch; exact h
/-- R391: a spare that starts empty. -/
theorem State_freshCluster_bytes {s0 s : State} (h : SameMem s0 s) (d l : Nat) : SameMem s0 (s.freshCluster d l) := by
  unfold State.freshCluster; exact h

end Sys2Proof.Machine
end

