-- ==== Sys2Proof/Laws/BytesCore.lean ====
section
/-! SUPPORT. What leaves memory alone: the operations, from the inside out. -/

set_option Elab.async false

namespace Sys2Proof.Machine

/-- `State.setRg`. -/
theorem State_setRg_bytes (s : State) (d : Nat) (b : Blk) (i f : Nat) (v : Word) {s_ : State} (hks : SameMem s_ s) :
    SameMem s_ (State.setRg s d b i f v) := by
  unfold State.setRg
  with_reducible
    repeat' (first
      | assumption
      | apply State_setReg_bytes)

/-- `State.setFld`. -/
theorem State_setFld_bytes (s : State) (d : Nat) (b : Blk) (i f lo n v : Nat) {s_ : State} (hks : SameMem s_ s) :
    SameMem s_ (State.setFld s d b i f lo n v) := by
  unfold State.setFld
  with_reducible
    repeat' (first
      | assumption
      | apply State_setRg_bytes)

/-- `State.addRg`. -/
theorem State_addRg_bytes (s : State) (d : Nat) (b : Blk) (i f k : Nat) {s_ : State} (hks : SameMem s_ s) :
    SameMem s_ (State.addRg s d b i f k) := by
  unfold State.addRg
  with_reducible
    repeat' (first
      | assumption
      | apply State_setRg_bytes)

/-- `State.poisonLine`. -/
theorem State_poisonLine_bytes (s : State) (n : Nat) {s_ : State} (hks : SameMem s_ s) :
    SameMem s_ (State.poisonLine s n) := by
  unfold State.poisonLine
  with_reducible
    repeat' (first
      | assumption
      | apply State_putSide_bytes)

/-- `State.allocate`. -/
theorem State_allocate_bytes (s : State) (a : Nat) (dirty : Bool) {s_ : State} (hks : SameMem s_ s) :
    SameMem s_ (State.allocate s a dirty) := by
  unfold State.allocate
  with_reducible
    repeat' (first
      | assumption
      | lift_lets
      | (intro x; refine (fun (hx : SameMem s_ x) => ?_) ?_; clear_value x; rotate_left; unfold x; rotate_right)
      | (intro x; refine (fun (hx : SameMem s_ x.1) => ?_) ?_; clear_value x; rotate_left; unfold x; rotate_right)
      | (intro x; clear_value x)
      | apply State_updCel_bytes
      | apply State_addRg_bytes
      | apply bytes_ite
      | (apply bytes_mk; assumption)
      | (intro _))

/-- `State.touchRead`. -/
theorem State_touchRead_bytes (s : State) (a : Nat) {s_ : State} (hks : SameMem s_ s) :
    SameMem s_ (State.touchRead s a) := by
  unfold State.touchRead
  with_reducible
    repeat' (first
      | assumption
      | lift_lets
      | (intro x; refine (fun (hx : SameMem s_ x) => ?_) ?_; clear_value x; rotate_left; unfold x; rotate_right)
      | (intro x; refine (fun (hx : SameMem s_ x.1) => ?_) ?_; clear_value x; rotate_left; unfold x; rotate_right)
      | (intro x; clear_value x)
      | apply State_addRg_bytes
      | apply State_allocate_bytes
      | apply bytes_ite
      | (intro _))

/-- `State.touchWrite`. -/
theorem State_touchWrite_bytes (s : State) (a : Nat) (masked : Bool) {s_ : State} (hks : SameMem s_ s) :
    SameMem s_ (State.touchWrite s a masked) := by
  unfold State.touchWrite
  with_reducible
    repeat' (first
      | assumption
      | lift_lets
      | (intro x; refine (fun (hx : SameMem s_ x) => ?_) ?_; clear_value x; rotate_left; unfold x; rotate_right)
      | (intro x; refine (fun (hx : SameMem s_ x.1) => ?_) ?_; clear_value x; rotate_left; unfold x; rotate_right)
      | (intro x; clear_value x)
      | apply State_updCel_bytes
      | apply State_addRg_bytes
      | apply State_allocate_bytes
      | apply bytes_ite
      | (apply bytes_mk; assumption)
      | (intro _)
      | split
      | (refine bytes_fst_eq (by assumption) ?_))

/-- `State.emit`. -/
theorem State_emit_bytes (s : State) (o : OutMsg) {s_ : State} (hks : SameMem s_ s) :
    SameMem s_ (State.emit s o) := by
  unfold State.emit
  with_reducible
    repeat' (first
      | assumption
      | (apply bytes_mk; assumption))

/-- `State.fresh`. -/
theorem State_fresh_bytes (s : State) {s_ : State} (hks : SameMem s_ s) :
    SameMem s_ (State.fresh s) := by
  unfold State.fresh
  with_reducible
    repeat' (first
      | assumption
      | (apply bytes_mk; assumption))

/-- `State.queueIntr`. -/
theorem State_queueIntr_bytes (s : State) (d v : Nat) {s_ : State} (hks : SameMem s_ s) :
    SameMem s_ (State.queueIntr s d v) := by
  unfold State.queueIntr
  with_reducible
    repeat' (first
      | assumption
      | apply State_updLink_bytes
      | (apply bytes_mk; assumption)
      | (intro _))

/-- `State.setStat`. -/
theorem State_setStat_bytes (s : State) (d : Nat) (b : Blk) (i : Nat) (bitsUp : Word) {s_ : State} (hks : SameMem s_ s) :
    SameMem s_ (State.setStat s d b i bitsUp) := by
  unfold State.setStat
  with_reducible
    repeat' (first
      | assumption
      | lift_lets
      | (intro x; refine (fun (hx : SameMem s_ x) => ?_) ?_; clear_value x; rotate_left; unfold x; rotate_right)
      | (intro x; clear_value x)
      | apply State_setRg_bytes
      | apply State_queueIntr_bytes
      | apply bytes_ite)

/-- `State.fillLog`. -/
theorem State_fillLog_bytes (s : State) (d : Nat) (b : Blk) (i : Nat) (log : Nat) {s_ : State} (hks : SameMem s_ s) :
    SameMem s_ (State.fillLog s d b i log) := by
  unfold State.fillLog
  with_reducible
    repeat' (first
      | assumption
      | apply State_setRg_bytes
      | apply bytes_ite)

/-- `State.noteClass`. -/
theorem State_noteClass_bytes (s : State) (d : Nat) (b : Blk) (i bit : Nat) (c : Cls) {s_ : State} (hks : SameMem s_ s) :
    SameMem s_ (State.noteClass s d b i bit c) := by
  unfold State.noteClass
  with_reducible
    repeat' (first
      | assumption
      | lift_lets
      | (intro x; refine (fun (hx : SameMem s_ x) => ?_) ?_; clear_value x; rotate_left; unfold x; rotate_right)
      | (intro x; clear_value x)
      | apply bytes_classes
      | (apply bytes_mk; assumption))

/-- `State.noteStop`. -/
theorem State_noteStop_bytes (s : State) (d : Nat) (b : Blk) (bit : Nat) (c : Cls) {s_ : State} (hks : SameMem s_ s) :
    SameMem s_ (State.noteStop s d b bit c) := by
  unfold State.noteStop
  with_reducible
    repeat' (first
      | assumption
      | apply State_updDie_bytes
      | apply bytes_ite
      | (apply bytes_mk; assumption)
      | (intro _))

/-- `State.cause`. -/
theorem State_cause_bytes (s : State) (d : Nat) (b : Blk) (i bit : Nat) (c : Cls) {s_ : State} (hks : SameMem s_ s) :
    SameMem s_ (State.cause s d b i bit c) := by
  unfold State.cause
  with_reducible
    repeat' (first
      | assumption
      | apply State_setStat_bytes
      | apply State_noteClass_bytes
      | apply State_noteStop_bytes)

/-- `State.raise`. -/
theorem State_raise_bytes (s : State) (d : Nat) (b : Blk) (i bit : Nat) (c : Cls) (log : Nat) {s_ : State} (hks : SameMem s_ s) :
    SameMem s_ (State.raise s d b i bit c log) := by
  unfold State.raise
  with_reducible
    repeat' (first
      | assumption
      | apply State_fillLog_bytes
      | apply State_cause_bytes)

/-- `State.configBusy`. -/
theorem State_configBusy_bytes (s : State) (d : Nat) (b : Blk) (i : Nat) {s_ : State} (hks : SameMem s_ s) :
    SameMem s_ (State.configBusy s d b i) := by
  unfold State.configBusy
  with_reducible
    repeat' (first
      | assumption
      | apply State_setRg_bytes)

/-- `State.forgetClasses`. -/
theorem State_forgetClasses_bytes (s : State) (d : Nat) (b : Blk) (i : Nat) (stat : Word) {s_ : State} (hks : SameMem s_ s) :
    SameMem s_ (State.forgetClasses s d b i stat) := by
  unfold State.forgetClasses
  with_reducible
    repeat' (first
      | assumption
      | apply forEach_bytes
      | apply bytes_classes
      | (apply bytes_mk; assumption)
      | (intro _))

/-- `State.clearStat`. -/
theorem State_clearStat_bytes (s : State) (d : Nat) (b : Blk) (i : Nat) (v : Word) {s_ : State} (hks : SameMem s_ s) :
    SameMem s_ (State.clearStat s d b i v) := by
  unfold State.clearStat
  with_reducible
    repeat' (first
      | assumption
      | lift_lets
      | (intro x; refine (fun (hx : SameMem s_ x) => ?_) ?_; clear_value x; rotate_left; unfold x; rotate_right)
      | (intro x; clear_value x)
      | apply State_setRg_bytes
      | apply State_forgetClasses_bytes
      | apply foldl_bytes
      | apply foldl_bytes1
      | apply bytes_ite
      | (intro _))

/-- `State.writeMask`. -/
theorem State_writeMask_bytes (s : State) (d : Nat) (b : Blk) (i : Nat) (v : Word) {s_ : State} (hks : SameMem s_ s) :
    SameMem s_ (State.writeMask s d b i v) := by
  unfold State.writeMask
  with_reducible
    repeat' (first
      | assumption
      | lift_lets
      | (intro x; refine (fun (hx : SameMem s_ x) => ?_) ?_; clear_value x; rotate_left; unfold x; rotate_right)
      | (intro x; clear_value x)
      | apply State_setRg_bytes
      | apply State_queueIntr_bytes
      | apply bytes_ite)

/-- `State.setLk`. -/
theorem State_setLk_bytes (s : State) (d st : Nat) {s_ : State} (hks : SameMem s_ s) :
    SameMem s_ (State.setLk s d st) := by
  unfold State.setLk
  with_reducible
    repeat' (first
      | assumption
      | lift_lets
      | (intro x; refine (fun (hx : SameMem s_ x) => ?_) ?_; clear_value x; rotate_left; unfold x; rotate_right)
      | (intro x; clear_value x)
      | apply State_setFld_bytes
      | apply bytes_ite)

/-- `State.aglCnt`. -/
theorem State_aglCnt_bytes (s : State) (d k n : Nat) {s_ : State} (hks : SameMem s_ s) :
    SameMem s_ (State.aglCnt s d k n) := by
  unfold State.aglCnt
  with_reducible
    repeat' (first
      | assumption
      | apply State_addRg_bytes)

/-- `State.injected`. -/
theorem State_injected_bytes (s : State) (d u : Nat) (l : Line) {s_ : State} (hks : SameMem s_ s) :
    SameMem s_ (State.injected s d u l).1 := by
  unfold State.injected
  with_reducible
    repeat' (first
      | assumption
      | apply State_updDie_bytes
      | apply bytes_ite1
      | apply bytes_ite
      | (apply bytes_mk; assumption)
      | (intro _))

/-- `State.exitLine`. -/
theorem State_exitLine_bytes (s : State) (d u : Nat) (src : Option Nat) (l : Line) {s_ : State} (hks : SameMem s_ s) :
    SameMem s_ (State.exitLine s d u src l).1 := by
  unfold State.exitLine
  with_reducible
    repeat' (first
      | assumption
      | lift_lets
      | (intro x; refine (fun (hx : SameMem s_ x) => ?_) ?_; clear_value x; rotate_left; unfold x; rotate_right)
      | (intro x; clear_value x)
      | apply State_poisonLine_bytes
      | apply State_raise_bytes
      | apply State_injected_bytes
      | apply bytes_ite1
      | apply bytes_ite
      | (apply bytes_mk; assumption)
      | split
      | (refine bytes_fst_eq (by assumption) ?_))

/-- `State.emitFlit`. -/
theorem State_emitFlit_bytes (s : State) (d : Nat) (f : Flit) {s_ : State} (hks : SameMem s_ s) :
    SameMem s_ (State.emitFlit s d f) := by
  unfold State.emitFlit
  with_reducible
    repeat' (first
      | assumption
      | apply State_emit_bytes
      | apply State_aglCnt_bytes)

/-- `State.sendFlit`. -/
theorem State_sendFlit_bytes (s : State) (d : Nat) (m : Option LMsg) {s_ : State} (hks : SameMem s_ s) :
    SameMem s_ (State.sendFlit s d m) := by
  unfold State.sendFlit
  with_reducible
    repeat' (first
      | assumption
      | lift_lets
      | (intro x; refine (fun (hx : SameMem s_ x) => ?_) ?_; clear_value x; rotate_left; unfold x; rotate_right)
      | (intro x; clear_value x)
      | apply State_putLink_bytes
      | apply State_emitFlit_bytes
      | (apply bytes_mk; assumption)
      | split
      | (refine bytes_fst_eq (by assumption) ?_))

/-- `State.pumpLink`. -/
theorem State_pumpLink_bytes (d : Nat) (y0 : Nat) (y1 : State) {s_ : State} (hk_ : SameMem s_ y1) :
    SameMem s_ (State.pumpLink d y0 y1) := by
  induction y0 generalizing y1 with
  | zero =>
    unfold State.pumpLink
    with_reducible
      repeat' (first
        | assumption
        | apply State_updLink_bytes
        | apply State_sendFlit_bytes
        | (apply bytes_mk; assumption)
        | (intro _)
        | split
        | (refine bytes_fst_eq (by assumption) ?_))
  | succ _ ih =>
    unfold State.pumpLink
    with_reducible
      repeat' (first
        | assumption
        | apply ih
        | apply State_updLink_bytes
        | apply State_sendFlit_bytes
        | (apply bytes_mk; assumption)
        | (intro _)
        | split
        | (refine bytes_fst_eq (by assumption) ?_))

/-- `State.sendMsg`. -/
theorem State_sendMsg_bytes (s : State) (d : Nat) (m : LMsg) {s_ : State} (hks : SameMem s_ s) :
    SameMem s_ (State.sendMsg s d m) := by
  unfold State.sendMsg
  with_reducible
    repeat' (first
      | assumption
      | lift_lets
      | (intro x; refine (fun (hx : SameMem s_ x) => ?_) ?_; clear_value x; rotate_left; unfold x; rotate_right)
      | (intro x; clear_value x)
      | apply State_updLink_bytes
      | apply State_pumpLink_bytes
      | (apply bytes_mk; assumption)
      | (intro _))

/-- `State.respond`. -/
theorem State_respond_bytes (s : State) (d : Nat) (m : LMsg) {s_ : State} (hks : SameMem s_ s) :
    SameMem s_ (State.respond s d m) := by
  unfold State.respond
  with_reducible
    repeat' (first
      | assumption
      | lift_lets
      | (intro x; refine (fun (hx : SameMem s_ x) => ?_) ?_; clear_value x; rotate_left; unfold x; rotate_right)
      | (intro x; clear_value x)
      | apply State_aglCnt_bytes
      | apply State_sendMsg_bytes
      | apply bytes_ite)

/-- `State.hostReq`. -/
theorem State_hostReq_bytes (s : State) (d opc la : Nat) (pay : Nat → List Byte) (own : HOwner) {s_ : State} (hks : SameMem s_ s) :
    SameMem s_ (State.hostReq s d opc la pay own).1 := by
  unfold State.hostReq
  with_reducible
    repeat' (first
      | assumption
      | lift_lets
      | (intro x; refine (fun (hx : SameMem s_ x) => ?_) ?_; clear_value x; rotate_left; unfold x; rotate_right)
      | (intro x; clear_value x)
      | apply State_putLink_bytes
      | apply State_sendMsg_bytes
      | apply bytes_ite1
      | apply bytes_ite
      | (apply bytes_mk; assumption))

/-- `State.hostRead`. -/
theorem State_hostRead_bytes (s : State) (d la : Nat) (own : HOwner) {s_ : State} (hks : SameMem s_ s) :
    SameMem s_ (State.hostRead s d la own).1 := by
  unfold State.hostRead
  with_reducible
    repeat' (first
      | assumption
      | apply State_hostReq_bytes
      | (intro _))

/-- `State.hostWrite`. -/
theorem State_hostWrite_bytes (s : State) (d la : Nat) (src : Option Nat) (l : Line) (own : HOwner) {s_ : State} (hks : SameMem s_ s) :
    SameMem s_ (State.hostWrite s d la src l own).1 := by
  unfold State.hostWrite
  with_reducible
    repeat' (first
      | assumption
      | lift_lets
      | (intro x; refine (fun (hx : SameMem s_ x) => ?_) ?_; clear_value x; rotate_left; unfold x; rotate_right)
      | (intro x; clear_value x)
      | apply State_exitLine_bytes
      | apply State_hostReq_bytes
      | apply bytes_ite1
      | apply bytes_ite)

/-- `State.hostMerge`. -/
theorem State_hostMerge_bytes (s : State) (d c k la mask : Nat) (bs : List Byte) (own : HOwner) {s_ : State} (hks : SameMem s_ s) :
    SameMem s_ (State.hostMerge s d c k la mask bs own).1 := by
  unfold State.hostMerge
  with_reducible
    repeat' (first
      | assumption
      | lift_lets
      | (intro x; refine (fun (hx : SameMem s_ x) => ?_) ?_; clear_value x; rotate_left; unfold x; rotate_right)
      | (intro x; clear_value x)
      | apply State_hostReq_bytes
      | apply State_hostRead_bytes
      | apply bytes_ite1
      | apply bytes_ite
      | (intro _))

/-- `State.sendSnoop`. -/
theorem State_sendSnoop_bytes (s : State) (kind ln : Nat) {s_ : State} (hks : SameMem s_ s) :
    SameMem s_ (State.sendSnoop s kind ln) := by
  unfold State.sendSnoop
  with_reducible
    repeat' (first
      | assumption
      | lift_lets
      | (intro x; refine (fun (hx : SameMem s_ x) => ?_) ?_; clear_value x; rotate_left; unfold x; rotate_right)
      | (intro x; refine (fun (hx : SameMem s_ x.1) => ?_) ?_; clear_value x; rotate_left; unfold x; rotate_right)
      | (intro x; refine (fun (hx : ∀ y, SameMem s_ (x y)) => ?_) ?_; clear_value x; rotate_left; unfold x; rotate_right)
      | (intro x; clear_value x)
      | apply State_putLink_bytes
      | apply State_aglCnt_bytes
      | apply State_sendMsg_bytes
      | apply bytes_ite
      | apply bytes_ite1
      | (apply bytes_mk; first | assumption | apply State_putLink_bytes | apply State_aglCnt_bytes | apply State_sendMsg_bytes)
      | (intro _)
      | split
      | (dsimp only; split)
      | (refine bytes_fst_eq (by assumption) ?_))

/-- `State.snoopAll`. -/
theorem State_snoopAll_bytes (s : State) (acc : List (Nat × Nat)) {s_ : State} (hks : SameMem s_ s) :
    SameMem s_ (State.snoopAll s acc) := by
  unfold State.snoopAll
  with_reducible
    repeat' (first
      | assumption
      | apply forEach_bytes
      | apply State_sendSnoop_bytes
      | (intro _))

/-- `State.endSnoop`. -/
theorem State_endSnoop_bytes (s : State) (pd : Nat) (x : Snoop) {s_ : State} (hks : SameMem s_ s) :
    SameMem s_ (State.endSnoop s pd x) := by
  unfold State.endSnoop
  with_reducible
    repeat' (first
      | assumption
      | apply State_updLink_bytes
      | apply bytes_ite
      | (intro _))

/-- `State.updMod`. -/
theorem State_updMod_bytes (s : State) (f : ModCtl → ModCtl) {s_ : State} (hks : SameMem s_ s) :
    SameMem s_ (State.updMod s f) := by
  unfold State.updMod
  with_reducible
    repeat' (first
      | assumption
      | (apply bytes_mk; assumption))

/-- `State.setRailSt`. -/
theorem State_setRailSt_bytes (s : State) (d p v : Nat) {s_ : State} (hks : SameMem s_ s) :
    SameMem s_ (State.setRailSt s d p v) := by
  unfold State.setRailSt
  with_reducible
    repeat' (first
      | assumption
      | apply State_setFld_bytes)

/-- `State.setLogical`. -/
theorem State_setLogical_bytes (s : State) (d p l : Nat) {s_ : State} (hks : SameMem s_ s) :
    SameMem s_ (State.setLogical s d p l) := by
  unfold State.setLogical
  with_reducible
    repeat' (first
      | assumption
      | apply State_setFld_bytes)

/-- `State.modRaise`. -/
theorem State_modRaise_bytes (s : State) (bit cause d unit : Nat) (c : Cls) {s_ : State} (hks : SameMem s_ s) :
    SameMem s_ (State.modRaise s bit cause d unit c) := by
  unfold State.modRaise
  with_reducible
    repeat' (first
      | assumption
      | apply State_cause_bytes
      | apply State_raise_bytes)

/-- `State.repairDue`. -/
theorem State_repairDue_bytes (s : State) (d : Nat) {s_ : State} (hks : SameMem s_ s) :
    SameMem s_ (State.repairDue s d) := by
  unfold State.repairDue
  with_reducible
    repeat' (first
      | assumption
      | apply State_updMod_bytes
      | apply bytes_ite
      | (apply bytes_mk; assumption)
      | (intro _))

/-- `State.spareDue`. -/
theorem State_spareDue_bytes (s : State) {s_ : State} (hks : SameMem s_ s) :
    SameMem s_ (State.spareDue s) := by
  unfold State.spareDue
  with_reducible
    repeat' (first
      | assumption
      | apply State_setStat_bytes)

/-- `State.noSpare`. -/
theorem State_noSpare_bytes (s : State) (d unit : Nat) {s_ : State} (hks : SameMem s_ s) :
    SameMem s_ (State.noSpare s d unit) := by
  unfold State.noSpare
  with_reducible
    repeat' (first
      | assumption
      | apply State_modRaise_bytes)

/-- `State.evidence`. -/
theorem State_evidence_bytes (s : State) (key win : Nat) {s_ : State} (hks : SameMem s_ s) :
    SameMem s_ (State.evidence s key win).1 := by
  unfold State.evidence
  with_reducible
    repeat' (first
      | assumption
      | lift_lets
      | (intro x; refine (fun (hx : SameMem s_ x) => ?_) ?_; clear_value x; rotate_left; unfold x; rotate_right)
      | (intro x; refine (fun (hx : SameMem s_ x.1) => ?_) ?_; clear_value x; rotate_left; unfold x; rotate_right)
      | (intro x; clear_value x)
      | apply State_updMod_bytes
      | (apply bytes_mk; assumption)
      | (intro _))

/-- `State.startSwitch`. -/
theorem State_startSwitch_bytes (s : State) (d l p k : Nat) (test : Bool) {s_ : State} (hks : SameMem s_ s) :
    SameMem s_ (State.startSwitch s d l p k test) := by
  unfold State.startSwitch
  with_reducible
    repeat' (first
      | assumption
      | lift_lets
      | (intro x; refine (fun (hx : SameMem s_ x) => ?_) ?_; clear_value x; rotate_left; unfold x; rotate_right)
      | (intro x; clear_value x)
      | apply State_setFld_bytes
      | apply State_updMod_bytes
      | apply State_setRailSt_bytes
      | (apply bytes_mk; assumption)
      | (intro _))

/-- `State.markAbsent`. -/
theorem State_markAbsent_bytes (s : State) (d l p : Nat) {s_ : State} (hks : SameMem s_ s) :
    SameMem s_ (State.markAbsent s d l p) := by
  unfold State.markAbsent
  with_reducible
    repeat' (first
      | assumption
      | apply State_updPh_bytes
      | apply State_updMod_bytes
      | apply State_setLogical_bytes
      | apply State_repairDue_bytes
      | (apply bytes_mk; assumption)
      | (intro _))

/-- `State.noClusterSpare`. -/
theorem State_noClusterSpare_bytes (s : State) (d l p : Nat) {s_ : State} (hks : SameMem s_ s) :
    SameMem s_ (State.noClusterSpare s d l p) := by
  unfold State.noClusterSpare
  with_reducible
    repeat' (first
      | assumption
      | lift_lets
      | (intro x; refine (fun (hx : SameMem s_ x) => ?_) ?_; clear_value x; rotate_left; unfold x; rotate_right)
      | (intro x; clear_value x)
      | apply State_noSpare_bytes
      | apply State_markAbsent_bytes
      | apply bytes_ite)

/-- `State.clNeed`. -/
theorem State_clNeed_bytes (s : State) (d l : Nat) {s_ : State} (hks : SameMem s_ s) :
    SameMem s_ (State.clNeed s d l) := by
  unfold State.clNeed
  with_reducible
    repeat' (first
      | assumption
      | apply State_startSwitch_bytes
      | apply State_noClusterSpare_bytes
      | split)

/-- `State.clTrigger`. -/
theorem State_clTrigger_bytes (s : State) (d l : Nat) {s_ : State} (hks : SameMem s_ s) :
    SameMem s_ (State.clTrigger s d l) := by
  unfold State.clTrigger
  with_reducible
    repeat' (first
      | assumption
      | apply State_updMod_bytes
      | apply State_spareDue_bytes
      | apply State_clNeed_bytes
      | apply bytes_ite
      | (apply bytes_mk; assumption)
      | (intro _)
      | split
      | (refine bytes_fst_eq (by assumption) ?_))

/-- `State.physTrigger`. -/
theorem State_physTrigger_bytes (s : State) (d p : Nat) {s_ : State} (hks : SameMem s_ s) :
    SameMem s_ (State.physTrigger s d p) := by
  unfold State.physTrigger
  with_reducible
    repeat' (first
      | assumption
      | apply State_clTrigger_bytes
      | apply bytes_ite)

/-- `State.runDue`. -/
theorem State_runDue_bytes (y0 : List Nat) (y1 : State) {s_ : State} (hk_ : SameMem s_ y1) :
    SameMem s_ (State.runDue y0 y1) := by
  induction y0 generalizing y1 with
  | nil =>
    unfold State.runDue
    with_reducible
      repeat' (first
        | assumption
        | lift_lets
        | (intro x; refine (fun (hx : SameMem s_ x) => ?_) ?_; clear_value x; rotate_left; unfold x; rotate_right)
        | (intro x; clear_value x)
        | apply State_updMod_bytes
        | apply State_clNeed_bytes
        | apply bytes_ite
        | (apply bytes_mk; assumption)
        | (intro _)
        | split
        | (refine bytes_fst_eq (by assumption) ?_))
  | cons _ _ ih =>
    unfold State.runDue
    with_reducible
      repeat' (first
        | assumption
        | apply ih
        | lift_lets
        | (intro x; refine (fun (hx : SameMem s_ x) => ?_) ?_; clear_value x; rotate_left; unfold x; rotate_right)
        | (intro x; clear_value x)
        | apply State_updMod_bytes
        | apply State_clNeed_bytes
        | apply bytes_ite
        | (apply bytes_mk; assumption)
        | (intro _)
        | split
        | (refine bytes_fst_eq (by assumption) ?_))

/-- `State.spareEnd`. -/
theorem State_spareEnd_bytes (s : State) (code : Nat) {s_ : State} (hks : SameMem s_ s) :
    SameMem s_ (State.spareEnd s code) := by
  unfold State.spareEnd
  with_reducible
    repeat' (first
      | assumption
      | lift_lets
      | (intro x; refine (fun (hx : SameMem s_ x) => ?_) ?_; clear_value x; rotate_left; unfold x; rotate_right)
      | (intro x; clear_value x)
      | apply State_setRg_bytes
      | apply State_updMod_bytes
      | apply State_runDue_bytes
      | (apply bytes_mk; assumption)
      | (intro _))

/-- `State.spareNext`. -/
theorem State_spareNext_bytes (s : State) (d l p : Nat) (t : Bool) (o : Option Nat) {s_ : State} (hks : SameMem s_ s) :
    SameMem s_ (State.spareNext s d l p t o) := by
  unfold State.spareNext
  with_reducible
    repeat' (first
      | assumption
      | apply State_updCl_bytes
      | apply State_startSwitch_bytes
      | apply State_noClusterSpare_bytes
      | apply State_spareEnd_bytes
      | apply bytes_ite
      | (apply bytes_mk; assumption)
      | (intro _)
      | split
      | (refine bytes_fst_eq (by assumption) ?_))

/-- `State.spareFailed`. -/
theorem State_spareFailed_bytes (s : State) {s_ : State} (hks : SameMem s_ s) :
    SameMem s_ (State.spareFailed s) := by
  unfold State.spareFailed
  with_reducible
    repeat' (first
      | assumption
      | lift_lets
      | (intro x; refine (fun (hx : SameMem s_ x) => ?_) ?_; clear_value x; rotate_left; unfold x; rotate_right)
      | (intro x; refine (fun (hx : SameMem s_ x.1) => ?_) ?_; clear_value x; rotate_left; unfold x; rotate_right)
      | (intro x; refine (fun (hx : ∀ y, SameMem s_ (x y)) => ?_) ?_; clear_value x; rotate_left; unfold x; rotate_right)
      | (intro x; clear_value x)
      | apply State_updPh_bytes
      | apply State_setRailSt_bytes
      | apply State_modRaise_bytes
      | apply State_repairDue_bytes
      | apply State_spareNext_bytes
      | apply bytes_ite
      | apply bytes_ite1
      | (apply bytes_mk; first | assumption | apply State_updPh_bytes | apply State_setRailSt_bytes | apply State_modRaise_bytes | apply State_repairDue_bytes | apply State_spareNext_bytes)
      | (intro _)
      | split
      | (dsimp only; split)
      | (refine bytes_fst_eq (by assumption) ?_))

/-- `State.residueEvent`. -/
theorem State_residueEvent_bytes (s : State) (d l : Nat) {s_ : State} (hks : SameMem s_ s) :
    SameMem s_ (State.residueEvent s d l) := by
  unfold State.residueEvent
  with_reducible
    repeat' (first
      | assumption
      | lift_lets
      | (intro x; refine (fun (hx : SameMem s_ x) => ?_) ?_; clear_value x; rotate_left; unfold x; rotate_right)
      | (intro x; refine (fun (hx : SameMem s_ x.1) => ?_) ?_; clear_value x; rotate_left; unfold x; rotate_right)
      | (intro x; clear_value x)
      | apply State_evidence_bytes
      | apply State_clTrigger_bytes
      | apply bytes_ite
      | split
      | (refine bytes_fst_eq (by assumption) ?_))

/-- `State.dropFlight`. -/
theorem State_dropFlight_bytes (s : State) (id : Nat) {s_ : State} (hks : SameMem s_ s) :
    SameMem s_ (State.dropFlight s id) := by
  unfold State.dropFlight
  with_reducible
    repeat' (first
      | assumption
      | (apply bytes_mk; assumption)
      | (intro _))

/-- `State.moreTraps`. -/
theorem State_moreTraps_bytes (s : State) (c n : Nat) {s_ : State} (hks : SameMem s_ s) :
    SameMem s_ (State.moreTraps s c n) := by
  unfold State.moreTraps
  with_reducible
    repeat' (first
      | assumption
      | apply State_updHc_bytes
      | apply bytes_ite
      | (apply bytes_mk; assumption)
      | (intro _))

/-- `State.updFlight`. -/
theorem State_updFlight_bytes (s : State) (id : Nat) (g : Flight → Flight) {s_ : State} (hks : SameMem s_ s) :
    SameMem s_ (State.updFlight s id g) := by
  unfold State.updFlight
  with_reducible
    repeat' (first
      | assumption
      | apply bytes_ite
      | (apply bytes_mk; assumption)
      | (intro _))

/-- `State.failFlight`. -/
theorem State_failFlight_bytes (s : State) (id : Nat) {s_ : State} (hks : SameMem s_ s) :
    SameMem s_ (State.failFlight s id) := by
  unfold State.failFlight
  with_reducible
    repeat' (first
      | assumption
      | apply forEach_bytes
      | apply State_poisonLine_bytes
      | apply State_updHc_bytes
      | apply State_updFlight_bytes
      | (apply bytes_mk; assumption)
      | (intro _)
      | split
      | (refine bytes_fst_eq (by assumption) ?_))

/-- `State.enqueue`. -/
theorem State_enqueue_bytes (s : State) (x : Nat × Nat) (cls : Nat) (r : FRec) {s_ : State} (hks : SameMem s_ s) :
    SameMem s_ (State.enqueue s x cls r) := by
  unfold State.enqueue
  with_reducible
    repeat' (first
      | assumption
      | apply State_updPort_bytes
      | (apply bytes_mk; assumption)
      | (intro _))

/-- `State.forward`. -/
theorem State_forward_bytes (s : State) (d cls : Nat) (r : FRec) {s_ : State} (hks : SameMem s_ s) :
    SameMem s_ (State.forward s d cls r).1 := by
  unfold State.forward
  with_reducible
    repeat' (first
      | assumption
      | lift_lets
      | (intro x; refine (fun (hx : SameMem s_ x) => ?_) ?_; clear_value x; rotate_left; unfold x; rotate_right)
      | (intro x; clear_value x)
      | apply State_updRouter_bytes
      | apply State_enqueue_bytes
      | apply bytes_ite1
      | apply bytes_ite
      | (apply bytes_mk; assumption)
      | (intro _)
      | split
      | (refine bytes_fst_eq (by assumption) ?_))

/-- `State.keepMembers`. -/
theorem State_keepMembers_bytes (s : State) (d : Nat) (r : FRec) (ms : List FRec) {s_ : State} (hks : SameMem s_ s) :
    SameMem s_ (State.keepMembers s d r ms) := by
  unfold State.keepMembers
  with_reducible
    repeat' (first
      | assumption
      | apply State_updRouter_bytes
      | apply bytes_ite
      | (apply bytes_mk; assumption)
      | (intro _))

/-- `State.blend`. -/
theorem State_blend_bytes (s : State) (d cls : Nat) (r : FRec) {s_ : State} (hks : SameMem s_ s) :
    SameMem s_ (State.blend s d cls r).1 := by
  unfold State.blend
  with_reducible
    repeat' (first
      | assumption
      | lift_lets
      | (intro x; refine (fun (hx : SameMem s_ x) => ?_) ?_; clear_value x; rotate_left; unfold x; rotate_right)
      | (intro x; refine (fun (hx : SameMem s_ x.1) => ?_) ?_; clear_value x; rotate_left; unfold x; rotate_right)
      | (intro x; clear_value x)
      | apply State_putRouter_bytes
      | apply State_addRg_bytes
      | apply State_forward_bytes
      | apply State_keepMembers_bytes
      | apply bytes_ite1
      | apply bytes_ite
      | (apply bytes_mk; assumption)
      | (intro _)
      | split
      | (refine bytes_fst_eq (by assumption) ?_))

/-- `State.addCnt`. -/
theorem State_addCnt_bytes (s : State) (d c i n : Nat) {s_ : State} (hks : SameMem s_ s) :
    SameMem s_ (State.addCnt s d c i n) := by
  unfold State.addCnt
  with_reducible
    repeat' (first
      | assumption
      | apply State_addRg_bytes)

/-- `State.updQueue`. -/
theorem State_updQueue_bytes (s : State) (d c : Nat) (q : Bool) (g : Queue → Queue) {s_ : State} (hks : SameMem s_ s) :
    SameMem s_ (State.updQueue s d c q g) := by
  unfold State.updQueue
  with_reducible
    repeat' (first
      | assumption
      | apply State_updCtx_bytes
      | (intro _))

/-- `State.advance`. -/
theorem State_advance_bytes (s : State) (d c : Nat) (q : Bool) (ws : List Word) {s_ : State} (hks : SameMem s_ s) :
    SameMem s_ (State.advance s d c q ws) := by
  unfold State.advance
  with_reducible
    repeat' (first
      | assumption
      | apply State_updDie_bytes
      | apply State_updQueue_bytes
      | (apply bytes_mk; assumption)
      | (intro _))

/-- `State.fly`. -/
theorem State_fly_bytes (s : State) (f : Flight) {s_ : State} (hks : SameMem s_ s) :
    SameMem s_ (State.fly s f) := by
  unfold State.fly
  with_reducible
    repeat' (first
      | assumption
      | (apply bytes_mk; assumption))

/-- `State.record`. -/
theorem State_record_bytes (s : State) (f : Flight) {s_ : State} (hks : SameMem s_ s) :
    SameMem s_ (State.record s f) := by
  unfold State.record
  with_reducible
    repeat' (first
      | assumption
      | apply State_updHc_bytes
      | (apply bytes_mk; assumption)
      | (intro _))

/-- `State.retire`. -/
theorem State_retire_bytes (s : State) (f : Flight) {s_ : State} (hks : SameMem s_ s) :
    SameMem s_ (State.retire s f) := by
  unfold State.retire
  with_reducible
    repeat' (first
      | assumption
      | lift_lets
      | (intro x; refine (fun (hx : SameMem s_ x) => ?_) ?_; clear_value x; rotate_left; unfold x; rotate_right)
      | (intro x; clear_value x)
      | apply State_updHc_bytes
      | apply State_dropFlight_bytes
      | apply State_record_bytes
      | apply bytes_ite
      | (apply bytes_mk; assumption)
      | (intro _))

/-- `State.glitchLog`. -/
theorem State_glitchLog_bytes (s : State) (f : Flight) (l n : Nat) {s_ : State} (hks : SameMem s_ s) :
    SameMem s_ (State.glitchLog s f l n) := by
  unfold State.glitchLog
  with_reducible
    repeat' (first
      | assumption
      | apply State_raise_bytes
      | apply bytes_ite)

/-- `State.copyReg`. -/
theorem State_copyReg_bytes (s : State) (a : Nat) {s_ : State} (hks : SameMem s_ s) :
    SameMem s_ (State.copyReg s a) := by
  unfold State.copyReg
  with_reducible
    repeat' (first
      | assumption
      | lift_lets
      | (intro x; refine (fun (hx : SameMem s_ x) => ?_) ?_; clear_value x; rotate_left; unfold x; rotate_right)
      | (intro x; clear_value x)
      | apply State_setReg_bytes)

/-- `State.copyRegs`. -/
theorem State_copyRegs_bytes (s : State) (as : List Nat) {s_ : State} (hks : SameMem s_ s) :
    SameMem s_ (State.copyRegs s as) := by
  unfold State.copyRegs
  with_reducible
    repeat' (first
      | assumption
      | apply forEach_bytes
      | apply State_copyReg_bytes
      | (intro _))

/-- `State.setLive`. -/
theorem State_setLive_bytes (s : State) (a : Nat) (v : Word) {s_ : State} (hks : SameMem s_ s) :
    SameMem s_ (State.setLive s a v) := by
  unfold State.setLive
  with_reducible
    repeat' (first
      | assumption
      | lift_lets
      | (intro x; refine (fun (hx : SameMem s_ x) => ?_) ?_; clear_value x; rotate_left; unfold x; rotate_right)
      | (intro x; clear_value x)
      | apply State_setReg_bytes
      | apply State_setShad_bytes
      | apply bytes_ite)

/-- `State.cleanLines`. -/
theorem State_cleanLines_bytes (s : State) (d : Nat) (p : Nat → Bool) {s_ : State} (hks : SameMem s_ s) :
    SameMem s_ (State.cleanLines s d p) := by
  unfold State.cleanLines
  with_reducible
    repeat' (first
      | assumption
      | lift_lets
      | (intro x; refine (fun (hx : SameMem s_ x) => ?_) ?_; clear_value x; rotate_left; unfold x; rotate_right)
      | (intro x; refine (fun (hx : SameMem s_ x.1) => ?_) ?_; clear_value x; rotate_left; unfold x; rotate_right)
      | (intro x; clear_value x)
      | apply State_updCel_bytes
      | apply State_addRg_bytes
      | apply bytes_ite
      | (apply bytes_mk; assumption)
      | (intro _))

/-- `State.dropLines`. -/
theorem State_dropLines_bytes (s : State) (d : Nat) (p : Nat → Bool) {s_ : State} (hks : SameMem s_ s) :
    SameMem s_ (State.dropLines s d p) := by
  unfold State.dropLines
  with_reducible
    repeat' (first
      | assumption
      | apply State_updCel_bytes
      | (apply bytes_mk; assumption)
      | (intro _))

/-- `State.fitWays`. -/
theorem State_fitWays_bytes (s : State) (d ways : Nat) {s_ : State} (hks : SameMem s_ s) :
    SameMem s_ (State.fitWays s d ways) := by
  unfold State.fitWays
  with_reducible
    repeat' (first
      | assumption
      | lift_lets
      | (intro x; refine (fun (hx : SameMem s_ x) => ?_) ?_; clear_value x; rotate_left; unfold x; rotate_right)
      | (intro x; refine (fun (hx : SameMem s_ x.1) => ?_) ?_; clear_value x; rotate_left; unfold x; rotate_right)
      | (intro x; clear_value x)
      | apply State_cleanLines_bytes
      | apply State_dropLines_bytes
      | (intro _))

/-- `State.seqRequest`. -/
theorem State_seqRequest_bytes (s : State) (d : Nat) (cs : List Nat) {s_ : State} (hks : SameMem s_ s) :
    SameMem s_ (State.seqRequest s d cs) := by
  unfold State.seqRequest
  with_reducible
    repeat' (first
      | assumption
      | lift_lets
      | (intro x; refine (fun (hx : SameMem s_ x) => ?_) ?_; clear_value x; rotate_left; unfold x; rotate_right)
      | (intro x; clear_value x)
      | apply State_updDie_bytes
      | apply State_copyReg_bytes
      | (apply bytes_mk; assumption)
      | (intro _))

/-- `State.unmark`. -/
theorem State_unmark_bytes (s : State) (d a : Nat) {s_ : State} (hks : SameMem s_ s) :
    SameMem s_ (State.unmark s d a) := by
  unfold State.unmark
  with_reducible
    repeat' (first
      | assumption
      | apply State_updDie_bytes
      | (apply bytes_mk; assumption)
      | (intro _))

/-- `State.seqMark`. -/
theorem State_seqMark_bytes (s : State) (d c : Nat) {s_ : State} (hks : SameMem s_ s) :
    SameMem s_ (State.seqMark s d c) := by
  unfold State.seqMark
  with_reducible
    repeat' (first
      | assumption
      | lift_lets
      | (intro x; refine (fun (hx : SameMem s_ x) => ?_) ?_; clear_value x; rotate_left; unfold x; rotate_right)
      | (intro x; clear_value x)
      | apply State_configBusy_bytes
      | apply State_copyRegs_bytes
      | apply State_unmark_bytes
      | apply bytes_ite)

/-- `State.requestSwap`. -/
theorem State_requestSwap_bytes (s : State) (d : Nat) (b : Blk) (i : Nat) {s_ : State} (hks : SameMem s_ s) :
    SameMem s_ (State.requestSwap s d b i) := by
  unfold State.requestSwap
  with_reducible
    repeat' (first
      | assumption
      | apply State_updDie_bytes
      | apply State_seqRequest_bytes
      | apply bytes_ite
      | (apply bytes_mk; assumption)
      | (intro _))

/-- `State.swapStep`. -/
theorem State_swapStep_bytes (s : State) (d c : Nat) (q : Bool) (idx : Nat) (ws : List Word) {s_ : State} (hks : SameMem s_ s) :
    SameMem s_ (State.swapStep s d c q idx ws) := by
  unfold State.swapStep
  with_reducible
    repeat' (first
      | assumption
      | lift_lets
      | (intro x; refine (fun (hx : SameMem s_ x) => ?_) ?_; clear_value x; rotate_left; unfold x; rotate_right)
      | (intro x; refine (fun (hx : SameMem s_ x.1) => ?_) ?_; clear_value x; rotate_left; unfold x; rotate_right)
      | (intro x; clear_value x)
      | apply forEach_bytes
      | apply State_advance_bytes
      | apply State_fly_bytes
      | apply State_seqRequest_bytes
      | apply State_requestSwap_bytes
      | apply bytes_ite
      | (intro _))

/-- `State.mmaCount`. -/
theorem State_mmaCount_bytes (s : State) (d l : Nat) (mac : Nat) (c : MmaCnt) {s_ : State} (hks : SameMem s_ s) :
    SameMem s_ (State.mmaCount s d l mac c) := by
  unfold State.mmaCount
  with_reducible
    repeat' (first
      | assumption
      | lift_lets
      | (intro x; refine (fun (hx : SameMem s_ x) => ?_) ?_; clear_value x; rotate_left; unfold x; rotate_right)
      | (intro x; clear_value x)
      | apply State_addRg_bytes
      | apply State_cause_bytes
      | apply bytes_ite)

/-- `State.settleFail`. -/
theorem State_settleFail_bytes (s : State) (id : Nat) {s_ : State} (hks : SameMem s_ s) :
    SameMem s_ (State.settleFail s id) := by
  unfold State.settleFail
  with_reducible
    repeat' (first
      | assumption
      | apply State_failFlight_bytes
      | apply bytes_ite
      | split)

/-- `State.stepCrcCe`. -/
theorem State_stepCrcCe_bytes (s : State) (d c : Nat) (q : Bool) (idx : Nat) {s_ : State} (hks : SameMem s_ s) :
    SameMem s_ (State.stepCrcCe s d c q idx) := by
  unfold State.stepCrcCe
  with_reducible
    repeat' (first
      | assumption
      | apply State_raise_bytes)

/-- `State.cvCount`. -/
theorem State_cvCount_bytes (s : State) (d l : Nat) (w : CvWork) {s_ : State} (hks : SameMem s_ s) :
    SameMem s_ (State.cvCount s d l w) := by
  unfold State.cvCount
  with_reducible
    repeat' (first
      | assumption
      | lift_lets
      | (intro x; refine (fun (hx : SameMem s_ x) => ?_) ?_; clear_value x; rotate_left; unfold x; rotate_right)
      | (intro x; clear_value x)
      | apply State_addRg_bytes
      | apply State_cause_bytes
      | apply bytes_ite)

/-- `State.cvAdvance`. -/
theorem State_cvAdvance_bytes (s : State) (d : Nat) (x : Nat × CvWork) {s_ : State} (hks : SameMem s_ s) :
    SameMem s_ (State.cvAdvance s d x) := by
  unfold State.cvAdvance
  with_reducible
    repeat' (first
      | assumption
      | apply State_setLive_bytes
      | apply bytes_ite)

/-- `State.addFig`. -/
theorem State_addFig_bytes (s : State) (fid k n : Nat) {s_ : State} (hks : SameMem s_ s) :
    SameMem s_ (State.addFig s fid k n) := by
  unfold State.addFig
  with_reducible
    repeat' (first
      | assumption
      | apply State_updFlight_bytes
      | (apply bytes_mk; assumption)
      | (intro _))

/-- `State.moved`. -/
theorem State_moved_bytes (s : State) (f : Flight) (n : Nat) {s_ : State} (hks : SameMem s_ s) :
    SameMem s_ (State.moved s f n) := by
  unfold State.moved
  with_reducible
    repeat' (first
      | assumption
      | apply State_addRg_bytes
      | apply State_addFig_bytes)

/-- `State.rackCe`. -/
theorem State_rackCe_bytes (s : State) (f : Flight) (n : Nat) {s_ : State} (hks : SameMem s_ s) :
    SameMem s_ (State.rackCe s f n) := by
  unfold State.rackCe
  with_reducible
    repeat' (first
      | assumption
      | apply State_raise_bytes
      | apply bytes_ite)

/-- `State.noteStale`. -/
theorem State_noteStale_bytes (s : State) (f : Flight) (l : Line) {s_ : State} (hks : SameMem s_ s) :
    SameMem s_ (State.noteStale s f l) := by
  unfold State.noteStale
  with_reducible
    repeat' (first
      | assumption
      | apply State_addFig_bytes
      | apply bytes_ite)

/-- `State.enterSteps`. -/
theorem State_enterSteps_bytes (s : State) (d c : Nat) (q : Bool) (ln : Nat) {s_ : State} (hks : SameMem s_ s) :
    SameMem s_ (State.enterSteps s d c q ln) := by
  unfold State.enterSteps
  with_reducible
    repeat' (first
      | assumption
      | lift_lets
      | (intro x; refine (fun (hx : SameMem s_ x) => ?_) ?_; clear_value x; rotate_left; unfold x; rotate_right)
      | (intro x; refine (fun (hx : SameMem s_ x.1) => ?_) ?_; clear_value x; rotate_left; unfold x; rotate_right)
      | (intro x; clear_value x)
      | apply State_updQueue_bytes
      | (apply bytes_mk; assumption)
      | (intro _))

/-- `State.doStop`. -/
theorem State_doStop_bytes (s : State) (c : Nat) {s_ : State} (hks : SameMem s_ s) :
    SameMem s_ (State.doStop s c) := by
  unfold State.doStop
  with_reducible
    repeat' (first
      | assumption
      | apply forEach_bytes
      | apply State_updCtx_bytes
      | apply bytes_ite
      | (apply bytes_mk; assumption)
      | (intro _))

/-- `State.doResume`. -/
theorem State_doResume_bytes (s : State) (c : Nat) {s_ : State} (hks : SameMem s_ s) :
    SameMem s_ (State.doResume s c) := by
  unfold State.doResume
  with_reducible
    repeat' (first
      | assumption
      | apply forEach_bytes
      | apply State_updCtx_bytes
      | apply bytes_ite
      | (apply bytes_mk; assumption)
      | (intro _))

/-- `execStop`. -/
theorem execStop_bytes (c : Nat) (s : State) {s_ : State} (hks : SameMem s_ s) :
    SameMemO s_ (execStop c s) := by
  unfold execStop
  with_reducible
    repeat' (first
      | assumption
      | apply State_doStop_bytes
      | apply bytesO_ite
      | apply bytesO_next
      | apply bytes_ite)

/-- `execResume`. -/
theorem execResume_bytes (c : Nat) (s : State) {s_ : State} (hks : SameMem s_ s) :
    SameMemO s_ (execResume c s) := by
  unfold execResume
  with_reducible
    repeat' (first
      | assumption
      | apply State_doResume_bytes
      | apply bytesO_ite
      | apply bytesO_next
      | apply bytes_ite)

/-- `State.countSnap`. -/
theorem State_countSnap_bytes (s : State) (f : Flight) {s_ : State} (hks : SameMem s_ s) :
    SameMem s_ (State.countSnap s f) := by
  unfold State.countSnap
  with_reducible
    repeat' (first
      | assumption
      | apply State_updCtx_bytes
      | apply bytes_ite
      | (apply bytes_mk; assumption)
      | (intro _))

/-- `State.cntWrite`. -/
theorem State_cntWrite_bytes (s : State) (d c i : Nat) (v : Word) {s_ : State} (hks : SameMem s_ s) :
    SameMem s_ (State.cntWrite s d c i v).1 := by
  unfold State.cntWrite
  with_reducible
    repeat' (first
      | assumption
      | apply State_setRg_bytes
      | apply State_configBusy_bytes
      | apply bytes_ite1
      | apply bytes_ite)

/-- `execSeqCntWrite`. -/
theorem execSeqCntWrite_bytes (d c i : Nat) (v : Word) (s : State) {s_ : State} (hks : SameMem s_ s) :
    SameMemO s_ (execSeqCntWrite d c i v s) := by
  unfold execSeqCntWrite
  with_reducible
    repeat' (first
      | assumption
      | apply State_cntWrite_bytes
      | apply bytesO_ite
      | apply bytesO_next
      | apply bytes_ite)

/-- `State.quantumExpiry`. -/
theorem State_quantumExpiry_bytes (s : State) (d l : Nat) {s_ : State} (hks : SameMem s_ s) :
    SameMem s_ (State.quantumExpiry s d l) := by
  unfold State.quantumExpiry
  with_reducible
    repeat' (first
      | assumption
      | apply State_updCl_bytes
      | apply bytes_ite
      | (apply bytes_mk; assumption)
      | (intro _)
      | split
      | (refine bytes_fst_eq (by assumption) ?_))

/-- `execQuantumExpiry`. -/
theorem execQuantumExpiry_bytes (d l : Nat) (s : State) {s_ : State} (hks : SameMem s_ s) :
    SameMemO s_ (execQuantumExpiry d l s) := by
  unfold execQuantumExpiry
  with_reducible
    repeat' (first
      | assumption
      | apply State_quantumExpiry_bytes
      | apply bytesO_next)

/-- `State.loadImage`. -/
theorem State_loadImage_bytes (s : State) (d c l : Nat) {s_ : State} (hks : SameMem s_ s) :
    SameMem s_ (State.loadImage s d c l) := by
  unfold State.loadImage
  with_reducible
    repeat' (first
      | assumption
      | lift_lets
      | (intro x; refine (fun (hx : SameMem s_ x) => ?_) ?_; clear_value x; rotate_left; unfold x; rotate_right)
      | (intro x; clear_value x)
      | apply forEach_bytes
      | apply State_updCl_bytes
      | apply State_setShad_bytes
      | (apply bytes_mk; assumption)
      | (intro _))

/-- `State.homeCause`. -/
theorem State_homeCause_bytes (s : State) (hd cause : Nat) (r : FRec) {s_ : State} (hks : SameMem s_ s) :
    SameMem s_ (State.homeCause s hd cause r) := by
  unfold State.homeCause
  with_reducible
    repeat' (first
      | assumption
      | apply State_cause_bytes
      | apply State_raise_bytes)

/-- `State.noteRed`. -/
theorem State_noteRed_bytes (s : State) (a sat : Nat) (r : FRec) (unit : List Byte) {s_ : State} (hks : SameMem s_ s) :
    SameMem s_ (State.noteRed s a sat r unit) := by
  unfold State.noteRed
  with_reducible
    repeat' (first
      | assumption
      | lift_lets
      | (intro x; refine (fun (hx : SameMem s_ x) => ?_) ?_; clear_value x; rotate_left; unfold x; rotate_right)
      | (intro x; refine (fun (hx : SameMem s_ x.1) => ?_) ?_; clear_value x; rotate_left; unfold x; rotate_right)
      | (intro x; refine (fun (hx : ∀ y, SameMem s_ (x y)) => ?_) ?_; clear_value x; rotate_left; unfold x; rotate_right)
      | (intro x; clear_value x)
      | apply State_putChan_bytes
      | apply bytes_ite
      | apply bytes_ite1
      | (apply bytes_mk; first | assumption | apply State_putChan_bytes)
      | (intro _)
      | split
      | (dsimp only; split)
      | (refine bytes_fst_eq (by assumption) ?_))

/-- `State.signalAt`. -/
theorem State_signalAt_bytes (s : State) (r : FRec) {s_ : State} (hks : SameMem s_ s) :
    SameMem s_ (State.signalAt s r).1 := by
  unfold State.signalAt
  with_reducible
    repeat' (first
      | assumption
      | lift_lets
      | (intro x; refine (fun (hx : SameMem s_ x) => ?_) ?_; clear_value x; rotate_left; unfold x; rotate_right)
      | (intro x; clear_value x)
      | apply State_addCnt_bytes
      | apply bytes_ite1
      | apply bytes_ite)

/-- `State.ctrlUe`. -/
theorem State_ctrlUe_bytes (s : State) (d : Nat) {s_ : State} (hks : SameMem s_ s) :
    SameMem s_ (State.ctrlUe s d) := by
  unfold State.ctrlUe
  with_reducible
    repeat' (first
      | assumption
      | apply State_raise_bytes)

/-- `State.splitResp`. -/
theorem State_splitResp_bytes (s : State) (r : FRec) {s_ : State} (hks : SameMem s_ s) :
    SameMem s_ (State.splitResp s r).1 := by
  unfold State.splitResp
  with_reducible
    repeat' (first
      | assumption
      | apply State_updRouter_bytes
      | (apply bytes_mk; assumption)
      | (intro _)
      | split
      | (refine bytes_fst_eq (by assumption) ?_))

/-- `State.sendResp`. -/
theorem State_sendResp_bytes (s : State) (d cls : Nat) (r : FRec) {s_ : State} (hks : SameMem s_ s) :
    SameMem s_ (State.sendResp s d cls r) := by
  unfold State.sendResp
  with_reducible
    repeat' (first
      | assumption
      | apply State_updRouter_bytes
      | apply State_forward_bytes
      | apply bytes_ite
      | (apply bytes_mk; assumption)
      | (intro _))

/-- `State.takeResp`. -/
theorem State_takeResp_bytes (s : State) (d cls : Nat) (r : FRec) {s_ : State} (hks : SameMem s_ s) :
    SameMem s_ (State.takeResp s d cls r) := by
  unfold State.takeResp
  with_reducible
    repeat' (first
      | assumption
      | lift_lets
      | (intro x; refine (fun (hx : SameMem s_ x) => ?_) ?_; clear_value x; rotate_left; unfold x; rotate_right)
      | (intro x; refine (fun (hx : SameMem s_ x.1) => ?_) ?_; clear_value x; rotate_left; unfold x; rotate_right)
      | (intro x; clear_value x)
      | apply forEach_bytes
      | apply State_splitResp_bytes
      | apply State_sendResp_bytes
      | (intro _))

/-- `State.noteApplied`. -/
theorem State_noteApplied_bytes (s : State) (cls : Nat) (q : FRec) {s_ : State} (hks : SameMem s_ s) :
    SameMem s_ (State.noteApplied s cls q) := by
  unfold State.noteApplied
  with_reducible
    repeat' (first
      | assumption
      | lift_lets
      | (intro x; refine (fun (hx : SameMem s_ x) => ?_) ?_; clear_value x; rotate_left; unfold x; rotate_right)
      | (intro x; clear_value x)
      | apply State_updRouter_bytes
      | (apply bytes_mk; assumption)
      | (intro _))

/-- `State.finish`. -/
theorem State_finish_bytes (s : State) (d cls : Nat) (r : FRec) (st : Nat) (pay : List Byte) {s_ : State} (hks : SameMem s_ s) :
    SameMem s_ (State.finish s d cls r st pay) := by
  unfold State.finish
  with_reducible
    repeat' (first
      | assumption
      | lift_lets
      | (intro x; refine (fun (hx : SameMem s_ x) => ?_) ?_; clear_value x; rotate_left; unfold x; rotate_right)
      | (intro x; clear_value x)
      | apply forEach_bytes
      | apply State_takeResp_bytes
      | apply State_noteApplied_bytes
      | apply bytes_ite
      | (intro _))

/-- `State.macCnt`. -/
theorem State_macCnt_bytes (s : State) (d p k n : Nat) {s_ : State} (hks : SameMem s_ s) :
    SameMem s_ (State.macCnt s d p k n) := by
  unfold State.macCnt
  with_reducible
    repeat' (first
      | assumption
      | apply State_addRg_bytes)

/-- `State.noRoute`. -/
theorem State_noRoute_bytes (s : State) (d cls : Nat) (r : FRec) {s_ : State} (hks : SameMem s_ s) :
    SameMem s_ (State.noRoute s d cls r) := by
  unfold State.noRoute
  with_reducible
    repeat' (first
      | assumption
      | apply State_takeResp_bytes
      | apply bytes_ite)

/-- `State.forwardOr`. -/
theorem State_forwardOr_bytes (s : State) (d cls : Nat) (r : FRec) {s_ : State} (hks : SameMem s_ s) :
    SameMem s_ (State.forwardOr s d cls r) := by
  unfold State.forwardOr
  with_reducible
    repeat' (first
      | assumption
      | lift_lets
      | (intro x; refine (fun (hx : SameMem s_ x) => ?_) ?_; clear_value x; rotate_left; unfold x; rotate_right)
      | (intro x; refine (fun (hx : SameMem s_ x.1) => ?_) ?_; clear_value x; rotate_left; unfold x; rotate_right)
      | (intro x; clear_value x)
      | apply State_forward_bytes
      | apply State_noRoute_bytes
      | apply bytes_ite)

/-- `State.ackTo`. -/
theorem State_ackTo_bytes (s : State) (d p h : Nat) {s_ : State} (hks : SameMem s_ s) :
    SameMem s_ (State.ackTo s d p h) := by
  unfold State.ackTo
  with_reducible
    repeat' (first
      | assumption
      | lift_lets
      | (intro x; refine (fun (hx : SameMem s_ x) => ?_) ?_; clear_value x; rotate_left; unfold x; rotate_right)
      | (intro x; clear_value x)
      | apply State_updPort_bytes
      | (apply bytes_mk; assumption)
      | (intro _)
      | split
      | (refine bytes_fst_eq (by assumption) ?_))

/-- `State.sendFrame`. -/
theorem State_sendFrame_bytes (s : State) (d p : Nat) (f : Frame) (len : Nat) {s_ : State} (hks : SameMem s_ s) :
    SameMem s_ (State.sendFrame s d p f len) := by
  unfold State.sendFrame
  with_reducible
    repeat' (first
      | assumption
      | apply State_emit_bytes
      | apply State_macCnt_bytes)

/-- `State.resendFrames`. -/
theorem State_resendFrames_bytes (s : State) (d p h : Nat) {s_ : State} (hks : SameMem s_ s) :
    SameMem s_ (State.resendFrames s d p h) := by
  unfold State.resendFrames
  with_reducible
    repeat' (first
      | assumption
      | lift_lets
      | (intro x; refine (fun (hx : SameMem s_ x) => ?_) ?_; clear_value x; rotate_left; unfold x; rotate_right)
      | (intro x; clear_value x)
      | apply forEach_bytes
      | apply State_updPort_bytes
      | apply State_addRg_bytes
      | apply State_raise_bytes
      | apply State_sendFrame_bytes
      | apply bytes_ite
      | (apply bytes_mk; assumption)
      | (intro _))

/-- `State.askAgain`. -/
theorem State_askAgain_bytes (s : State) (d p : Nat) {s_ : State} (hks : SameMem s_ s) :
    SameMem s_ (State.askAgain s d p) := by
  unfold State.askAgain
  with_reducible
    repeat' (first
      | assumption
      | lift_lets
      | (intro x; refine (fun (hx : SameMem s_ x) => ?_) ?_; clear_value x; rotate_left; unfold x; rotate_right)
      | (intro x; clear_value x)
      | apply State_putPort_bytes
      | apply bytes_ite
      | (apply bytes_mk; assumption))

/-- `State.sendPfc`. -/
theorem State_sendPfc_bytes (s : State) (d p cls quanta : Nat) {s_ : State} (hks : SameMem s_ s) :
    SameMem s_ (State.sendPfc s d p cls quanta) := by
  unfold State.sendPfc
  with_reducible
    repeat' (first
      | assumption
      | apply State_emit_bytes
      | apply State_macCnt_bytes)

/-- `State.holdLines`. -/
theorem State_holdLines_bytes (s : State) (d p cls n : Nat) (r : FRec) {s_ : State} (hks : SameMem s_ s) :
    SameMem s_ (State.holdLines s d p cls n r) := by
  unfold State.holdLines
  with_reducible
    repeat' (first
      | assumption
      | lift_lets
      | (intro x; refine (fun (hx : SameMem s_ x) => ?_) ?_; clear_value x; rotate_left; unfold x; rotate_right)
      | (intro x; clear_value x)
      | apply State_updPort_bytes
      | apply State_sendPfc_bytes
      | apply bytes_ite
      | (apply bytes_mk; assumption)
      | (intro _))

/-- `State.releasePfc`. -/
theorem State_releasePfc_bytes (s : State) (d p : Nat) {s_ : State} (hks : SameMem s_ s) :
    SameMem s_ (State.releasePfc s d p) := by
  unfold State.releasePfc
  with_reducible
    repeat' (first
      | assumption
      | apply forEach_bytes
      | apply State_updPort_bytes
      | apply State_sendPfc_bytes
      | (apply bytes_mk; assumption)
      | (intro _))

/-- `State.freeTransit`. -/
theorem State_freeTransit_bytes (s : State) (r : FRec) {s_ : State} (hks : SameMem s_ s) :
    SameMem s_ (State.freeTransit s r) := by
  unfold State.freeTransit
  with_reducible
    repeat' (first
      | assumption
      | (intro x; refine (fun (hx : SameMem s_ x) => ?_) ?_; clear_value x; rotate_left; unfold x; rotate_right)
      | (intro x; refine (fun (hx : SameMem s_ x.1) => ?_) ?_; clear_value x; rotate_left; unfold x; rotate_right)
      | (intro x; refine (fun (hx : ∀ y, SameMem s_ (x y)) => ?_) ?_; clear_value x; rotate_left; unfold x; rotate_right)
      | (intro x; clear_value x)
      | split
      | apply forEach_bytes
      | apply State_updPort_bytes
      | apply State_releasePfc_bytes
      | apply bytes_ite
      | apply bytes_ite1
      | (apply bytes_mk; first | assumption | apply forEach_bytes | apply State_updPort_bytes | apply State_releasePfc_bytes)
      | (intro _)
      | lift_lets
      | (refine bytes_fst_eq (by assumption) ?_))

/-- `State.takePfc`. -/
theorem State_takePfc_bytes (s : State) (d p : Nat) (ts : List (Nat × Nat)) {s_ : State} (hks : SameMem s_ s) :
    SameMem s_ (State.takePfc s d p ts) := by
  unfold State.takePfc
  with_reducible
    repeat' (first
      | assumption
      | apply forEach_bytes
      | apply State_updPort_bytes
      | apply State_macCnt_bytes
      | apply bytes_ite
      | (apply bytes_mk; assumption)
      | (intro _))

/-- `State.txCons`. -/
theorem State_txCons_bytes (s : State) (d p : Nat) {s_ : State} (hks : SameMem s_ s) :
    SameMem s_ (State.txCons s d p) := by
  unfold State.txCons
  with_reducible
    repeat' (first
      | assumption
      | apply State_setFld_bytes)

/-- `State.portUpNow`. -/
theorem State_portUpNow_bytes (s : State) (d p peer : Nat) {s_ : State} (hks : SameMem s_ s) :
    SameMem s_ (State.portUpNow s d p peer) := by
  unfold State.portUpNow
  with_reducible
    repeat' (first
      | assumption
      | lift_lets
      | (intro x; refine (fun (hx : SameMem s_ x) => ?_) ?_; clear_value x; rotate_left; unfold x; rotate_right)
      | (intro x; clear_value x)
      | apply State_putPort_bytes
      | apply State_setFld_bytes
      | apply State_setStat_bytes)

/-- `State.moveLane`. -/
theorem State_moveLane_bytes (s : State) (d p lane : Nat) {s_ : State} (hks : SameMem s_ s) :
    SameMem s_ (State.moveLane s d p lane) := by
  unfold State.moveLane
  with_reducible
    repeat' (first
      | assumption
      | apply State_updPort_bytes
      | (apply bytes_mk; assumption)
      | (intro _))

/-- `State.doorbell`. -/
theorem State_doorbell_bytes (s : State) (c : Nat) (p : BitVec 32) {s_ : State} (hks : SameMem s_ s) :
    SameMem s_ (State.doorbell s c p) := by
  unfold State.doorbell
  with_reducible
    repeat' (first
      | assumption
      | lift_lets
      | (intro x; refine (fun (hx : SameMem s_ x) => ?_) ?_; clear_value x; rotate_left; unfold x; rotate_right)
      | (intro x; clear_value x)
      | apply State_setRg_bytes
      | apply State_setFld_bytes
      | apply bytes_ite)

/-- `execDoorbell`. -/
theorem execDoorbell_bytes (c : Nat) (p : BitVec 32) (s : State) {s_ : State} (hks : SameMem s_ s) :
    SameMemO s_ (execDoorbell c p s) := by
  unfold execDoorbell
  with_reducible
    repeat' (first
      | assumption
      | apply State_doorbell_bytes
      | apply bytesO_ite
      | apply bytesO_next
      | apply bytes_ite)

/-- `State.ringReset`. -/
theorem State_ringReset_bytes (s : State) (c : Nat) {s_ : State} (hks : SameMem s_ s) :
    SameMem s_ (State.ringReset s c).1 := by
  unfold State.ringReset
  with_reducible
    repeat' (first
      | assumption
      | apply State_setRg_bytes
      | apply State_configBusy_bytes
      | apply bytes_ite1
      | apply bytes_ite)

/-- `execSeqRingReset`. -/
theorem execSeqRingReset_bytes (c : Nat) (s : State) {s_ : State} (hks : SameMem s_ s) :
    SameMemO s_ (execSeqRingReset c s) := by
  unfold execSeqRingReset
  with_reducible
    repeat' (first
      | assumption
      | apply State_ringReset_bytes
      | apply bytesO_ite
      | apply bytesO_next
      | apply bytes_ite)

/-- `State.refuseDesc`. -/
theorem State_refuseDesc_bytes (s : State) (c reason : Nat) {s_ : State} (hks : SameMem s_ s) :
    SameMem s_ (State.refuseDesc s c reason) := by
  unfold State.refuseDesc
  with_reducible
    repeat' (first
      | assumption
      | apply State_updHc_bytes
      | apply State_cause_bytes
      | (apply bytes_mk; assumption)
      | (intro _))

/-- `State.descArrive`. -/
theorem State_descArrive_bytes (s : State) (c : Nat) (ok : Bool) (ws : List Word) {s_ : State} (hks : SameMem s_ s) :
    SameMem s_ (State.descArrive s c ok ws) := by
  unfold State.descArrive
  with_reducible
    repeat' (first
      | assumption
      | lift_lets
      | (intro x; refine (fun (hx : SameMem s_ x) => ?_) ?_; clear_value x; rotate_left; unfold x; rotate_right)
      | (intro x; clear_value x)
      | apply State_updHc_bytes
      | apply State_refuseDesc_bytes
      | apply bytes_ite
      | (intro _)
      | split
      | (refine bytes_fst_eq (by assumption) ?_))

/-- `execDescriptorArrive`. -/
theorem execDescriptorArrive_bytes (c : Nat) (ok : Bool) (ws : List Word) (s : State) {s_ : State} (hks : SameMem s_ s) :
    SameMemO s_ (execDescriptorArrive c ok ws s) := by
  unfold execDescriptorArrive
  with_reducible
    repeat' (first
      | assumption
      | apply State_updLink_bytes
      | apply State_descArrive_bytes
      | apply bytesO_ite
      | apply bytesO_next
      | apply bytes_ite
      | (apply bytes_mk; assumption)
      | (intro _))

/-- `State.clearCounters`. -/
theorem State_clearCounters_bytes (s : State) (c : Nat) {s_ : State} (hks : SameMem s_ s) :
    SameMem s_ (State.clearCounters s c) := by
  unfold State.clearCounters
  with_reducible
    repeat' (first
      | assumption
      | lift_lets
      | (intro x; refine (fun (hx : SameMem s_ x) => ?_) ?_; clear_value x; rotate_left; unfold x; rotate_right)
      | (intro x; clear_value x)
      | apply forEach_bytes
      | apply State_setRg_bytes
      | (intro _))

/-- `State.startDesc`. -/
theorem State_startDesc_bytes (s : State) (c : Nat) (bs : List Byte) {s_ : State} (hks : SameMem s_ s) :
    SameMem s_ (State.startDesc s c bs) := by
  unfold State.startDesc
  with_reducible
    repeat' (first
      | assumption
      | lift_lets
      | (intro x; refine (fun (hx : SameMem s_ x) => ?_) ?_; clear_value x; rotate_left; unfold x; rotate_right)
      | (intro x; clear_value x)
      | apply forEach_bytes
      | apply State_putCtx_bytes
      | apply State_updHc_bytes
      | apply State_clearCounters_bytes
      | (apply bytes_mk; assumption)
      | (intro _))

/-- `State.dirArrive`. -/
theorem State_dirArrive_bytes (s : State) (c : Nat) {s_ : State} (hks : SameMem s_ s) :
    SameMem s_ (State.dirArrive s c) := by
  unfold State.dirArrive
  with_reducible
    repeat' (first
      | assumption
      | lift_lets
      | (intro x; refine (fun (hx : SameMem s_ x) => ?_) ?_; clear_value x; rotate_left; unfold x; rotate_right)
      | (intro x; clear_value x)
      | apply State_touchRead_bytes
      | apply State_sendSnoop_bytes
      | apply State_refuseDesc_bytes
      | apply State_startDesc_bytes
      | apply bytes_ite
      | split
      | (refine bytes_fst_eq (by assumption) ?_))

/-- `execDirectoryArrive`. -/
theorem execDirectoryArrive_bytes (c : Nat) (_env : Env) (s : State) {s_ : State} (hks : SameMem s_ s) :
    SameMemO s_ (execDirectoryArrive c _env s) := by
  unfold execDirectoryArrive
  with_reducible
    repeat' (first
      | assumption
      | apply State_dirArrive_bytes
      | apply bytesO_ite
      | apply bytesO_next
      | apply bytes_ite)

/-- `State.postPut`. -/
theorem State_postPut_bytes (s : State) (c a : Nat) (bs : List Byte) {s_ : State} (hks : SameMem s_ s) :
    SameMem s_ (State.postPut s c a bs) := by
  unfold State.postPut
  with_reducible
    repeat' (first
      | assumption
      | lift_lets
      | (intro x; refine (fun (hx : SameMem s_ x) => ?_) ?_; clear_value x; rotate_left; unfold x; rotate_right)
      | (intro x; refine (fun (hx : SameMem s_ x.1) => ?_) ?_; clear_value x; rotate_left; unfold x; rotate_right)
      | (intro x; clear_value x)
      | apply State_updHc_bytes
      | apply State_hostWrite_bytes
      | apply State_hostMerge_bytes
      | apply bytes_ite
      | (apply bytes_mk; assumption)
      | (intro _)
      | split
      | (refine bytes_fst_eq (by assumption) ?_))

/-- `State.writeReport`. -/
theorem State_writeReport_bytes (s : State) (c : Nat) {s_ : State} (hks : SameMem s_ s) :
    SameMem s_ (State.writeReport s c) := by
  unfold State.writeReport
  with_reducible
    repeat' (first
      | assumption
      | lift_lets
      | (intro x; refine (fun (hx : SameMem s_ x) => ?_) ?_; clear_value x; rotate_left; unfold x; rotate_right)
      | (intro x; clear_value x)
      | apply forEach_bytes
      | apply State_postPut_bytes
      | apply bytes_ite
      | (intro _))

/-- `State.descPost`. -/
theorem State_descPost_bytes (s : State) (c : Nat) {s_ : State} (hks : SameMem s_ s) :
    SameMem s_ (State.descPost s c) := by
  unfold State.descPost
  with_reducible
    repeat' (first
      | assumption
      | lift_lets
      | (intro x; refine (fun (hx : SameMem s_ x) => ?_) ?_; clear_value x; rotate_left; unfold x; rotate_right)
      | (intro x; clear_value x)
      | apply State_updHc_bytes
      | apply State_writeReport_bytes
      | apply bytes_ite
      | (intro _))

/-- `execDescriptorPost`. -/
theorem execDescriptorPost_bytes (c : Nat) (s : State) {s_ : State} (hks : SameMem s_ s) :
    SameMemO s_ (execDescriptorPost c s) := by
  unfold execDescriptorPost
  with_reducible
    repeat' (first
      | assumption
      | apply State_descPost_bytes
      | apply bytesO_next)

/-- `State.entryWrite`. -/
theorem State_entryWrite_bytes (s : State) (c : Nat) {s_ : State} (hks : SameMem s_ s) :
    SameMem s_ (State.entryWrite s c) := by
  unfold State.entryWrite
  with_reducible
    repeat' (first
      | assumption
      | lift_lets
      | (intro x; refine (fun (hx : SameMem s_ x) => ?_) ?_; clear_value x; rotate_left; unfold x; rotate_right)
      | (intro x; clear_value x)
      | apply State_updHc_bytes
      | apply State_postPut_bytes
      | apply bytes_ite
      | (apply bytes_mk; assumption)
      | (intro _))

/-- `execCompletionEntryWrite`. -/
theorem execCompletionEntryWrite_bytes (c : Nat) (s : State) {s_ : State} (hks : SameMem s_ s) :
    SameMemO s_ (execCompletionEntryWrite c s) := by
  unfold execCompletionEntryWrite
  with_reducible
    repeat' (first
      | assumption
      | lift_lets
      | (intro x; refine (fun (hx : SameMem s_ x) => ?_) ?_; clear_value x; rotate_left; unfold x; rotate_right)
      | (intro x; refine (fun (hx : SameMem s_ x.1) => ?_) ?_; clear_value x; rotate_left; unfold x; rotate_right)
      | (intro x; refine (fun (hx : ∀ y, SameMem s_ (x y)) => ?_) ?_; clear_value x; rotate_left; unfold x; rotate_right)
      | (intro x; clear_value x)
      | apply State_entryWrite_bytes
      | apply bytesO_ite
      | apply bytesO_next
      | exact bytesO_fault
      | apply bytes_ite
      | apply bytes_ite1
      | (apply bytes_mk; first | assumption | apply State_entryWrite_bytes)
      | (intro _)
      | split
      | (dsimp only; split)
      | (refine bytes_fst_eq (by assumption) ?_))

/-- `State.consBack`. -/
theorem State_consBack_bytes (s : State) (c : Nat) {s_ : State} (hks : SameMem s_ s) :
    SameMem s_ (State.consBack s c) := by
  unfold State.consBack
  with_reducible
    repeat' (first
      | assumption
      | lift_lets
      | (intro x; refine (fun (hx : SameMem s_ x) => ?_) ?_; clear_value x; rotate_left; unfold x; rotate_right)
      | (intro x; clear_value x)
      | apply State_updHc_bytes
      | apply State_setFld_bytes
      | apply State_postPut_bytes
      | apply bytes_ite
      | (apply bytes_mk; assumption)
      | (intro _))

/-- `execConsWriteBack`. -/
theorem execConsWriteBack_bytes (c : Nat) (s : State) {s_ : State} (hks : SameMem s_ s) :
    SameMemO s_ (execConsWriteBack c s) := by
  unfold execConsWriteBack
  with_reducible
    repeat' (first
      | assumption
      | apply State_consBack_bytes
      | apply bytesO_next)

/-- `State.postAnswered`. -/
theorem State_postAnswered_bytes (s : State) (c : Nat) {s_ : State} (hks : SameMem s_ s) :
    SameMem s_ (State.postAnswered s c) := by
  unfold State.postAnswered
  with_reducible
    repeat' (first
      | assumption
      | apply State_updHc_bytes
      | (apply bytes_mk; assumption)
      | (intro _))

/-- `State.aglRaise`. -/
theorem State_aglRaise_bytes (s : State) (d bit cause : Nat) (c : Cls) (opc tag fseq addr : Nat) {s_ : State} (hks : SameMem s_ s) :
    SameMem s_ (State.aglRaise s d bit cause c opc tag fseq addr) := by
  unfold State.aglRaise
  with_reducible
    repeat' (first
      | assumption
      | lift_lets
      | (intro x; refine (fun (hx : SameMem s_ x) => ?_) ?_; clear_value x; rotate_left; unfold x; rotate_right)
      | (intro x; clear_value x)
      | apply State_setRg_bytes
      | apply State_cause_bytes
      | apply State_raise_bytes
      | apply bytes_ite)

/-- `State.mergeBack`. -/
theorem State_mergeBack_bytes (s : State) (q : HReq) (mask : Nat) (bs : List Byte) (l : Line) (own : HOwner) {s_ : State} (hks : SameMem s_ s) :
    SameMem s_ (State.mergeBack s q mask bs l own).1 := by
  unfold State.mergeBack
  with_reducible
    repeat' (first
      | assumption
      | lift_lets
      | (intro x; refine (fun (hx : SameMem s_ x) => ?_) ?_; clear_value x; rotate_left; unfold x; rotate_right)
      | (intro x; refine (fun (hx : SameMem s_ x.1) => ?_) ?_; clear_value x; rotate_left; unfold x; rotate_right)
      | (intro x; refine (fun (hx : ∀ y, SameMem s_ (x y)) => ?_) ?_; clear_value x; rotate_left; unfold x; rotate_right)
      | (intro x; clear_value x)
      | apply State_hostWrite_bytes
      | apply bytes_ite1
      | apply bytes_ite
      | (apply bytes_mk; first | assumption | apply State_hostWrite_bytes)
      | (intro _)
      | split
      | (dsimp only; split)
      | (refine bytes_fst_eq (by assumption) ?_))

/-- `State.ownerEnd`. -/
theorem State_ownerEnd_bytes (s : State) (c k : Nat) {s_ : State} (hks : SameMem s_ s) :
    SameMem s_ (State.ownerEnd s c k) := by
  unfold State.ownerEnd
  with_reducible
    repeat' (first
      | assumption
      | apply State_postAnswered_bytes
      | apply bytes_ite)

/-- `State.snoopLate`. -/
theorem State_snoopLate_bytes (s : State) (d : Nat) (x : Snoop) {s_ : State} (hks : SameMem s_ s) :
    SameMem s_ (State.snoopLate s d x) := by
  unfold State.snoopLate
  with_reducible
    repeat' (first
      | assumption
      | lift_lets
      | (intro x; refine (fun (hx : SameMem s_ x) => ?_) ?_; clear_value x; rotate_left; unfold x; rotate_right)
      | (intro x; refine (fun (hx : SameMem s_ x.1) => ?_) ?_; clear_value x; rotate_left; unfold x; rotate_right)
      | (intro x; clear_value x)
      | apply State_updLink_bytes
      | apply State_poisonLine_bytes
      | apply State_aglRaise_bytes
      | apply bytes_ite
      | (apply bytes_mk; assumption)
      | (intro _))

/-- `State.linkRetrain`. -/
theorem State_linkRetrain_bytes (s : State) (d : Nat) {s_ : State} (hks : SameMem s_ s) :
    SameMem s_ (State.linkRetrain s d) := by
  unfold State.linkRetrain
  with_reducible
    repeat' (first
      | assumption
      | apply State_updLink_bytes
      | apply State_setLk_bytes
      | apply State_aglCnt_bytes
      | apply State_aglRaise_bytes
      | apply bytes_ite
      | (apply bytes_mk; assumption)
      | (intro _))

/-- `State.linkProtocol`. -/
theorem State_linkProtocol_bytes (s : State) (d : Nat) (m : LMsg) {s_ : State} (hks : SameMem s_ s) :
    SameMem s_ (State.linkProtocol s d m) := by
  unfold State.linkProtocol
  with_reducible
    repeat' (first
      | assumption
      | apply State_aglRaise_bytes
      | apply State_linkRetrain_bytes)

/-- `State.replay`. -/
theorem State_replay_bytes (s : State) (d : Nat) {s_ : State} (hks : SameMem s_ s) :
    SameMem s_ (State.replay s d) := by
  unfold State.replay
  with_reducible
    repeat' (first
      | assumption
      | lift_lets
      | (intro x; refine (fun (hx : SameMem s_ x) => ?_) ?_; clear_value x; rotate_left; unfold x; rotate_right)
      | (intro x; clear_value x)
      | apply forEach_bytes
      | apply State_putLink_bytes
      | apply State_aglCnt_bytes
      | apply State_emitFlit_bytes
      | apply State_aglRaise_bytes
      | apply State_linkRetrain_bytes
      | apply bytes_ite
      | (apply bytes_mk; assumption)
      | (intro _))

/-- `State.linkAck`. -/
theorem State_linkAck_bytes (s : State) (d fack : Nat) {s_ : State} (hks : SameMem s_ s) :
    SameMem s_ (State.linkAck s d fack) := by
  unfold State.linkAck
  with_reducible
    repeat' (first
      | assumption
      | lift_lets
      | (intro x; refine (fun (hx : SameMem s_ x) => ?_) ?_; clear_value x; rotate_left; unfold x; rotate_right)
      | (intro x; clear_value x)
      | apply State_updLink_bytes
      | apply State_pumpLink_bytes
      | (apply bytes_mk; assumption)
      | (intro _)
      | split
      | (refine bytes_fst_eq (by assumption) ?_))

/-- `State.linkNak`. -/
theorem State_linkNak_bytes (s : State) (d fack : Nat) {s_ : State} (hks : SameMem s_ s) :
    SameMem s_ (State.linkNak s d fack) := by
  unfold State.linkNak
  with_reducible
    repeat' (first
      | assumption
      | apply State_replay_bytes
      | apply State_linkAck_bytes
      | apply bytes_ite)

/-- `State.linkAlign`. -/
theorem State_linkAlign_bytes (s : State) (d : Nat) (x8 half : Bool) {s_ : State} (hks : SameMem s_ s) :
    SameMem s_ (State.linkAlign s d x8 half) := by
  unfold State.linkAlign
  with_reducible
    repeat' (first
      | assumption
      | lift_lets
      | (intro x; refine (fun (hx : SameMem s_ x) => ?_) ?_; clear_value x; rotate_left; unfold x; rotate_right)
      | (intro x; clear_value x)
      | apply State_setFld_bytes
      | apply State_setLk_bytes
      | apply State_emitFlit_bytes
      | apply State_aglRaise_bytes
      | apply bytes_ite)

/-- `State.linkInit`. -/
theorem State_linkInit_bytes (s : State) (d proto side cr cs cp : Nat) {s_ : State} (hks : SameMem s_ s) :
    SameMem s_ (State.linkInit s d proto side cr cs cp) := by
  unfold State.linkInit
  with_reducible
    repeat' (first
      | assumption
      | lift_lets
      | (intro x; refine (fun (hx : SameMem s_ x) => ?_) ?_; clear_value x; rotate_left; unfold x; rotate_right)
      | (intro x; clear_value x)
      | apply State_putLink_bytes
      | apply State_setStat_bytes
      | apply State_setLk_bytes
      | apply State_pumpLink_bytes
      | apply State_aglRaise_bytes
      | apply State_replay_bytes
      | apply bytes_ite
      | (apply bytes_mk; assumption))

/-- `State.linkTrain`. -/
theorem State_linkTrain_bytes (s : State) (d : Nat) {s_ : State} (hks : SameMem s_ s) :
    SameMem s_ (State.linkTrain s d) := by
  unfold State.linkTrain
  with_reducible
    repeat' (first
      | assumption
      | apply State_setLk_bytes
      | apply bytes_ite)

/-- `State.aglRetrain`. -/
theorem State_aglRetrain_bytes (s : State) (d : Nat) {s_ : State} (hks : SameMem s_ s) :
    SameMem s_ (State.aglRetrain s d) := by
  unfold State.aglRetrain
  with_reducible
    repeat' (first
      | assumption
      | apply State_linkRetrain_bytes
      | apply bytes_ite)

end Sys2Proof.Machine
end

