-- ==== Sys2Proof/Laws/BytesUnits.lean ====
section
/-! SUPPORT. What leaves memory alone: the operations, from the inside out. -/

set_option Elab.async false

namespace Sys2Proof.Machine

/-- `State.redIssue`. -/
theorem State_redIssue_bytes (s : State) (d c : Nat) (q : Bool) (idx : Nat) (ws : List Word) {s_ : State} (hks : SameMem s_ s) :
    SameMem s_ (State.redIssue s d c q idx ws) := by
  unfold State.redIssue
  with_reducible
    repeat' (first
      | assumption
      | apply State_updChan_bytes
      | apply State_advance_bytes
      | apply State_fly_bytes
      | (apply bytes_mk; assumption)
      | (intro _))

/-- `State.redPhase`. -/
theorem State_redPhase_bytes (s : State) (d c h : Nat) {s_ : State} (hks : SameMem s_ s) :
    SameMem s_ (State.redPhase s d c h) := by
  unfold State.redPhase
  with_reducible
    repeat' (first
      | assumption
      | apply State_updChan_bytes
      | apply bytes_ite
      | (intro _)
      | split
      | (refine bytes_fst_eq (by assumption) ?_))

/-- `State.redAnswered`. -/
theorem State_redAnswered_bytes (s : State) (d c h fid : Nat) {s_ : State} (hks : SameMem s_ s) :
    SameMem s_ (State.redAnswered s d c h fid) := by
  unfold State.redAnswered
  with_reducible
    repeat' (first
      | assumption
      | apply State_updChan_bytes
      | apply bytes_ite
      | (apply bytes_mk; assumption)
      | (intro _)
      | split
      | (refine bytes_fst_eq (by assumption) ?_))

/-- `State.takeRec`. -/
theorem State_takeRec_bytes (s : State) (d : Nat) (r : FRec) {s_ : State} (hks : SameMem s_ s) :
    SameMem s_ (State.takeRec s d r) := by
  unfold State.takeRec
  with_reducible
    repeat' (first
      | assumption
      | apply State_updRouter_bytes
      | apply State_freeTransit_bytes
      | (apply bytes_mk; assumption)
      | (intro _)
      | split
      | (refine bytes_fst_eq (by assumption) ?_))

/-- `State.serve`. -/
theorem State_serve_bytes (s : State) (d hd : Nat) (r : FRec) (f : Nat → State → State × Nat × List Byte) {s_ : State} (hks : SameMem s_ s) (hff :
    ∀ z0 z1 p, f z0 z1 = p → SameMem s_ z1 → SameMem s_ p.1) :
    SameMem s_ (State.serve s d hd r f) := by
  have hf : ∀ z0 z1, SameMem s_ z1 → SameMem s_ (f z0 z1).1 := fun z0 z1 h => hff z0 z1 (f z0 z1) rfl h
  clear hff
  unfold State.serve
  with_reducible
    repeat' (first | assumption | lift_lets | (intro x; refine (fun (hx : SameMem s_ x) => ?_) ?_; clear_value x; rotate_left; unfold x; rotate_right) | (intro x; refine (fun (hx : SameMem s_ x.1) => ?_) ?_; clear_value x; rotate_left; unfold x; rotate_right) | (intro x; clear_value x) | apply hf | apply State_takeResp_bytes | apply State_addRg_bytes | apply State_takeRec_bytes | apply State_finish_bytes | apply State_snoopAll_bytes | apply bytes_ite | split)

/-- `State.readFab`. -/
theorem State_readFab_bytes (s : State) (r : FRec) {s_ : State} (hks : SameMem s_ s) :
    SameMem s_ (State.readFab s r).1 := by
  unfold State.readFab
  with_reducible
    repeat' (first
      | assumption
      | (intro x; refine (fun (hx : SameMem s_ x) => ?_) ?_; clear_value x; rotate_left; unfold x; rotate_right)
      | (intro x; clear_value x)
      | apply State_touchRead_bytes
      | apply bytes_ite1
      | apply bytes_ite
      | lift_lets)

/-- `execRead`. -/
theorem execRead_bytes (d : Nat) (r : FRec) (s : State) {s_ : State} (hks : SameMem s_ s) :
    SameMemO s_ (execRead d r s) := by
  unfold execRead
  exact bytesO_next (bytes_ite (State_serve_bytes s _ _ _ _ hks
    (fun _ t _ e ht => bytes_fst_of (q := t.readFab r) e (State_readFab_bytes t r ht))) hks)

/-- `State.doSignal`. -/
theorem State_doSignal_bytes (s : State) (r : FRec) {s_ : State} (hks : SameMem s_ s) :
    SameMem s_ (State.doSignal s r).1 := by
  exact bytes_pair (State_signalAt_bytes s r hks)

/-- `State.signalRow`. -/
theorem State_signalRow_bytes (s : State) (d : Nat) (r : FRec) (alu : Bool) {s_ : State} (hks : SameMem s_ s) :
    SameMem s_ (State.signalRow s d r alu) := by
  unfold State.signalRow
  extract_lets td
  exact bytes_ite hks (bytes_ite (State_ctrlUe_bytes _ _ (State_takeRec_bytes _ _ _ hks))
    (State_serve_bytes s _ _ _ _ hks (fun _ t _ e ht => bytes_fst_of (q := t.doSignal r) e (State_doSignal_bytes t r ht))))

/-- `execSignal`. -/
theorem execSignal_bytes (d : Nat) (r : FRec) (alu : Bool) (s : State) {s_ : State} (hks : SameMem s_ s) :
    SameMemO s_ (execSignal d r alu s) := by
  unfold execSignal
  with_reducible
    repeat' (first
      | assumption
      | apply State_signalRow_bytes
      | apply bytesO_next)

/-- `State.proxyDone`. -/
theorem State_proxyDone_bytes (s : State) (pd tag opc word : Nat) (r : FRec) (bs : List Byte) {s_ : State} (hks : SameMem s_ s) :
    SameMem s_ (State.proxyDone s pd tag opc word r bs) := by
  unfold State.proxyDone
  with_reducible
    repeat' (first
      | assumption
      | lift_lets
      | (intro x; refine (fun (hx : SameMem s_ x) => ?_) ?_; clear_value x; rotate_left; unfold x; rotate_right)
      | (intro x; clear_value x)
      | apply State_respond_bytes
      | apply bytes_ite)

/-- `State.leaveBlend`. -/
theorem State_leaveBlend_bytes (s : State) (d cls : Nat) (r : FRec) {s_ : State} (hks : SameMem s_ s) :
    SameMem s_ (State.leaveBlend s d cls r) := by
  unfold State.leaveBlend
  with_reducible
    repeat' (first
      | assumption
      | apply State_updRouter_bytes
      | apply State_forwardOr_bytes
      | apply bytes_ite
      | (apply bytes_mk; assumption)
      | (intro _))

/-- `State.hotWindow`. -/
theorem State_hotWindow_bytes (s : State) (d i : Nat) (alu : Bool) {s_ : State} (hks : SameMem s_ s) :
    SameMem s_ (State.hotWindow s d i alu) := by
  unfold State.hotWindow
  with_reducible
    repeat' (first
      | assumption
      | lift_lets
      | (intro x; refine (fun (hx : SameMem s_ x) => ?_) ?_; clear_value x; rotate_left; unfold x; rotate_right)
      | (intro x; refine (fun (hx : SameMem s_ x.1) => ?_) ?_; clear_value x; rotate_left; unfold x; rotate_right)
      | (intro x; clear_value x)
      | apply State_putRouter_bytes
      | apply State_raise_bytes
      | apply State_keepMembers_bytes
      | apply State_ctrlUe_bytes
      | apply State_leaveBlend_bytes
      | apply bytes_ite
      | (apply bytes_mk; assumption)
      | split
      | (refine bytes_fst_eq (by assumption) ?_))

/-- `execHotLineWindow`. -/
theorem execHotLineWindow_bytes (d i : Nat) (alu : Bool) (s : State) {s_ : State} (hks : SameMem s_ s) :
    SameMemO s_ (execHotLineWindow d i alu s) := by
  unfold execHotLineWindow
  with_reducible
    repeat' (first
      | assumption
      | apply State_hotWindow_bytes
      | apply bytesO_ite
      | apply bytesO_next
      | apply bytes_ite)

/-- `State.hotFree`. -/
theorem State_hotFree_bytes (s : State) (d i : Nat) {s_ : State} (hks : SameMem s_ s) :
    SameMem s_ (State.hotFree s d i) := by
  unfold State.hotFree
  with_reducible
    repeat' (first
      | assumption
      | lift_lets
      | (intro x; refine (fun (hx : SameMem s_ x) => ?_) ?_; clear_value x; rotate_left; unfold x; rotate_right)
      | (intro x; clear_value x)
      | apply State_putRouter_bytes
      | apply bytes_ite
      | (apply bytes_mk; assumption)
      | split
      | (refine bytes_fst_eq (by assumption) ?_))

/-- `execHotLineFree`. -/
theorem execHotLineFree_bytes (d i : Nat) (s : State) {s_ : State} (hks : SameMem s_ s) :
    SameMemO s_ (execHotLineFree d i s) := by
  unfold execHotLineFree
  with_reducible
    repeat' (first
      | assumption
      | apply State_hotFree_bytes
      | apply bytesO_ite
      | apply bytesO_next
      | apply bytes_ite)

/-- `State.bulkEscape`. -/
theorem State_bulkEscape_bytes (s : State) (d p i : Nat) {s_ : State} (hks : SameMem s_ s) :
    SameMem s_ (State.bulkEscape s d p i) := by
  unfold State.bulkEscape
  with_reducible
    repeat' (first
      | assumption
      | apply State_updPort_bytes
      | apply State_forwardOr_bytes
      | apply bytes_ite
      | (apply bytes_mk; assumption)
      | (intro _)
      | split
      | (refine bytes_fst_eq (by assumption) ?_))

/-- `execBulkEscape`. -/
theorem execBulkEscape_bytes (d p i : Nat) (s : State) {s_ : State} (hks : SameMem s_ s) :
    SameMemO s_ (execBulkEscape d p i s) := by
  unfold execBulkEscape
  with_reducible
    repeat' (first
      | assumption
      | apply State_bulkEscape_bytes
      | apply bytesO_ite
      | apply bytesO_next
      | apply bytes_ite)

/-- `State.holdRelease`. -/
theorem State_holdRelease_bytes (s : State) (d : Nat) {s_ : State} (hks : SameMem s_ s) :
    SameMem s_ (State.holdRelease s d) := by
  unfold State.holdRelease
  with_reducible
    repeat' (first
      | assumption
      | lift_lets
      | (intro x; refine (fun (hx : SameMem s_ x) => ?_) ?_; clear_value x; rotate_left; unfold x; rotate_right)
      | (intro x; refine (fun (hx : SameMem s_ x.1) => ?_) ?_; clear_value x; rotate_left; unfold x; rotate_right)
      | (intro x; clear_value x)
      | apply forEach_bytes
      | apply State_updRouter_bytes
      | apply State_setFld_bytes
      | apply State_forwardOr_bytes
      | apply bytes_ite
      | (apply bytes_mk; assumption)
      | (intro _))

/-- `execCtrlHoldRelease`. -/
theorem execCtrlHoldRelease_bytes (d : Nat) (s : State) {s_ : State} (hks : SameMem s_ s) :
    SameMemO s_ (execCtrlHoldRelease d s) := by
  unfold execCtrlHoldRelease
  with_reducible
    repeat' (first
      | assumption
      | apply State_holdRelease_bytes
      | apply bytesO_ite
      | apply bytesO_next
      | apply bytes_ite)

/-- `State.arriveRec`. -/
theorem State_arriveRec_bytes (s : State) (d cls : Nat) (r : FRec) {s_ : State} (hks : SameMem s_ s) :
    SameMem s_ (State.arriveRec s d cls r) := by
  unfold State.arriveRec
  with_reducible
    repeat' (first
      | assumption
      | lift_lets
      | (intro x; refine (fun (hx : SameMem s_ x) => ?_) ?_; clear_value x; rotate_left; unfold x; rotate_right)
      | (intro x; clear_value x)
      | apply State_updRouter_bytes
      | apply State_blend_bytes
      | apply State_takeResp_bytes
      | apply State_forwardOr_bytes
      | apply State_freeTransit_bytes
      | apply bytes_ite
      | (apply bytes_mk; assumption)
      | (intro _)
      | split
      | (refine bytes_fst_eq (by assumption) ?_))

/-- `State.takeSpareReq`. -/
theorem State_takeSpareReq_bytes (s : State) (d p lane : Nat) {s_ : State} (hks : SameMem s_ s) :
    SameMem s_ (State.takeSpareReq s d p lane) := by
  unfold State.takeSpareReq
  with_reducible
    repeat' (first
      | assumption
      | apply State_updPort_bytes
      | apply State_setFld_bytes
      | apply bytes_ite
      | (apply bytes_mk; assumption)
      | (intro _))

/-- `State.takeSpareDone`. -/
theorem State_takeSpareDone_bytes (s : State) (d p : Nat) {s_ : State} (hks : SameMem s_ s) :
    SameMem s_ (State.takeSpareDone s d p) := by
  unfold State.takeSpareDone
  with_reducible
    repeat' (first
      | assumption
      | lift_lets
      | (intro x; refine (fun (hx : SameMem s_ x) => ?_) ?_; clear_value x; rotate_left; unfold x; rotate_right)
      | (intro x; clear_value x)
      | apply State_putPort_bytes
      | apply State_resendFrames_bytes
      | apply bytes_ite
      | (apply bytes_mk; assumption)
      | split)

/-- `State.takeHello`. -/
theorem State_takeHello_bytes (s : State) (d p peer port : Nat) {s_ : State} (hks : SameMem s_ s) :
    SameMem s_ (State.takeHello s d p peer port) := by
  unfold State.takeHello
  with_reducible
    repeat' (first
      | assumption
      | lift_lets
      | (intro x; refine (fun (hx : SameMem s_ x) => ?_) ?_; clear_value x; rotate_left; unfold x; rotate_right)
      | (intro x; clear_value x)
      | apply State_putPort_bytes
      | apply State_raise_bytes
      | apply State_portUpNow_bytes
      | apply bytes_ite
      | (apply bytes_mk; assumption))

/-- `State.rxCount`. -/
theorem State_rxCount_bytes (s : State) (d p n : Nat) {s_ : State} (hks : SameMem s_ s) :
    SameMem s_ (State.rxCount s d p n) := by
  unfold State.rxCount
  with_reducible
    repeat' (first
      | assumption
      | apply State_macCnt_bytes)

/-- `State.rxDrop`. -/
theorem State_rxDrop_bytes (s : State) (d p k : Nat) {s_ : State} (hks : SameMem s_ s) :
    SameMem s_ (State.rxDrop s d p k) := by
  unfold State.rxDrop
  with_reducible
    repeat' (first
      | assumption
      | lift_lets
      | (intro x; refine (fun (hx : SameMem s_ x) => ?_) ?_; clear_value x; rotate_left; unfold x; rotate_right)
      | (intro x; clear_value x)
      | apply State_setStat_bytes
      | apply State_macCnt_bytes
      | apply State_askAgain_bytes
      | apply bytes_ite)

/-- `State.exitPay`. -/
theorem State_exitPay_bytes (s : State) (d p n i : Nat) (r : FRec) {s_ : State} (hks : SameMem s_ s) :
    SameMem s_ (State.exitPay s d p n i r).1 := by
  unfold State.exitPay
  with_reducible
    repeat' (first
      | assumption
      | lift_lets
      | (intro x; refine (fun (hx : SameMem s_ x) => ?_) ?_; clear_value x; rotate_left; unfold x; rotate_right)
      | (intro x; refine (fun (hx : SameMem s_ x.1) => ?_) ?_; clear_value x; rotate_left; unfold x; rotate_right)
      | (intro x; clear_value x)
      | apply State_exitLine_bytes
      | apply bytes_ite1
      | apply bytes_ite
      | (apply bytes_mk; assumption))

/-- `State.exitRec`. -/
theorem State_exitRec_bytes (s : State) (d p : Nat) (r : FRec) {s_ : State} (hks : SameMem s_ s) :
    SameMem s_ (State.exitRec s d p r).1 := by
  unfold State.exitRec
  with_reducible
    repeat' (first
      | assumption
      | lift_lets
      | (intro x; refine (fun (hx : SameMem s_ x) => ?_) ?_; clear_value x; rotate_left; unfold x; rotate_right)
      | (intro x; refine (fun (hx : SameMem s_ x.1) => ?_) ?_; clear_value x; rotate_left; unfold x; rotate_right)
      | (intro x; clear_value x)
      | apply State_exitPay_bytes
      | apply foldl_bytes
      | apply foldl_bytes1
      | (intro _))

/-- `State.exitRecs`. -/
theorem State_exitRecs_bytes (s : State) (d p : Nat) (rs : List FRec) {s_ : State} (hks : SameMem s_ s) :
    SameMem s_ (State.exitRecs s d p rs).1 := by
  unfold State.exitRecs
  with_reducible
    repeat' (first
      | assumption
      | (intro x; refine (fun (hx : SameMem s_ x) => ?_) ?_; clear_value x; rotate_left; unfold x; rotate_right)
      | (intro x; refine (fun (hx : SameMem s_ x.1) => ?_) ?_; clear_value x; rotate_left; unfold x; rotate_right)
      | (intro x; clear_value x)
      | apply State_exitRec_bytes
      | apply foldl_bytes
      | apply foldl_bytes1
      | (intro _)
      | lift_lets)

/-- `State.sendCtl`. -/
theorem State_sendCtl_bytes (s : State) (d p : Nat) {s_ : State} (hks : SameMem s_ s) :
    SameMem s_ (State.sendCtl s d p) := by
  unfold State.sendCtl
  with_reducible
    repeat' (first
      | assumption
      | lift_lets
      | (intro x; refine (fun (hx : SameMem s_ x) => ?_) ?_; clear_value x; rotate_left; unfold x; rotate_right)
      | (intro x; clear_value x)
      | apply State_putPort_bytes
      | apply State_sendFrame_bytes
      | (apply bytes_mk; assumption))

/-- `State.sendData`. -/
theorem State_sendData_bytes (s : State) (d p cls : Nat) {s_ : State} (hks : SameMem s_ s) :
    SameMem s_ (State.sendData s d p cls) := by
  unfold State.sendData
  with_reducible
    repeat' (first
      | assumption
      | lift_lets
      | (intro x; refine (fun (hx : SameMem s_ x) => ?_) ?_; clear_value x; rotate_left; unfold x; rotate_right)
      | (intro x; refine (fun (hx : SameMem s_ x.1) => ?_) ?_; clear_value x; rotate_left; unfold x; rotate_right)
      | (intro x; clear_value x)
      | apply forEach_bytes
      | apply State_putPort_bytes
      | apply State_sendFrame_bytes
      | apply State_freeTransit_bytes
      | apply State_exitRecs_bytes
      | apply bytes_ite
      | (apply bytes_mk; assumption)
      | (intro _))

/-- `State.sendHost`. -/
theorem State_sendHost_bytes (s : State) (d p : Nat) {s_ : State} (hks : SameMem s_ s) :
    SameMem s_ (State.sendHost s d p) := by
  unfold State.sendHost
  with_reducible
    repeat' (first
      | assumption
      | lift_lets
      | (intro x; refine (fun (hx : SameMem s_ x) => ?_) ?_; clear_value x; rotate_left; unfold x; rotate_right)
      | (intro x; refine (fun (hx : SameMem s_ x.1) => ?_) ?_; clear_value x; rotate_left; unfold x; rotate_right)
      | (intro x; refine (fun (hx : ∀ y, SameMem s_ (x y)) => ?_) ?_; clear_value x; rotate_left; unfold x; rotate_right)
      | (intro x; clear_value x)
      | apply State_updPort_bytes
      | apply State_emit_bytes
      | apply State_exitLine_bytes
      | apply State_macCnt_bytes
      | apply State_txCons_bytes
      | apply foldl_bytes
      | apply foldl_bytes1
      | apply bytes_ite
      | apply bytes_ite1
      | (apply bytes_mk; first | assumption | apply State_updPort_bytes | apply State_emit_bytes | apply State_exitLine_bytes | apply State_macCnt_bytes | apply State_txCons_bytes | apply foldl_bytes | apply foldl_bytes1)
      | (intro _)
      | split
      | (dsimp only; split)
      | (refine bytes_fst_eq (by assumption) ?_))

/-- `State.frameTransmit`. -/
theorem State_frameTransmit_bytes (s : State) (d p : Nat) {s_ : State} (hks : SameMem s_ s) :
    SameMem s_ (State.frameTransmit s d p) := by
  unfold State.frameTransmit
  with_reducible
    repeat' (first
      | assumption
      | lift_lets
      | (intro x; refine (fun (hx : SameMem s_ x) => ?_) ?_; clear_value x; rotate_left; unfold x; rotate_right)
      | (intro x; clear_value x)
      | apply State_sendCtl_bytes
      | apply State_sendData_bytes
      | apply State_sendHost_bytes
      | apply bytes_ite
      | split
      | (refine bytes_fst_eq (by assumption) ?_))

/-- `execFrameTransmit`. -/
theorem execFrameTransmit_bytes (d p : Nat) (s : State) {s_ : State} (hks : SameMem s_ s) :
    SameMemO s_ (execFrameTransmit d p s) := by
  unfold execFrameTransmit
  with_reducible
    repeat' (first
      | assumption
      | apply State_frameTransmit_bytes
      | apply bytesO_next)

/-- `State.frameTxEnd`. -/
theorem State_frameTxEnd_bytes (s : State) (d p : Nat) {s_ : State} (hks : SameMem s_ s) :
    SameMem s_ (State.frameTxEnd s d p) := by
  unfold State.frameTxEnd
  with_reducible
    repeat' (first
      | assumption
      | apply State_updPort_bytes
      | apply State_setStat_bytes
      | apply State_txCons_bytes
      | apply bytes_ite
      | (apply bytes_mk; assumption)
      | (intro _))

/-- `execFrameTxEnd`. -/
theorem execFrameTxEnd_bytes (d p : Nat) (s : State) {s_ : State} (hks : SameMem s_ s) :
    SameMemO s_ (execFrameTxEnd d p s) := by
  unfold execFrameTxEnd
  with_reducible
    repeat' (first
      | assumption
      | apply State_frameTxEnd_bytes
      | apply bytesO_next)

/-- `execPfcReceive`. -/
theorem execPfcReceive_bytes (d p cls quanta : Nat) (s : State) {s_ : State} (hks : SameMem s_ s) :
    SameMemO s_ (execPfcReceive d p cls quanta s) := by
  unfold execPfcReceive
  with_reducible
    repeat' (first
      | assumption
      | apply State_takePfc_bytes
      | apply bytesO_ite
      | apply bytesO_next
      | apply bytes_ite)

/-- `State.pfcRepeat`. -/
theorem State_pfcRepeat_bytes (s : State) (d p : Nat) {s_ : State} (hks : SameMem s_ s) :
    SameMem s_ (State.pfcRepeat s d p) := by
  unfold State.pfcRepeat
  with_reducible
    repeat' (first
      | assumption
      | apply forEach_bytes
      | apply State_sendPfc_bytes
      | (intro _))

/-- `execPfcRepeat`. -/
theorem execPfcRepeat_bytes (d p : Nat) (s : State) {s_ : State} (hks : SameMem s_ s) :
    SameMemO s_ (execPfcRepeat d p s) := by
  unfold execPfcRepeat
  with_reducible
    repeat' (first
      | assumption
      | apply State_pfcRepeat_bytes
      | apply bytesO_ite
      | apply bytesO_next
      | apply bytes_ite)

/-- `execPauseExpiry`. -/
theorem execPauseExpiry_bytes (d p cls : Nat) (s : State) {s_ : State} (hks : SameMem s_ s) :
    SameMemO s_ (execPauseExpiry d p cls s) := by
  unfold execPauseExpiry
  with_reducible
    repeat' (first
      | assumption
      | apply State_updPort_bytes
      | apply bytesO_ite
      | apply bytesO_next
      | apply bytes_ite
      | (apply bytes_mk; assumption)
      | (intro _))

/-- `State.ackOnly`. -/
theorem State_ackOnly_bytes (s : State) (d p : Nat) {s_ : State} (hks : SameMem s_ s) :
    SameMem s_ (State.ackOnly s d p) := by
  unfold State.ackOnly
  with_reducible
    repeat' (first
      | assumption
      | lift_lets
      | (intro x; refine (fun (hx : SameMem s_ x) => ?_) ?_; clear_value x; rotate_left; unfold x; rotate_right)
      | (intro x; clear_value x)
      | apply State_putPort_bytes
      | apply State_sendFrame_bytes
      | apply bytes_ite
      | (apply bytes_mk; assumption))

/-- `execAckOnlyFrame`. -/
theorem execAckOnlyFrame_bytes (d p : Nat) (s : State) {s_ : State} (hks : SameMem s_ s) :
    SameMemO s_ (execAckOnlyFrame d p s) := by
  unfold execAckOnlyFrame
  with_reducible
    repeat' (first
      | assumption
      | apply State_ackOnly_bytes
      | apply bytesO_next)

/-- `State.portBringUp`. -/
theorem State_portBringUp_bytes (s : State) (d p locks : Nat) {s_ : State} (hks : SameMem s_ s) :
    SameMem s_ (State.portBringUp s d p locks) := by
  unfold State.portBringUp
  with_reducible
    repeat' (first
      | assumption
      | lift_lets
      | (intro x; refine (fun (hx : SameMem s_ x) => ?_) ?_; clear_value x; rotate_left; unfold x; rotate_right)
      | (intro x; clear_value x)
      | apply forEach_bytes
      | apply State_updPort_bytes
      | apply State_setFld_bytes
      | apply State_portUpNow_bytes
      | apply bytes_ite
      | (apply bytes_mk; assumption)
      | (intro _))

/-- `execPortBringUp`. -/
theorem execPortBringUp_bytes (d p locks : Nat) (s : State) {s_ : State} (hks : SameMem s_ s) :
    SameMemO s_ (execPortBringUp d p locks s) := by
  unfold execPortBringUp
  with_reducible
    repeat' (first
      | assumption
      | apply State_portBringUp_bytes
      | apply bytesO_next)

/-- `execHello`. -/
theorem execHello_bytes (d p peer port : Nat) (s : State) {s_ : State} (hks : SameMem s_ s) :
    SameMemO s_ (execHello d p peer port s) := by
  unfold execHello
  with_reducible
    repeat' (first
      | assumption
      | apply State_takeHello_bytes
      | apply bytesO_next)

/-- `State.macSpareIn`. -/
theorem State_macSpareIn_bytes (s : State) (d p lane : Nat) {s_ : State} (hks : SameMem s_ s) :
    SameMem s_ (State.macSpareIn s d p lane).1 := by
  unfold State.macSpareIn
  with_reducible
    repeat' (first
      | assumption
      | apply State_configBusy_bytes
      | apply State_moveLane_bytes
      | apply bytes_ite1
      | apply bytes_ite)

/-- `execMacSpareIn`. -/
theorem execMacSpareIn_bytes (d p lane : Nat) (s : State) {s_ : State} (hks : SameMem s_ s) :
    SameMemO s_ (execMacSpareIn d p lane s) := by
  unfold execMacSpareIn
  with_reducible
    repeat' (first
      | assumption
      | apply State_macSpareIn_bytes
      | apply bytesO_next)

/-- `execSpareReq`. -/
theorem execSpareReq_bytes (d p lane : Nat) (s : State) {s_ : State} (hks : SameMem s_ s) :
    SameMemO s_ (execSpareReq d p lane s) := by
  unfold execSpareReq
  with_reducible
    repeat' (first
      | assumption
      | apply State_takeSpareReq_bytes
      | apply bytesO_ite
      | apply bytesO_next
      | apply bytes_ite)

/-- `State.pcsRealigned`. -/
theorem State_pcsRealigned_bytes (s : State) (d p : Nat) {s_ : State} (hks : SameMem s_ s) :
    SameMem s_ (State.pcsRealigned s d p) := by
  unfold State.pcsRealigned
  with_reducible
    repeat' (first
      | assumption
      | lift_lets
      | (intro x; refine (fun (hx : SameMem s_ x) => ?_) ?_; clear_value x; rotate_left; unfold x; rotate_right)
      | (intro x; clear_value x)
      | apply State_putPort_bytes
      | apply State_setFld_bytes
      | apply State_raise_bytes
      | (apply bytes_mk; assumption)
      | split
      | (refine bytes_fst_eq (by assumption) ?_))

/-- `execPcsRealigned`. -/
theorem execPcsRealigned_bytes (d p : Nat) (s : State) {s_ : State} (hks : SameMem s_ s) :
    SameMemO s_ (execPcsRealigned d p s) := by
  unfold execPcsRealigned
  with_reducible
    repeat' (first
      | assumption
      | apply State_pcsRealigned_bytes
      | apply bytesO_ite
      | apply bytesO_next
      | apply bytes_ite)

/-- `execSpareDone`. -/
theorem execSpareDone_bytes (d p : Nat) (s : State) {s_ : State} (hks : SameMem s_ s) :
    SameMemO s_ (execSpareDone d p s) := by
  unfold execSpareDone
  with_reducible
    repeat' (first
      | assumption
      | apply State_takeSpareDone_bytes
      | apply bytesO_ite
      | apply bytesO_next
      | apply bytes_ite)

/-- `State.laneEvent`. -/
theorem State_laneEvent_bytes (s : State) (d p lane : Nat) {s_ : State} (hks : SameMem s_ s) :
    SameMem s_ (State.laneEvent s d p lane) := by
  unfold State.laneEvent
  with_reducible
    repeat' (first
      | assumption
      | lift_lets
      | (intro x; refine (fun (hx : SameMem s_ x) => ?_) ?_; clear_value x; rotate_left; unfold x; rotate_right)
      | (intro x; refine (fun (hx : SameMem s_ x.1) => ?_) ?_; clear_value x; rotate_left; unfold x; rotate_right)
      | (intro x; clear_value x)
      | apply State_spareDue_bytes
      | apply State_noSpare_bytes
      | apply State_evidence_bytes
      | apply State_moveLane_bytes
      | apply bytes_ite)

/-- `State.laneSer`. -/
theorem State_laneSer_bytes (s : State) (d p lane errs : Nat) {s_ : State} (hks : SameMem s_ s) :
    SameMem s_ (State.laneSer s d p lane errs) := by
  unfold State.laneSer
  with_reducible
    repeat' (first
      | assumption
      | lift_lets
      | (intro x; refine (fun (hx : SameMem s_ x) => ?_) ?_; clear_value x; rotate_left; unfold x; rotate_right)
      | (intro x; clear_value x)
      | apply State_addRg_bytes
      | apply State_raise_bytes
      | apply State_laneEvent_bytes
      | apply bytes_ite)

/-- `execLaneSerWindow`. -/
theorem execLaneSerWindow_bytes (d p lane errs : Nat) (s : State) {s_ : State} (hks : SameMem s_ s) :
    SameMemO s_ (execLaneSerWindow d p lane errs s) := by
  unfold execLaneSerWindow
  with_reducible
    repeat' (first
      | assumption
      | apply State_laneSer_bytes
      | apply bytesO_next)

/-- `State.gateEntry`. -/
theorem State_gateEntry_bytes (s : State) (d p : Nat) {s_ : State} (hks : SameMem s_ s) :
    SameMem s_ (State.gateEntry s d p) := by
  unfold State.gateEntry
  with_reducible
    repeat' (first
      | assumption
      | lift_lets
      | (intro x; refine (fun (hx : SameMem s_ x) => ?_) ?_; clear_value x; rotate_left; unfold x; rotate_right)
      | (intro x; refine (fun (hx : SameMem s_ x.1) => ?_) ?_; clear_value x; rotate_left; unfold x; rotate_right)
      | (intro x; clear_value x)
      | apply State_putPort_bytes
      | apply State_macCnt_bytes
      | apply bytes_ite
      | (apply bytes_mk; assumption)
      | (intro _))

/-- `execGateEntry`. -/
theorem execGateEntry_bytes (d p : Nat) (s : State) {s_ : State} (hks : SameMem s_ s) :
    SameMemO s_ (execGateEntry d p s) := by
  unfold execGateEntry
  with_reducible
    repeat' (first
      | assumption
      | apply State_gateEntry_bytes
      | apply bytesO_ite
      | apply bytesO_next
      | apply bytes_ite)

/-- `State.hqRxCons`. -/
theorem State_hqRxCons_bytes (s : State) (d p v : Nat) {s_ : State} (hks : SameMem s_ s) :
    SameMem s_ (State.hqRxCons s d p v) := by
  unfold State.hqRxCons
  with_reducible
    repeat' (first
      | assumption
      | apply State_setFld_bytes)

/-- `execHqRxCons`. -/
theorem execHqRxCons_bytes (d p v : Nat) (s : State) {s_ : State} (hks : SameMem s_ s) :
    SameMemO s_ (execHqRxCons d p v s) := by
  unfold execHqRxCons
  with_reducible
    repeat' (first
      | assumption
      | apply State_hqRxCons_bytes
      | apply bytesO_ite
      | apply bytesO_next
      | apply bytes_ite)

/-- `State.hqTxProd`. -/
theorem State_hqTxProd_bytes (s : State) (d p v : Nat) {s_ : State} (hks : SameMem s_ s) :
    SameMem s_ (State.hqTxProd s d p v) := by
  unfold State.hqTxProd
  with_reducible
    repeat' (first
      | assumption
      | apply State_setFld_bytes)

/-- `execHqTxProd`. -/
theorem execHqTxProd_bytes (d p v : Nat) (s : State) {s_ : State} (hks : SameMem s_ s) :
    SameMemO s_ (execHqTxProd d p v s) := by
  unfold execHqTxProd
  with_reducible
    repeat' (first
      | assumption
      | apply State_hqTxProd_bytes
      | apply bytesO_ite
      | apply bytesO_next
      | apply bytes_ite)

/-- `State.bankTrigger`. -/
theorem State_bankTrigger_bytes (s : State) (d bank : Nat) {s_ : State} (hks : SameMem s_ s) :
    SameMem s_ (State.bankTrigger s d bank) := by
  unfold State.bankTrigger
  with_reducible
    repeat' (first
      | assumption
      | lift_lets
      | (intro x; refine (fun (hx : SameMem s_ x) => ?_) ?_; clear_value x; rotate_left; unfold x; rotate_right)
      | (intro x; clear_value x)
      | apply State_updCel_bytes
      | apply State_spareDue_bytes
      | apply State_noSpare_bytes
      | apply bytes_ite
      | (apply bytes_mk; assumption)
      | (intro _)
      | split
      | (refine bytes_fst_eq (by assumption) ?_))

/-- `State.eccCe`. -/
theorem State_eccCe_bytes (s : State) (a w : Nat) {s_ : State} (hks : SameMem s_ s) :
    SameMem s_ (State.eccCe s a w) := by
  unfold State.eccCe
  with_reducible
    repeat' (first
      | assumption
      | lift_lets
      | (intro x; refine (fun (hx : SameMem s_ x) => ?_) ?_; clear_value x; rotate_left; unfold x; rotate_right)
      | (intro x; clear_value x)
      | apply State_setFld_bytes
      | apply State_addRg_bytes
      | apply State_fresh_bytes
      | apply State_setStat_bytes
      | apply State_raise_bytes
      | apply State_bankTrigger_bytes
      | apply bytes_ite)

/-- `State.bankUe`. -/
theorem State_bankUe_bytes (s : State) (d bank : Nat) {s_ : State} (hks : SameMem s_ s) :
    SameMem s_ (State.bankUe s d bank) := by
  unfold State.bankUe
  with_reducible
    repeat' (first
      | assumption
      | lift_lets
      | (intro x; refine (fun (hx : SameMem s_ x) => ?_) ?_; clear_value x; rotate_left; unfold x; rotate_right)
      | (intro x; refine (fun (hx : SameMem s_ x.1) => ?_) ?_; clear_value x; rotate_left; unfold x; rotate_right)
      | (intro x; clear_value x)
      | apply State_updMod_bytes
      | apply State_evidence_bytes
      | apply State_bankTrigger_bytes
      | apply bytes_ite
      | (apply bytes_mk; assumption)
      | (intro _))

/-- `State.eccUe`. -/
theorem State_eccUe_bytes (s : State) (a w : Nat) {s_ : State} (hks : SameMem s_ s) :
    SameMem s_ (State.eccUe s a w) := by
  unfold State.eccUe
  with_reducible
    repeat' (first
      | assumption
      | lift_lets
      | (intro x; refine (fun (hx : SameMem s_ x) => ?_) ?_; clear_value x; rotate_left; unfold x; rotate_right)
      | (intro x; clear_value x)
      | apply State_putSide_bytes
      | apply State_fresh_bytes
      | apply State_raise_bytes
      | apply State_bankUe_bytes
      | apply bytes_ite)

/-- `State.eccCheck`. -/
theorem State_eccCheck_bytes (s : State) (a : Nat) (ecc : List (Nat × Bool)) {s_ : State} (hks : SameMem s_ s) :
    SameMem s_ (State.eccCheck s a ecc) := by
  unfold State.eccCheck
  with_reducible
    repeat' (first
      | assumption
      | apply forEach_bytes
      | apply State_eccCe_bytes
      | apply State_eccUe_bytes
      | apply bytes_ite
      | (intro _))

/-- `State.cellarAccess`. -/
theorem State_cellarAccess_bytes (s : State) (kind a : Nat) (f : State → State) {s_ : State} (hks : SameMem s_ s) (hff : ∀ z0, SameMem s_ z0 →
    SameMem s_ (f z0)) :
    SameMem s_ (State.cellarAccess s kind a f) := by
  unfold State.cellarAccess
  with_reducible
    repeat' (first
      | assumption
      | apply State_sendSnoop_bytes
      | apply hff
      | apply bytes_ite)

/-- `execCellarRead`. -/
theorem execCellarRead_bytes (a : Nat) (ecc : List (Nat × Bool)) (s : State) {s_ : State} (hks : SameMem s_ s) :
    SameMemO s_ (execCellarRead a ecc s) := by
  unfold execCellarRead
  with_reducible
    repeat' (first
      | assumption
      | apply State_touchRead_bytes
      | apply State_eccCheck_bytes
      | apply State_cellarAccess_bytes
      | apply bytesO_next
      | (intro _))

/-- `State.scrub`. -/
theorem State_scrub_bytes (s : State) (a : Nat) (ecc : List (Nat × Bool)) {s_ : State} (hks : SameMem s_ s) :
    SameMem s_ (State.scrub s a ecc) := by
  unfold State.scrub
  with_reducible
    repeat' (first
      | assumption
      | lift_lets
      | (intro x; refine (fun (hx : SameMem s_ x) => ?_) ?_; clear_value x; rotate_left; unfold x; rotate_right)
      | (intro x; refine (fun (hx : SameMem s_ x.1) => ?_) ?_; clear_value x; rotate_left; unfold x; rotate_right)
      | (intro x; clear_value x)
      | apply State_eccCheck_bytes
      | apply bytes_ite
      | (intro _))

/-- `execScrub`. -/
theorem execScrub_bytes (a : Nat) (ecc : List (Nat × Bool)) (s : State) {s_ : State} (hks : SameMem s_ s) :
    SameMemO s_ (execScrub a ecc s) := by
  unfold execScrub
  with_reducible
    repeat' (first
      | assumption
      | apply State_scrub_bytes
      | apply bytesO_next)

/-- `State.flushLines`. -/
theorem State_flushLines_bytes (s : State) (d : Nat) (inval : Bool) {s_ : State} (hks : SameMem s_ s) :
    SameMem s_ (State.flushLines s d inval) := by
  unfold State.flushLines
  with_reducible
    repeat' (first
      | assumption
      | lift_lets
      | (intro x; refine (fun (hx : SameMem s_ x) => ?_) ?_; clear_value x; rotate_left; unfold x; rotate_right)
      | (intro x; clear_value x)
      | apply State_updCel_bytes
      | apply State_setFld_bytes
      | apply State_cleanLines_bytes
      | apply State_dropLines_bytes
      | apply bytes_ite
      | (apply bytes_mk; assumption)
      | (intro _))

/-- `State.doFlush`. -/
theorem State_doFlush_bytes (s : State) (d : Nat) {s_ : State} (hks : SameMem s_ s) :
    SameMem s_ (State.doFlush s d).1 := by
  unfold State.doFlush
  with_reducible
    repeat' (first
      | assumption
      | apply State_configBusy_bytes
      | apply State_flushLines_bytes
      | apply bytes_ite1
      | apply bytes_ite)

/-- `execFlush`. -/
theorem execFlush_bytes (d : Nat) (s : State) {s_ : State} (hks : SameMem s_ s) :
    SameMemO s_ (execFlush d s) := by
  unfold execFlush
  with_reducible
    repeat' (first
      | assumption
      | apply State_doFlush_bytes
      | apply bytesO_next)

/-- `State.doPurge`. -/
theorem State_doPurge_bytes (s : State) (d : Nat) {s_ : State} (hks : SameMem s_ s) :
    SameMem s_ (State.doPurge s d).1 := by
  unfold State.doPurge
  with_reducible
    repeat' (first
      | assumption
      | apply State_updCel_bytes
      | apply State_configBusy_bytes
      | apply State_flushLines_bytes
      | apply bytes_ite1
      | apply bytes_ite
      | (apply bytes_mk; assumption)
      | (intro _))

/-- `execPurge`. -/
theorem execPurge_bytes (d : Nat) (s : State) {s_ : State} (hks : SameMem s_ s) :
    SameMemO s_ (execPurge d s) := by
  unfold execPurge
  with_reducible
    repeat' (first
      | assumption
      | apply State_doPurge_bytes
      | apply bytesO_next)

/-- `State.flushComplete`. -/
theorem State_flushComplete_bytes (s : State) (d : Nat) {s_ : State} (hks : SameMem s_ s) :
    SameMem s_ (State.flushComplete s d) := by
  unfold State.flushComplete
  with_reducible
    repeat' (first
      | assumption
      | lift_lets
      | (intro x; refine (fun (hx : SameMem s_ x) => ?_) ?_; clear_value x; rotate_left; unfold x; rotate_right)
      | (intro x; clear_value x)
      | apply State_updCel_bytes
      | apply State_setFld_bytes
      | apply State_setStat_bytes
      | apply State_flushLines_bytes
      | apply bytes_ite
      | (apply bytes_mk; assumption)
      | (intro _))

/-- `execFlushComplete`. -/
theorem execFlushComplete_bytes (d : Nat) (s : State) {s_ : State} (hks : SameMem s_ s) :
    SameMemO s_ (execFlushComplete d s) := by
  unfold execFlushComplete
  with_reducible
    repeat' (first
      | assumption
      | apply State_flushComplete_bytes
      | apply bytesO_ite
      | apply bytesO_next
      | apply bytes_ite)

/-- `State.celSpareIn`. -/
theorem State_celSpareIn_bytes (s : State) (d bank spare : Nat) {s_ : State} (hks : SameMem s_ s) :
    SameMem s_ (State.celSpareIn s d bank spare).1 := by
  unfold State.celSpareIn
  with_reducible
    repeat' (first
      | assumption
      | apply State_updCel_bytes
      | apply State_configBusy_bytes
      | apply bytes_ite1
      | apply bytes_ite
      | (apply bytes_mk; assumption)
      | (intro _))

/-- `execCelSpareIn`. -/
theorem execCelSpareIn_bytes (d bank spare : Nat) (s : State) {s_ : State} (hks : SameMem s_ s) :
    SameMemO s_ (execCelSpareIn d bank spare s) := by
  unfold execCelSpareIn
  with_reducible
    repeat' (first
      | assumption
      | apply State_celSpareIn_bytes
      | apply bytesO_next)

/-- `State.celSpareDone`. -/
theorem State_celSpareDone_bytes (s : State) (d : Nat) {s_ : State} (hks : SameMem s_ s) :
    SameMem s_ (State.celSpareDone s d) := by
  unfold State.celSpareDone
  with_reducible
    repeat' (first
      | assumption
      | apply State_updCel_bytes
      | apply State_setRg_bytes
      | apply State_setStat_bytes
      | apply State_repairDue_bytes
      | apply bytes_ite
      | (apply bytes_mk; assumption)
      | (intro _)
      | split
      | (refine bytes_fst_eq (by assumption) ?_))

/-- `execCelSpareDone`. -/
theorem execCelSpareDone_bytes (d : Nat) (s : State) {s_ : State} (hks : SameMem s_ s) :
    SameMemO s_ (execCelSpareDone d s) := by
  unfold execCelSpareDone
  with_reducible
    repeat' (first
      | assumption
      | apply State_celSpareDone_bytes
      | apply bytesO_next)

/-- `State.celRetain`. -/
theorem State_celRetain_bytes (s : State) (d : Nat) {s_ : State} (hks : SameMem s_ s) :
    SameMem s_ (State.celRetain s d) := by
  unfold State.celRetain
  with_reducible
    repeat' (first
      | assumption
      | apply State_updCel_bytes
      | apply State_cleanLines_bytes
      | (apply bytes_mk; assumption)
      | (intro _))

/-- `State.celWake`. -/
theorem State_celWake_bytes (s : State) (d : Nat) {s_ : State} (hks : SameMem s_ s) :
    SameMem s_ (State.celWake s d) := by
  unfold State.celWake
  with_reducible
    repeat' (first
      | assumption
      | lift_lets
      | (intro x; refine (fun (hx : SameMem s_ x) => ?_) ?_; clear_value x; rotate_left; unfold x; rotate_right)
      | (intro x; clear_value x)
      | apply State_updCel_bytes
      | apply State_raise_bytes
      | apply State_dropLines_bytes
      | apply State_poisonScratch_bytes
      | apply bytes_ite
      | (apply bytes_mk; assumption)
      | (intro _))

/-- `State.sbTouch`. -/
theorem State_sbTouch_bytes (s : State) (a : Nat) (dirty : Bool) {s_ : State} (hks : SameMem s_ s) :
    SameMem s_ (State.sbTouch s a dirty) := by
  unfold State.sbTouch
  with_reducible
    repeat' (first
      | assumption
      | lift_lets
      | (intro x; refine (fun (hx : SameMem s_ x) => ?_) ?_; clear_value x; rotate_left; unfold x; rotate_right)
      | (intro x; refine (fun (hx : SameMem s_ x.1) => ?_) ?_; clear_value x; rotate_left; unfold x; rotate_right)
      | (intro x; clear_value x)
      | apply State_updHbm_bytes
      | apply State_addRg_bytes
      | apply bytes_ite
      | (apply bytes_mk; assumption)
      | (intro _))

/-- `State.hbmCause`. -/
theorem State_hbmCause_bytes (s : State) (a cause cnt : Nat) (c : Cls) {s_ : State} (hks : SameMem s_ s) :
    SameMem s_ (State.hbmCause s a cause cnt c) := by
  unfold State.hbmCause
  with_reducible
    repeat' (first
      | assumption
      | lift_lets
      | (intro x; refine (fun (hx : SameMem s_ x) => ?_) ?_; clear_value x; rotate_left; unfold x; rotate_right)
      | (intro x; refine (fun (hx : SameMem s_ x.1) => ?_) ?_; clear_value x; rotate_left; unfold x; rotate_right)
      | (intro x; clear_value x)
      | apply State_addRg_bytes
      | apply State_cause_bytes
      | apply State_raise_bytes)

/-- `State.hbmPoison`. -/
theorem State_hbmPoison_bytes (s : State) (a : Nat) {s_ : State} (hks : SameMem s_ s) :
    SameMem s_ (State.hbmPoison s a) := by
  unfold State.hbmPoison
  with_reducible
    repeat' (first
      | assumption
      | apply State_putSide_bytes)

/-- `State.sbLost`. -/
theorem State_sbLost_bytes (s : State) (a : Nat) {s_ : State} (hks : SameMem s_ s) :
    SameMem s_ (State.sbLost s a) := by
  unfold State.sbLost
  with_reducible
    repeat' (first
      | assumption
      | lift_lets
      | (intro x; refine (fun (hx : SameMem s_ x) => ?_) ?_; clear_value x; rotate_left; unfold x; rotate_right)
      | (intro x; refine (fun (hx : SameMem s_ x.1) => ?_) ?_; clear_value x; rotate_left; unfold x; rotate_right)
      | (intro x; clear_value x)
      | apply forEach_bytes
      | apply State_putSide_bytes
      | (intro _))

/-- `State.hbmTrigger`. -/
theorem State_hbmTrigger_bytes (s : State) (a : Nat) {s_ : State} (hks : SameMem s_ s) :
    SameMem s_ (State.hbmTrigger s a) := by
  unfold State.hbmTrigger
  with_reducible
    repeat' (first
      | assumption
      | lift_lets
      | (intro x; refine (fun (hx : SameMem s_ x) => ?_) ?_; clear_value x; rotate_left; unfold x; rotate_right)
      | (intro x; refine (fun (hx : SameMem s_ x.1) => ?_) ?_; clear_value x; rotate_left; unfold x; rotate_right)
      | (intro x; clear_value x)
      | apply State_putHbm_bytes
      | apply State_setStat_bytes
      | apply State_spareDue_bytes
      | apply State_noSpare_bytes
      | apply State_retire_bytes
      | apply bytes_ite
      | (apply bytes_mk; assumption)
      | split
      | (refine bytes_fst_eq (by assumption) ?_))

/-- `State.hbmCeEvent`. -/
theorem State_hbmCeEvent_bytes (s : State) (a : Nat) {s_ : State} (hks : SameMem s_ s) :
    SameMem s_ (State.hbmCeEvent s a) := by
  unfold State.hbmCeEvent
  with_reducible
    repeat' (first
      | assumption
      | lift_lets
      | (intro x; refine (fun (hx : SameMem s_ x) => ?_) ?_; clear_value x; rotate_left; unfold x; rotate_right)
      | (intro x; refine (fun (hx : SameMem s_ x.1) => ?_) ?_; clear_value x; rotate_left; unfold x; rotate_right)
      | (intro x; clear_value x)
      | apply State_evidence_bytes
      | apply State_hbmTrigger_bytes
      | apply bytes_ite)

/-- `State.hbmReadEvent`. -/
theorem State_hbmReadEvent_bytes (s : State) (a : Nat) (y0 : HbmEvent) {s_ : State} (hks : SameMem s_ s) :
    SameMem s_ (State.hbmReadEvent s a y0) := by
  unfold State.hbmReadEvent
  with_reducible
    repeat' (first
      | assumption
      | apply State_eccCe_bytes
      | apply State_eccUe_bytes
      | apply State_hbmCause_bytes
      | apply State_hbmPoison_bytes
      | apply State_sbLost_bytes
      | apply State_hbmTrigger_bytes
      | apply State_hbmCeEvent_bytes
      | split
      | (refine bytes_fst_eq (by assumption) ?_))

/-- `State.hbmRead`. -/
theorem State_hbmRead_bytes (s : State) (a : Nat) (ev : HbmEvent) {s_ : State} (hks : SameMem s_ s) :
    SameMem s_ (State.hbmRead s a ev) := by
  unfold State.hbmRead
  with_reducible
    repeat' (first
      | assumption
      | lift_lets
      | (intro x; refine (fun (hx : SameMem s_ x) => ?_) ?_; clear_value x; rotate_left; unfold x; rotate_right)
      | (intro x; clear_value x)
      | apply State_sbTouch_bytes
      | apply State_hbmReadEvent_bytes
      | apply bytes_ite)

/-- `execHbmRead`. -/
theorem execHbmRead_bytes (a : Nat) (ev : HbmEvent) (s : State) {s_ : State} (hks : SameMem s_ s) :
    SameMemO s_ (execHbmRead a ev s) := by
  unfold execHbmRead
  with_reducible
    repeat' (first
      | assumption
      | apply State_hbmRead_bytes
      | apply bytesO_next)

/-- `State.refreshEval`. -/
theorem State_refreshEval_bytes (s : State) (d k : Nat) (below : Bool) {s_ : State} (hks : SameMem s_ s) :
    SameMem s_ (State.refreshEval s d k below) := by
  unfold State.refreshEval
  with_reducible
    repeat' (first
      | assumption
      | lift_lets
      | (intro x; refine (fun (hx : SameMem s_ x) => ?_) ?_; clear_value x; rotate_left; unfold x; rotate_right)
      | (intro x; clear_value x)
      | apply State_putHbm_bytes
      | apply State_setFld_bytes
      | apply bytes_ite
      | (apply bytes_mk; assumption))

/-- `execRefreshRateEval`. -/
theorem execRefreshRateEval_bytes (d k : Nat) (below : Bool) (s : State) {s_ : State} (hks : SameMem s_ s) :
    SameMemO s_ (execRefreshRateEval d k below s) := by
  unfold execRefreshRateEval
  with_reducible
    repeat' (first
      | assumption
      | apply State_refreshEval_bytes
      | apply bytesO_ite
      | apply bytesO_next
      | apply bytes_ite)

/-- `execPerBankRefresh`. -/
theorem execPerBankRefresh_bytes (d k pc : Nat) (s : State) {s_ : State} (hks : SameMem s_ s) :
    SameMemO s_ (execPerBankRefresh d k pc s) := by
  unfold execPerBankRefresh
  with_reducible
    repeat' (first
      | assumption
      | apply State_updHbm_bytes
      | apply bytesO_ite
      | apply bytesO_next
      | apply bytes_ite
      | (apply bytes_mk; assumption)
      | (intro _))

/-- `State.flushSb`. -/
theorem State_flushSb_bytes (s : State) (d k : Nat) {s_ : State} (hks : SameMem s_ s) :
    SameMem s_ (State.flushSb s d k) := by
  unfold State.flushSb
  with_reducible
    repeat' (first
      | assumption
      | apply State_updHbm_bytes
      | (apply bytes_mk; assumption)
      | (intro _))

/-- `execFlushSb`. -/
theorem execFlushSb_bytes (d k : Nat) (s : State) {s_ : State} (hks : SameMem s_ s) :
    SameMemO s_ (execFlushSb d k s) := by
  unfold execFlushSb
  with_reducible
    repeat' (first
      | assumption
      | apply State_flushSb_bytes
      | apply bytesO_ite
      | apply bytesO_next
      | apply bytes_ite)

/-- `State.setFreeMin`. -/
theorem State_setFreeMin_bytes (s : State) (d k : Nat) {s_ : State} (hks : SameMem s_ s) :
    SameMem s_ (State.setFreeMin s d k) := by
  unfold State.setFreeMin
  with_reducible
    repeat' (first
      | assumption
      | apply State_setRg_bytes
      | apply foldl_bytes
      | apply foldl_bytes1
      | (intro _))

/-- `State.hbmRetire`. -/
theorem State_hbmRetire_bytes (s : State) (d k pc unit : Nat) {s_ : State} (hks : SameMem s_ s) :
    SameMem s_ (State.hbmRetire s d k pc unit).1 := by
  unfold State.hbmRetire
  with_reducible
    repeat' (first
      | assumption
      | lift_lets
      | (intro x; refine (fun (hx : SameMem s_ x) => ?_) ?_; clear_value x; rotate_left; unfold x; rotate_right)
      | (intro x; clear_value x)
      | apply State_putHbm_bytes
      | apply State_setStat_bytes
      | apply State_configBusy_bytes
      | apply State_retire_bytes
      | apply bytes_ite1
      | apply bytes_ite
      | (apply bytes_mk; assumption)
      | split
      | (refine bytes_fst_eq (by assumption) ?_))

/-- `execHbmRetire`. -/
theorem execHbmRetire_bytes (d k pc unit : Nat) (s : State) {s_ : State} (hks : SameMem s_ s) :
    SameMemO s_ (execHbmRetire d k pc unit s) := by
  unfold execHbmRetire
  with_reducible
    repeat' (first
      | assumption
      | apply State_hbmRetire_bytes
      | apply bytesO_next)

/-- `State.retireDone`. -/
theorem State_retireDone_bytes (s : State) (d k : Nat) (bad : List Nat) {s_ : State} (hks : SameMem s_ s) :
    SameMem s_ (State.retireDone s d k bad) := by
  unfold State.retireDone
  with_reducible
    repeat' (first
      | assumption
      | lift_lets
      | (intro x; refine (fun (hx : SameMem s_ x) => ?_) ?_; clear_value x; rotate_left; unfold x; rotate_right)
      | (intro x; refine (fun (hx : SameMem s_ x.1) => ?_) ?_; clear_value x; rotate_left; unfold x; rotate_right)
      | (intro x; refine (fun (hx : ∀ y, SameMem s_ (x y)) => ?_) ?_; clear_value x; rotate_left; unfold x; rotate_right)
      | (intro x; clear_value x)
      | apply forEach_bytes
      | apply State_putHbm_bytes
      | apply State_addRg_bytes
      | apply State_setStat_bytes
      | apply State_repairDue_bytes
      | apply State_retire_bytes
      | apply State_eccUe_bytes
      | apply State_hbmReadEvent_bytes
      | apply State_setFreeMin_bytes
      | apply bytes_ite
      | apply bytes_ite1
      | (apply bytes_mk; first | assumption | apply forEach_bytes | apply State_putHbm_bytes | apply State_addRg_bytes | apply State_setStat_bytes | apply State_repairDue_bytes | apply State_retire_bytes | apply State_eccUe_bytes | apply State_hbmReadEvent_bytes | apply State_setFreeMin_bytes)
      | (intro _)
      | split
      | (dsimp only; split)
      | (refine bytes_fst_eq (by assumption) ?_))

/-- `execRetireDone`. -/
theorem execRetireDone_bytes (d k : Nat) (bad : List Nat) (s : State) {s_ : State} (hks : SameMem s_ s) :
    SameMemO s_ (execRetireDone d k bad s) := by
  unfold execRetireDone
  with_reducible
    repeat' (first
      | assumption
      | apply State_retireDone_bytes
      | apply bytesO_ite
      | apply bytesO_next
      | apply bytes_ite)

/-- `State.maintEnter`. -/
theorem State_maintEnter_bytes (s : State) (d k : Nat) {s_ : State} (hks : SameMem s_ s) :
    SameMem s_ (State.maintEnter s d k) := by
  unfold State.maintEnter
  with_reducible
    repeat' (first
      | assumption
      | apply State_setFld_bytes
      | apply State_flushSb_bytes
      | apply bytes_ite)

/-- `execMaintEnter`. -/
theorem execMaintEnter_bytes (d k : Nat) (s : State) {s_ : State} (hks : SameMem s_ s) :
    SameMemO s_ (execMaintEnter d k s) := by
  unfold execMaintEnter
  with_reducible
    repeat' (first
      | assumption
      | apply State_maintEnter_bytes
      | apply bytesO_next)

/-- `State.doMbist`. -/
theorem State_doMbist_bytes (s : State) (d k pat : Nat) {s_ : State} (hks : SameMem s_ s) :
    SameMem s_ (State.doMbist s d k pat).1 := by
  unfold State.doMbist
  with_reducible
    repeat' (first
      | assumption
      | apply State_updHbm_bytes
      | apply State_configBusy_bytes
      | apply bytes_ite1
      | apply bytes_ite
      | (apply bytes_mk; assumption)
      | (intro _))

/-- `execMbist`. -/
theorem execMbist_bytes (d k pat : Nat) (s : State) {s_ : State} (hks : SameMem s_ s) :
    SameMemO s_ (execMbist d k pat s) := by
  unfold execMbist
  with_reducible
    repeat' (first
      | assumption
      | apply State_doMbist_bytes
      | apply bytesO_next)

/-- `State.mbistDone`. -/
theorem State_mbistDone_bytes (s : State) (d k : Nat) (fail : Option (Nat × Nat)) {s_ : State} (hks : SameMem s_ s) :
    SameMem s_ (State.mbistDone s d k fail) := by
  unfold State.mbistDone
  with_reducible
    repeat' (first
      | assumption
      | lift_lets
      | (intro x; refine (fun (hx : SameMem s_ x) => ?_) ?_; clear_value x; rotate_left; unfold x; rotate_right)
      | (intro x; clear_value x)
      | apply State_updHbm_bytes
      | apply State_setStat_bytes
      | apply State_fillLog_bytes
      | (apply bytes_mk; assumption)
      | (intro _)
      | split
      | (refine bytes_fst_eq (by assumption) ?_))

/-- `execMbistDone`. -/
theorem execMbistDone_bytes (d k : Nat) (fail : Option (Nat × Nat)) (s : State) {s_ : State} (hks : SameMem s_ s) :
    SameMemO s_ (execMbistDone d k fail s) := by
  unfold execMbistDone
  with_reducible
    repeat' (first
      | assumption
      | apply State_mbistDone_bytes
      | apply bytesO_ite
      | apply bytesO_next
      | apply bytes_ite)

/-- `State.shiftGo`. -/
theorem State_shiftGo_bytes (s : State) (d k wir len : Nat) {s_ : State} (hks : SameMem s_ s) :
    SameMem s_ (State.shiftGo s d k wir len).1 := by
  unfold State.shiftGo
  with_reducible
    repeat' (first
      | assumption
      | lift_lets
      | (intro x; refine (fun (hx : SameMem s_ x) => ?_) ?_; clear_value x; rotate_left; unfold x; rotate_right)
      | (intro x; clear_value x)
      | apply State_updHbm_bytes
      | apply State_setRg_bytes
      | apply State_configBusy_bytes
      | apply bytes_ite1
      | apply bytes_ite
      | (apply bytes_mk; assumption)
      | (intro _))

/-- `execHbm1500Go`. -/
theorem execHbm1500Go_bytes (d k wir len : Nat) (s : State) {s_ : State} (hks : SameMem s_ s) :
    SameMemO s_ (execHbm1500Go d k wir len s) := by
  unfold execHbm1500Go
  with_reducible
    repeat' (first
      | assumption
      | apply State_shiftGo_bytes
      | apply bytesO_next)

/-- `State.shiftDone`. -/
theorem State_shiftDone_bytes (s : State) (d k out : Nat) {s_ : State} (hks : SameMem s_ s) :
    SameMem s_ (State.shiftDone s d k out) := by
  unfold State.shiftDone
  with_reducible
    repeat' (first
      | assumption
      | lift_lets
      | (intro x; refine (fun (hx : SameMem s_ x) => ?_) ?_; clear_value x; rotate_left; unfold x; rotate_right)
      | (intro x; clear_value x)
      | apply forEach_bytes
      | apply State_updHbm_bytes
      | apply State_setFld_bytes
      | apply bytes_ite
      | (apply bytes_mk; assumption)
      | (intro _))

/-- `execHbm1500Done`. -/
theorem execHbm1500Done_bytes (d k out : Nat) (s : State) {s_ : State} (hks : SameMem s_ s) :
    SameMemO s_ (execHbm1500Done d k out s) := by
  unfold execHbm1500Done
  with_reducible
    repeat' (first
      | assumption
      | apply State_shiftDone_bytes
      | apply bytesO_ite
      | apply bytesO_next
      | apply bytes_ite)

/-- `State.noteTrained`. -/
theorem State_noteTrained_bytes (s : State) (d k : Nat) {s_ : State} (hks : SameMem s_ s) :
    SameMem s_ (State.noteTrained s d k) := by
  unfold State.noteTrained
  with_reducible
    repeat' (first
      | assumption
      | lift_lets
      | (intro x; refine (fun (hx : SameMem s_ x) => ?_) ?_; clear_value x; rotate_left; unfold x; rotate_right)
      | (intro x; clear_value x)
      | apply State_setFld_bytes
      | apply bytes_ite)

/-- `State.hbmSleep`. -/
theorem State_hbmSleep_bytes (s : State) (d k : Nat) {s_ : State} (hks : SameMem s_ s) :
    SameMem s_ (State.hbmSleep s d k) := by
  unfold State.hbmSleep
  with_reducible
    repeat' (first
      | assumption
      | apply State_setFld_bytes
      | apply State_flushSb_bytes)

/-- `State.hbmWake`. -/
theorem State_hbmWake_bytes (s : State) (d k : Nat) {s_ : State} (hks : SameMem s_ s) :
    SameMem s_ (State.hbmWake s d k) := by
  unfold State.hbmWake
  with_reducible
    repeat' (first
      | assumption
      | apply State_updHbm_bytes
      | apply State_setFld_bytes
      | apply bytes_ite
      | (apply bytes_mk; assumption)
      | (intro _))

/-- `State.secRaise`. -/
theorem State_secRaise_bytes (s : State) (d cause typ check : Nat) (c : Cls) {s_ : State} (hks : SameMem s_ s) :
    SameMem s_ (State.secRaise s d cause typ check c) := by
  unfold State.secRaise
  with_reducible
    repeat' (first
      | assumption
      | apply State_cause_bytes
      | apply State_raise_bytes)

/-- `State.recFails`. -/
theorem State_recFails_bytes (s : State) (d cause typ check : Nat) (c : Cls) {s_ : State} (hks : SameMem s_ s) :
    SameMem s_ (State.recFails s d cause typ check c) := by
  unfold State.recFails
  with_reducible
    repeat' (first
      | assumption
      | lift_lets
      | (intro x; refine (fun (hx : SameMem s_ x) => ?_) ?_; clear_value x; rotate_left; unfold x; rotate_right)
      | (intro x; clear_value x)
      | apply State_cause_bytes
      | apply State_secRaise_bytes
      | apply bytes_ite)

/-- `State.loadRec`. -/
theorem State_loadRec_bytes (s : State) (r : FlashRec) {s_ : State} (hks : SameMem s_ s) :
    SameMem s_ (State.loadRec s r) := by
  unfold State.loadRec
  with_reducible
    repeat' (first
      | assumption
      | apply State_updMod_bytes
      | apply bytes_ite
      | (intro _))

/-- `State.fieldWrite`. -/
theorem State_fieldWrite_bytes (s : State) (t d : Nat) (pay : List Byte) {s_ : State} (hks : SameMem s_ s) :
    SameMem s_ (State.fieldWrite s t d pay) := by
  unfold State.fieldWrite
  with_reducible
    repeat' (first
      | assumption
      | lift_lets
      | (intro x; refine (fun (hx : SameMem s_ x) => ?_) ?_; clear_value x; rotate_left; unfold x; rotate_right)
      | (intro x; clear_value x)
      | apply State_updMod_bytes
      | (apply bytes_mk; assumption)
      | (intro _))

/-- `State.vfLoad`. -/
theorem State_vfLoad_bytes (s : State) (d p : Nat) (pay : List Byte) {s_ : State} (hks : SameMem s_ s) :
    SameMem s_ (State.vfLoad s d p pay) := by
  unfold State.vfLoad
  with_reducible
    repeat' (first
      | assumption
      | lift_lets
      | (intro x; refine (fun (hx : SameMem s_ x) => ?_) ?_; clear_value x; rotate_left; unfold x; rotate_right)
      | (intro x; clear_value x)
      | apply State_updPh_bytes
      | apply State_setFld_bytes
      | apply foldl_bytes
      | apply foldl_bytes1
      | (apply bytes_mk; assumption)
      | (intro _))

/-- `State.vfMissing`. -/
theorem State_vfMissing_bytes (s : State) (d p : Nat) {s_ : State} (hks : SameMem s_ s) :
    SameMem s_ (State.vfMissing s d p) := by
  unfold State.vfMissing
  with_reducible
    repeat' (first
      | assumption
      | lift_lets
      | (intro x; refine (fun (hx : SameMem s_ x) => ?_) ?_; clear_value x; rotate_left; unfold x; rotate_right)
      | (intro x; clear_value x)
      | apply State_setFld_bytes)

/-- `State.loadItems`. -/
theorem State_loadItems_bytes (s : State) (d k : Nat) (bs : List Byte) {s_ : State} (hks : SameMem s_ s) :
    SameMem s_ (State.loadItems s d k bs).1 := by
  unfold State.loadItems
  with_reducible
    repeat' (first
      | assumption
      | lift_lets
      | (intro x; refine (fun (hx : SameMem s_ x) => ?_) ?_; clear_value x; rotate_left; unfold x; rotate_right)
      | (intro x; clear_value x)
      | apply State_updHbm_bytes
      | apply State_setRg_bytes
      | apply foldl_bytes
      | apply foldl_bytes1
      | (apply bytes_mk; assumption)
      | (intro _))

/-- `State.loadCluster`. -/
theorem State_loadCluster_bytes (s : State) (d p : Nat) (pay : List Byte) {s_ : State} (hks : SameMem s_ s) :
    SameMem s_ (State.loadCluster s d p pay) := by
  unfold State.loadCluster
  with_reducible
    repeat' (first
      | assumption
      | lift_lets
      | (intro x; refine (fun (hx : SameMem s_ x) => ?_) ?_; clear_value x; rotate_left; unfold x; rotate_right)
      | (intro x; clear_value x)
      | apply State_updPh_bytes
      | apply State_setFld_bytes
      | apply State_setRailSt_bytes
      | apply State_setLogical_bytes
      | apply bytes_ite
      | (apply bytes_mk; assumption)
      | (intro _))

/-- `State.loadRepair`. -/
theorem State_loadRepair_bytes (s : State) (d : Nat) (pay : List Byte) {s_ : State} (hks : SameMem s_ s) :
    SameMem s_ (State.loadRepair s d pay) := by
  unfold State.loadRepair
  with_reducible
    repeat' (first
      | assumption
      | lift_lets
      | (intro x; refine (fun (hx : SameMem s_ x) => ?_) ?_; clear_value x; rotate_left; unfold x; rotate_right)
      | (intro x; refine (fun (hx : SameMem s_ x.1) => ?_) ?_; clear_value x; rotate_left; unfold x; rotate_right)
      | (intro x; clear_value x)
      | apply forEach_bytes
      | apply State_setRg_bytes
      | apply State_setFld_bytes
      | apply State_updMod_bytes
      | apply State_loadItems_bytes
      | apply State_loadCluster_bytes
      | (intro _))

/-- `State.setStage`. -/
theorem State_setStage_bytes (s : State) (v : Nat) {s_ : State} (hks : SameMem s_ s) :
    SameMem s_ (State.setStage s v) := by
  unfold State.setStage
  with_reducible
    repeat' (first
      | assumption
      | apply State_setFld_bytes)

/-- `State.pendStart`. -/
theorem State_pendStart_bytes (s : State) {s_ : State} (hks : SameMem s_ s) :
    SameMem s_ (State.pendStart s) := by
  unfold State.pendStart
  with_reducible
    repeat' (first
      | assumption
      | lift_lets
      | (intro x; refine (fun (hx : SameMem s_ x) => ?_) ?_; clear_value x; rotate_left; unfold x; rotate_right)
      | (intro x; clear_value x)
      | apply forEach_bytes
      | apply State_updMod_bytes
      | apply State_secRaise_bytes
      | (apply bytes_mk; assumption)
      | (intro _))

/-- `State.loadFirmware`. -/
theorem State_loadFirmware_bytes (s : State) (t d logDie : Nat) {s_ : State} (hks : SameMem s_ s) :
    SameMem s_ (State.loadFirmware s t d logDie).1 := by
  unfold State.loadFirmware
  with_reducible
    repeat' (first
      | assumption
      | lift_lets
      | (intro x; refine (fun (hx : SameMem s_ x) => ?_) ?_; clear_value x; rotate_left; unfold x; rotate_right)
      | (intro x; refine (fun (hx : SameMem s_ x.1) => ?_) ?_; clear_value x; rotate_left; unfold x; rotate_right)
      | (intro x; refine (fun (hx : ∀ y, SameMem s_ (x y)) => ?_) ?_; clear_value x; rotate_left; unfold x; rotate_right)
      | (intro x; clear_value x)
      | apply State_updMod_bytes
      | apply State_recFails_bytes
      | apply State_loadRec_bytes
      | apply bytes_ite1
      | apply bytes_ite
      | (apply bytes_mk; first | assumption | apply State_updMod_bytes | apply State_recFails_bytes | apply State_loadRec_bytes)
      | (intro _)
      | split
      | (dsimp only; split)
      | (refine bytes_fst_eq (by assumption) ?_))

/-- `State.loadOne`. -/
theorem State_loadOne_bytes (s : State) (t : Nat) (wanted : Bool) {s_ : State} (hks : SameMem s_ s) :
    SameMem s_ (State.loadOne s t wanted).1 := by
  unfold State.loadOne
  with_reducible
    repeat' (first
      | assumption
      | lift_lets
      | (intro x; refine (fun (hx : SameMem s_ x) => ?_) ?_; clear_value x; rotate_left; unfold x; rotate_right)
      | (intro x; clear_value x)
      | apply State_recFails_bytes
      | apply State_loadRec_bytes
      | apply bytes_ite1
      | apply bytes_ite
      | split
      | (refine bytes_fst_eq (by assumption) ?_))

/-- `State.loadModule`. -/
theorem State_loadModule_bytes (s : State) {s_ : State} (hks : SameMem s_ s) :
    SameMem s_ (State.loadModule s) := by
  unfold State.loadModule
  with_reducible
    repeat' (first
      | assumption
      | lift_lets
      | (intro x; refine (fun (hx : SameMem s_ x) => ?_) ?_; clear_value x; rotate_left; unfold x; rotate_right)
      | (intro x; refine (fun (hx : SameMem s_ x.1) => ?_) ?_; clear_value x; rotate_left; unfold x; rotate_right)
      | (intro x; clear_value x)
      | apply State_setFld_bytes
      | apply State_updMod_bytes
      | apply State_loadOne_bytes
      | apply bytes_ite
      | (apply bytes_mk; assumption)
      | (intro _)
      | split
      | (refine bytes_fst_eq (by assumption) ?_))

/-- `State.stageTimeout`. -/
theorem State_stageTimeout_bytes (s : State) {s_ : State} (hks : SameMem s_ s) :
    SameMem s_ (State.stageTimeout s) := by
  unfold State.stageTimeout
  with_reducible
    repeat' (first
      | assumption
      | apply State_secRaise_bytes
      | apply State_setStage_bytes
      | apply bytes_ite)

/-- `execBootStageTimeout`. -/
theorem execBootStageTimeout_bytes (s : State) {s_ : State} (hks : SameMem s_ s) :
    SameMemO s_ (execBootStageTimeout s) := by
  unfold execBootStageTimeout
  with_reducible
    repeat' (first
      | assumption
      | apply State_stageTimeout_bytes
      | apply bytesO_next)

/-- `State.needRec`. -/
theorem State_needRec_bytes (s : State) (d t : Nat) (x : Option FlashRec × Option Nat) {s_ : State} (hks : SameMem s_ s) :
    SameMem s_ (State.needRec s d t x).1 := by
  unfold State.needRec
  with_reducible
    repeat' (first
      | assumption
      | apply State_recFails_bytes
      | apply State_loadRec_bytes
      | split
      | (refine bytes_fst_eq (by assumption) ?_))

/-- `State.badCluster`. -/
theorem State_badCluster_bytes (s : State) (d p : Nat) {s_ : State} (hks : SameMem s_ s) :
    SameMem s_ (State.badCluster s d p) := by
  unfold State.badCluster
  with_reducible
    repeat' (first
      | assumption
      | lift_lets
      | (intro x; refine (fun (hx : SameMem s_ x) => ?_) ?_; clear_value x; rotate_left; unfold x; rotate_right)
      | (intro x; clear_value x)
      | apply State_updPh_bytes
      | apply State_raise_bytes
      | apply State_updMod_bytes
      | apply State_setRailSt_bytes
      | apply State_setLogical_bytes
      | apply State_modRaise_bytes
      | apply State_repairDue_bytes
      | apply State_noSpare_bytes
      | apply bytes_ite
      | (apply bytes_mk; assumption)
      | (intro _)
      | split
      | (refine bytes_fst_eq (by assumption) ?_))

/-- `State.loadMac`. -/
theorem State_loadMac_bytes (s : State) (d : Nat) {s_ : State} (hks : SameMem s_ s) :
    SameMem s_ (State.loadMac s d) := by
  unfold State.loadMac
  with_reducible
    repeat' (first
      | assumption
      | lift_lets
      | (intro x; refine (fun (hx : SameMem s_ x) => ?_) ?_; clear_value x; rotate_left; unfold x; rotate_right)
      | (intro x; clear_value x)
      | apply forEach_bytes
      | apply State_setReg_bytes
      | apply State_setShad_bytes
      | (intro _)
      | split
      | (refine bytes_fst_eq (by assumption) ?_))

/-- `State.dieStarts`. -/
theorem State_dieStarts_bytes (s : State) (d slot : Nat) {s_ : State} (hks : SameMem s_ s) :
    SameMem s_ (State.dieStarts s d slot) := by
  unfold State.dieStarts
  with_reducible
    repeat' (first
      | assumption
      | lift_lets
      | (intro x; refine (fun (hx : SameMem s_ x) => ?_) ?_; clear_value x; rotate_left; unfold x; rotate_right)
      | (intro x; clear_value x)
      | apply State_updDie_bytes
      | apply State_setReg_bytes
      | apply State_setShad_bytes
      | apply State_setFld_bytes
      | apply State_setStage_bytes
      | apply State_loadMac_bytes
      | apply bytes_ite
      | (apply bytes_mk; assumption)
      | (intro _))

/-- `State.loadVf`. -/
theorem State_loadVf_bytes (s : State) (d : Nat) {s_ : State} (hks : SameMem s_ s) :
    SameMem s_ (State.loadVf s d) := by
  unfold State.loadVf
  with_reducible
    repeat' (first
      | assumption
      | apply forEach_bytes
      | apply State_recFails_bytes
      | apply State_loadRec_bytes
      | apply State_vfLoad_bytes
      | apply State_vfMissing_bytes
      | (intro _)
      | split
      | (refine bytes_fst_eq (by assumption) ?_))

/-- `State.dieRelease`. -/
theorem State_dieRelease_bytes (s : State) (d : Nat) (clk : Bool) (bad : List Nat) (dieBad : Bool) {s_ : State} (hks : SameMem s_ s) :
    SameMem s_ (State.dieRelease s d clk bad dieBad) := by
  unfold State.dieRelease
  with_reducible
    repeat' (first
      | assumption
      | lift_lets
      | (intro x; refine (fun (hx : SameMem s_ x) => ?_) ?_; clear_value x; rotate_left; unfold x; rotate_right)
      | (intro x; refine (fun (hx : SameMem s_ x.1) => ?_) ?_; clear_value x; rotate_left; unfold x; rotate_right)
      | (intro x; clear_value x)
      | apply forEach_bytes
      | apply State_raise_bytes
      | apply State_updMod_bytes
      | apply State_secRaise_bytes
      | apply State_recFails_bytes
      | apply State_loadRepair_bytes
      | apply State_loadFirmware_bytes
      | apply State_needRec_bytes
      | apply State_badCluster_bytes
      | apply State_dieStarts_bytes
      | apply State_loadVf_bytes
      | apply bytes_ite
      | (apply bytes_mk; assumption)
      | (intro _)
      | split
      | (refine bytes_fst_eq (by assumption) ?_))

/-- `execDieRelease`. -/
theorem execDieRelease_bytes (d : Nat) (clk : Bool) (bad : List Nat) (dieBad : Bool) (s : State) {s_ : State} (hks : SameMem s_ s) :
    SameMemO s_ (execDieRelease d clk bad dieBad s) := by
  unfold execDieRelease
  with_reducible
    repeat' (first
      | assumption
      | apply State_dieRelease_bytes
      | apply bytesO_next)

/-- `State.moduleReady`. -/
theorem State_moduleReady_bytes (s : State) {s_ : State} (hks : SameMem s_ s) :
    SameMem s_ (State.moduleReady s) := by
  unfold State.moduleReady
  with_reducible
    repeat' (first
      | assumption
      | lift_lets
      | (intro x; refine (fun (hx : SameMem s_ x) => ?_) ?_; clear_value x; rotate_left; unfold x; rotate_right)
      | (intro x; clear_value x)
      | apply forEach_bytes
      | apply State_setFld_bytes
      | apply State_updMod_bytes
      | apply State_setStage_bytes
      | apply bytes_ite
      | (apply bytes_mk; assumption)
      | (intro _))

/-- `execModuleReady`. -/
theorem execModuleReady_bytes (s : State) {s_ : State} (hks : SameMem s_ s) :
    SameMemO s_ (execModuleReady s) := by
  unfold execModuleReady
  with_reducible
    repeat' (first
      | assumption
      | apply State_moduleReady_bytes
      | apply bytesO_next)

/-- `State.secStart`. -/
theorem State_secStart_bytes (s : State) (op : Nat) {s_ : State} (hks : SameMem s_ s) :
    SameMem s_ (State.secStart s op) := by
  unfold State.secStart
  with_reducible
    repeat' (first
      | assumption
      | apply State_setFld_bytes
      | apply State_updMod_bytes
      | (apply bytes_mk; assumption)
      | (intro _))

/-- `State.secCmd`. -/
theorem State_secCmd_bytes (s : State) (op : Nat) {s_ : State} (hks : SameMem s_ s) :
    SameMem s_ (State.secCmd s op).1 := by
  unfold State.secCmd
  with_reducible
    repeat' (first
      | assumption
      | apply State_configBusy_bytes
      | apply State_updMod_bytes
      | apply State_secStart_bytes
      | apply bytes_ite1
      | apply bytes_ite
      | (apply bytes_mk; assumption)
      | (intro _))

/-- `State.secCode`. -/
theorem State_secCode_bytes (s : State) (op code len : Nat) {s_ : State} (hks : SameMem s_ s) :
    SameMem s_ (State.secCode s op code len) := by
  unfold State.secCode
  with_reducible
    repeat' (first
      | assumption
      | apply State_updMod_bytes
      | (apply bytes_mk; assumption)
      | (intro _))

/-- `State.secRun`. -/
theorem State_secRun_bytes (s : State) (op : Nat) (f : State → State) {s_ : State} (hks : SameMem s_ s) (hff : ∀ z0, SameMem s_ z0 → SameMem s_ (f
    z0)) :
    SameMem s_ (State.secRun s op f) := by
  unfold State.secRun
  with_reducible
    repeat' (first
      | assumption
      | apply State_configBusy_bytes
      | apply State_secStart_bytes
      | apply hff
      | apply bytes_ite)

/-- `State.secRefuse`. -/
theorem State_secRefuse_bytes (s : State) (op code typ : Nat) {s_ : State} (hks : SameMem s_ s) :
    SameMem s_ (State.secRefuse s op code typ) := by
  unfold State.secRefuse
  with_reducible
    repeat' (first
      | assumption
      | apply State_secRaise_bytes
      | apply State_secCode_bytes
      | apply bytes_ite)

/-- `State.doUpdate`. -/
theorem State_doUpdate_bytes (s : State) (rec : Option FlashRec) (wr : Bool) {s_ : State} (hks : SameMem s_ s) :
    SameMem s_ (State.doUpdate s rec wr) := by
  unfold State.doUpdate
  with_reducible
    repeat' (first
      | assumption
      | lift_lets
      | (intro x; refine (fun (hx : SameMem s_ x) => ?_) ?_; clear_value x; rotate_left; unfold x; rotate_right)
      | (intro x; clear_value x)
      | apply State_updMod_bytes
      | apply State_secCode_bytes
      | apply State_secRefuse_bytes
      | apply bytes_ite
      | (apply bytes_mk; assumption)
      | (intro _)
      | split
      | (refine bytes_fst_eq (by assumption) ?_))

/-- `execUpdate`. -/
theorem execUpdate_bytes (rec : Option FlashRec) (wr : Bool) (s : State) {s_ : State} (hks : SameMem s_ s) :
    SameMemO s_ (execUpdate rec wr s) := by
  unfold execUpdate
  with_reducible
    repeat' (first
      | assumption
      | apply State_secRun_bytes
      | apply State_doUpdate_bytes
      | apply bytesO_next
      | (intro _))

/-- `State.doCommit`. -/
theorem State_doCommit_bytes (s : State) (wr : Bool) {s_ : State} (hks : SameMem s_ s) :
    SameMem s_ (State.doCommit s wr) := by
  unfold State.doCommit
  with_reducible
    repeat' (first
      | assumption
      | lift_lets
      | (intro x; refine (fun (hx : SameMem s_ x) => ?_) ?_; clear_value x; rotate_left; unfold x; rotate_right)
      | (intro x; clear_value x)
      | apply State_updMod_bytes
      | apply State_secRaise_bytes
      | apply State_secCode_bytes
      | apply foldl_bytes
      | apply foldl_bytes1
      | apply bytes_ite
      | (apply bytes_mk; assumption)
      | (intro _))

/-- `execCommit`. -/
theorem execCommit_bytes (wr : Bool) (s : State) {s_ : State} (hks : SameMem s_ s) :
    SameMemO s_ (execCommit wr s) := by
  unfold execCommit
  with_reducible
    repeat' (first
      | assumption
      | apply State_secRun_bytes
      | apply State_doCommit_bytes
      | apply bytesO_next
      | (intro _))

/-- `State.putHost`. -/
theorem State_putHost_bytes (s : State) (a : Nat) (bs : List Byte) {s_ : State} (hks : SameMem s_ s) :
    SameMem s_ (State.putHost s a bs) := by
  unfold State.putHost
  with_reducible
    repeat' (first
      | assumption
      | lift_lets
      | (intro x; refine (fun (hx : SameMem s_ x) => ?_) ?_; clear_value x; rotate_left; unfold x; rotate_right)
      | (intro x; refine (fun (hx : SameMem s_ x.1) => ?_) ?_; clear_value x; rotate_left; unfold x; rotate_right)
      | (intro x; clear_value x)
      | apply forEach_bytes
      | apply State_hostWrite_bytes
      | apply State_hostMerge_bytes
      | apply bytes_ite
      | (intro _))

/-- `State.doAttest`. -/
theorem State_doAttest_bytes (s : State) (nonce : Option (List Byte)) (sig : List Byte) (wr : Bool) {s_ : State} (hks : SameMem s_ s) :
    SameMem s_ (State.doAttest s nonce sig wr) := by
  unfold State.doAttest
  with_reducible
    repeat' (first
      | assumption
      | lift_lets
      | (intro x; refine (fun (hx : SameMem s_ x) => ?_) ?_; clear_value x; rotate_left; unfold x; rotate_right)
      | (intro x; clear_value x)
      | apply State_secCode_bytes
      | apply State_putHost_bytes
      | apply bytes_ite
      | split
      | (refine bytes_fst_eq (by assumption) ?_))

/-- `execAttest`. -/
theorem execAttest_bytes (nonce : Option (List Byte)) (sig : List Byte) (wr : Bool) (s : State) {s_ : State} (hks : SameMem s_ s) :
    SameMemO s_ (execAttest nonce sig wr s) := by
  unfold execAttest
  with_reducible
    repeat' (first
      | assumption
      | apply State_secRun_bytes
      | apply State_doAttest_bytes
      | apply bytesO_next
      | (intro _))

/-- `State.ownerPut`. -/
theorem State_ownerPut_bytes (s : State) (r : FlashRec) {s_ : State} (hks : SameMem s_ s) :
    SameMem s_ (State.ownerPut s r) := by
  unfold State.ownerPut
  with_reducible
    repeat' (first
      | assumption
      | lift_lets
      | (intro x; refine (fun (hx : SameMem s_ x) => ?_) ?_; clear_value x; rotate_left; unfold x; rotate_right)
      | (intro x; clear_value x)
      | apply State_setFld_bytes
      | apply State_updMod_bytes
      | apply bytes_ite
      | (apply bytes_mk; assumption)
      | (intro _))

/-- `State.doOwner`. -/
theorem State_doOwner_bytes (s : State) (rec : Option FlashRec) (wr : Bool) {s_ : State} (hks : SameMem s_ s) :
    SameMem s_ (State.doOwner s rec wr) := by
  unfold State.doOwner
  with_reducible
    repeat' (first
      | assumption
      | apply State_secCode_bytes
      | apply State_secRefuse_bytes
      | apply State_ownerPut_bytes
      | apply bytes_ite
      | split
      | (refine bytes_fst_eq (by assumption) ?_))

/-- `execOwnerInstall`. -/
theorem execOwnerInstall_bytes (rec : Option FlashRec) (wr : Bool) (s : State) {s_ : State} (hks : SameMem s_ s) :
    SameMemO s_ (execOwnerInstall rec wr s) := by
  unfold execOwnerInstall
  with_reducible
    repeat' (first
      | assumption
      | apply State_secRun_bytes
      | apply State_doOwner_bytes
      | apply bytesO_next
      | (intro _))

/-- `State.secEnd`. -/
theorem State_secEnd_bytes (s : State) {s_ : State} (hks : SameMem s_ s) :
    SameMem s_ (State.secEnd s) := by
  unfold State.secEnd
  with_reducible
    repeat' (first
      | assumption
      | lift_lets
      | (intro x; refine (fun (hx : SameMem s_ x) => ?_) ?_; clear_value x; rotate_left; unfold x; rotate_right)
      | (intro x; clear_value x)
      | apply State_setRg_bytes
      | apply State_setFld_bytes
      | apply State_setStat_bytes
      | apply State_updMod_bytes
      | apply bytes_ite
      | (apply bytes_mk; assumption)
      | (intro _)
      | split
      | (refine bytes_fst_eq (by assumption) ?_))

/-- `execSecCommandEnd`. -/
theorem execSecCommandEnd_bytes (s : State) {s_ : State} (hks : SameMem s_ s) :
    SameMemO s_ (execSecCommandEnd s) := by
  unfold execSecCommandEnd
  with_reducible
    repeat' (first
      | assumption
      | apply State_secEnd_bytes
      | apply bytesO_next)

/-- `State.stopContexts`. -/
theorem State_stopContexts_bytes (s : State) {s_ : State} (hks : SameMem s_ s) :
    SameMem s_ (State.stopContexts s) := by
  unfold State.stopContexts
  with_reducible
    repeat' (first
      | assumption
      | (intro x; refine (fun (hx : SameMem s_ x) => ?_) ?_; clear_value x; rotate_left; unfold x; rotate_right)
      | (intro x; refine (fun (hx : SameMem s_ x.1) => ?_) ?_; clear_value x; rotate_left; unfold x; rotate_right)
      | (intro x; refine (fun (hx : ∀ y, SameMem s_ (x y)) => ?_) ?_; clear_value x; rotate_left; unfold x; rotate_right)
      | (intro x; clear_value x)
      | split
      | apply forEach_bytes
      | apply State_updCtx_bytes
      | apply bytes_ite
      | apply bytes_ite1
      | (apply bytes_mk; first | assumption | apply forEach_bytes | apply State_updCtx_bytes)
      | (intro _)
      | lift_lets
      | (refine bytes_fst_eq (by assumption) ?_))

/-- `State.codeFor`. -/
theorem State_codeFor_bytes (s : State) (d p n : Nat) {s_ : State} (hks : SameMem s_ s) :
    SameMem s_ (State.codeFor s d p n) := by
  unfold State.codeFor
  with_reducible
    repeat' (first
      | assumption
      | apply State_setFld_bytes)

/-- `State.freqStart`. -/
theorem State_freqStart_bytes (s : State) (d p n : Nat) {s_ : State} (hks : SameMem s_ s) :
    SameMem s_ (State.freqStart s d p n) := by
  unfold State.freqStart
  with_reducible
    repeat' (first
      | assumption
      | lift_lets
      | (intro x; refine (fun (hx : SameMem s_ x) => ?_) ?_; clear_value x; rotate_left; unfold x; rotate_right)
      | (intro x; clear_value x)
      | apply State_updPh_bytes
      | apply State_setFld_bytes
      | apply State_codeFor_bytes
      | apply bytes_ite
      | (apply bytes_mk; assumption)
      | (intro _))

/-- `State.deferUp`. -/
theorem State_deferUp_bytes (s : State) (d p n : Nat) {s_ : State} (hks : SameMem s_ s) :
    SameMem s_ (State.deferUp s d p n) := by
  unfold State.deferUp
  with_reducible
    repeat' (first
      | assumption
      | apply State_updPh_bytes
      | apply State_addRg_bytes
      | (apply bytes_mk; assumption)
      | (intro _))

/-- `State.freqRequest`. -/
theorem State_freqRequest_bytes (s : State) (d p n : Nat) {s_ : State} (hks : SameMem s_ s) :
    SameMem s_ (State.freqRequest s d p n) := by
  unfold State.freqRequest
  with_reducible
    repeat' (first
      | assumption
      | lift_lets
      | (intro x; refine (fun (hx : SameMem s_ x) => ?_) ?_; clear_value x; rotate_left; unfold x; rotate_right)
      | (intro x; clear_value x)
      | apply State_updPh_bytes
      | apply State_freqStart_bytes
      | apply State_deferUp_bytes
      | apply bytes_ite
      | (apply bytes_mk; assumption)
      | (intro _))

/-- `execFreqChangeRequest`. -/
theorem execFreqChangeRequest_bytes (d p n : Nat) (s : State) {s_ : State} (hks : SameMem s_ s) :
    SameMemO s_ (execFreqChangeRequest d p n s) := by
  unfold execFreqChangeRequest
  with_reducible
    repeat' (first
      | assumption
      | apply State_freqRequest_bytes
      | apply bytesO_next)

/-- `State.freqRestart`. -/
theorem State_freqRestart_bytes (s : State) (d p : Nat) {s_ : State} (hks : SameMem s_ s) :
    SameMem s_ (State.freqRestart s d p) := by
  unfold State.freqRestart
  with_reducible
    repeat' (first
      | assumption
      | lift_lets
      | (intro x; refine (fun (hx : SameMem s_ x) => ?_) ?_; clear_value x; rotate_left; unfold x; rotate_right)
      | (intro x; clear_value x)
      | apply State_updPh_bytes
      | apply State_setFld_bytes
      | apply State_addRg_bytes
      | apply State_codeFor_bytes
      | apply State_freqRequest_bytes
      | apply bytes_ite
      | (apply bytes_mk; assumption)
      | (intro _)
      | split
      | (refine bytes_fst_eq (by assumption) ?_))

/-- `execFreqChangeRestart`. -/
theorem execFreqChangeRestart_bytes (d p : Nat) (s : State) {s_ : State} (hks : SameMem s_ s) :
    SameMemO s_ (execFreqChangeRestart d p s) := by
  unfold execFreqChangeRestart
  with_reducible
    repeat' (first
      | assumption
      | apply State_freqRestart_bytes
      | apply bytesO_next)

/-- `State.deferredUp`. -/
theorem State_deferredUp_bytes (s : State) (d p : Nat) {s_ : State} (hks : SameMem s_ s) :
    SameMem s_ (State.deferredUp s d p) := by
  unfold State.deferredUp
  with_reducible
    repeat' (first
      | assumption
      | apply State_updPh_bytes
      | apply State_deferUp_bytes
      | apply State_freqRequest_bytes
      | apply bytes_ite
      | (apply bytes_mk; assumption)
      | (intro _)
      | split
      | (refine bytes_fst_eq (by assumption) ?_))

/-- `execDeferredIncrease`. -/
theorem execDeferredIncrease_bytes (d p : Nat) (s : State) {s_ : State} (hks : SameMem s_ s) :
    SameMemO s_ (execDeferredIncrease d p s) := by
  unfold execDeferredIncrease
  with_reducible
    repeat' (first
      | assumption
      | apply State_deferredUp_bytes
      | apply bytesO_next)

/-- `State.fmaxFall`. -/
theorem State_fmaxFall_bytes (s : State) (d p n : Nat) {s_ : State} (hks : SameMem s_ s) :
    SameMem s_ (State.fmaxFall s d p n) := by
  unfold State.fmaxFall
  with_reducible
    repeat' (first
      | assumption
      | lift_lets
      | (intro x; refine (fun (hx : SameMem s_ x) => ?_) ?_; clear_value x; rotate_left; unfold x; rotate_right)
      | (intro x; clear_value x)
      | apply State_setFld_bytes
      | apply State_physTrigger_bytes
      | apply bytes_ite)

/-- `State.marginSeen`. -/
theorem State_marginSeen_bytes (s : State) (d p m : Nat) {s_ : State} (hks : SameMem s_ s) :
    SameMem s_ (State.marginSeen s d p m) := by
  unfold State.marginSeen
  with_reducible
    repeat' (first
      | assumption
      | lift_lets
      | (intro x; refine (fun (hx : SameMem s_ x) => ?_) ?_; clear_value x; rotate_left; unfold x; rotate_right)
      | (intro x; clear_value x)
      | apply State_setFld_bytes
      | apply State_raise_bytes
      | apply State_freqRequest_bytes
      | apply State_fmaxFall_bytes
      | apply bytes_ite)

/-- `execMarginWarn`. -/
theorem execMarginWarn_bytes (d p m : Nat) (s : State) {s_ : State} (hks : SameMem s_ s) :
    SameMemO s_ (execMarginWarn d p m s) := by
  unfold execMarginWarn
  with_reducible
    repeat' (first
      | assumption
      | apply State_marginSeen_bytes
      | apply bytesO_ite
      | apply bytesO_next
      | apply bytes_ite)

/-- `State.oscFallback`. -/
theorem State_oscFallback_bytes (s : State) (d p : Nat) {s_ : State} (hks : SameMem s_ s) :
    SameMem s_ (State.oscFallback s d p) := by
  unfold State.oscFallback
  with_reducible
    repeat' (first
      | assumption
      | lift_lets
      | (intro x; refine (fun (hx : SameMem s_ x) => ?_) ?_; clear_value x; rotate_left; unfold x; rotate_right)
      | (intro x; clear_value x)
      | apply State_updPh_bytes
      | apply State_setFld_bytes
      | apply State_raise_bytes
      | apply State_codeFor_bytes
      | (apply bytes_mk; assumption)
      | (intro _))

/-- `execOscFallback`. -/
theorem execOscFallback_bytes (d p : Nat) (s : State) {s_ : State} (hks : SameMem s_ s) :
    SameMemO s_ (execOscFallback d p s) := by
  unfold execOscFallback
  with_reducible
    repeat' (first
      | assumption
      | apply State_oscFallback_bytes
      | apply bytesO_ite
      | apply bytesO_next
      | apply bytes_ite)

/-- `State.pllUnlock`. -/
theorem State_pllUnlock_bytes (s : State) (d : Nat) {s_ : State} (hks : SameMem s_ s) :
    SameMem s_ (State.pllUnlock s d) := by
  unfold State.pllUnlock
  with_reducible
    repeat' (first
      | assumption
      | apply State_setFld_bytes
      | apply State_raise_bytes
      | apply bytes_ite)

/-- `execPllUnlock`. -/
theorem execPllUnlock_bytes (d : Nat) (s : State) {s_ : State} (hks : SameMem s_ s) :
    SameMemO s_ (execPllUnlock d s) := by
  unfold execPllUnlock
  with_reducible
    repeat' (first
      | assumption
      | apply State_pllUnlock_bytes
      | apply bytesO_next)

/-- `State.refLost`. -/
theorem State_refLost_bytes (s : State) {s_ : State} (hks : SameMem s_ s) :
    SameMem s_ (State.refLost s) := by
  unfold State.refLost
  with_reducible
    repeat' (first
      | assumption
      | apply forEach_bytes
      | apply State_raise_bytes
      | apply State_updMod_bytes
      | apply bytes_ite
      | (apply bytes_mk; assumption)
      | (intro _))

/-- `execRefLost`. -/
theorem execRefLost_bytes (s : State) {s_ : State} (hks : SameMem s_ s) :
    SameMemO s_ (execRefLost s) := by
  unfold execRefLost
  with_reducible
    repeat' (first
      | assumption
      | apply State_refLost_bytes
      | apply bytesO_next)

/-- `State.powerOn`. -/
theorem State_powerOn_bytes (s : State) (d p : Nat) {s_ : State} (hks : SameMem s_ s) :
    SameMem s_ (State.powerOn s d p) := by
  unfold State.powerOn
  with_reducible
    repeat' (first
      | assumption
      | apply State_updDie_bytes
      | apply bytes_ite
      | (apply bytes_mk; assumption)
      | (intro _))

/-- `State.countWake`. -/
theorem State_countWake_bytes (s : State) (d : Nat) {s_ : State} (hks : SameMem s_ s) :
    SameMem s_ (State.countWake s d) := by
  unfold State.countWake
  with_reducible
    repeat' (first
      | assumption
      | apply State_addRg_bytes)

/-- `State.startClock`. -/
theorem State_startClock_bytes (s : State) (d p : Nat) {s_ : State} (hks : SameMem s_ s) :
    SameMem s_ (State.startClock s d p) := by
  unfold State.startClock
  with_reducible
    repeat' (first
      | assumption
      | apply State_setFld_bytes)

/-- `State.crossingWake`. -/
theorem State_crossingWake_bytes (s : State) (d p : Nat) {s_ : State} (hks : SameMem s_ s) :
    SameMem s_ (State.crossingWake s d p) := by
  unfold State.crossingWake
  with_reducible
    repeat' (first
      | assumption
      | apply State_updDie_bytes
      | apply State_powerOn_bytes
      | apply State_countWake_bytes
      | apply State_startClock_bytes
      | apply bytes_ite
      | (apply bytes_mk; assumption)
      | (intro _))

/-- `execCrossingWake`. -/
theorem execCrossingWake_bytes (d p : Nat) (s : State) {s_ : State} (hks : SameMem s_ s) :
    SameMemO s_ (execCrossingWake d p s) := by
  unfold execCrossingWake
  with_reducible
    repeat' (first
      | assumption
      | apply State_crossingWake_bytes
      | apply bytesO_next)

/-- `State.heldScan`. -/
theorem State_heldScan_bytes (s : State) (d : Nat) {s_ : State} (hks : SameMem s_ s) :
    SameMem s_ (State.heldScan s d) := by
  unfold State.heldScan
  with_reducible
    repeat' (first
      | assumption
      | lift_lets
      | (intro x; refine (fun (hx : SameMem s_ x) => ?_) ?_; clear_value x; rotate_left; unfold x; rotate_right)
      | (intro x; clear_value x)
      | apply forEach_bytes
      | apply State_updDie_bytes
      | apply State_powerOn_bytes
      | apply State_countWake_bytes
      | apply State_startClock_bytes
      | apply bytes_ite
      | (apply bytes_mk; assumption)
      | (intro _))

/-- `execHeldCrossingScan`. -/
theorem execHeldCrossingScan_bytes (d : Nat) (s : State) {s_ : State} (hks : SameMem s_ s) :
    SameMemO s_ (execHeldCrossingScan d s) := by
  unfold execHeldCrossingScan
  with_reducible
    repeat' (first
      | assumption
      | apply State_heldScan_bytes
      | apply bytesO_next)

/-- `State.timeCorrect`. -/
theorem State_timeCorrect_bytes (s : State) (d : Nat) (c : Int) {s_ : State} (hks : SameMem s_ s) :
    SameMem s_ (State.timeCorrect s d c) := by
  unfold State.timeCorrect
  with_reducible
    repeat' (first
      | assumption
      | lift_lets
      | (intro x; refine (fun (hx : SameMem s_ x) => ?_) ?_; clear_value x; rotate_left; unfold x; rotate_right)
      | (intro x; clear_value x)
      | apply State_updDie_bytes
      | apply bytes_ite
      | (apply bytes_mk; assumption)
      | (intro _))

/-- `State.pkgSync`. -/
theorem State_pkgSync_bytes (s : State) (d : Nat) {s_ : State} (hks : SameMem s_ s) :
    SameMem s_ (State.pkgSync s d) := by
  unfold State.pkgSync
  with_reducible
    repeat' (first
      | assumption
      | lift_lets
      | (intro x; refine (fun (hx : SameMem s_ x) => ?_) ?_; clear_value x; rotate_left; unfold x; rotate_right)
      | (intro x; clear_value x)
      | apply State_updDie_bytes
      | apply State_setRg_bytes
      | apply State_raise_bytes
      | apply foldl_bytes
      | apply foldl_bytes1
      | apply bytes_ite
      | (apply bytes_mk; assumption)
      | (intro _))

/-- `execPkgSync`. -/
theorem execPkgSync_bytes (d : Nat) (s : State) {s_ : State} (hks : SameMem s_ s) :
    SameMemO s_ (execPkgSync d s) := by
  unfold execPkgSync
  with_reducible
    repeat' (first
      | assumption
      | apply State_pkgSync_bytes
      | apply bytesO_next)

/-- `State.timOffset`. -/
theorem State_timOffset_bytes (s : State) (d : Nat) (v : Word) {s_ : State} (hks : SameMem s_ s) :
    SameMem s_ (State.timOffset s d v).1 := by
  unfold State.timOffset
  with_reducible
    repeat' (first
      | assumption
      | apply State_configBusy_bytes
      | apply State_timeCorrect_bytes
      | apply bytes_ite1
      | apply bytes_ite)

/-- `execTimOffset`. -/
theorem execTimOffset_bytes (d : Nat) (v : Word) (s : State) {s_ : State} (hks : SameMem s_ s) :
    SameMemO s_ (execTimOffset d v s) := by
  unfold execTimOffset
  with_reducible
    repeat' (first
      | assumption
      | apply State_timOffset_bytes
      | apply bytesO_ite
      | apply bytesO_next
      | apply bytes_ite)

/-- `State.timErr`. -/
theorem State_timErr_bytes (s : State) (e : Int) {s_ : State} (hks : SameMem s_ s) :
    SameMem s_ (State.timErr s e) := by
  unfold State.timErr
  with_reducible
    repeat' (first
      | assumption
      | lift_lets
      | (intro x; refine (fun (hx : SameMem s_ x) => ?_) ?_; clear_value x; rotate_left; unfold x; rotate_right)
      | (intro x; clear_value x)
      | apply State_updDie_bytes
      | apply State_setRg_bytes
      | apply State_setFld_bytes
      | apply State_timeCorrect_bytes
      | apply bytes_ite
      | (apply bytes_mk; assumption)
      | (intro _))

/-- `State.ppsEdge`. -/
theorem State_ppsEdge_bytes (s : State) {s_ : State} (hks : SameMem s_ s) :
    SameMem s_ (State.ppsEdge s) := by
  unfold State.ppsEdge
  with_reducible
    repeat' (first
      | assumption
      | lift_lets
      | (intro x; refine (fun (hx : SameMem s_ x) => ?_) ?_; clear_value x; rotate_left; unfold x; rotate_right)
      | (intro x; clear_value x)
      | apply State_setFld_bytes
      | apply State_timErr_bytes
      | apply bytes_ite)

/-- `execPpsEdge`. -/
theorem execPpsEdge_bytes (s : State) {s_ : State} (hks : SameMem s_ s) :
    SameMemO s_ (execPpsEdge s) := by
  unfold execPpsEdge
  with_reducible
    repeat' (first
      | assumption
      | apply State_ppsEdge_bytes
      | apply bytesO_next)

/-- `State.ptpSend`. -/
theorem State_ptpSend_bytes (s : State) (skip : Option (Nat × Nat)) (ms : List Ptp) {s_ : State} (hks : SameMem s_ s) :
    SameMem s_ (State.ptpSend s skip ms) := by
  unfold State.ptpSend
  with_reducible
    repeat' (first
      | assumption
      | apply forEach_bytes
      | apply State_emit_bytes
      | (intro _))

/-- `State.syncInterval`. -/
theorem State_syncInterval_bytes (s : State) {s_ : State} (hks : SameMem s_ s) :
    SameMem s_ (State.syncInterval s) := by
  unfold State.syncInterval
  with_reducible
    repeat' (first
      | assumption
      | lift_lets
      | (intro x; refine (fun (hx : SameMem s_ x) => ?_) ?_; clear_value x; rotate_left; unfold x; rotate_right)
      | (intro x; refine (fun (hx : SameMem s_ x.1) => ?_) ?_; clear_value x; rotate_left; unfold x; rotate_right)
      | (intro x; clear_value x)
      | apply State_updDie_bytes
      | apply State_setRg_bytes
      | apply State_setFld_bytes
      | apply State_ptpSend_bytes
      | apply bytes_ite
      | (apply bytes_mk; assumption)
      | (intro _))

/-- `execSyncInterval`. -/
theorem execSyncInterval_bytes (s : State) {s_ : State} (hks : SameMem s_ s) :
    SameMemO s_ (execSyncInterval s) := by
  unfold execSyncInterval
  with_reducible
    repeat' (first
      | assumption
      | apply State_syncInterval_bytes
      | apply bytesO_next)

/-- `State.followUp`. -/
theorem State_followUp_bytes (s : State) (d p origin : Nat) {s_ : State} (hks : SameMem s_ s) :
    SameMem s_ (State.followUp s d p origin) := by
  unfold State.followUp
  with_reducible
    repeat' (first
      | assumption
      | lift_lets
      | (intro x; refine (fun (hx : SameMem s_ x) => ?_) ?_; clear_value x; rotate_left; unfold x; rotate_right)
      | (intro x; refine (fun (hx : SameMem s_ x.1) => ?_) ?_; clear_value x; rotate_left; unfold x; rotate_right)
      | (intro x; clear_value x)
      | apply State_updDie_bytes
      | apply State_timErr_bytes
      | apply State_ptpSend_bytes
      | apply bytes_ite
      | (apply bytes_mk; assumption)
      | (intro _)
      | split
      | (refine bytes_fst_eq (by assumption) ?_))

/-- `State.ptpMessage`. -/
theorem State_ptpMessage_bytes (s : State) (d p : Nat) (m : Ptp) {s_ : State} (hks : SameMem s_ s) :
    SameMem s_ (State.ptpMessage s d p m) := by
  unfold State.ptpMessage
  with_reducible
    repeat' (first
      | assumption
      | lift_lets
      | (intro x; refine (fun (hx : SameMem s_ x) => ?_) ?_; clear_value x; rotate_left; unfold x; rotate_right)
      | (intro x; refine (fun (hx : SameMem s_ x.1) => ?_) ?_; clear_value x; rotate_left; unfold x; rotate_right)
      | (intro x; clear_value x)
      | apply State_updDie_bytes
      | apply State_emit_bytes
      | apply State_updMod_bytes
      | apply State_ptpSend_bytes
      | apply State_followUp_bytes
      | apply bytes_ite
      | (apply bytes_mk; assumption)
      | (intro _)
      | split
      | (refine bytes_fst_eq (by assumption) ?_))

/-- `execPtpMessage`. -/
theorem execPtpMessage_bytes (d p : Nat) (msg : Ptp) (s : State) {s_ : State} (hks : SameMem s_ s) :
    SameMemO s_ (execPtpMessage d p msg s) := by
  unfold execPtpMessage
  with_reducible
    repeat' (first
      | assumption
      | apply State_ptpMessage_bytes
      | apply bytesO_next)

/-- `State.syncLost`. -/
theorem State_syncLost_bytes (s : State) {s_ : State} (hks : SameMem s_ s) :
    SameMem s_ (State.syncLost s) := by
  unfold State.syncLost
  with_reducible
    repeat' (first
      | assumption
      | apply State_updDie_bytes
      | apply State_raise_bytes
      | apply bytes_ite
      | (apply bytes_mk; assumption)
      | (intro _))

/-- `execSyncLost`. -/
theorem execSyncLost_bytes (s : State) {s_ : State} (hks : SameMem s_ s) :
    SameMemO s_ (execSyncLost s) := by
  unfold execSyncLost
  with_reducible
    repeat' (first
      | assumption
      | apply State_syncLost_bytes
      | apply bytesO_next)

/-- `State.vinStop`. -/
theorem State_vinStop_bytes (s : State) (v : Nat) {s_ : State} (hks : SameMem s_ s) :
    SameMem s_ (State.vinStop s v) := by
  unfold State.vinStop
  with_reducible
    repeat' (first
      | assumption
      | apply State_setFld_bytes
      | apply State_updMod_bytes
      | apply State_modRaise_bytes
      | apply bytes_ite
      | (apply bytes_mk; assumption)
      | (intro _))

/-- `execVinStop`. -/
theorem execVinStop_bytes (v : Nat) (s : State) {s_ : State} (hks : SameMem s_ s) :
    SameMemO s_ (execVinStop v s) := by
  unfold execVinStop
  with_reducible
    repeat' (first
      | assumption
      | apply State_vinStop_bytes
      | apply bytesO_next)

/-- `State.railFault`. -/
theorem State_railFault_bytes (s : State) (d rail : Nat) {s_ : State} (hks : SameMem s_ s) :
    SameMem s_ (State.railFault s d rail) := by
  unfold State.railFault
  with_reducible
    repeat' (first
      | assumption
      | apply State_raise_bytes
      | apply bytes_ite)

/-- `execRailFault`. -/
theorem execRailFault_bytes (d rail : Nat) (s : State) {s_ : State} (hks : SameMem s_ s) :
    SameMemO s_ (execRailFault d rail s) := by
  unfold execRailFault
  with_reducible
    repeat' (first
      | assumption
      | apply State_railFault_bytes
      | apply bytesO_next)

/-- `State.retain`. -/
theorem State_retain_bytes (s : State) (d p : Nat) {s_ : State} (hks : SameMem s_ s) :
    SameMem s_ (State.retain s d p) := by
  unfold State.retain
  with_reducible
    repeat' (first
      | assumption
      | lift_lets
      | (intro x; refine (fun (hx : SameMem s_ x) => ?_) ?_; clear_value x; rotate_left; unfold x; rotate_right)
      | (intro x; clear_value x)
      | apply State_setFld_bytes
      | apply State_addRg_bytes
      | apply State_setRailSt_bytes
      | apply bytes_ite)

/-- `execRetentionEnter`. -/
theorem execRetentionEnter_bytes (d p : Nat) (s : State) {s_ : State} (hks : SameMem s_ s) :
    SameMemO s_ (execRetentionEnter d p s) := by
  unfold execRetentionEnter
  with_reducible
    repeat' (first
      | assumption
      | apply State_retain_bytes
      | apply bytesO_next)

/-- `execPowerOnRequest`. -/
theorem execPowerOnRequest_bytes (d p : Nat) (s : State) {s_ : State} (hks : SameMem s_ s) :
    SameMemO s_ (execPowerOnRequest d p s) := by
  unfold execPowerOnRequest
  with_reducible
    repeat' (first
      | assumption
      | apply State_powerOn_bytes
      | apply bytesO_next)

/-- `State.rampStart`. -/
theorem State_rampStart_bytes (s : State) (d p : Nat) (slow : Bool) {s_ : State} (hks : SameMem s_ s) :
    SameMem s_ (State.rampStart s d p slow) := by
  unfold State.rampStart
  with_reducible
    repeat' (first
      | assumption
      | lift_lets
      | (intro x; refine (fun (hx : SameMem s_ x) => ?_) ?_; clear_value x; rotate_left; unfold x; rotate_right)
      | (intro x; refine (fun (hx : SameMem s_ x.1) => ?_) ?_; clear_value x; rotate_left; unfold x; rotate_right)
      | (intro x; clear_value x)
      | apply State_updDie_bytes
      | apply State_updPh_bytes
      | apply State_setStat_bytes
      | apply State_setRailSt_bytes
      | apply bytes_ite
      | (apply bytes_mk; assumption)
      | (intro _))

/-- `State.admission`. -/
theorem State_admission_bytes (s : State) (d quad amps : Nat) {s_ : State} (hks : SameMem s_ s) :
    SameMem s_ (State.admission s d quad amps) := by
  unfold State.admission
  with_reducible
    repeat' (first
      | assumption
      | lift_lets
      | (intro x; refine (fun (hx : SameMem s_ x) => ?_) ?_; clear_value x; rotate_left; unfold x; rotate_right)
      | (intro x; refine (fun (hx : SameMem s_ x.1) => ?_) ?_; clear_value x; rotate_left; unfold x; rotate_right)
      | (intro x; clear_value x)
      | apply State_updDie_bytes
      | apply State_addRg_bytes
      | apply State_rampStart_bytes
      | apply bytes_ite
      | (apply bytes_mk; assumption)
      | (intro _)
      | split
      | (refine bytes_fst_eq (by assumption) ?_))

/-- `execAdmissionEval`. -/
theorem execAdmissionEval_bytes (d quad amps : Nat) (s : State) {s_ : State} (hks : SameMem s_ s) :
    SameMemO s_ (execAdmissionEval d quad amps s) := by
  unfold execAdmissionEval
  with_reducible
    repeat' (first
      | assumption
      | apply State_admission_bytes
      | apply bytesO_next)

/-- `State.lowWaterRec`. -/
theorem State_lowWaterRec_bytes (s : State) (d rail mv tm : Nat) {s_ : State} (hks : SameMem s_ s) :
    SameMem s_ (State.lowWaterRec s d rail mv tm) := by
  unfold State.lowWaterRec
  with_reducible
    repeat' (first
      | assumption
      | lift_lets
      | (intro x; refine (fun (hx : SameMem s_ x) => ?_) ?_; clear_value x; rotate_left; unfold x; rotate_right)
      | (intro x; clear_value x)
      | apply State_updDie_bytes
      | apply State_updCel_bytes
      | apply bytes_ite
      | (apply bytes_mk; assumption)
      | (intro _))

/-- `execLowWaterRecord`. -/
theorem execLowWaterRecord_bytes (d rail mv tm : Nat) (s : State) {s_ : State} (hks : SameMem s_ s) :
    SameMemO s_ (execLowWaterRecord d rail mv tm s) := by
  unfold execLowWaterRecord
  with_reducible
    repeat' (first
      | assumption
      | apply State_lowWaterRec_bytes
      | apply bytesO_next)

/-- `State.lpPlace`. -/
theorem State_lpPlace_bytes (s : State) (a : Nat) (o : Option RegLoc) {s_ : State} (hks : SameMem s_ s) :
    SameMem s_ (State.lpPlace s a o) := by
  unfold State.lpPlace
  with_reducible
    repeat' (first
      | assumption
      | apply State_setReg_bytes
      | split
      | (refine bytes_fst_eq (by assumption) ?_))

/-- `State.lpReg`. -/
theorem State_lpReg_bytes (s : State) (a : Nat) {s_ : State} (hks : SameMem s_ s) :
    SameMem s_ (State.lpReg s a) := by
  unfold State.lpReg
  with_reducible
    repeat' (first
      | assumption
      | apply State_lpPlace_bytes)

/-- `State.dieExitLp`. -/
theorem State_dieExitLp_bytes (s : State) (d : Nat) {s_ : State} (hks : SameMem s_ s) :
    SameMem s_ (State.dieExitLp s d) := by
  unfold State.dieExitLp
  with_reducible
    repeat' (first
      | assumption
      | lift_lets
      | (intro x; refine (fun (hx : SameMem s_ x) => ?_) ?_; clear_value x; rotate_left; unfold x; rotate_right)
      | (intro x; clear_value x)
      | apply forEach_bytes
      | apply State_setRailSt_bytes
      | apply State_celWake_bytes
      | apply State_hbmWake_bytes
      | apply State_codeFor_bytes
      | apply State_startClock_bytes
      | (intro _))

/-- `State.exitLp`. -/
theorem State_exitLp_bytes (s : State) {s_ : State} (hks : SameMem s_ s) :
    SameMem s_ (State.exitLp s).1 := by
  unfold State.exitLp
  with_reducible
    repeat' (first
      | assumption
      | lift_lets
      | (intro x; refine (fun (hx : SameMem s_ x) => ?_) ?_; clear_value x; rotate_left; unfold x; rotate_right)
      | (intro x; clear_value x)
      | apply forEach_bytes
      | apply State_setFld_bytes
      | apply State_updMod_bytes
      | apply State_dieExitLp_bytes
      | apply bytes_ite1
      | apply bytes_ite
      | (apply bytes_mk; assumption)
      | (intro _))

/-- `execExitLp`. -/
theorem execExitLp_bytes (s : State) {s_ : State} (hks : SameMem s_ s) :
    SameMemO s_ (execExitLp s) := by
  unfold execExitLp
  with_reducible
    repeat' (first
      | assumption
      | apply State_exitLp_bytes
      | apply bytesO_next)

/-- `State.ceilFall`. -/
theorem State_ceilFall_bytes (s : State) (d p n why : Nat) {s_ : State} (hks : SameMem s_ s) :
    SameMem s_ (State.ceilFall s d p n why) := by
  unfold State.ceilFall
  with_reducible
    repeat' (first
      | assumption
      | lift_lets
      | (intro x; refine (fun (hx : SameMem s_ x) => ?_) ?_; clear_value x; rotate_left; unfold x; rotate_right)
      | (intro x; clear_value x)
      | apply State_updPh_bytes
      | apply State_addRg_bytes
      | apply State_setStat_bytes
      | apply bytes_ite
      | (apply bytes_mk; assumption)
      | (intro _))

/-- `State.limitCl`. -/
theorem State_limitCl_bytes (s : State) (d p : Nat) {s_ : State} (hks : SameMem s_ s) :
    SameMem s_ (State.limitCl s d p) := by
  unfold State.limitCl
  with_reducible
    repeat' (first
      | assumption
      | lift_lets
      | (intro x; refine (fun (hx : SameMem s_ x) => ?_) ?_; clear_value x; rotate_left; unfold x; rotate_right)
      | (intro x; clear_value x)
      | apply State_ceilFall_bytes
      | apply bytes_ite)

/-- `State.limitMany`. -/
theorem State_limitMany_bytes (s : State) (d : Nat) (ps : List Nat) (why : Nat) {s_ : State} (hks : SameMem s_ s) :
    SameMem s_ (State.limitMany s d ps why) := by
  unfold State.limitMany
  with_reducible
    repeat' (first
      | assumption
      | apply State_ceilFall_bytes
      | (intro _)
      | split
      | (refine bytes_fst_eq (by assumption) ?_))

/-- `State.limits`. -/
theorem State_limits_bytes (s : State) (d : Nat) {s_ : State} (hks : SameMem s_ s) :
    SameMem s_ (State.limits s d) := by
  unfold State.limits
  with_reducible
    repeat' (first
      | assumption
      | (intro x; refine (fun (hx : SameMem s_ x) => ?_) ?_; clear_value x; rotate_left; unfold x; rotate_right)
      | (intro x; refine (fun (hx : SameMem s_ x.1) => ?_) ?_; clear_value x; rotate_left; unfold x; rotate_right)
      | (intro x; refine (fun (hx : ∀ y, SameMem s_ (x y)) => ?_) ?_; clear_value x; rotate_left; unfold x; rotate_right)
      | (intro x; clear_value x)
      | split
      | apply forEach_bytes
      | apply State_limitCl_bytes
      | apply State_limitMany_bytes
      | apply bytes_ite
      | apply bytes_ite1
      | (apply bytes_mk; first | assumption | apply forEach_bytes | apply State_limitCl_bytes | apply State_limitMany_bytes)
      | (intro _)
      | lift_lets
      | (refine bytes_fst_eq (by assumption) ?_))

/-- `State.ceilRise`. -/
theorem State_ceilRise_bytes (s : State) (d p : Nat) {s_ : State} (hks : SameMem s_ s) :
    SameMem s_ (State.ceilRise s d p) := by
  unfold State.ceilRise
  with_reducible
    repeat' (first
      | assumption
      | lift_lets
      | (intro x; refine (fun (hx : SameMem s_ x) => ?_) ?_; clear_value x; rotate_left; unfold x; rotate_right)
      | (intro x; clear_value x)
      | apply State_updPh_bytes
      | apply bytes_ite
      | (apply bytes_mk; assumption)
      | (intro _))

/-- `State.applyTarget`. -/
theorem State_applyTarget_bytes (s : State) (d p : Nat) {s_ : State} (hks : SameMem s_ s) :
    SameMem s_ (State.applyTarget s d p) := by
  unfold State.applyTarget
  with_reducible
    repeat' (first
      | assumption
      | lift_lets
      | (intro x; refine (fun (hx : SameMem s_ x) => ?_) ?_; clear_value x; rotate_left; unfold x; rotate_right)
      | (intro x; clear_value x)
      | apply State_updPh_bytes
      | apply State_codeFor_bytes
      | apply State_freqRequest_bytes
      | apply bytes_ite
      | (apply bytes_mk; assumption)
      | (intro _))

/-- `State.capHeld`. -/
theorem State_capHeld_bytes (s : State) (d : Nat) {s_ : State} (hks : SameMem s_ s) :
    SameMem s_ (State.capHeld s d) := by
  unfold State.capHeld
  with_reducible
    repeat' (first
      | assumption
      | apply State_setStat_bytes
      | apply bytes_ite
      | (intro _))

/-- `State.tagUse`. -/
theorem State_tagUse_bytes (s : State) (d p : Nat) {s_ : State} (hks : SameMem s_ s) :
    SameMem s_ (State.tagUse s d p) := by
  unfold State.tagUse
  with_reducible
    repeat' (first
      | assumption
      | lift_lets
      | (intro x; refine (fun (hx : SameMem s_ x) => ?_) ?_; clear_value x; rotate_left; unfold x; rotate_right)
      | (intro x; refine (fun (hx : SameMem s_ x.1) => ?_) ?_; clear_value x; rotate_left; unfold x; rotate_right)
      | (intro x; clear_value x)
      | apply State_updPh_bytes
      | apply foldl_bytes
      | apply foldl_bytes1
      | apply bytes_ite
      | (apply bytes_mk; assumption)
      | (intro _))

/-- `State.droopBack`. -/
theorem State_droopBack_bytes (s : State) (d p : Nat) {s_ : State} (hks : SameMem s_ s) :
    SameMem s_ (State.droopBack s d p) := by
  unfold State.droopBack
  with_reducible
    repeat' (first
      | assumption
      | lift_lets
      | (intro x; refine (fun (hx : SameMem s_ x) => ?_) ?_; clear_value x; rotate_left; unfold x; rotate_right)
      | (intro x; clear_value x)
      | apply State_updPh_bytes
      | apply bytes_ite
      | (apply bytes_mk; assumption)
      | (intro _))

/-- `State.railEnergy`. -/
theorem State_railEnergy_bytes (s : State) (d : Nat) (sm : PowerSample) {s_ : State} (hks : SameMem s_ s) :
    SameMem s_ (State.railEnergy s d sm) := by
  unfold State.railEnergy
  with_reducible
    repeat' (first
      | assumption
      | lift_lets
      | (intro x; refine (fun (hx : SameMem s_ x) => ?_) ?_; clear_value x; rotate_left; unfold x; rotate_right)
      | (intro x; clear_value x)
      | apply State_updDie_bytes
      | apply foldl_bytes
      | apply foldl_bytes1
      | (apply bytes_mk; assumption)
      | (intro _))

/-- `State.takeSample`. -/
theorem State_takeSample_bytes (s : State) (d : Nat) (sm : PowerSample) {s_ : State} (hks : SameMem s_ s) :
    SameMem s_ (State.takeSample s d sm) := by
  unfold State.takeSample
  with_reducible
    repeat' (first
      | assumption
      | lift_lets
      | (intro x; refine (fun (hx : SameMem s_ x) => ?_) ?_; clear_value x; rotate_left; unfold x; rotate_right)
      | (intro x; clear_value x)
      | apply forEach_bytes
      | apply State_updDie_bytes
      | apply State_updPh_bytes
      | apply State_setFld_bytes
      | apply State_marginSeen_bytes
      | apply foldl_bytes
      | apply foldl_bytes1
      | (apply bytes_mk; assumption)
      | (intro _))

/-- `State.droopTrip`. -/
theorem State_droopTrip_bytes (s : State) (d p : Nat) {s_ : State} (hks : SameMem s_ s) :
    SameMem s_ (State.droopTrip s d p) := by
  unfold State.droopTrip
  with_reducible
    repeat' (first
      | assumption
      | lift_lets
      | (intro x; refine (fun (hx : SameMem s_ x) => ?_) ?_; clear_value x; rotate_left; unfold x; rotate_right)
      | (intro x; clear_value x)
      | apply State_updPh_bytes
      | apply State_addRg_bytes
      | apply bytes_ite
      | (apply bytes_mk; assumption)
      | (intro _))

/-- `execDroopTrip`. -/
theorem execDroopTrip_bytes (d p : Nat) (s : State) {s_ : State} (hks : SameMem s_ s) :
    SameMemO s_ (execDroopTrip d p s) := by
  unfold execDroopTrip
  with_reducible
    repeat' (first
      | assumption
      | apply State_droopTrip_bytes
      | apply bytesO_next)

/-- `State.stretchEnd`. -/
theorem State_stretchEnd_bytes (s : State) (d p cycles : Nat) {s_ : State} (hks : SameMem s_ s) :
    SameMem s_ (State.stretchEnd s d p cycles) := by
  unfold State.stretchEnd
  with_reducible
    repeat' (first
      | assumption
      | lift_lets
      | (intro x; refine (fun (hx : SameMem s_ x) => ?_) ?_; clear_value x; rotate_left; unfold x; rotate_right)
      | (intro x; refine (fun (hx : SameMem s_ x.1) => ?_) ?_; clear_value x; rotate_left; unfold x; rotate_right)
      | (intro x; clear_value x)
      | apply State_updPh_bytes
      | apply State_addRg_bytes
      | apply State_setStat_bytes
      | apply foldl_bytes
      | apply foldl_bytes1
      | apply bytes_ite
      | (apply bytes_mk; assumption)
      | (intro _))

/-- `execStretchHoldEnd`. -/
theorem execStretchHoldEnd_bytes (d p cycles : Nat) (s : State) {s_ : State} (hks : SameMem s_ s) :
    SameMemO s_ (execStretchHoldEnd d p cycles s) := by
  unfold execStretchHoldEnd
  with_reducible
    repeat' (first
      | assumption
      | apply State_stretchEnd_bytes
      | apply bytesO_next)

/-- `State.llExpiry`. -/
theorem State_llExpiry_bytes (s : State) (d p e : Nat) {s_ : State} (hks : SameMem s_ s) :
    SameMem s_ (State.llExpiry s d p e) := by
  unfold State.llExpiry
  with_reducible
    repeat' (first
      | assumption
      | lift_lets
      | (intro x; refine (fun (hx : SameMem s_ x) => ?_) ?_; clear_value x; rotate_left; unfold x; rotate_right)
      | (intro x; refine (fun (hx : SameMem s_ x.1) => ?_) ?_; clear_value x; rotate_left; unfold x; rotate_right)
      | (intro x; clear_value x)
      | apply State_updPh_bytes
      | apply State_raise_bytes
      | apply State_physTrigger_bytes
      | apply bytes_ite
      | (apply bytes_mk; assumption)
      | (intro _))

/-- `execLlExpiry`. -/
theorem execLlExpiry_bytes (d p e : Nat) (s : State) {s_ : State} (hks : SameMem s_ s) :
    SameMemO s_ (execLlExpiry d p e s) := by
  unfold execLlExpiry
  with_reducible
    repeat' (first
      | assumption
      | apply State_llExpiry_bytes
      | apply bytesO_next)

/-- `State.vfRecord`. -/
theorem State_vfRecord_bytes (s : State) (d : Nat) (wr : Bool) {s_ : State} (hks : SameMem s_ s) :
    SameMem s_ (State.vfRecord s d wr) := by
  unfold State.vfRecord
  with_reducible
    repeat' (first
      | assumption
      | apply State_fieldWrite_bytes
      | apply bytes_ite)

/-- `execVfRecordWrite`. -/
theorem execVfRecordWrite_bytes (d : Nat) (wr : Bool) (s : State) {s_ : State} (hks : SameMem s_ s) :
    SameMemO s_ (execVfRecordWrite d wr s) := by
  unfold execVfRecordWrite
  with_reducible
    repeat' (first
      | assumption
      | apply State_vfRecord_bytes
      | apply bytesO_next)

/-- `State.inputSample`. -/
theorem State_inputSample_bytes (s : State) (v i : Nat) {s_ : State} (hks : SameMem s_ s) :
    SameMem s_ (State.inputSample s v i) := by
  unfold State.inputSample
  with_reducible
    repeat' (first
      | assumption
      | apply State_setFld_bytes
      | apply State_updMod_bytes
      | apply bytes_ite
      | (apply bytes_mk; assumption)
      | (intro _))

/-- `execInputSample`. -/
theorem execInputSample_bytes (v i : Nat) (s : State) {s_ : State} (hks : SameMem s_ s) :
    SameMemO s_ (execInputSample v i s) := by
  unfold execInputSample
  with_reducible
    repeat' (first
      | assumption
      | apply State_inputSample_bytes
      | apply bytesO_next)

/-- `State.setBudgets`. -/
theorem State_setBudgets_bytes (s : State) (cap : Nat) (sm : CapSample) {s_ : State} (hks : SameMem s_ s) :
    SameMem s_ (State.setBudgets s cap sm) := by
  unfold State.setBudgets
  with_reducible
    repeat' (first
      | assumption
      | lift_lets
      | (intro x; refine (fun (hx : SameMem s_ x) => ?_) ?_; clear_value x; rotate_left; unfold x; rotate_right)
      | (intro x; clear_value x)
      | apply forEach_bytes
      | apply State_setFld_bytes
      | apply foldl_bytes
      | apply foldl_bytes1
      | apply bytes_ite
      | (intro _))

/-- `State.charge`. -/
theorem State_charge_bytes (s : State) (key a pj : Nat) {s_ : State} (hks : SameMem s_ s) :
    SameMem s_ (State.charge s key a pj) := by
  unfold State.charge
  with_reducible
    repeat' (first
      | assumption
      | lift_lets
      | (intro x; refine (fun (hx : SameMem s_ x) => ?_) ?_; clear_value x; rotate_left; unfold x; rotate_right)
      | (intro x; clear_value x)
      | apply State_setReg_bytes
      | apply State_updMod_bytes
      | (apply bytes_mk; assumption)
      | (intro _))

/-- `State.chargeAll`. -/
theorem State_chargeAll_bytes (s : State) {s_ : State} (hks : SameMem s_ s) :
    SameMem s_ (State.chargeAll s) := by
  unfold State.chargeAll
  with_reducible
    repeat' (first
      | assumption
      | lift_lets
      | (intro x; refine (fun (hx : SameMem s_ x) => ?_) ?_; clear_value x; rotate_left; unfold x; rotate_right)
      | (intro x; clear_value x)
      | apply forEach_bytes
      | apply State_updDie_bytes
      | apply State_setRg_bytes
      | apply State_updMod_bytes
      | apply State_charge_bytes
      | apply foldl_bytes
      | apply foldl_bytes1
      | (apply bytes_mk; assumption)
      | (intro _))

/-- `State.capEval`. -/
theorem State_capEval_bytes (s : State) (sm : CapSample) {s_ : State} (hks : SameMem s_ s) :
    SameMem s_ (State.capEval s sm) := by
  unfold State.capEval
  with_reducible
    repeat' (first
      | assumption
      | lift_lets
      | (intro x; refine (fun (hx : SameMem s_ x) => ?_) ?_; clear_value x; rotate_left; unfold x; rotate_right)
      | (intro x; refine (fun (hx : SameMem s_ x.1) => ?_) ?_; clear_value x; rotate_left; unfold x; rotate_right)
      | (intro x; clear_value x)
      | apply State_setRg_bytes
      | apply State_setStat_bytes
      | apply State_setBudgets_bytes
      | apply State_chargeAll_bytes
      | apply bytes_ite)

/-- `execCapEval`. -/
theorem execCapEval_bytes (sm : CapSample) (s : State) {s_ : State} (hks : SameMem s_ s) :
    SameMemO s_ (execCapEval sm s) := by
  unfold execCapEval
  with_reducible
    repeat' (first
      | assumption
      | apply State_capEval_bytes
      | apply bytesO_next)

/-- `State.dieBudget`. -/
theorem State_dieBudget_bytes (s : State) (d watts : Nat) {s_ : State} (hks : SameMem s_ s) :
    SameMem s_ (State.dieBudget s d watts) := by
  unfold State.dieBudget
  with_reducible
    repeat' (first
      | assumption
      | lift_lets
      | (intro x; refine (fun (hx : SameMem s_ x) => ?_) ?_; clear_value x; rotate_left; unfold x; rotate_right)
      | (intro x; clear_value x)
      | apply State_setFld_bytes
      | apply State_capHeld_bytes
      | apply bytes_ite)

/-- `execDieBudgetEval`. -/
theorem execDieBudgetEval_bytes (d watts : Nat) (s : State) {s_ : State} (hks : SameMem s_ s) :
    SameMemO s_ (execDieBudgetEval d watts s) := by
  unfold execDieBudgetEval
  with_reducible
    repeat' (first
      | assumption
      | apply State_dieBudget_bytes
      | apply bytesO_next)

/-- `State.throttle`. -/
theorem State_throttle_bytes (s : State) (d p : Nat) {s_ : State} (hks : SameMem s_ s) :
    SameMem s_ (State.throttle s d p) := by
  unfold State.throttle
  with_reducible
    repeat' (first
      | assumption
      | apply State_setFld_bytes
      | apply State_setStat_bytes)

/-- `State.clusterHeat`. -/
theorem State_clusterHeat_bytes (s : State) (d p : Nat) {s_ : State} (hks : SameMem s_ s) :
    SameMem s_ (State.clusterHeat s d p) := by
  unfold State.clusterHeat
  with_reducible
    repeat' (first
      | assumption
      | lift_lets
      | (intro x; refine (fun (hx : SameMem s_ x) => ?_) ?_; clear_value x; rotate_left; unfold x; rotate_right)
      | (intro x; clear_value x)
      | apply State_setFld_bytes
      | apply State_raise_bytes
      | apply State_throttle_bytes
      | apply bytes_ite)

/-- `State.unitHeat`. -/
theorem State_unitHeat_bytes (s : State) (d i old : Nat) {s_ : State} (hks : SameMem s_ s) :
    SameMem s_ (State.unitHeat s d i old) := by
  unfold State.unitHeat
  with_reducible
    repeat' (first
      | assumption
      | lift_lets
      | (intro x; refine (fun (hx : SameMem s_ x) => ?_) ?_; clear_value x; rotate_left; unfold x; rotate_right)
      | (intro x; clear_value x)
      | apply State_updDie_bytes
      | apply State_raise_bytes
      | apply bytes_ite
      | (apply bytes_mk; assumption)
      | (intro _))

/-- `State.convert`. -/
theorem State_convert_bytes (s : State) (d i t : Nat) {s_ : State} (hks : SameMem s_ s) :
    SameMem s_ (State.convert s d i t) := by
  unfold State.convert
  with_reducible
    repeat' (first
      | assumption
      | lift_lets
      | (intro x; refine (fun (hx : SameMem s_ x) => ?_) ?_; clear_value x; rotate_left; unfold x; rotate_right)
      | (intro x; clear_value x)
      | apply State_updDie_bytes
      | apply State_setFld_bytes
      | apply foldl_bytes
      | apply foldl_bytes1
      | (apply bytes_mk; assumption)
      | (intro _))

/-- `State.pairWatch`. -/
theorem State_pairWatch_bytes (s : State) (d p : Nat) {s_ : State} (hks : SameMem s_ s) :
    SameMem s_ (State.pairWatch s d p) := by
  unfold State.pairWatch
  with_reducible
    repeat' (first
      | assumption
      | lift_lets
      | (intro x; refine (fun (hx : SameMem s_ x) => ?_) ?_; clear_value x; rotate_left; unfold x; rotate_right)
      | (intro x; clear_value x)
      | apply State_updPh_bytes
      | apply State_raise_bytes
      | apply bytes_ite
      | (apply bytes_mk; assumption)
      | (intro _))

/-- `State.sensor`. -/
theorem State_sensor_bytes (s : State) (d i t : Nat) {s_ : State} (hks : SameMem s_ s) :
    SameMem s_ (State.sensor s d i t) := by
  unfold State.sensor
  with_reducible
    repeat' (first
      | assumption
      | lift_lets
      | (intro x; refine (fun (hx : SameMem s_ x) => ?_) ?_; clear_value x; rotate_left; unfold x; rotate_right)
      | (intro x; clear_value x)
      | apply forEach_bytes
      | apply State_clusterHeat_bytes
      | apply State_unitHeat_bytes
      | apply State_convert_bytes
      | apply State_pairWatch_bytes
      | apply bytes_ite
      | (intro _))

/-- `execSensorConversion`. -/
theorem execSensorConversion_bytes (d i t : Nat) (s : State) {s_ : State} (hks : SameMem s_ s) :
    SameMemO s_ (execSensorConversion d i t s) := by
  unfold execSensorConversion
  with_reducible
    repeat' (first
      | assumption
      | apply State_sensor_bytes
      | apply bytesO_next)

/-- `State.pairFault`. -/
theorem State_pairFault_bytes (s : State) (d p : Nat) {s_ : State} (hks : SameMem s_ s) :
    SameMem s_ (State.pairFault s d p) := by
  unfold State.pairFault
  with_reducible
    repeat' (first
      | assumption
      | lift_lets
      | (intro x; refine (fun (hx : SameMem s_ x) => ?_) ?_; clear_value x; rotate_left; unfold x; rotate_right)
      | (intro x; clear_value x)
      | apply State_setFld_bytes
      | apply State_raise_bytes
      | apply State_physTrigger_bytes
      | apply State_clusterHeat_bytes
      | apply bytes_ite)

/-- `execPairFault`. -/
theorem execPairFault_bytes (d p : Nat) (s : State) {s_ : State} (hks : SameMem s_ s) :
    SameMemO s_ (execPairFault d p s) := by
  unfold execPairFault
  with_reducible
    repeat' (first
      | assumption
      | apply State_pairFault_bytes
      | apply bytesO_next)

/-- `execThrottleStep`. -/
theorem execThrottleStep_bytes (d p : Nat) (s : State) {s_ : State} (hks : SameMem s_ s) :
    SameMemO s_ (execThrottleStep d p s) := by
  unfold execThrottleStep
  with_reducible
    repeat' (first
      | assumption
      | apply State_throttle_bytes
      | apply bytesO_ite
      | apply bytesO_next
      | apply bytes_ite)

/-- `State.thermalUndo`. -/
theorem State_thermalUndo_bytes (s : State) (d i : Nat) {s_ : State} (hks : SameMem s_ s) :
    SameMem s_ (State.thermalUndo s d i) := by
  unfold State.thermalUndo
  with_reducible
    repeat' (first
      | assumption
      | lift_lets
      | (intro x; refine (fun (hx : SameMem s_ x) => ?_) ?_; clear_value x; rotate_left; unfold x; rotate_right)
      | (intro x; clear_value x)
      | apply State_updDie_bytes
      | apply State_setFld_bytes
      | apply bytes_ite
      | (apply bytes_mk; assumption)
      | (intro _))

/-- `execThermalUndo`. -/
theorem execThermalUndo_bytes (d i : Nat) (s : State) {s_ : State} (hks : SameMem s_ s) :
    SameMemO s_ (execThermalUndo d i s) := by
  unfold execThermalUndo
  with_reducible
    repeat' (first
      | assumption
      | apply State_thermalUndo_bytes
      | apply bytesO_next)

/-- `State.hbmTemp`. -/
theorem State_hbmTemp_bytes (s : State) (d k t : Nat) {s_ : State} (hks : SameMem s_ s) :
    SameMem s_ (State.hbmTemp s d k t) := by
  unfold State.hbmTemp
  with_reducible
    repeat' (first
      | assumption
      | lift_lets
      | (intro x; refine (fun (hx : SameMem s_ x) => ?_) ?_; clear_value x; rotate_left; unfold x; rotate_right)
      | (intro x; clear_value x)
      | apply State_setFld_bytes
      | apply State_raise_bytes
      | apply State_hbmSleep_bytes
      | apply bytes_ite)

/-- `execHbmTempRead`. -/
theorem execHbmTempRead_bytes (d k t : Nat) (s : State) {s_ : State} (hks : SameMem s_ s) :
    SameMemO s_ (execHbmTempRead d k t s) := by
  unfold execHbmTempRead
  with_reducible
    repeat' (first
      | assumption
      | apply State_hbmTemp_bytes
      | apply bytesO_next)

/-- `State.trayMiss`. -/
theorem State_trayMiss_bytes (s : State) (k n : Nat) {s_ : State} (hks : SameMem s_ s) :
    SameMem s_ (State.trayMiss s k n) := by
  unfold State.trayMiss
  with_reducible
    repeat' (first
      | assumption
      | apply State_setFld_bytes
      | apply State_modRaise_bytes
      | apply bytes_ite)

/-- `State.trayTemp`. -/
theorem State_trayTemp_bytes (s : State) (k n : Nat) (v : Option Int) {s_ : State} (hks : SameMem s_ s) :
    SameMem s_ (State.trayTemp s k n v) := by
  unfold State.trayTemp
  with_reducible
    repeat' (first
      | assumption
      | apply State_setFld_bytes
      | apply State_trayMiss_bytes
      | split
      | (refine bytes_fst_eq (by assumption) ?_))

/-- `State.trayFlow`. -/
theorem State_trayFlow_bytes (s : State) (n : Nat) (v : Option Nat) {s_ : State} (hks : SameMem s_ s) :
    SameMem s_ (State.trayFlow s n v) := by
  unfold State.trayFlow
  with_reducible
    repeat' (first
      | assumption
      | lift_lets
      | (intro x; refine (fun (hx : SameMem s_ x) => ?_) ?_; clear_value x; rotate_left; unfold x; rotate_right)
      | (intro x; clear_value x)
      | apply State_setFld_bytes
      | apply State_updMod_bytes
      | apply State_trayMiss_bytes
      | (apply bytes_mk; assumption)
      | (intro _)
      | split
      | (refine bytes_fst_eq (by assumption) ?_))

/-- `State.flowWatch`. -/
theorem State_flowWatch_bytes (s : State) {s_ : State} (hks : SameMem s_ s) :
    SameMem s_ (State.flowWatch s) := by
  unfold State.flowWatch
  with_reducible
    repeat' (first
      | assumption
      | lift_lets
      | (intro x; refine (fun (hx : SameMem s_ x) => ?_) ?_; clear_value x; rotate_left; unfold x; rotate_right)
      | (intro x; refine (fun (hx : SameMem s_ x.1) => ?_) ?_; clear_value x; rotate_left; unfold x; rotate_right)
      | (intro x; clear_value x)
      | apply State_updMod_bytes
      | apply State_modRaise_bytes
      | apply bytes_ite
      | (apply bytes_mk; assumption)
      | (intro _))

/-- `State.coolWatch`. -/
theorem State_coolWatch_bytes (s : State) (flow : Option Nat) {s_ : State} (hks : SameMem s_ s) :
    SameMem s_ (State.coolWatch s flow) := by
  unfold State.coolWatch
  with_reducible
    repeat' (first
      | assumption
      | lift_lets
      | (intro x; refine (fun (hx : SameMem s_ x) => ?_) ?_; clear_value x; rotate_left; unfold x; rotate_right)
      | (intro x; clear_value x)
      | apply State_setFld_bytes
      | apply State_updMod_bytes
      | apply State_modRaise_bytes
      | apply bytes_ite
      | (apply bytes_mk; assumption)
      | (intro _)
      | split
      | (refine bytes_fst_eq (by assumption) ?_))

/-- `State.coolShutdown`. -/
theorem State_coolShutdown_bytes (s : State) {s_ : State} (hks : SameMem s_ s) :
    SameMem s_ (State.coolShutdown s) := by
  unfold State.coolShutdown
  with_reducible
    repeat' (first
      | assumption
      | apply State_modRaise_bytes
      | apply bytes_ite
      | split)

/-- `execCoolantShutdown`. -/
theorem execCoolantShutdown_bytes (s : State) {s_ : State} (hks : SameMem s_ s) :
    SameMemO s_ (execCoolantShutdown s) := by
  unfold execCoolantShutdown
  with_reducible
    repeat' (first
      | assumption
      | apply State_coolShutdown_bytes
      | apply bytesO_next)

/-- `State.errnStuckSeen`. -/
theorem State_errnStuckSeen_bytes (s : State) {s_ : State} (hks : SameMem s_ s) :
    SameMem s_ (State.errnStuckSeen s) := by
  unfold State.errnStuckSeen
  with_reducible
    repeat' (first
      | assumption
      | lift_lets
      | (intro x; refine (fun (hx : SameMem s_ x) => ?_) ?_; clear_value x; rotate_left; unfold x; rotate_right)
      | (intro x; refine (fun (hx : SameMem s_ x.1) => ?_) ?_; clear_value x; rotate_left; unfold x; rotate_right)
      | (intro x; refine (fun (hx : ∀ y, SameMem s_ (x y)) => ?_) ?_; clear_value x; rotate_left; unfold x; rotate_right)
      | (intro x; clear_value x)
      | apply State_modRaise_bytes
      | apply bytes_ite
      | apply bytes_ite1
      | (apply bytes_mk; first | assumption | apply State_modRaise_bytes)
      | (intro _)
      | split
      | (dsimp only; split)
      | (refine bytes_fst_eq (by assumption) ?_))

/-- `execErrnStuck`. -/
theorem execErrnStuck_bytes (s : State) {s_ : State} (hks : SameMem s_ s) :
    SameMemO s_ (execErrnStuck s) := by
  unfold execErrnStuck
  with_reducible
    repeat' (first
      | assumption
      | apply State_errnStuckSeen_bytes
      | apply bytesO_next)

/-- `State.bridgeReject`. -/
theorem State_bridgeReject_bytes (s : State) (d peer n : Nat) {s_ : State} (hks : SameMem s_ s) :
    SameMem s_ (State.bridgeReject s d peer n) := by
  unfold State.bridgeReject
  with_reducible
    repeat' (first
      | assumption
      | apply State_addRg_bytes
      | apply State_emit_bytes
      | apply State_raise_bytes
      | apply bytes_ite)

/-- `execBridgeFlitReject`. -/
theorem execBridgeFlitReject_bytes (d peer n : Nat) (s : State) {s_ : State} (hks : SameMem s_ s) :
    SameMemO s_ (execBridgeFlitReject d peer n s) := by
  unfold execBridgeFlitReject
  with_reducible
    repeat' (first
      | assumption
      | apply State_bridgeReject_bytes
      | apply bytesO_next)

/-- `execStatusClear`. -/
theorem execStatusClear_bytes (d : Nat) (b : Blk) (i : Nat) (v : Word) (s : State) {s_ : State} (hks : SameMem s_ s) :
    SameMemO s_ (execStatusClear d b i v s) := by
  unfold execStatusClear
  with_reducible
    repeat' (first
      | assumption
      | apply State_clearStat_bytes
      | apply bytesO_ite
      | apply bytesO_next
      | apply bytes_ite)

/-- `State.spareCmd`. -/
theorem State_spareCmd_bytes (s : State) (f : State → State) {s_ : State} (hks : SameMem s_ s) (hff : ∀ z0, SameMem s_ z0 → SameMem s_ (f z0)) :
    SameMem s_ (State.spareCmd s f).1 := by
  unfold State.spareCmd
  with_reducible
    repeat' (first
      | assumption
      | apply State_configBusy_bytes
      | apply hff
      | apply bytes_ite1
      | apply bytes_ite)

/-- `State.clusterIn`. -/
theorem State_clusterIn_bytes (s : State) (d l : Nat) (test : Bool) {s_ : State} (hks : SameMem s_ s) :
    SameMem s_ (State.clusterIn s d l test) := by
  unfold State.clusterIn
  with_reducible
    repeat' (first
      | assumption
      | apply State_startSwitch_bytes
      | apply State_spareEnd_bytes
      | apply bytes_ite
      | split
      | (refine bytes_fst_eq (by assumption) ?_))

/-- `State.bankIn`. -/
theorem State_bankIn_bytes (s : State) (d bank : Nat) {s_ : State} (hks : SameMem s_ s) :
    SameMem s_ (State.bankIn s d bank) := by
  unfold State.bankIn
  with_reducible
    repeat' (first
      | assumption
      | lift_lets
      | (intro x; refine (fun (hx : SameMem s_ x) => ?_) ?_; clear_value x; rotate_left; unfold x; rotate_right)
      | (intro x; refine (fun (hx : SameMem s_ x.1) => ?_) ?_; clear_value x; rotate_left; unfold x; rotate_right)
      | (intro x; clear_value x)
      | apply State_spareDue_bytes
      | apply State_spareEnd_bytes
      | apply State_celSpareIn_bytes
      | apply bytes_ite
      | (intro _)
      | split
      | (refine bytes_fst_eq (by assumption) ?_))

/-- `State.laneIn`. -/
theorem State_laneIn_bytes (s : State) (d p lane : Nat) {s_ : State} (hks : SameMem s_ s) :
    SameMem s_ (State.laneIn s d p lane) := by
  unfold State.laneIn
  with_reducible
    repeat' (first
      | assumption
      | lift_lets
      | (intro x; refine (fun (hx : SameMem s_ x) => ?_) ?_; clear_value x; rotate_left; unfold x; rotate_right)
      | (intro x; refine (fun (hx : SameMem s_ x.1) => ?_) ?_; clear_value x; rotate_left; unfold x; rotate_right)
      | (intro x; clear_value x)
      | apply State_spareEnd_bytes
      | apply State_macSpareIn_bytes
      | apply bytes_ite)

/-- `State.retireIn`. -/
theorem State_retireIn_bytes (s : State) (d k pc unit : Nat) {s_ : State} (hks : SameMem s_ s) :
    SameMem s_ (State.retireIn s d k pc unit) := by
  unfold State.retireIn
  with_reducible
    repeat' (first
      | assumption
      | lift_lets
      | (intro x; refine (fun (hx : SameMem s_ x) => ?_) ?_; clear_value x; rotate_left; unfold x; rotate_right)
      | (intro x; refine (fun (hx : SameMem s_ x.1) => ?_) ?_; clear_value x; rotate_left; unfold x; rotate_right)
      | (intro x; clear_value x)
      | apply State_spareEnd_bytes
      | apply State_hbmRetire_bytes
      | apply bytes_ite)

/-- `State.spareWrite`. -/
theorem State_spareWrite_bytes (s : State) (v : Word) {s_ : State} (hks : SameMem s_ s) :
    SameMem s_ (State.spareWrite s v).1 := by
  unfold State.spareWrite
  with_reducible
    repeat' (first
      | assumption
      | lift_lets
      | (intro x; refine (fun (hx : SameMem s_ x) => ?_) ?_; clear_value x; rotate_left; unfold x; rotate_right)
      | (intro x; clear_value x)
      | apply State_spareEnd_bytes
      | apply State_spareCmd_bytes
      | apply State_clusterIn_bytes
      | apply State_bankIn_bytes
      | apply State_laneIn_bytes
      | apply State_retireIn_bytes
      | (intro _)
      | split
      | (refine bytes_fst_eq (by assumption) ?_))

/-- `execClIn`. -/
theorem execClIn_bytes (d l : Nat) (s : State) {s_ : State} (hks : SameMem s_ s) :
    SameMemO s_ (execClIn d l s) := by
  unfold execClIn
  with_reducible
    repeat' (first
      | assumption
      | apply State_spareCmd_bytes
      | apply State_clusterIn_bytes
      | apply bytesO_ite
      | apply bytesO_next
      | apply bytes_ite
      | (intro _))

/-- `execBankIn`. -/
theorem execBankIn_bytes (d bank : Nat) (s : State) {s_ : State} (hks : SameMem s_ s) :
    SameMemO s_ (execBankIn d bank s) := by
  unfold execBankIn
  with_reducible
    repeat' (first
      | assumption
      | apply State_spareCmd_bytes
      | apply State_bankIn_bytes
      | apply bytesO_ite
      | apply bytesO_next
      | apply bytes_ite
      | (intro _))

/-- `execLaneIn`. -/
theorem execLaneIn_bytes (d p lane : Nat) (s : State) {s_ : State} (hks : SameMem s_ s) :
    SameMemO s_ (execLaneIn d p lane s) := by
  unfold execLaneIn
  with_reducible
    repeat' (first
      | assumption
      | apply State_spareCmd_bytes
      | apply State_laneIn_bytes
      | apply bytesO_ite
      | apply bytesO_next
      | apply bytes_ite
      | (intro _))

/-- `execSpareRetire`. -/
theorem execSpareRetire_bytes (d k pc unit : Nat) (s : State) {s_ : State} (hks : SameMem s_ s) :
    SameMemO s_ (execSpareRetire d k pc unit s) := by
  unfold execSpareRetire
  with_reducible
    repeat' (first
      | assumption
      | apply State_spareCmd_bytes
      | apply State_retireIn_bytes
      | apply bytesO_ite
      | apply bytesO_next
      | apply bytes_ite
      | (intro _))

/-- `execTestCl`. -/
theorem execTestCl_bytes (d l : Nat) (s : State) {s_ : State} (hks : SameMem s_ s) :
    SameMemO s_ (execTestCl d l s) := by
  unfold execTestCl
  with_reducible
    repeat' (first
      | assumption
      | apply State_spareCmd_bytes
      | apply State_clusterIn_bytes
      | apply bytesO_ite
      | apply bytesO_next
      | apply bytes_ite
      | (intro _))

/-- `State.switchHold`. -/
theorem State_switchHold_bytes (s : State) (bad : Bool) {s_ : State} (hks : SameMem s_ s) :
    SameMem s_ (State.switchHold s bad) := by
  unfold State.switchHold
  with_reducible
    repeat' (first
      | assumption
      | apply State_updCl_bytes
      | apply State_raise_bytes
      | apply State_updMod_bytes
      | apply State_spareFailed_bytes
      | apply bytes_ite
      | (apply bytes_mk; assumption)
      | (intro _)
      | split
      | (refine bytes_fst_eq (by assumption) ?_))

/-- `execClusterSwitchHold`. -/
theorem execClusterSwitchHold_bytes (bad : Bool) (s : State) {s_ : State} (hks : SameMem s_ s) :
    SameMemO s_ (execClusterSwitchHold bad s) := by
  unfold execClusterSwitchHold
  with_reducible
    repeat' (first
      | assumption
      | apply State_switchHold_bytes
      | apply bytesO_next)

/-- `State.switchMove`. -/
theorem State_switchMove_bytes (s : State) (d l p k : Nat) (test : Bool) {s_ : State} (hks : SameMem s_ s) :
    SameMem s_ (State.switchMove s d l p k test) := by
  unfold State.switchMove
  with_reducible
    repeat' (first
      | assumption
      | lift_lets
      | (intro x; refine (fun (hx : SameMem s_ x) => ?_) ?_; clear_value x; rotate_left; unfold x; rotate_right)
      | (intro x; clear_value x)
      | apply State_updCl_bytes
      | apply State_updPh_bytes
      | apply State_updMod_bytes
      | apply State_setRailSt_bytes
      | apply State_setLogical_bytes
      | apply State_modRaise_bytes
      | apply State_repairDue_bytes
      | apply State_spareEnd_bytes
      | apply bytes_ite
      | (apply bytes_mk; assumption)
      | (intro _))

/-- `State.switchCopy`. -/
theorem State_switchCopy_bytes (s : State) {s_ : State} (hks : SameMem s_ s) :
    SameMem s_ (State.switchCopy s) := by
  unfold State.switchCopy
  with_reducible
    repeat' (first
      | assumption
      | apply State_freshCluster_bytes
      | apply State_switchMove_bytes
      | apply bytes_ite
      | split
      | (refine bytes_fst_eq (by assumption) ?_))

/-- `execClusterSwitchCopy`. -/
theorem execClusterSwitchCopy_bytes (s : State) {s_ : State} (hks : SameMem s_ s) :
    SameMemO s_ (execClusterSwitchCopy s) := by
  unfold execClusterSwitchCopy
  with_reducible
    repeat' (first
      | assumption
      | apply State_switchCopy_bytes
      | apply bytesO_next)

/-- `State.patternEnd`. -/
theorem State_patternEnd_bytes (s : State) (bad : Bool) {s_ : State} (hks : SameMem s_ s) :
    SameMem s_ (State.patternEnd s bad) := by
  unfold State.patternEnd
  with_reducible
    repeat' (first
      | assumption
      | apply State_updPh_bytes
      | apply State_repairDue_bytes
      | apply State_spareEnd_bytes
      | apply bytes_ite
      | (apply bytes_mk; assumption)
      | (intro _)
      | split
      | (refine bytes_fst_eq (by assumption) ?_))

/-- `execPatternTestEnd`. -/
theorem execPatternTestEnd_bytes (bad : Bool) (s : State) {s_ : State} (hks : SameMem s_ s) :
    SameMemO s_ (execPatternTestEnd bad s) := by
  unfold execPatternTestEnd
  with_reducible
    repeat' (first
      | assumption
      | apply State_patternEnd_bytes
      | apply bytesO_next)

/-- `State.repairWrite`. -/
theorem State_repairWrite_bytes (s : State) (d : Nat) (wr late : Bool) {s_ : State} (hks : SameMem s_ s) :
    SameMem s_ (State.repairWrite s d wr late) := by
  unfold State.repairWrite
  with_reducible
    repeat' (first
      | assumption
      | lift_lets
      | (intro x; refine (fun (hx : SameMem s_ x) => ?_) ?_; clear_value x; rotate_left; unfold x; rotate_right)
      | (intro x; clear_value x)
      | apply State_updMod_bytes
      | apply State_modRaise_bytes
      | apply State_fieldWrite_bytes
      | apply bytes_ite
      | (apply bytes_mk; assumption)
      | (intro _))

/-- `execRepairRecordWrite`. -/
theorem execRepairRecordWrite_bytes (d : Nat) (wr : Bool) (s : State) {s_ : State} (hks : SameMem s_ s) :
    SameMemO s_ (execRepairRecordWrite d wr s) := by
  unfold execRepairRecordWrite
  with_reducible
    repeat' (first
      | assumption
      | apply State_repairWrite_bytes
      | apply bytesO_ite
      | apply bytesO_next
      | apply bytes_ite)

/-- `execRepairRetry`. -/
theorem execRepairRetry_bytes (d : Nat) (wr : Bool) (s : State) {s_ : State} (hks : SameMem s_ s) :
    SameMemO s_ (execRepairRetry d wr s) := by
  unfold execRepairRetry
  with_reducible
    repeat' (first
      | assumption
      | apply State_repairWrite_bytes
      | apply bytesO_ite
      | apply bytesO_next
      | apply bytes_ite)

/-- `andThen`. -/
theorem andThen_bytes (x : State × Bool) (on : Bool) (f : State → State × Bool) {s_ : State} (hkx : SameMem s_ x.1) (hff : ∀ z0, SameMem s_ z0 →
    SameMem s_ (f z0).1) :
    SameMem s_ (andThen x on f).1 := by
  unfold andThen
  with_reducible
    repeat' (first
      | assumption
      | lift_lets
      | (intro x; refine (fun (hx : SameMem s_ x) => ?_) ?_; clear_value x; rotate_left; unfold x; rotate_right)
      | (intro x; refine (fun (hx : SameMem s_ x.1) => ?_) ?_; clear_value x; rotate_left; unfold x; rotate_right)
      | (intro x; clear_value x)
      | apply hff
      | apply bytes_ite1
      | apply bytes_ite)

/-- `always`. -/
theorem always_bytes (f : State → State) (s : State) {s_ : State} (hff : ∀ z0, SameMem s_ z0 → SameMem s_ (f z0)) (hks : SameMem s_ s) :
    SameMem s_ (always f s).1 := by
  unfold always
  with_reducible
    repeat' (first
      | assumption
      | apply hff)

/-- `State.plainWrite`. -/
theorem State_plainWrite_bytes (s : State) (l : RegLoc) (r : RegDef) (v : Word) {s_ : State} (hks : SameMem s_ s) :
    SameMem s_ (State.plainWrite s l r v).1 := by
  unfold State.plainWrite
  with_reducible
    repeat' (first
      | assumption
      | lift_lets
      | (intro x; refine (fun (hx : SameMem s_ x) => ?_) ?_; clear_value x; rotate_left; unfold x; rotate_right)
      | (intro x; clear_value x)
      | apply State_setReg_bytes
      | apply State_setShad_bytes
      | apply State_configBusy_bytes
      | apply bytes_ite1
      | apply bytes_ite)

/-- `State.celCmd`. -/
theorem State_celCmd_bytes (s : State) (d : Nat) (v : Word) {s_ : State} (hks : SameMem s_ s) :
    SameMem s_ (State.celCmd s d v).1 := by
  unfold State.celCmd
  with_reducible
    repeat' (first
      | assumption
      | lift_lets
      | (intro x; refine (fun (hx : SameMem s_ x) => ?_) ?_; clear_value x; rotate_left; unfold x; rotate_right)
      | (intro x; refine (fun (hx : SameMem s_ x.1) => ?_) ?_; clear_value x; rotate_left; unfold x; rotate_right)
      | (intro x; refine (fun (hx : ∀ y, SameMem s_ (x y)) => ?_) ?_; clear_value x; rotate_left; unfold x; rotate_right)
      | (intro x; clear_value x)
      | apply State_doFlush_bytes
      | apply State_doPurge_bytes
      | apply State_celSpareIn_bytes
      | apply andThen_bytes
      | apply bytes_ite1
      | apply bytes_ite
      | (apply bytes_mk; first | assumption | apply State_doFlush_bytes | apply State_doPurge_bytes | apply State_celSpareIn_bytes | apply andThen_bytes)
      | (intro _)
      | split
      | (dsimp only; split)
      | (refine bytes_fst_eq (by assumption) ?_))

/-- `State.injectRes`. -/
theorem State_injectRes_bytes (s : State) (d l a : Nat) {s_ : State} (hks : SameMem s_ s) :
    SameMem s_ (State.injectRes s d l a) := by
  unfold State.injectRes
  with_reducible
    repeat' (first
      | assumption
      | apply State_updCl_bytes
      | (apply bytes_mk; assumption)
      | (intro _))

/-- `State.fabWriteReg`. -/
theorem State_fabWriteReg_bytes (s : State) (l : RegLoc) (r : RegDef) (v : Word) {s_ : State} (hks : SameMem s_ s) :
    SameMem s_ (State.fabWriteReg s l r v).1 := by
  unfold State.fabWriteReg
  with_reducible
    repeat' (first
      | assumption
      | lift_lets
      | (intro x; refine (fun (hx : SameMem s_ x) => ?_) ?_; clear_value x; rotate_left; unfold x; rotate_right)
      | (intro x; clear_value x)
      | apply State_setFld_bytes
      | apply State_configBusy_bytes
      | apply State_plainWrite_bytes
      | apply bytes_ite1
      | apply bytes_ite)

/-- `State.injectExit`. -/
theorem State_injectExit_bytes (s : State) (d u : Nat) {s_ : State} (hks : SameMem s_ s) :
    SameMem s_ (State.injectExit s d u) := by
  unfold State.injectExit
  with_reducible
    repeat' (first
      | assumption
      | apply State_updDie_bytes
      | apply bytes_ite
      | (apply bytes_mk; assumption)
      | (intro _))

/-- `State.clearLog`. -/
theorem State_clearLog_bytes (s : State) (l : RegLoc) (v : Word) {s_ : State} (hks : SameMem s_ s) :
    SameMem s_ (State.clearLog s l v) := by
  unfold State.clearLog
  with_reducible
    repeat' (first
      | assumption
      | apply State_setFld_bytes
      | apply bytes_ite)

/-- `State.lineOut`. -/
theorem State_lineOut_bytes (s : State) (d a : Nat) {s_ : State} (hks : SameMem s_ s) :
    SameMem s_ (State.lineOut s d a).1 := by
  unfold State.lineOut
  with_reducible
    repeat' (first
      | assumption
      | apply State_touchRead_bytes
      | apply State_exitLine_bytes)

/-- `State.grant`. -/
theorem State_grant_bytes (s : State) (d ln : Nat) (own : Bool) {s_ : State} (hks : SameMem s_ s) :
    SameMem s_ (State.grant s d ln own) := by
  unfold State.grant
  with_reducible
    repeat' (first
      | assumption
      | lift_lets
      | (intro x; refine (fun (hx : SameMem s_ x) => ?_) ?_; clear_value x; rotate_left; unfold x; rotate_right)
      | (intro x; refine (fun (hx : SameMem s_ x.1) => ?_) ?_; clear_value x; rotate_left; unfold x; rotate_right)
      | (intro x; clear_value x)
      | apply State_updLink_bytes
      | (apply bytes_mk; assumption)
      | (intro _))

/-- `State.dropEntry`. -/
theorem State_dropEntry_bytes (s : State) (d ln : Nat) {s_ : State} (hks : SameMem s_ s) :
    SameMem s_ (State.dropEntry s d ln) := by
  unfold State.dropEntry
  with_reducible
    repeat' (first
      | assumption
      | apply State_updLink_bytes
      | (apply bytes_mk; assumption)
      | (intro _))

/-- `State.hostGrant`. -/
theorem State_hostGrant_bytes (s : State) (d : Nat) (m : LMsg) {s_ : State} (hks : SameMem s_ s) :
    SameMem s_ (State.hostGrant s d m) := by
  unfold State.hostGrant
  with_reducible
    repeat' (first
      | assumption
      | lift_lets
      | (intro x; refine (fun (hx : SameMem s_ x) => ?_) ?_; clear_value x; rotate_left; unfold x; rotate_right)
      | (intro x; refine (fun (hx : SameMem s_ x.1) => ?_) ?_; clear_value x; rotate_left; unfold x; rotate_right)
      | (intro x; clear_value x)
      | apply State_respond_bytes
      | apply State_lineOut_bytes
      | apply State_grant_bytes
      | apply bytes_ite)

/-- `State.evictOne`. -/
theorem State_evictOne_bytes (s : State) (d : Nat) {s_ : State} (hks : SameMem s_ s) :
    SameMem s_ (State.evictOne s d) := by
  unfold State.evictOne
  with_reducible
    repeat' (first
      | assumption
      | apply State_aglCnt_bytes
      | apply State_sendSnoop_bytes
      | apply bytes_ite
      | split
      | (refine bytes_fst_eq (by assumption) ?_))

/-- `State.hostPrompt`. -/
theorem State_hostPrompt_bytes (s : State) (d : Nat) (m : LMsg) {s_ : State} (hks : SameMem s_ s) :
    SameMem s_ (State.hostPrompt s d m) := by
  unfold State.hostPrompt
  with_reducible
    repeat' (first
      | assumption
      | apply State_sendSnoop_bytes
      | apply State_powerOn_bytes
      | apply State_evictOne_bytes
      | apply bytes_ite
      | split
      | (refine bytes_fst_eq (by assumption) ?_))

/-- `execAglLinkTrain`. -/
theorem execAglLinkTrain_bytes (d : Nat) (s : State) {s_ : State} (hks : SameMem s_ s) :
    SameMemO s_ (execAglLinkTrain d s) := by
  unfold execAglLinkTrain
  with_reducible
    repeat' (first
      | assumption
      | apply State_linkTrain_bytes
      | apply bytesO_next)

/-- `execAglInit`. -/
theorem execAglInit_bytes (d proto side cr cs cp : Nat) (s : State) {s_ : State} (hks : SameMem s_ s) :
    SameMemO s_ (execAglInit d proto side cr cs cp s) := by
  unfold execAglInit
  with_reducible
    repeat' (first
      | assumption
      | apply State_linkInit_bytes
      | apply bytesO_next)

/-- `execAglRetrain`. -/
theorem execAglRetrain_bytes (d : Nat) (s : State) {s_ : State} (hks : SameMem s_ s) :
    SameMemO s_ (execAglRetrain d s) := by
  unfold execAglRetrain
  with_reducible
    repeat' (first
      | assumption
      | apply State_aglRetrain_bytes
      | apply bytesO_next)

/-- `execAglAutoRetrain`. -/
theorem execAglAutoRetrain_bytes (d : Nat) (s : State) {s_ : State} (hks : SameMem s_ s) :
    SameMemO s_ (execAglAutoRetrain d s) := by
  unfold execAglAutoRetrain
  with_reducible
    repeat' (first
      | assumption
      | apply State_linkTrain_bytes
      | apply bytesO_ite
      | apply bytesO_next
      | apply bytes_ite)

/-- `execFlitReplayTimeout`. -/
theorem execFlitReplayTimeout_bytes (d : Nat) (s : State) {s_ : State} (hks : SameMem s_ s) :
    SameMemO s_ (execFlitReplayTimeout d s) := by
  unfold execFlitReplayTimeout
  with_reducible
    repeat' (first
      | assumption
      | apply State_replay_bytes
      | apply bytesO_ite
      | apply bytesO_next
      | apply bytes_ite)

/-- `execAglNak`. -/
theorem execAglNak_bytes (d fack : Nat) (s : State) {s_ : State} (hks : SameMem s_ s) :
    SameMemO s_ (execAglNak d fack s) := by
  unfold execAglNak
  with_reducible
    repeat' (first
      | assumption
      | apply State_linkNak_bytes
      | apply bytesO_next)

/-- `State.linkAckNow`. -/
theorem State_linkAckNow_bytes (s : State) (d : Nat) {s_ : State} (hks : SameMem s_ s) :
    SameMem s_ (State.linkAckNow s d) := by
  unfold State.linkAckNow
  with_reducible
    repeat' (first
      | assumption
      | lift_lets
      | (intro x; refine (fun (hx : SameMem s_ x) => ?_) ?_; clear_value x; rotate_left; unfold x; rotate_right)
      | (intro x; clear_value x)
      | apply State_emitFlit_bytes
      | apply State_sendFlit_bytes
      | apply bytes_ite)

/-- `State.sendNak`. -/
theorem State_sendNak_bytes (s : State) (d : Nat) {s_ : State} (hks : SameMem s_ s) :
    SameMem s_ (State.sendNak s d) := by
  unfold State.sendNak
  with_reducible
    repeat' (first
      | assumption
      | apply State_emitFlit_bytes)

/-- `State.intrSend`. -/
theorem State_intrSend_bytes (s : State) (d : Nat) {s_ : State} (hks : SameMem s_ s) :
    SameMem s_ (State.intrSend s d) := by
  unfold State.intrSend
  with_reducible
    repeat' (first
      | assumption
      | lift_lets
      | (intro x; refine (fun (hx : SameMem s_ x) => ?_) ?_; clear_value x; rotate_left; unfold x; rotate_right)
      | (intro x; clear_value x)
      | apply State_updLink_bytes
      | apply State_aglCnt_bytes
      | apply State_sendMsg_bytes
      | apply bytes_ite
      | (apply bytes_mk; assumption)
      | (intro _)
      | split
      | (refine bytes_fst_eq (by assumption) ?_))

/-- `execIntr`. -/
theorem execIntr_bytes (d : Nat) (s : State) {s_ : State} (hks : SameMem s_ s) :
    SameMemO s_ (execIntr d s) := by
  unfold execIntr
  with_reducible
    repeat' (first
      | assumption
      | apply State_intrSend_bytes
      | apply bytesO_ite
      | apply bytesO_next
      | apply bytes_ite)

/-- `State.promptCluster`. -/
theorem State_promptCluster_bytes (s : State) (o : Option (Nat × Nat)) {s_ : State} (hks : SameMem s_ s) :
    SameMem s_ (State.promptCluster s o) := by
  unfold State.promptCluster
  with_reducible
    repeat' (first
      | assumption
      | apply State_powerOn_bytes
      | split)

/-- `State.regPrompt`. -/
theorem State_regPrompt_bytes (s : State) (a : Nat) {s_ : State} (hks : SameMem s_ s) :
    SameMem s_ (State.regPrompt s a) := by
  unfold State.regPrompt
  with_reducible
    repeat' (first
      | assumption
      | apply State_promptCluster_bytes)

/-- `State.i3cPut`. -/
theorem State_i3cPut_bytes (s : State) (st : Nat) (v : Word) {s_ : State} (hks : SameMem s_ s) :
    SameMem s_ (State.i3cPut s st v) := by
  unfold State.i3cPut
  with_reducible
    repeat' (first
      | assumption
      | apply State_updMod_bytes
      | (apply bytes_mk; assumption)
      | (intro _))

/-- `State.i3cStatus`. -/
theorem State_i3cStatus_bytes (s : State) (st : Nat) {s_ : State} (hks : SameMem s_ s) :
    SameMem s_ (State.i3cStatus s st) := by
  unfold State.i3cStatus
  with_reducible
    repeat' (first
      | assumption
      | apply State_fresh_bytes
      | apply State_i3cPut_bytes)

/-- `State.i3cReply`. -/
theorem State_i3cReply_bytes (s : State) (len : Nat) {s_ : State} (hks : SameMem s_ s) :
    SameMem s_ (State.i3cReply s len) := by
  unfold State.i3cReply
  with_reducible
    repeat' (first
      | assumption
      | lift_lets
      | (intro x; refine (fun (hx : SameMem s_ x) => ?_) ?_; clear_value x; rotate_left; unfold x; rotate_right)
      | (intro x; refine (fun (hx : SameMem s_ x.1) => ?_) ?_; clear_value x; rotate_left; unfold x; rotate_right)
      | (intro x; clear_value x)
      | apply State_emit_bytes
      | apply State_fresh_bytes
      | apply State_updMod_bytes
      | apply bytes_ite
      | (apply bytes_mk; assumption)
      | (intro _)
      | split
      | (refine bytes_fst_eq (by assumption) ?_))

/-- `State.common`. -/
theorem State_common_bytes (s : State) (y0 : Ccc) {s_ : State} (hks : SameMem s_ s) :
    SameMem s_ (State.common s y0) := by
  unfold State.common
  with_reducible
    repeat' (first
      | assumption
      | apply State_emit_bytes
      | apply State_fresh_bytes
      | apply State_updMod_bytes
      | apply State_i3cStatus_bytes
      | apply bytes_ite
      | (apply bytes_mk; assumption)
      | (intro _)
      | split
      | (refine bytes_fst_eq (by assumption) ?_))

/-- `execCommonCommand`. -/
theorem execCommonCommand_bytes (cmd : Ccc) (s : State) {s_ : State} (hks : SameMem s_ s) :
    SameMemO s_ (execCommonCommand cmd s) := by
  unfold execCommonCommand
  with_reducible
    repeat' (first
      | assumption
      | apply State_common_bytes
      | apply bytesO_ite
      | apply bytesO_next
      | apply bytes_ite)

/-- `State.idleClock`. -/
theorem State_idleClock_bytes (s : State) (d c : Nat) {s_ : State} (hks : SameMem s_ s) :
    SameMem s_ (State.idleClock s d c) := by
  unfold State.idleClock
  with_reducible
    repeat' (first
      | assumption
      | apply State_addRg_bytes
      | apply bytes_ite)

/-- `State.tickDie`. -/
theorem State_tickDie_bytes (s : State) (d : Nat) {s_ : State} (hks : SameMem s_ s) :
    SameMem s_ (State.tickDie s d) := by
  unfold State.tickDie
  with_reducible
    repeat' (first
      | assumption
      | lift_lets
      | (intro x; refine (fun (hx : SameMem s_ x) => ?_) ?_; clear_value x; rotate_left; unfold x; rotate_right)
      | (intro x; clear_value x)
      | apply forEach_bytes
      | apply State_updDie_bytes
      | apply State_advance_bytes
      | apply State_idleClock_bytes
      | apply bytes_ite
      | (intro _))

end Sys2Proof.Machine
end

