-- ==== Sys2Proof/Laws/KeepsCore.lean ====
section
/-! SUPPORT. What the shared operations keep: the part, the queue and the canonical form of what is stored. -/

set_option Elab.async false

namespace Sys2Proof.Machine

/-- `State.setRg` keeps them. -/
theorem State_setRg_keeps (s : State) (d : Nat) (b : Blk) (i f : Nat) (v : Word) {s_ : State} (hks : Keeps s_ s) :
    Keeps s_ (State.setRg s d b i f v) := by
  unfold State.setRg
  with_reducible
    repeat' (first
      | assumption
      | apply State_setReg_keeps)

/-- `State.setFld` keeps them. -/
theorem State_setFld_keeps (s : State) (d : Nat) (b : Blk) (i f lo n v : Nat) {s_ : State} (hks : Keeps s_ s) :
    Keeps s_ (State.setFld s d b i f lo n v) := by
  unfold State.setFld
  with_reducible
    repeat' (first
      | assumption
      | apply State_setRg_keeps)

/-- `State.addRg` keeps them. -/
theorem State_addRg_keeps (s : State) (d : Nat) (b : Blk) (i f k : Nat) {s_ : State} (hks : Keeps s_ s) :
    Keeps s_ (State.addRg s d b i f k) := by
  unfold State.addRg
  with_reducible
    repeat' (first
      | assumption
      | apply State_setRg_keeps)

/-- `State.poisonLine` keeps them. -/
theorem State_poisonLine_keeps (s : State) (n : Nat) {s_ : State} (hks : Keeps s_ s) :
    Keeps s_ (State.poisonLine s n) := by
  unfold State.poisonLine
  with_reducible
    repeat' (first
      | assumption
      | apply State_putSide_keeps)

/-- `State.mergeLine` keeps them. -/
theorem State_mergeLine_keeps (s : State) (n mask : Nat) (bs : List Byte) (sb : Word) {s_ : State} (hks : Keeps s_ s) :
    Keeps s_ (State.mergeLine s n mask bs sb) := by
  unfold State.mergeLine
  with_reducible
    repeat' (first
      | assumption
      | lift_lets
      | (intro x; refine (fun (hx : Keeps s_ x) => ?_) ?_; clear_value x; rotate_left; unfold x; rotate_right)
      | (intro x; clear_value x)
      | apply State_putLine_keeps)

/-- `State.mergeBare` keeps them. -/
theorem State_mergeBare_keeps (s : State) (n mask : Nat) (bs : List Byte) {s_ : State} (hks : Keeps s_ s) :
    Keeps s_ (State.mergeBare s n mask bs) := by
  unfold State.mergeBare
  with_reducible
    repeat' (first
      | assumption
      | lift_lets
      | (intro x; refine (fun (hx : Keeps s_ x) => ?_) ?_; clear_value x; rotate_left; unfold x; rotate_right)
      | (intro x; clear_value x)
      | apply State_putLine_keeps)

/-- `State.allocate` keeps them. -/
theorem State_allocate_keeps (s : State) (a : Nat) (dirty : Bool) {s_ : State} (hks : Keeps s_ s) :
    Keeps s_ (State.allocate s a dirty) := by
  unfold State.allocate
  with_reducible
    repeat' (first
      | assumption
      | lift_lets
      | (intro x; refine (fun (hx : Keeps s_ x) => ?_) ?_; clear_value x; rotate_left; unfold x; rotate_right)
      | (intro x; refine (fun (hx : Keeps s_ x.1) => ?_) ?_; clear_value x; rotate_left; unfold x; rotate_right)
      | (intro x; clear_value x)
      | apply State_updCel_keeps
      | apply State_addRg_keeps
      | apply keeps_ite
      | (apply keeps_mk; assumption)
      | (intro _))

/-- `State.touchRead` keeps them. -/
theorem State_touchRead_keeps (s : State) (a : Nat) {s_ : State} (hks : Keeps s_ s) :
    Keeps s_ (State.touchRead s a) := by
  unfold State.touchRead
  with_reducible
    repeat' (first
      | assumption
      | lift_lets
      | (intro x; refine (fun (hx : Keeps s_ x) => ?_) ?_; clear_value x; rotate_left; unfold x; rotate_right)
      | (intro x; refine (fun (hx : Keeps s_ x.1) => ?_) ?_; clear_value x; rotate_left; unfold x; rotate_right)
      | (intro x; clear_value x)
      | apply State_addRg_keeps
      | apply State_allocate_keeps
      | apply keeps_ite
      | (intro _))

/-- `State.touchWrite` keeps them. -/
theorem State_touchWrite_keeps (s : State) (a : Nat) (masked : Bool) {s_ : State} (hks : Keeps s_ s) :
    Keeps s_ (State.touchWrite s a masked) := by
  unfold State.touchWrite
  with_reducible
    repeat' (first
      | assumption
      | lift_lets
      | (intro x; refine (fun (hx : Keeps s_ x) => ?_) ?_; clear_value x; rotate_left; unfold x; rotate_right)
      | (intro x; refine (fun (hx : Keeps s_ x.1) => ?_) ?_; clear_value x; rotate_left; unfold x; rotate_right)
      | (intro x; clear_value x)
      | apply State_updCel_keeps
      | apply State_addRg_keeps
      | apply State_allocate_keeps
      | apply keeps_ite
      | (apply keeps_mk; assumption)
      | (intro _)
      | split
      | (refine keeps_fst_eq (by assumption) ?_))

/-- `State.writeAt` keeps them. -/
theorem State_writeAt_keeps (s : State) (a : Nat) (l : Line) {s_ : State} (hks : Keeps s_ s) :
    Keeps s_ (State.writeAt s a l) := by
  unfold State.writeAt
  with_reducible
    repeat' (first
      | assumption
      | lift_lets
      | (intro x; refine (fun (hx : Keeps s_ x) => ?_) ?_; clear_value x; rotate_left; unfold x; rotate_right)
      | (intro x; refine (fun (hx : Keeps s_ x.1) => ?_) ?_; clear_value x; rotate_left; unfold x; rotate_right)
      | (intro x; refine (fun (hx : ∀ y, Keeps s_ (x y)) => ?_) ?_; clear_value x; rotate_left; unfold x; rotate_right)
      | (intro x; clear_value x)
      | apply State_putLine_keeps
      | apply State_touchWrite_keeps
      | apply keeps_ite
      | apply keeps_ite1
      | (apply keeps_mk; first | assumption | apply State_putLine_keeps | apply State_touchWrite_keeps)
      | (intro _)
      | split
      | (dsimp only; split)
      | (refine keeps_fst_eq (by assumption) ?_))

/-- `State.mergeAt` keeps them. -/
theorem State_mergeAt_keeps (s : State) (a mask : Nat) (bs : List Byte) (sb : Word) {s_ : State} (hks : Keeps s_ s) :
    Keeps s_ (State.mergeAt s a mask bs sb) := by
  unfold State.mergeAt
  with_reducible
    repeat' (first
      | assumption
      | lift_lets
      | (intro x; refine (fun (hx : Keeps s_ x) => ?_) ?_; clear_value x; rotate_left; unfold x; rotate_right)
      | (intro x; refine (fun (hx : Keeps s_ x.1) => ?_) ?_; clear_value x; rotate_left; unfold x; rotate_right)
      | (intro x; refine (fun (hx : ∀ y, Keeps s_ (x y)) => ?_) ?_; clear_value x; rotate_left; unfold x; rotate_right)
      | (intro x; clear_value x)
      | apply State_mergeLine_keeps
      | apply State_touchWrite_keeps
      | apply keeps_ite
      | apply keeps_ite1
      | (apply keeps_mk; first | assumption | apply State_mergeLine_keeps | apply State_touchWrite_keeps)
      | (intro _)
      | split
      | (dsimp only; split)
      | (refine keeps_fst_eq (by assumption) ?_))

/-- `State.emit` keeps them. -/
theorem State_emit_keeps (s : State) (o : OutMsg) {s_ : State} (hks : Keeps s_ s) :
    Keeps s_ (State.emit s o) := by
  unfold State.emit
  with_reducible
    repeat' (first
      | assumption
      | (apply keeps_mk; assumption))

/-- `State.fresh` keeps them. -/
theorem State_fresh_keeps (s : State) {s_ : State} (hks : Keeps s_ s) :
    Keeps s_ (State.fresh s) := by
  unfold State.fresh
  with_reducible
    repeat' (first
      | assumption
      | (apply keeps_mk; assumption))

/-- `State.queueIntr` keeps them. -/
theorem State_queueIntr_keeps (s : State) (d v : Nat) {s_ : State} (hks : Keeps s_ s) :
    Keeps s_ (State.queueIntr s d v) := by
  unfold State.queueIntr
  with_reducible
    repeat' (first
      | assumption
      | apply State_updLink_keeps
      | (apply keeps_mk; assumption)
      | (intro _))

/-- `State.setStat` keeps them. -/
theorem State_setStat_keeps (s : State) (d : Nat) (b : Blk) (i : Nat) (bitsUp : Word) {s_ : State} (hks : Keeps s_ s) :
    Keeps s_ (State.setStat s d b i bitsUp) := by
  unfold State.setStat
  with_reducible
    repeat' (first
      | assumption
      | lift_lets
      | (intro x; refine (fun (hx : Keeps s_ x) => ?_) ?_; clear_value x; rotate_left; unfold x; rotate_right)
      | (intro x; clear_value x)
      | apply State_setRg_keeps
      | apply State_queueIntr_keeps
      | apply keeps_ite)

/-- `State.fillLog` keeps them. -/
theorem State_fillLog_keeps (s : State) (d : Nat) (b : Blk) (i : Nat) (log : Nat) {s_ : State} (hks : Keeps s_ s) :
    Keeps s_ (State.fillLog s d b i log) := by
  unfold State.fillLog
  with_reducible
    repeat' (first
      | assumption
      | apply State_setRg_keeps
      | apply keeps_ite)

/-- `State.noteClass` keeps them. -/
theorem State_noteClass_keeps (s : State) (d : Nat) (b : Blk) (i bit : Nat) (c : Cls) {s_ : State} (hks : Keeps s_ s) :
    Keeps s_ (State.noteClass s d b i bit c) := by
  unfold State.noteClass
  with_reducible
    repeat' (first
      | assumption
      | lift_lets
      | (intro x; refine (fun (hx : Keeps s_ x) => ?_) ?_; clear_value x; rotate_left; unfold x; rotate_right)
      | (intro x; clear_value x)
      | apply keeps_classes
      | (apply keeps_mk; assumption))

/-- `State.noteStop` keeps them. -/
theorem State_noteStop_keeps (s : State) (d : Nat) (b : Blk) (bit : Nat) (c : Cls) {s_ : State} (hks : Keeps s_ s) :
    Keeps s_ (State.noteStop s d b bit c) := by
  unfold State.noteStop
  with_reducible
    repeat' (first
      | assumption
      | apply State_updDie_keeps
      | apply keeps_ite
      | (apply keeps_mk; assumption)
      | (intro _))

/-- `State.cause` keeps them. -/
theorem State_cause_keeps (s : State) (d : Nat) (b : Blk) (i bit : Nat) (c : Cls) {s_ : State} (hks : Keeps s_ s) :
    Keeps s_ (State.cause s d b i bit c) := by
  unfold State.cause
  with_reducible
    repeat' (first
      | assumption
      | apply State_setStat_keeps
      | apply State_noteClass_keeps
      | apply State_noteStop_keeps)

/-- `State.raise` keeps them. -/
theorem State_raise_keeps (s : State) (d : Nat) (b : Blk) (i bit : Nat) (c : Cls) (log : Nat) {s_ : State} (hks : Keeps s_ s) :
    Keeps s_ (State.raise s d b i bit c log) := by
  unfold State.raise
  with_reducible
    repeat' (first
      | assumption
      | apply State_fillLog_keeps
      | apply State_cause_keeps)

/-- `State.configBusy` keeps them. -/
theorem State_configBusy_keeps (s : State) (d : Nat) (b : Blk) (i : Nat) {s_ : State} (hks : Keeps s_ s) :
    Keeps s_ (State.configBusy s d b i) := by
  unfold State.configBusy
  with_reducible
    repeat' (first
      | assumption
      | apply State_setRg_keeps)

/-- `State.forgetClasses` keeps them. -/
theorem State_forgetClasses_keeps (s : State) (d : Nat) (b : Blk) (i : Nat) (stat : Word) {s_ : State} (hks : Keeps s_ s) :
    Keeps s_ (State.forgetClasses s d b i stat) := by
  unfold State.forgetClasses
  with_reducible
    repeat' (first
      | assumption
      | apply forEach_keeps
      | apply keeps_classes
      | (apply keeps_mk; assumption)
      | (intro _))

/-- `State.clearStat` keeps them. -/
theorem State_clearStat_keeps (s : State) (d : Nat) (b : Blk) (i : Nat) (v : Word) {s_ : State} (hks : Keeps s_ s) :
    Keeps s_ (State.clearStat s d b i v) := by
  unfold State.clearStat
  with_reducible
    repeat' (first
      | assumption
      | lift_lets
      | (intro x; refine (fun (hx : Keeps s_ x) => ?_) ?_; clear_value x; rotate_left; unfold x; rotate_right)
      | (intro x; clear_value x)
      | apply State_setRg_keeps
      | apply State_forgetClasses_keeps
      | apply foldl_keeps
      | apply foldl_keeps1
      | apply keeps_ite
      | (intro _))

/-- `State.writeMask` keeps them. -/
theorem State_writeMask_keeps (s : State) (d : Nat) (b : Blk) (i : Nat) (v : Word) {s_ : State} (hks : Keeps s_ s) :
    Keeps s_ (State.writeMask s d b i v) := by
  unfold State.writeMask
  with_reducible
    repeat' (first
      | assumption
      | lift_lets
      | (intro x; refine (fun (hx : Keeps s_ x) => ?_) ?_; clear_value x; rotate_left; unfold x; rotate_right)
      | (intro x; clear_value x)
      | apply State_setRg_keeps
      | apply State_queueIntr_keeps
      | apply keeps_ite)

/-- `State.setLk` keeps them. -/
theorem State_setLk_keeps (s : State) (d st : Nat) {s_ : State} (hks : Keeps s_ s) :
    Keeps s_ (State.setLk s d st) := by
  unfold State.setLk
  with_reducible
    repeat' (first
      | assumption
      | lift_lets
      | (intro x; refine (fun (hx : Keeps s_ x) => ?_) ?_; clear_value x; rotate_left; unfold x; rotate_right)
      | (intro x; clear_value x)
      | apply State_setFld_keeps
      | apply keeps_ite)

/-- `State.aglCnt` keeps them. -/
theorem State_aglCnt_keeps (s : State) (d k n : Nat) {s_ : State} (hks : Keeps s_ s) :
    Keeps s_ (State.aglCnt s d k n) := by
  unfold State.aglCnt
  with_reducible
    repeat' (first
      | assumption
      | apply State_addRg_keeps)

/-- `State.injected` keeps them. -/
theorem State_injected_keeps (s : State) (d u : Nat) (l : Line) {s_ : State} (hks : Keeps s_ s) :
    Keeps s_ (State.injected s d u l).1 := by
  unfold State.injected
  with_reducible
    repeat' (first
      | assumption
      | apply State_updDie_keeps
      | apply keeps_ite1
      | apply keeps_ite
      | (apply keeps_mk; assumption)
      | (intro _))

/-- `State.exitLine` keeps them. -/
theorem State_exitLine_keeps (s : State) (d u : Nat) (src : Option Nat) (l : Line) {s_ : State} (hks : Keeps s_ s) :
    Keeps s_ (State.exitLine s d u src l).1 := by
  unfold State.exitLine
  with_reducible
    repeat' (first
      | assumption
      | lift_lets
      | (intro x; refine (fun (hx : Keeps s_ x) => ?_) ?_; clear_value x; rotate_left; unfold x; rotate_right)
      | (intro x; clear_value x)
      | apply State_poisonLine_keeps
      | apply State_raise_keeps
      | apply State_injected_keeps
      | apply keeps_ite1
      | apply keeps_ite
      | (apply keeps_mk; assumption)
      | split
      | (refine keeps_fst_eq (by assumption) ?_))

/-- `State.emitFlit` keeps them. -/
theorem State_emitFlit_keeps (s : State) (d : Nat) (f : Flit) {s_ : State} (hks : Keeps s_ s) :
    Keeps s_ (State.emitFlit s d f) := by
  unfold State.emitFlit
  with_reducible
    repeat' (first
      | assumption
      | apply State_emit_keeps
      | apply State_aglCnt_keeps)

/-- `State.sendFlit` keeps them. -/
theorem State_sendFlit_keeps (s : State) (d : Nat) (m : Option LMsg) {s_ : State} (hks : Keeps s_ s) :
    Keeps s_ (State.sendFlit s d m) := by
  unfold State.sendFlit
  with_reducible
    repeat' (first
      | assumption
      | lift_lets
      | (intro x; refine (fun (hx : Keeps s_ x) => ?_) ?_; clear_value x; rotate_left; unfold x; rotate_right)
      | (intro x; clear_value x)
      | apply State_putLink_keeps
      | apply State_emitFlit_keeps
      | (apply keeps_mk; assumption)
      | split
      | (refine keeps_fst_eq (by assumption) ?_))

/-- `State.pumpLink` keeps them. -/
theorem State_pumpLink_keeps (d : Nat) (y0 : Nat) (y1 : State) {s_ : State} (hk_ : Keeps s_ y1) :
    Keeps s_ (State.pumpLink d y0 y1) := by
  induction y0 generalizing y1 with
  | zero =>
    unfold State.pumpLink
    with_reducible
      repeat' (first
        | assumption
        | apply State_updLink_keeps
        | apply State_sendFlit_keeps
        | (apply keeps_mk; assumption)
        | (intro _)
        | split
        | (refine keeps_fst_eq (by assumption) ?_))
  | succ _ ih =>
    unfold State.pumpLink
    with_reducible
      repeat' (first
        | assumption
        | apply ih
        | apply State_updLink_keeps
        | apply State_sendFlit_keeps
        | (apply keeps_mk; assumption)
        | (intro _)
        | split
        | (refine keeps_fst_eq (by assumption) ?_))

/-- `State.sendMsg` keeps them. -/
theorem State_sendMsg_keeps (s : State) (d : Nat) (m : LMsg) {s_ : State} (hks : Keeps s_ s) :
    Keeps s_ (State.sendMsg s d m) := by
  unfold State.sendMsg
  with_reducible
    repeat' (first
      | assumption
      | lift_lets
      | (intro x; refine (fun (hx : Keeps s_ x) => ?_) ?_; clear_value x; rotate_left; unfold x; rotate_right)
      | (intro x; clear_value x)
      | apply State_updLink_keeps
      | apply State_pumpLink_keeps
      | (apply keeps_mk; assumption)
      | (intro _))

/-- `State.respond` keeps them. -/
theorem State_respond_keeps (s : State) (d : Nat) (m : LMsg) {s_ : State} (hks : Keeps s_ s) :
    Keeps s_ (State.respond s d m) := by
  unfold State.respond
  with_reducible
    repeat' (first
      | assumption
      | lift_lets
      | (intro x; refine (fun (hx : Keeps s_ x) => ?_) ?_; clear_value x; rotate_left; unfold x; rotate_right)
      | (intro x; clear_value x)
      | apply State_aglCnt_keeps
      | apply State_sendMsg_keeps
      | apply keeps_ite)

/-- `State.hostReq` keeps them. -/
theorem State_hostReq_keeps (s : State) (d opc la : Nat) (pay : Nat → List Byte) (own : HOwner) {s_ : State} (hks : Keeps s_ s) :
    Keeps s_ (State.hostReq s d opc la pay own).1 := by
  unfold State.hostReq
  with_reducible
    repeat' (first
      | assumption
      | lift_lets
      | (intro x; refine (fun (hx : Keeps s_ x) => ?_) ?_; clear_value x; rotate_left; unfold x; rotate_right)
      | (intro x; clear_value x)
      | apply State_putLink_keeps
      | apply State_sendMsg_keeps
      | apply keeps_ite1
      | apply keeps_ite
      | (apply keeps_mk; assumption))

/-- `State.hostRead` keeps them. -/
theorem State_hostRead_keeps (s : State) (d la : Nat) (own : HOwner) {s_ : State} (hks : Keeps s_ s) :
    Keeps s_ (State.hostRead s d la own).1 := by
  unfold State.hostRead
  with_reducible
    repeat' (first
      | assumption
      | apply State_hostReq_keeps
      | (intro _))

/-- `State.hostWrite` keeps them. -/
theorem State_hostWrite_keeps (s : State) (d la : Nat) (src : Option Nat) (l : Line) (own : HOwner) {s_ : State} (hks : Keeps s_ s) :
    Keeps s_ (State.hostWrite s d la src l own).1 := by
  unfold State.hostWrite
  with_reducible
    repeat' (first
      | assumption
      | lift_lets
      | (intro x; refine (fun (hx : Keeps s_ x) => ?_) ?_; clear_value x; rotate_left; unfold x; rotate_right)
      | (intro x; clear_value x)
      | apply State_exitLine_keeps
      | apply State_hostReq_keeps
      | apply keeps_ite1
      | apply keeps_ite)

/-- `State.hostMerge` keeps them. -/
theorem State_hostMerge_keeps (s : State) (d c k la mask : Nat) (bs : List Byte) (own : HOwner) {s_ : State} (hks : Keeps s_ s) :
    Keeps s_ (State.hostMerge s d c k la mask bs own).1 := by
  unfold State.hostMerge
  with_reducible
    repeat' (first
      | assumption
      | lift_lets
      | (intro x; refine (fun (hx : Keeps s_ x) => ?_) ?_; clear_value x; rotate_left; unfold x; rotate_right)
      | (intro x; clear_value x)
      | apply State_hostReq_keeps
      | apply State_hostRead_keeps
      | apply keeps_ite1
      | apply keeps_ite
      | (intro _))

/-- `State.sendSnoop` keeps them. -/
theorem State_sendSnoop_keeps (s : State) (kind ln : Nat) {s_ : State} (hks : Keeps s_ s) :
    Keeps s_ (State.sendSnoop s kind ln) := by
  unfold State.sendSnoop
  with_reducible
    repeat' (first
      | assumption
      | lift_lets
      | (intro x; refine (fun (hx : Keeps s_ x) => ?_) ?_; clear_value x; rotate_left; unfold x; rotate_right)
      | (intro x; refine (fun (hx : Keeps s_ x.1) => ?_) ?_; clear_value x; rotate_left; unfold x; rotate_right)
      | (intro x; refine (fun (hx : ∀ y, Keeps s_ (x y)) => ?_) ?_; clear_value x; rotate_left; unfold x; rotate_right)
      | (intro x; clear_value x)
      | apply State_putLink_keeps
      | apply State_aglCnt_keeps
      | apply State_sendMsg_keeps
      | apply keeps_ite
      | apply keeps_ite1
      | (apply keeps_mk; first | assumption | apply State_putLink_keeps | apply State_aglCnt_keeps | apply State_sendMsg_keeps)
      | (intro _)
      | split
      | (dsimp only; split)
      | (refine keeps_fst_eq (by assumption) ?_))

/-- `State.snoopAll` keeps them. -/
theorem State_snoopAll_keeps (s : State) (acc : List (Nat × Nat)) {s_ : State} (hks : Keeps s_ s) :
    Keeps s_ (State.snoopAll s acc) := by
  unfold State.snoopAll
  with_reducible
    repeat' (first
      | assumption
      | apply forEach_keeps
      | apply State_sendSnoop_keeps
      | (intro _))

/-- `State.endSnoop` keeps them. -/
theorem State_endSnoop_keeps (s : State) (pd : Nat) (x : Snoop) {s_ : State} (hks : Keeps s_ s) :
    Keeps s_ (State.endSnoop s pd x) := by
  unfold State.endSnoop
  with_reducible
    repeat' (first
      | assumption
      | apply State_updLink_keeps
      | apply keeps_ite
      | (intro _))

/-- `State.updMod` keeps them. -/
theorem State_updMod_keeps (s : State) (f : ModCtl → ModCtl) {s_ : State} (hks : Keeps s_ s) :
    Keeps s_ (State.updMod s f) := by
  unfold State.updMod
  with_reducible
    repeat' (first
      | assumption
      | (apply keeps_mk; assumption))

/-- `State.setRailSt` keeps them. -/
theorem State_setRailSt_keeps (s : State) (d p v : Nat) {s_ : State} (hks : Keeps s_ s) :
    Keeps s_ (State.setRailSt s d p v) := by
  unfold State.setRailSt
  with_reducible
    repeat' (first
      | assumption
      | apply State_setFld_keeps)

/-- `State.setLogical` keeps them. -/
theorem State_setLogical_keeps (s : State) (d p l : Nat) {s_ : State} (hks : Keeps s_ s) :
    Keeps s_ (State.setLogical s d p l) := by
  unfold State.setLogical
  with_reducible
    repeat' (first
      | assumption
      | apply State_setFld_keeps)

/-- `State.modRaise` keeps them. -/
theorem State_modRaise_keeps (s : State) (bit cause d unit : Nat) (c : Cls) {s_ : State} (hks : Keeps s_ s) :
    Keeps s_ (State.modRaise s bit cause d unit c) := by
  unfold State.modRaise
  with_reducible
    repeat' (first
      | assumption
      | apply State_cause_keeps
      | apply State_raise_keeps)

/-- `State.repairDue` keeps them. -/
theorem State_repairDue_keeps (s : State) (d : Nat) {s_ : State} (hks : Keeps s_ s) :
    Keeps s_ (State.repairDue s d) := by
  unfold State.repairDue
  with_reducible
    repeat' (first
      | assumption
      | apply State_updMod_keeps
      | apply keeps_ite
      | (apply keeps_mk; assumption)
      | (intro _))

/-- `State.spareDue` keeps them. -/
theorem State_spareDue_keeps (s : State) {s_ : State} (hks : Keeps s_ s) :
    Keeps s_ (State.spareDue s) := by
  unfold State.spareDue
  with_reducible
    repeat' (first
      | assumption
      | apply State_setStat_keeps)

/-- `State.noSpare` keeps them. -/
theorem State_noSpare_keeps (s : State) (d unit : Nat) {s_ : State} (hks : Keeps s_ s) :
    Keeps s_ (State.noSpare s d unit) := by
  unfold State.noSpare
  with_reducible
    repeat' (first
      | assumption
      | apply State_modRaise_keeps)

/-- `State.evidence` keeps them. -/
theorem State_evidence_keeps (s : State) (key win : Nat) {s_ : State} (hks : Keeps s_ s) :
    Keeps s_ (State.evidence s key win).1 := by
  unfold State.evidence
  with_reducible
    repeat' (first
      | assumption
      | lift_lets
      | (intro x; refine (fun (hx : Keeps s_ x) => ?_) ?_; clear_value x; rotate_left; unfold x; rotate_right)
      | (intro x; refine (fun (hx : Keeps s_ x.1) => ?_) ?_; clear_value x; rotate_left; unfold x; rotate_right)
      | (intro x; clear_value x)
      | apply State_updMod_keeps
      | (apply keeps_mk; assumption)
      | (intro _))

/-- `State.startSwitch` keeps them. -/
theorem State_startSwitch_keeps (s : State) (d l p k : Nat) (test : Bool) {s_ : State} (hks : Keeps s_ s) :
    Keeps s_ (State.startSwitch s d l p k test) := by
  unfold State.startSwitch
  with_reducible
    repeat' (first
      | assumption
      | lift_lets
      | (intro x; refine (fun (hx : Keeps s_ x) => ?_) ?_; clear_value x; rotate_left; unfold x; rotate_right)
      | (intro x; clear_value x)
      | apply State_setFld_keeps
      | apply State_updMod_keeps
      | apply State_setRailSt_keeps
      | (apply keeps_mk; assumption)
      | (intro _))

/-- `State.markAbsent` keeps them. -/
theorem State_markAbsent_keeps (s : State) (d l p : Nat) {s_ : State} (hks : Keeps s_ s) :
    Keeps s_ (State.markAbsent s d l p) := by
  unfold State.markAbsent
  with_reducible
    repeat' (first
      | assumption
      | apply State_updPh_keeps
      | apply State_updMod_keeps
      | apply State_setLogical_keeps
      | apply State_repairDue_keeps
      | (apply keeps_mk; assumption)
      | (intro _))

/-- `State.noClusterSpare` keeps them. -/
theorem State_noClusterSpare_keeps (s : State) (d l p : Nat) {s_ : State} (hks : Keeps s_ s) :
    Keeps s_ (State.noClusterSpare s d l p) := by
  unfold State.noClusterSpare
  with_reducible
    repeat' (first
      | assumption
      | lift_lets
      | (intro x; refine (fun (hx : Keeps s_ x) => ?_) ?_; clear_value x; rotate_left; unfold x; rotate_right)
      | (intro x; clear_value x)
      | apply State_noSpare_keeps
      | apply State_markAbsent_keeps
      | apply keeps_ite)

/-- `State.clNeed` keeps them. -/
theorem State_clNeed_keeps (s : State) (d l : Nat) {s_ : State} (hks : Keeps s_ s) :
    Keeps s_ (State.clNeed s d l) := by
  unfold State.clNeed
  with_reducible
    repeat' (first
      | assumption
      | apply State_startSwitch_keeps
      | apply State_noClusterSpare_keeps
      | split)

/-- `State.clTrigger` keeps them. -/
theorem State_clTrigger_keeps (s : State) (d l : Nat) {s_ : State} (hks : Keeps s_ s) :
    Keeps s_ (State.clTrigger s d l) := by
  unfold State.clTrigger
  with_reducible
    repeat' (first
      | assumption
      | apply State_updMod_keeps
      | apply State_spareDue_keeps
      | apply State_clNeed_keeps
      | apply keeps_ite
      | (apply keeps_mk; assumption)
      | (intro _)
      | split
      | (refine keeps_fst_eq (by assumption) ?_))

/-- `State.physTrigger` keeps them. -/
theorem State_physTrigger_keeps (s : State) (d p : Nat) {s_ : State} (hks : Keeps s_ s) :
    Keeps s_ (State.physTrigger s d p) := by
  unfold State.physTrigger
  with_reducible
    repeat' (first
      | assumption
      | apply State_clTrigger_keeps
      | apply keeps_ite)

/-- `State.runDue` keeps them. -/
theorem State_runDue_keeps (y0 : List Nat) (y1 : State) {s_ : State} (hk_ : Keeps s_ y1) :
    Keeps s_ (State.runDue y0 y1) := by
  induction y0 generalizing y1 with
  | nil =>
    unfold State.runDue
    with_reducible
      repeat' (first
        | assumption
        | lift_lets
        | (intro x; refine (fun (hx : Keeps s_ x) => ?_) ?_; clear_value x; rotate_left; unfold x; rotate_right)
        | (intro x; clear_value x)
        | apply State_updMod_keeps
        | apply State_clNeed_keeps
        | apply keeps_ite
        | (apply keeps_mk; assumption)
        | (intro _)
        | split
        | (refine keeps_fst_eq (by assumption) ?_))
  | cons _ _ ih =>
    unfold State.runDue
    with_reducible
      repeat' (first
        | assumption
        | apply ih
        | lift_lets
        | (intro x; refine (fun (hx : Keeps s_ x) => ?_) ?_; clear_value x; rotate_left; unfold x; rotate_right)
        | (intro x; clear_value x)
        | apply State_updMod_keeps
        | apply State_clNeed_keeps
        | apply keeps_ite
        | (apply keeps_mk; assumption)
        | (intro _)
        | split
        | (refine keeps_fst_eq (by assumption) ?_))

/-- `State.spareEnd` keeps them. -/
theorem State_spareEnd_keeps (s : State) (code : Nat) {s_ : State} (hks : Keeps s_ s) :
    Keeps s_ (State.spareEnd s code) := by
  unfold State.spareEnd
  with_reducible
    repeat' (first
      | assumption
      | lift_lets
      | (intro x; refine (fun (hx : Keeps s_ x) => ?_) ?_; clear_value x; rotate_left; unfold x; rotate_right)
      | (intro x; clear_value x)
      | apply State_setRg_keeps
      | apply State_updMod_keeps
      | apply State_runDue_keeps
      | (apply keeps_mk; assumption)
      | (intro _))

/-- `State.spareNext` keeps them. -/
theorem State_spareNext_keeps (s : State) (d l p : Nat) (t : Bool) (o : Option Nat) {s_ : State} (hks : Keeps s_ s) :
    Keeps s_ (State.spareNext s d l p t o) := by
  unfold State.spareNext
  with_reducible
    repeat' (first
      | assumption
      | apply State_updCl_keeps
      | apply State_startSwitch_keeps
      | apply State_noClusterSpare_keeps
      | apply State_spareEnd_keeps
      | apply keeps_ite
      | (apply keeps_mk; assumption)
      | (intro _)
      | split
      | (refine keeps_fst_eq (by assumption) ?_))

/-- `State.spareFailed` keeps them. -/
theorem State_spareFailed_keeps (s : State) {s_ : State} (hks : Keeps s_ s) :
    Keeps s_ (State.spareFailed s) := by
  unfold State.spareFailed
  with_reducible
    repeat' (first
      | assumption
      | lift_lets
      | (intro x; refine (fun (hx : Keeps s_ x) => ?_) ?_; clear_value x; rotate_left; unfold x; rotate_right)
      | (intro x; refine (fun (hx : Keeps s_ x.1) => ?_) ?_; clear_value x; rotate_left; unfold x; rotate_right)
      | (intro x; refine (fun (hx : ∀ y, Keeps s_ (x y)) => ?_) ?_; clear_value x; rotate_left; unfold x; rotate_right)
      | (intro x; clear_value x)
      | apply State_updPh_keeps
      | apply State_setRailSt_keeps
      | apply State_modRaise_keeps
      | apply State_repairDue_keeps
      | apply State_spareNext_keeps
      | apply keeps_ite
      | apply keeps_ite1
      | (apply keeps_mk; first | assumption | apply State_updPh_keeps | apply State_setRailSt_keeps | apply State_modRaise_keeps | apply State_repairDue_keeps | apply State_spareNext_keeps)
      | (intro _)
      | split
      | (dsimp only; split)
      | (refine keeps_fst_eq (by assumption) ?_))

/-- `State.residueEvent` keeps them. -/
theorem State_residueEvent_keeps (s : State) (d l : Nat) {s_ : State} (hks : Keeps s_ s) :
    Keeps s_ (State.residueEvent s d l) := by
  unfold State.residueEvent
  with_reducible
    repeat' (first
      | assumption
      | lift_lets
      | (intro x; refine (fun (hx : Keeps s_ x) => ?_) ?_; clear_value x; rotate_left; unfold x; rotate_right)
      | (intro x; refine (fun (hx : Keeps s_ x.1) => ?_) ?_; clear_value x; rotate_left; unfold x; rotate_right)
      | (intro x; clear_value x)
      | apply State_evidence_keeps
      | apply State_clTrigger_keeps
      | apply keeps_ite
      | split
      | (refine keeps_fst_eq (by assumption) ?_))

/-- `State.writeDigest` keeps them. -/
theorem State_writeDigest_keeps (s : State) (d c h : Nat) (complete : Bool) {s_ : State} (hks : Keeps s_ s) :
    Keeps s_ (State.writeDigest s d c h complete) := by
  unfold State.writeDigest
  with_reducible
    repeat' (first
      | assumption
      | lift_lets
      | (intro x; refine (fun (hx : Keeps s_ x) => ?_) ?_; clear_value x; rotate_left; unfold x; rotate_right)
      | (intro x; clear_value x)
      | apply State_writeAt_keeps
      | apply keeps_ite
      | (intro _)
      | split
      | (refine keeps_fst_eq (by assumption) ?_))

/-- `State.dropFlight` keeps them. -/
theorem State_dropFlight_keeps (s : State) (id : Nat) {s_ : State} (hks : Keeps s_ s) :
    Keeps s_ (State.dropFlight s id) := by
  exact hks.trans ⟨rfl, rfl, fun w => w, fun w f hf => w f (List.mem_filter.1 hf).1⟩

/-- `State.abandonChan` keeps them. -/
theorem State_abandonChan_keeps (s : State) (d c h : Nat) {s_ : State} (hks : Keeps s_ s) :
    Keeps s_ (State.abandonChan s d c h) := by
  unfold State.abandonChan
  with_reducible
    repeat' (first
      | assumption
      | (intro _)
      | dsimp only
      | split
      | apply forEach_keeps
      | apply State_updChan_keeps
      | apply State_poisonLine_keeps
      | apply State_writeDigest_keeps
      | apply State_dropFlight_keeps
      | apply keeps_ite
      | (apply keeps_mk; assumption)
      | (refine keeps_fst_eq (by assumption) ?_))

/-- `State.abandonCtx` keeps them. -/
theorem State_abandonCtx_keeps (s : State) (d c : Nat) {s_ : State} (hks : Keeps s_ s) :
    Keeps s_ (State.abandonCtx s d c) := by
  unfold State.abandonCtx
  with_reducible
    repeat' (first
      | assumption
      | apply forEach_keeps
      | apply State_abandonChan_keeps
      | (intro _))

/-- `State.trapDies` keeps them. -/
theorem State_trapDies_keeps (s : State) (c : Nat) {s_ : State} (hks : Keeps s_ s) :
    Keeps s_ (State.trapDies s c) := by
  unfold State.trapDies
  with_reducible
    repeat' (first
      | assumption
      | apply forEach_keeps
      | apply State_updCtx_keeps
      | apply State_abandonCtx_keeps
      | apply keeps_ite
      | (apply keeps_mk; assumption)
      | (intro _))

/-- `State.trap` keeps them. -/
theorem State_trap_keeps (s : State) (c : Nat) (r : TrapRec) {s_ : State} (hks : Keeps s_ s) :
    Keeps s_ (State.trap s c r) := by
  unfold State.trap
  with_reducible
    repeat' (first
      | assumption
      | apply State_updHc_keeps
      | apply State_trapDies_keeps
      | (apply keeps_mk; assumption)
      | (intro _)
      | split
      | (refine keeps_fst_eq (by assumption) ?_))

/-- `State.moreTraps` keeps them. -/
theorem State_moreTraps_keeps (s : State) (c n : Nat) {s_ : State} (hks : Keeps s_ s) :
    Keeps s_ (State.moreTraps s c n) := by
  unfold State.moreTraps
  with_reducible
    repeat' (first
      | assumption
      | apply State_updHc_keeps
      | apply keeps_ite
      | (apply keeps_mk; assumption)
      | (intro _))

/-- `State.updFlight` keeps them. -/
theorem State_updFlight_keeps (s : State) (id : Nat) (g : Flight → Flight) {s_ : State} (hks : Keeps s_ s) :
    Keeps s_ (State.updFlight s id g) := by
  refine hks.trans ⟨rfl, rfl, fun w => w, fun w f hf => ?_⟩
  obtain ⟨e, he, rfl⟩ := List.mem_map.1 (show f ∈ s.flights.map _ from hf)
  split
  · exact w e he
  · exact w e he

/-- `State.failFlight` keeps them. -/
theorem State_failFlight_keeps (s : State) (id : Nat) {s_ : State} (hks : Keeps s_ s) :
    Keeps s_ (State.failFlight s id) := by
  unfold State.failFlight
  with_reducible
    repeat' (first
      | assumption
      | apply forEach_keeps
      | apply State_poisonLine_keeps
      | apply State_updHc_keeps
      | apply State_updFlight_keeps
      | (apply keeps_mk; assumption)
      | (intro _)
      | split
      | (refine keeps_fst_eq (by assumption) ?_))

/-- `State.engTrap` keeps them. -/
theorem State_engTrap_keeps (s : State) (f : Flight) (cause bit w2 w3 : Nat) {s_ : State} (hks : Keeps s_ s) :
    Keeps s_ (State.engTrap s f cause bit w2 w3) := by
  unfold State.engTrap
  with_reducible
    repeat' (first
      | assumption
      | lift_lets
      | (intro x; refine (fun (hx : Keeps s_ x) => ?_) ?_; clear_value x; rotate_left; unfold x; rotate_right)
      | (intro x; clear_value x)
      | apply State_cause_keeps
      | apply State_raise_keeps
      | apply State_trap_keeps
      | apply State_failFlight_keeps)

/-- `State.formatDet` keeps them. -/
theorem State_formatDet_keeps (s : State) (r : FRec) {s_ : State} (hks : Keeps s_ s) :
    Keeps s_ (State.formatDet s r).1 := by
  unfold State.formatDet
  with_reducible
    repeat' (first
      | assumption
      | lift_lets
      | (intro x; refine (fun (hx : Keeps s_ x) => ?_) ?_; clear_value x; rotate_left; unfold x; rotate_right)
      | (intro x; refine (fun (hx : Keeps s_ x.1) => ?_) ?_; clear_value x; rotate_left; unfold x; rotate_right)
      | (intro x; clear_value x)
      | apply State_fresh_keeps
      | apply keeps_ite1
      | apply keeps_ite
      | split
      | (refine keeps_fst_eq (by assumption) ?_))

/-- `State.redTrap` keeps them. -/
theorem State_redTrap_keeps (s : State) (d c h fid cause level st w2 w3 : Nat) {s_ : State} (hks : Keeps s_ s) :
    Keeps s_ (State.redTrap s d c h fid cause level st w2 w3) := by
  unfold State.redTrap
  with_reducible
    repeat' (first
      | assumption
      | lift_lets
      | (intro x; refine (fun (hx : Keeps s_ x) => ?_) ?_; clear_value x; rotate_left; unfold x; rotate_right)
      | (intro x; clear_value x)
      | apply State_setRg_keeps
      | apply State_cause_keeps
      | apply State_trap_keeps
      | apply keeps_ite)

/-- `State.redFail` keeps them. -/
theorem State_redFail_keeps (s : State) (d c h fid level st ga : Nat) {s_ : State} (hks : Keeps s_ s) :
    Keeps s_ (State.redFail s d c h fid level st ga) := by
  unfold State.redFail
  with_reducible
    repeat' (first
      | assumption
      | apply State_redTrap_keeps)

/-- `State.failOwner` keeps them. -/
theorem State_failOwner_keeps (s : State) (d : Nat) (t : TagEnt) (st : Nat) {s_ : State} (hks : Keeps s_ s) :
    Keeps s_ (State.failOwner s d t st) := by
  unfold State.failOwner
  with_reducible
    repeat' (first
      | assumption
      | lift_lets
      | (intro x; refine (fun (hx : Keeps s_ x) => ?_) ?_; clear_value x; rotate_left; unfold x; rotate_right)
      | (intro x; refine (fun (hx : Keeps s_ x.1) => ?_) ?_; clear_value x; rotate_left; unfold x; rotate_right)
      | (intro x; refine (fun (hx : ∀ y, Keeps s_ (x y)) => ?_) ?_; clear_value x; rotate_left; unfold x; rotate_right)
      | (intro x; clear_value x)
      | apply State_cause_keeps
      | apply State_respond_keeps
      | apply State_trap_keeps
      | apply State_updFlight_keeps
      | apply State_engTrap_keeps
      | apply State_formatDet_keeps
      | apply State_redFail_keeps
      | apply keeps_ite
      | apply keeps_ite1
      | (apply keeps_mk; first | assumption | apply State_cause_keeps | apply State_respond_keeps | apply State_trap_keeps | apply State_updFlight_keeps | apply State_engTrap_keeps | apply State_formatDet_keeps | apply State_redFail_keeps)
      | (intro _)
      | split
      | (dsimp only; split)
      | (refine keeps_fst_eq (by assumption) ?_))

/-- `State.enqueue` keeps them. -/
theorem State_enqueue_keeps (s : State) (x : Nat × Nat) (cls : Nat) (r : FRec) {s_ : State} (hks : Keeps s_ s) :
    Keeps s_ (State.enqueue s x cls r) := by
  unfold State.enqueue
  with_reducible
    repeat' (first
      | assumption
      | apply State_updPort_keeps
      | (apply keeps_mk; assumption)
      | (intro _))

/-- `State.forward` keeps them. -/
theorem State_forward_keeps (s : State) (d cls : Nat) (r : FRec) {s_ : State} (hks : Keeps s_ s) :
    Keeps s_ (State.forward s d cls r).1 := by
  unfold State.forward
  with_reducible
    repeat' (first
      | assumption
      | lift_lets
      | (intro x; refine (fun (hx : Keeps s_ x) => ?_) ?_; clear_value x; rotate_left; unfold x; rotate_right)
      | (intro x; clear_value x)
      | apply State_updRouter_keeps
      | apply State_enqueue_keeps
      | apply keeps_ite1
      | apply keeps_ite
      | (apply keeps_mk; assumption)
      | (intro _)
      | split
      | (refine keeps_fst_eq (by assumption) ?_))

/-- `State.keepMembers` keeps them. -/
theorem State_keepMembers_keeps (s : State) (d : Nat) (r : FRec) (ms : List FRec) {s_ : State} (hks : Keeps s_ s) :
    Keeps s_ (State.keepMembers s d r ms) := by
  unfold State.keepMembers
  with_reducible
    repeat' (first
      | assumption
      | apply State_updRouter_keeps
      | apply keeps_ite
      | (apply keeps_mk; assumption)
      | (intro _))

/-- `State.blend` keeps them. -/
theorem State_blend_keeps (s : State) (d cls : Nat) (r : FRec) {s_ : State} (hks : Keeps s_ s) :
    Keeps s_ (State.blend s d cls r).1 := by
  unfold State.blend
  with_reducible
    repeat' (first
      | assumption
      | lift_lets
      | (intro x; refine (fun (hx : Keeps s_ x) => ?_) ?_; clear_value x; rotate_left; unfold x; rotate_right)
      | (intro x; refine (fun (hx : Keeps s_ x.1) => ?_) ?_; clear_value x; rotate_left; unfold x; rotate_right)
      | (intro x; clear_value x)
      | apply State_putRouter_keeps
      | apply State_addRg_keeps
      | apply State_forward_keeps
      | apply State_keepMembers_keeps
      | apply keeps_ite1
      | apply keeps_ite
      | (apply keeps_mk; assumption)
      | (intro _)
      | split
      | (refine keeps_fst_eq (by assumption) ?_))

/-- `State.launch` keeps them. -/
theorem State_launch_keeps (s : State) (d : Nat) (own : Owner) (r : FRec) {s_ : State} (hks : Keeps s_ s) :
    Keeps s_ (State.launch s d own r) := by
  unfold State.launch
  with_reducible
    repeat' (first
      | assumption
      | lift_lets
      | (intro x; refine (fun (hx : Keeps s_ x) => ?_) ?_; clear_value x; rotate_left; unfold x; rotate_right)
      | (intro x; refine (fun (hx : Keeps s_ x.1) => ?_) ?_; clear_value x; rotate_left; unfold x; rotate_right)
      | (intro x; clear_value x)
      | apply State_putRouter_keeps
      | apply State_updRouter_keeps
      | apply State_setFld_keeps
      | apply State_addRg_keeps
      | apply State_raise_keeps
      | apply State_failOwner_keeps
      | apply State_forward_keeps
      | apply State_blend_keeps
      | apply keeps_ite
      | (apply keeps_mk; assumption)
      | (intro _)
      | split
      | (refine keeps_fst_eq (by assumption) ?_))

/-- `State.pumpFab` keeps them. -/
theorem State_pumpFab_keeps (d : Nat) (y0 : List (FRec × Owner)) (y1 : List (FRec × Owner)) (y2 : State) {s_ : State} (hk_ : Keeps s_ y2) :
    Keeps s_ (State.pumpFab d y0 y1 y2) := by
  induction y1 generalizing y0 y2 with
  | nil =>
    unfold State.pumpFab
    with_reducible
      repeat' (first
        | assumption
        | apply State_updRouter_keeps
        | apply State_launch_keeps
        | apply keeps_ite
        | (apply keeps_mk; assumption)
        | (intro _)
        | split
        | (refine keeps_fst_eq (by assumption) ?_))
  | cons _ _ ih =>
    unfold State.pumpFab
    with_reducible
      repeat' (first
        | assumption
        | apply ih
        | apply State_updRouter_keeps
        | apply State_launch_keeps
        | apply keeps_ite
        | (apply keeps_mk; assumption)
        | (intro _)
        | split
        | (refine keeps_fst_eq (by assumption) ?_))

/-- `State.issue` keeps them. -/
theorem State_issue_keeps (s : State) (d : Nat) (own : Owner) (r : FRec) {s_ : State} (hks : Keeps s_ s) :
    Keeps s_ (State.issue s d own r) := by
  unfold State.issue
  with_reducible
    repeat' (first
      | assumption
      | lift_lets
      | (intro x; refine (fun (hx : Keeps s_ x) => ?_) ?_; clear_value x; rotate_left; unfold x; rotate_right)
      | (intro x; clear_value x)
      | apply State_updRouter_keeps
      | apply State_pumpFab_keeps
      | (apply keeps_mk; assumption)
      | (intro _))

/-- `State.returnTag` keeps them. -/
theorem State_returnTag_keeps (s : State) (d tag : Nat) {s_ : State} (hks : Keeps s_ s) :
    Keeps s_ (State.returnTag s d tag) := by
  unfold State.returnTag
  with_reducible
    repeat' (first
      | assumption
      | lift_lets
      | (intro x; refine (fun (hx : Keeps s_ x) => ?_) ?_; clear_value x; rotate_left; unfold x; rotate_right)
      | (intro x; refine (fun (hx : Keeps s_ x.1) => ?_) ?_; clear_value x; rotate_left; unfold x; rotate_right)
      | (intro x; clear_value x)
      | apply State_updRouter_keeps
      | apply State_pumpFab_keeps
      | (apply keeps_mk; assumption)
      | (intro _))

/-- `State.addCnt` keeps them. -/
theorem State_addCnt_keeps (s : State) (d c i n : Nat) {s_ : State} (hks : Keeps s_ s) :
    Keeps s_ (State.addCnt s d c i n) := by
  unfold State.addCnt
  with_reducible
    repeat' (first
      | assumption
      | apply State_addRg_keeps)

/-- `State.signal` keeps them. -/
theorem State_signal_keeps (s : State) (d c u : Nat) (defer : Bool) (idx tbase cref inc : Nat) {s_ : State} (hks : Keeps s_ s) :
    Keeps s_ (State.signal s d c u defer idx tbase cref inc) := by
  unfold State.signal
  with_reducible
    repeat' (first
      | assumption
      | lift_lets
      | (intro x; refine (fun (hx : Keeps s_ x) => ?_) ?_; clear_value x; rotate_left; unfold x; rotate_right)
      | (intro x; clear_value x)
      | apply State_cause_keeps
      | apply State_trap_keeps
      | apply State_issue_keeps
      | apply State_addCnt_keeps
      | apply keeps_ite
      | split
      | (refine keeps_fst_eq (by assumption) ?_))

/-- `State.updQueue` keeps them. -/
theorem State_updQueue_keeps (s : State) (d c : Nat) (q : Bool) (g : Queue → Queue) {s_ : State} (hks : Keeps s_ s) :
    Keeps s_ (State.updQueue s d c q g) := by
  unfold State.updQueue
  with_reducible
    repeat' (first
      | assumption
      | apply State_updCtx_keeps
      | (intro _))

/-- `State.advance` keeps them. -/
theorem State_advance_keeps (s : State) (d c : Nat) (q : Bool) (ws : List Word) {s_ : State} (hks : Keeps s_ s) :
    Keeps s_ (State.advance s d c q ws) := by
  unfold State.advance
  with_reducible
    repeat' (first
      | assumption
      | apply State_updDie_keeps
      | apply State_updQueue_keeps
      | (apply keeps_mk; assumption)
      | (intro _))

/-- `State.refuseStep` keeps them. -/
theorem State_refuseStep_keeps (s : State) (d c : Nat) (q : Bool) (idx reason : Nat) {s_ : State} (hks : Keeps s_ s) :
    Keeps s_ (State.refuseStep s d c q idx reason) := by
  unfold State.refuseStep
  with_reducible
    repeat' (first
      | assumption
      | apply State_raise_keeps
      | apply State_trap_keeps)

/-- `State.linkEvent` keeps them. -/
theorem State_linkEvent_keeps (s : State) (d c : Nat) (q : Bool) (idx link : Nat) (linked trapped : Nat × Cls × Nat) (r : TrapRec) {s_ : State}
    (hks : Keeps s_ s) :
    Keeps s_ (State.linkEvent s d c q idx link linked trapped r) := by
  unfold State.linkEvent
  with_reducible
    repeat' (first
      | assumption
      | (intro x; refine (fun (hx : Keeps s_ x) => ?_) ?_; clear_value x; rotate_left; unfold x; rotate_right)
      | (intro x; refine (fun (hx : Keeps s_ x.1) => ?_) ?_; clear_value x; rotate_left; unfold x; rotate_right)
      | (intro x; clear_value x)
      | apply State_cause_keeps
      | apply State_raise_keeps
      | apply State_trap_keeps
      | apply State_updQueue_keeps
      | apply keeps_ite
      | (intro _)
      | lift_lets)

/-- `State.stepRow` keeps them. -/
theorem State_stepRow_keeps (s : State) (d c : Nat) (q : Bool) (k : Nat) (run : Nat → List Word → State → State) {s_ : State} (hks : Keeps s_ s)
    (hfrun : ∀ z0 z1 z2, Keeps s_ z2 → Keeps s_ (run z0 z1 z2)) :
    KeepsO s_ (State.stepRow s d c q k run) := by
  unfold State.stepRow
  with_reducible
    repeat' (first
      | assumption
      | apply State_refuseStep_keeps
      | apply State_linkEvent_keeps
      | apply hfrun
      | apply keepsO_next
      | exact keepsO_fault
      | split
      | (refine keeps_fst_eq (by assumption) ?_))

/-- `State.memRow` keeps them. -/
theorem State_memRow_keeps (s : State) (d c : Nat) (q : Bool) (k : Nat) (acc : List Word → State → List (Nat × Nat)) (run : Nat → List Word →
    State → State) {s_ : State} (hks : Keeps s_ s) (hfrun : ∀ z0 z1 z2, Keeps s_ z2 → Keeps s_ (run z0 z1 z2)) :
    KeepsO s_ (State.memRow s d c q k acc run) := by
  unfold State.memRow
  with_reducible
    repeat' (first
      | assumption
      | apply State_snoopAll_keeps
      | apply State_stepRow_keeps
      | apply hfrun
      | apply keepsO_next
      | (intro _)
      | split
      | (refine keeps_fst_eq (by assumption) ?_))

/-- `State.fly` keeps them. -/
theorem State_fly_keeps (s : State) (f : Flight) {s_ : State} (hks : Keeps s_ s) :
    Keeps s_ (State.fly s f) := by
  refine hks.trans ⟨rfl, rfl, fun w => w, fun w g hg => ?_⟩
  rcases List.mem_append.1 (show g ∈ s.flights ++ [_] from hg) with h | h
  · exact Nat.lt_succ_of_lt (w g h)
  · rw [List.mem_singleton.1 h]
    exact Nat.lt_succ_self s.nextId

/-- `State.record` keeps them. -/
theorem State_record_keeps (s : State) (f : Flight) {s_ : State} (hks : Keeps s_ s) :
    Keeps s_ (State.record s f) := by
  unfold State.record
  with_reducible
    repeat' (first
      | assumption
      | apply State_updHc_keeps
      | (apply keeps_mk; assumption)
      | (intro _))

/-- `State.unitSignal` keeps them. -/
theorem State_unitSignal_keeps (s : State) (f : Flight) (u inc : Nat) {s_ : State} (hks : Keeps s_ s) :
    Keeps s_ (State.unitSignal s f u inc) := by
  unfold State.unitSignal
  with_reducible
    repeat' (first
      | assumption
      | lift_lets
      | (intro x; refine (fun (hx : Keeps s_ x) => ?_) ?_; clear_value x; rotate_left; unfold x; rotate_right)
      | (intro x; clear_value x)
      | apply State_signal_keeps
      | apply keeps_ite)

/-- `State.retire` keeps them. -/
theorem State_retire_keeps (s : State) (f : Flight) {s_ : State} (hks : Keeps s_ s) :
    Keeps s_ (State.retire s f) := by
  unfold State.retire
  with_reducible
    repeat' (first
      | assumption
      | lift_lets
      | (intro x; refine (fun (hx : Keeps s_ x) => ?_) ?_; clear_value x; rotate_left; unfold x; rotate_right)
      | (intro x; clear_value x)
      | apply State_updHc_keeps
      | apply State_dropFlight_keeps
      | apply State_record_keeps
      | apply keeps_ite
      | (apply keeps_mk; assumption)
      | (intro _))

/-- `State.endUnit` keeps them. -/
theorem State_endUnit_keeps (s : State) (f : Flight) (u : Nat) {s_ : State} (hks : Keeps s_ s) :
    Keeps s_ (State.endUnit s f u) := by
  unfold State.endUnit
  with_reducible
    repeat' (first
      | assumption
      | lift_lets
      | (intro x; refine (fun (hx : Keeps s_ x) => ?_) ?_; clear_value x; rotate_left; unfold x; rotate_right)
      | (intro x; clear_value x)
      | apply State_updFlight_keeps
      | apply State_unitSignal_keeps
      | apply State_retire_keeps
      | apply keeps_ite
      | (apply keeps_mk; assumption)
      | (intro _))

/-- `State.instant` keeps them. -/
theorem State_instant_keeps (s : State) (d c : Nat) (q : Bool) (idx : Nat) (ws : List Word) (inc : Nat) (figs : List Nat) {s_ : State} (hks :
    Keeps s_ s) :
    Keeps s_ (State.instant s d c q idx ws inc figs) := by
  unfold State.instant
  with_reducible
    repeat' (first
      | assumption
      | lift_lets
      | (intro x; refine (fun (hx : Keeps s_ x) => ?_) ?_; clear_value x; rotate_left; unfold x; rotate_right)
      | (intro x; clear_value x)
      | apply State_advance_keeps
      | apply State_record_keeps
      | apply State_unitSignal_keeps
      | apply keeps_ite)

/-- `State.unitTrap` keeps them. -/
theorem State_unitTrap_keeps (s : State) (f : Flight) (l : Nat) (x : Nat) (t : Det) {s_ : State} (hks : Keeps s_ s) :
    Keeps s_ (State.unitTrap s f l x t) := by
  unfold State.unitTrap
  with_reducible
    repeat' (first
      | assumption
      | lift_lets
      | (intro x; refine (fun (hx : Keeps s_ x) => ?_) ?_; clear_value x; rotate_left; unfold x; rotate_right)
      | (intro x; refine (fun (hx : Keeps s_ x.1) => ?_) ?_; clear_value x; rotate_left; unfold x; rotate_right)
      | (intro x; clear_value x)
      | apply State_cause_keeps
      | apply State_raise_keeps
      | apply State_residueEvent_keeps
      | apply State_trap_keeps
      | apply State_failFlight_keeps
      | apply keeps_ite)

/-- `State.glitchLog` keeps them. -/
theorem State_glitchLog_keeps (s : State) (f : Flight) (l n : Nat) {s_ : State} (hks : Keeps s_ s) :
    Keeps s_ (State.glitchLog s f l n) := by
  unfold State.glitchLog
  with_reducible
    repeat' (first
      | assumption
      | apply State_raise_keeps
      | apply keeps_ite)

/-- `State.refuseStart` keeps them. -/
theorem State_refuseStart_keeps (s : State) (f : Flight) (l reason : Nat) {s_ : State} (hks : Keeps s_ s) :
    Keeps s_ (State.refuseStart s f l reason) := by
  unfold State.refuseStart
  with_reducible
    repeat' (first
      | assumption
      | apply State_raise_keeps
      | apply State_trap_keeps
      | apply State_failFlight_keeps)

/-- `State.stepWrite` keeps them. -/
theorem State_stepWrite_keeps (s : State) (fid ln : Nat) (l : Line) {s_ : State} (hks : Keeps s_ s) :
    Keeps s_ (State.stepWrite s fid ln l) := by
  unfold State.stepWrite
  with_reducible
    repeat' (first
      | assumption
      | apply State_writeAt_keeps
      | apply State_updFlight_keeps
      | apply keeps_ite
      | (apply keeps_mk; assumption)
      | (intro _))

/-- `State.stepMerge` keeps them. -/
theorem State_stepMerge_keeps (s : State) (fid ln mask : Nat) (bs : List Byte) (side : Word) {s_ : State} (hks : Keeps s_ s) :
    Keeps s_ (State.stepMerge s fid ln mask bs side) := by
  unfold State.stepMerge
  with_reducible
    repeat' (first
      | assumption
      | lift_lets
      | (intro x; refine (fun (hx : Keeps s_ x) => ?_) ?_; clear_value x; rotate_left; unfold x; rotate_right)
      | (intro x; clear_value x)
      | apply State_mergeAt_keeps
      | apply State_updFlight_keeps
      | apply keeps_ite
      | (apply keeps_mk; assumption)
      | (intro _))

/-- `State.copyReg` keeps them. -/
theorem State_copyReg_keeps (s : State) (a : Nat) {s_ : State} (hks : Keeps s_ s) :
    Keeps s_ (State.copyReg s a) := by
  unfold State.copyReg
  with_reducible
    repeat' (first
      | assumption
      | lift_lets
      | (intro x; refine (fun (hx : Keeps s_ x) => ?_) ?_; clear_value x; rotate_left; unfold x; rotate_right)
      | (intro x; clear_value x)
      | apply State_setReg_keeps)

/-- `State.copyRegs` keeps them. -/
theorem State_copyRegs_keeps (s : State) (as : List Nat) {s_ : State} (hks : Keeps s_ s) :
    Keeps s_ (State.copyRegs s as) := by
  unfold State.copyRegs
  with_reducible
    repeat' (first
      | assumption
      | apply forEach_keeps
      | apply State_copyReg_keeps
      | (intro _))

/-- `State.setLive` keeps them. -/
theorem State_setLive_keeps (s : State) (a : Nat) (v : Word) {s_ : State} (hks : Keeps s_ s) :
    Keeps s_ (State.setLive s a v) := by
  unfold State.setLive
  with_reducible
    repeat' (first
      | assumption
      | lift_lets
      | (intro x; refine (fun (hx : Keeps s_ x) => ?_) ?_; clear_value x; rotate_left; unfold x; rotate_right)
      | (intro x; clear_value x)
      | apply State_setReg_keeps
      | apply State_setShad_keeps
      | apply keeps_ite)

/-- `State.cleanLines` keeps them. -/
theorem State_cleanLines_keeps (s : State) (d : Nat) (p : Nat → Bool) {s_ : State} (hks : Keeps s_ s) :
    Keeps s_ (State.cleanLines s d p) := by
  unfold State.cleanLines
  with_reducible
    repeat' (first
      | assumption
      | lift_lets
      | (intro x; refine (fun (hx : Keeps s_ x) => ?_) ?_; clear_value x; rotate_left; unfold x; rotate_right)
      | (intro x; refine (fun (hx : Keeps s_ x.1) => ?_) ?_; clear_value x; rotate_left; unfold x; rotate_right)
      | (intro x; clear_value x)
      | apply State_updCel_keeps
      | apply State_addRg_keeps
      | apply keeps_ite
      | (apply keeps_mk; assumption)
      | (intro _))

/-- `State.dropLines` keeps them. -/
theorem State_dropLines_keeps (s : State) (d : Nat) (p : Nat → Bool) {s_ : State} (hks : Keeps s_ s) :
    Keeps s_ (State.dropLines s d p) := by
  unfold State.dropLines
  with_reducible
    repeat' (first
      | assumption
      | apply State_updCel_keeps
      | (apply keeps_mk; assumption)
      | (intro _))

/-- `State.fitWays` keeps them. -/
theorem State_fitWays_keeps (s : State) (d ways : Nat) {s_ : State} (hks : Keeps s_ s) :
    Keeps s_ (State.fitWays s d ways) := by
  unfold State.fitWays
  with_reducible
    repeat' (first
      | assumption
      | lift_lets
      | (intro x; refine (fun (hx : Keeps s_ x) => ?_) ?_; clear_value x; rotate_left; unfold x; rotate_right)
      | (intro x; refine (fun (hx : Keeps s_ x.1) => ?_) ?_; clear_value x; rotate_left; unfold x; rotate_right)
      | (intro x; clear_value x)
      | apply State_cleanLines_keeps
      | apply State_dropLines_keeps
      | (intro _))

/-- `State.celSwap` keeps them. -/
theorem State_celSwap_keeps (s : State) (d : Nat) {s_ : State} (hks : Keeps s_ s) :
    Keeps s_ (State.celSwap s d) := by
  unfold State.celSwap
  with_reducible
    repeat' (first
      | assumption
      | lift_lets
      | (intro x; refine (fun (hx : Keeps s_ x) => ?_) ?_; clear_value x; rotate_left; unfold x; rotate_right)
      | (intro x; clear_value x)
      | apply State_copyRegs_keeps
      | apply State_cleanLines_keeps
      | apply State_dropLines_keeps
      | apply State_zeroScratch_keeps
      | apply State_fitWays_keeps
      | (intro _))

/-- `State.seqRequest` keeps them. -/
theorem State_seqRequest_keeps (s : State) (d : Nat) (cs : List Nat) {s_ : State} (hks : Keeps s_ s) :
    Keeps s_ (State.seqRequest s d cs) := by
  unfold State.seqRequest
  with_reducible
    repeat' (first
      | assumption
      | lift_lets
      | (intro x; refine (fun (hx : Keeps s_ x) => ?_) ?_; clear_value x; rotate_left; unfold x; rotate_right)
      | (intro x; clear_value x)
      | apply State_updDie_keeps
      | apply State_copyReg_keeps
      | (apply keeps_mk; assumption)
      | (intro _))

/-- `State.unmark` keeps them. -/
theorem State_unmark_keeps (s : State) (d a : Nat) {s_ : State} (hks : Keeps s_ s) :
    Keeps s_ (State.unmark s d a) := by
  unfold State.unmark
  with_reducible
    repeat' (first
      | assumption
      | apply State_updDie_keeps
      | (apply keeps_mk; assumption)
      | (intro _))

/-- `State.seqMark` keeps them. -/
theorem State_seqMark_keeps (s : State) (d c : Nat) {s_ : State} (hks : Keeps s_ s) :
    Keeps s_ (State.seqMark s d c) := by
  unfold State.seqMark
  with_reducible
    repeat' (first
      | assumption
      | lift_lets
      | (intro x; refine (fun (hx : Keeps s_ x) => ?_) ?_; clear_value x; rotate_left; unfold x; rotate_right)
      | (intro x; clear_value x)
      | apply State_configBusy_keeps
      | apply State_copyRegs_keeps
      | apply State_unmark_keeps
      | apply keeps_ite)

/-- `State.requestSwap` keeps them. -/
theorem State_requestSwap_keeps (s : State) (d : Nat) (b : Blk) (i : Nat) {s_ : State} (hks : Keeps s_ s) :
    Keeps s_ (State.requestSwap s d b i) := by
  unfold State.requestSwap
  with_reducible
    repeat' (first
      | assumption
      | apply State_updDie_keeps
      | apply State_seqRequest_keeps
      | apply keeps_ite
      | (apply keeps_mk; assumption)
      | (intro _))

/-- `State.swapNow` keeps them. -/
theorem State_swapNow_keeps (s : State) (d : Nat) (b : Blk) (i : Nat) {s_ : State} (hks : Keeps s_ s) :
    Keeps s_ (State.swapNow s d b i) := by
  unfold State.swapNow
  with_reducible
    repeat' (first
      | assumption
      | lift_lets
      | (intro x; refine (fun (hx : Keeps s_ x) => ?_) ?_; clear_value x; rotate_left; unfold x; rotate_right)
      | (intro x; clear_value x)
      | apply State_configBusy_keeps
      | apply State_copyRegs_keeps
      | apply State_celSwap_keeps
      | apply State_unmark_keeps
      | apply keeps_ite)

/-- `State.doSwap` keeps them. -/
theorem State_doSwap_keeps (s : State) (d : Nat) (b : Blk) (i : Nat) {s_ : State} (hks : Keeps s_ s) :
    Keeps s_ (State.doSwap s d b i) := by
  unfold State.doSwap
  with_reducible
    repeat' (first
      | assumption
      | apply forEach_keeps
      | apply State_seqMark_keeps
      | apply State_swapNow_keeps
      | apply keeps_ite
      | (intro _))

end Sys2Proof.Machine
end

