-- ==== Sys2Proof/Laws/KeepsSteps.lean ====
section
/-! SUPPORT. What the step rows and the sequencer keep: the part, the queue and the canonical form of what is stored. -/

set_option Elab.async false

namespace Sys2Proof.Machine

/-- `execNop` keeps them. -/
theorem execNop_keeps (d c : Nat) (q : Bool) (s : State) {s_ : State} (hks : Keeps s_ s) :
    KeepsO s_ (execNop d c q s) := by
  unfold execNop
  with_reducible
    repeat' (first
      | assumption
      | apply State_stepRow_keeps
      | apply State_instant_keeps
      | apply keepsO_next
      | (intro _))

/-- `execWait` keeps them. -/
theorem execWait_keeps (d c : Nat) (q : Bool) (s : State) {s_ : State} (hks : Keeps s_ s) :
    KeepsO s_ (execWait d c q s) := by
  unfold execWait
  with_reducible
    repeat' (first
      | assumption
      | apply State_stepRow_keeps
      | apply State_instant_keeps
      | apply keepsO_next
      | (intro _))

/-- `execSig` keeps them. -/
theorem execSig_keeps (d c : Nat) (q : Bool) (s : State) {s_ : State} (hks : Keeps s_ s) :
    KeepsO s_ (execSig d c q s) := by
  unfold execSig
  with_reducible
    repeat' (first
      | assumption
      | apply State_stepRow_keeps
      | apply State_instant_keeps
      | apply keepsO_next
      | (intro _))

/-- `State.swapStep` keeps them. -/
theorem State_swapStep_keeps (s : State) (d c : Nat) (q : Bool) (idx : Nat) (ws : List Word) {s_ : State} (hks : Keeps s_ s) :
    Keeps s_ (State.swapStep s d c q idx ws) := by
  unfold State.swapStep
  with_reducible
    repeat' (first
      | assumption
      | lift_lets
      | (intro x; refine (fun (hx : Keeps s_ x) => ?_) ?_; clear_value x; rotate_left; unfold x; rotate_right)
      | (intro x; refine (fun (hx : Keeps s_ x.1) => ?_) ?_; clear_value x; rotate_left; unfold x; rotate_right)
      | (intro x; clear_value x)
      | apply forEach_keeps
      | apply State_advance_keeps
      | apply State_fly_keeps
      | apply State_seqRequest_keeps
      | apply State_requestSwap_keeps
      | apply keeps_ite
      | (intro _))

/-- `execSwap` keeps them. -/
theorem execSwap_keeps (d c : Nat) (q : Bool) (s : State) {s_ : State} (hks : Keeps s_ s) :
    KeepsO s_ (execSwap d c q s) := by
  unfold execSwap
  with_reducible
    repeat' (first
      | assumption
      | apply State_stepRow_keeps
      | apply State_swapStep_keeps
      | apply keepsO_next
      | (intro _))

/-- `execFence` keeps them. -/
theorem execFence_keeps (d c : Nat) (q : Bool) (s : State) {s_ : State} (hks : Keeps s_ s) :
    KeepsO s_ (execFence d c q s) := by
  unfold execFence
  with_reducible
    repeat' (first
      | assumption
      | apply State_stepRow_keeps
      | apply State_instant_keeps
      | apply keepsO_next
      | (intro _))

/-- `execTrap` keeps them. -/
theorem execTrap_keeps (d c : Nat) (q : Bool) (s : State) {s_ : State} (hks : Keeps s_ s) :
    KeepsO s_ (execTrap d c q s) := by
  unfold execTrap
  with_reducible
    repeat' (first
      | assumption
      | lift_lets
      | (intro x; refine (fun (hx : Keeps s_ x) => ?_) ?_; clear_value x; rotate_left; unfold x; rotate_right)
      | (intro x; clear_value x)
      | apply State_raise_keeps
      | apply State_trap_keeps
      | apply State_advance_keeps
      | apply State_stepRow_keeps
      | apply keepsO_next
      | (intro _))

/-- `State.layoutStep` keeps them. -/
theorem State_layoutStep_keeps (s : State) (d c : Nat) (q : Bool) (idx : Nat) (ws : List Word) {s_ : State} (hks : Keeps s_ s) :
    Keeps s_ (State.layoutStep s d c q idx ws) := by
  unfold State.layoutStep
  with_reducible
    repeat' (first
      | assumption
      | lift_lets
      | (intro x; refine (fun (hx : Keeps s_ x) => ?_) ?_; clear_value x; rotate_left; unfold x; rotate_right)
      | (intro x; clear_value x)
      | apply State_setFld_keeps
      | apply State_instant_keeps)

/-- `execLayout` keeps them. -/
theorem execLayout_keeps (d c : Nat) (q : Bool) (s : State) {s_ : State} (hks : Keeps s_ s) :
    KeepsO s_ (execLayout d c q s) := by
  unfold execLayout
  with_reducible
    repeat' (first
      | assumption
      | apply State_stepRow_keeps
      | apply State_layoutStep_keeps
      | apply keepsO_next
      | (intro _))

/-- The first row of a drain. -/
theorem drainRows_cons (j : MmaJob) (rank a : Nat) (t : Tile) (r k : Nat) (rest : List (Nat × Nat)) (s : State) :
    State.drainRows j rank a t ((r, k) :: rest) s =
      if !s.served (128 * mmaOutLine j.ws j.mode rank a r k) then (s, some (mmaOutLine j.ws j.mode rank a r k))
      else State.drainRows j rank a t rest (s.stepWrite j.f.id (mmaOutLine j.ws j.mode rank a r k)
        (mkLine (t.drainLine j.mode r k) (verCompute j.ws) (drainFmt j.mode) (if t.poison then flagDerived else 0))) := rfl

/-- `State.drainRows` keeps them. -/
theorem State_drainRows_keeps (j : MmaJob) (rank a : Nat) (t : Tile) (y0 : List (Nat × Nat)) (y1 : State) {s_ : State} (hk_ : Keeps s_ y1) :
    Keeps s_ (State.drainRows j rank a t y0 y1).1 := by
  induction y0 generalizing y1 with
  | nil => exact hk_
  | cons x rest ih =>
    rw [drainRows_cons]
    exact keeps_ite1 hk_ (ih _ (State_stepWrite_keeps _ _ _ _ hk_))

/-- `State.mmaArray` keeps them. -/
theorem State_mmaArray_keeps (s0 : State) (j : MmaJob) (rank l a : Nat) (s : State) {s_ : State} (hks0 : Keeps s_ s0) (hks : Keeps s_ s) :
    Keeps s_ (State.mmaArray s0 j rank l a s).1 := by
  unfold State.mmaArray
  with_reducible
    repeat' (first
      | assumption
      | (intro x; refine (fun (hx : Keeps s_ x) => ?_) ?_; clear_value x; rotate_left; unfold x; rotate_right)
      | (intro x; clear_value x)
      | apply State_updCl_keeps
      | apply State_cause_keeps
      | apply State_moreTraps_keeps
      | apply State_unitTrap_keeps
      | apply State_drainRows_keeps
      | apply keeps_ite1
      | apply keeps_ite
      | (apply keeps_mk; assumption)
      | (intro _)
      | split
      | lift_lets
      | (refine keeps_fst_eq (by assumption) ?_))

/-- `State.mmaCount` keeps them. -/
theorem State_mmaCount_keeps (s : State) (d l : Nat) (mac : Nat) (c : MmaCnt) {s_ : State} (hks : Keeps s_ s) :
    Keeps s_ (State.mmaCount s d l mac c) := by
  unfold State.mmaCount
  with_reducible
    repeat' (first
      | assumption
      | lift_lets
      | (intro x; refine (fun (hx : Keeps s_ x) => ?_) ?_; clear_value x; rotate_left; unfold x; rotate_right)
      | (intro x; clear_value x)
      | apply State_addRg_keeps
      | apply State_cause_keeps
      | apply keeps_ite)

/-- `State.mmaCluster` keeps them. -/
theorem State_mmaCluster_keeps (s0 : State) (j : MmaJob) (rank l : Nat) (x : State × MmaCnt × Nat) {s_ : State} (hks0 : Keeps s_ s0) (hkx : Keeps
    s_ x.1) :
    Keeps s_ (State.mmaCluster s0 j rank l x).1 := by
  unfold State.mmaCluster
  with_reducible
    repeat' (first
      | assumption
      | (intro x; refine (fun (hx : Keeps s_ x) => ?_) ?_; clear_value x; rotate_left; unfold x; rotate_right)
      | (intro x; refine (fun (hx : Keeps s_ x.1) => ?_) ?_; clear_value x; rotate_left; unfold x; rotate_right)
      | (intro x; clear_value x)
      | apply State_mmaArray_keeps
      | apply State_mmaCount_keeps
      | apply foldl_keeps
      | apply foldl_keeps1
      | apply keeps_ite1
      | apply keeps_ite
      | (intro _)
      | lift_lets)

/-- `State.settleFail` keeps them. -/
theorem State_settleFail_keeps (s : State) (id : Nat) {s_ : State} (hks : Keeps s_ s) :
    Keeps s_ (State.settleFail s id) := by
  unfold State.settleFail
  with_reducible
    repeat' (first
      | assumption
      | apply State_failFlight_keeps
      | apply keeps_ite
      | split)

/-- `State.reportDets` keeps them. -/
theorem State_reportDets_keeps (s : State) (f : Flight) (l : Nat) (ds : List (Nat × Det)) (ce : Nat) {s_ : State} (hks : Keeps s_ s) :
    Keeps s_ (State.reportDets s f l ds ce) := by
  unfold State.reportDets
  with_reducible
    repeat' (first
      | assumption
      | apply forEach_keeps
      | apply State_unitTrap_keeps
      | apply State_glitchLog_keeps
      | (intro _))

/-- `State.mmaRun` keeps them. -/
theorem State_mmaRun_keeps (s : State) (d c : Nat) (q : Bool) (idx : Nat) (ws : List Word) (env : Env) {s_ : State} (hks : Keeps s_ s) :
    Keeps s_ (State.mmaRun s d c q idx ws env) := by
  unfold State.mmaRun
  with_reducible
    repeat' (first
      | assumption
      | lift_lets
      | (intro x; refine (fun (hx : Keeps s_ x) => ?_) ?_; clear_value x; rotate_left; unfold x; rotate_right)
      | (intro x; refine (fun (hx : Keeps s_ x.1) => ?_) ?_; clear_value x; rotate_left; unfold x; rotate_right)
      | (intro x; clear_value x)
      | apply forEach_keeps
      | apply State_updFlight_keeps
      | apply State_advance_keeps
      | apply State_fly_keeps
      | apply State_refuseStart_keeps
      | apply State_mmaCluster_keeps
      | apply State_settleFail_keeps
      | apply State_reportDets_keeps
      | apply foldl_keeps
      | apply foldl_keeps1
      | apply keeps_ite
      | (apply keeps_mk; assumption)
      | (intro _)
      | split
      | (refine keeps_fst_eq (by assumption) ?_))

/-- `State.stepCrc` keeps them. -/
theorem State_stepCrc_keeps (s : State) (d c : Nat) (q : Bool) (idx a : Nat) {s_ : State} (hks : Keeps s_ s) :
    Keeps s_ (State.stepCrc s d c q idx a) := by
  unfold State.stepCrc
  with_reducible
    repeat' (first
      | assumption
      | apply State_raise_keeps
      | apply State_trap_keeps)

/-- `State.stepCrcCe` keeps them. -/
theorem State_stepCrcCe_keeps (s : State) (d c : Nat) (q : Bool) (idx : Nat) {s_ : State} (hks : Keeps s_ s) :
    Keeps s_ (State.stepCrcCe s d c q idx) := by
  unfold State.stepCrcCe
  with_reducible
    repeat' (first
      | assumption
      | apply State_raise_keeps)

/-- `State.mmaIssue` keeps them. -/
theorem State_mmaIssue_keeps (s : State) (d c : Nat) (q : Bool) (idx : Nat) (ws : List Word) (env : Env) {s_ : State} (hks : Keeps s_ s) :
    Keeps s_ (State.mmaIssue s d c q idx ws env) := by
  unfold State.mmaIssue
  with_reducible
    repeat' (first
      | assumption
      | lift_lets
      | (intro x; refine (fun (hx : Keeps s_ x) => ?_) ?_; clear_value x; rotate_left; unfold x; rotate_right)
      | (intro x; clear_value x)
      | apply State_mmaRun_keeps
      | apply State_stepCrc_keeps
      | apply State_stepCrcCe_keeps
      | apply keeps_ite)

/-- `execMma` keeps them. -/
theorem execMma_keeps (d c : Nat) (q : Bool) (env : Env) (s : State) {s_ : State} (hks : Keeps s_ s) :
    KeepsO s_ (execMma d c q env s) := by
  unfold execMma
  with_reducible
    repeat' (first
      | assumption
      | apply State_memRow_keeps
      | apply State_mmaIssue_keeps
      | apply keepsO_next
      | (intro _))

/-- `State.doPuts` keeps them. -/
theorem State_doPuts_keeps (fid : Nat) (y0 : List Put) (y1 : State) {s_ : State} (hk_ : Keeps s_ y1) :
    Keeps s_ (State.doPuts fid y0 y1).1 := by
  induction y0 generalizing y1 with
  | nil =>
    unfold State.doPuts
    with_reducible
      repeat' (first
        | assumption
        | apply State_stepWrite_keeps
        | apply State_stepMerge_keeps
        | apply keeps_ite1
        | apply keeps_ite
        | split
        | (refine keeps_fst_eq (by assumption) ?_))
  | cons _ _ ih =>
    unfold State.doPuts
    with_reducible
      repeat' (first
        | assumption
        | apply ih
        | apply State_stepWrite_keeps
        | apply State_stepMerge_keeps
        | apply keeps_ite1
        | apply keeps_ite
        | split
        | (refine keeps_fst_eq (by assumption) ?_))

/-- `State.cvCount` keeps them. -/
theorem State_cvCount_keeps (s : State) (d l : Nat) (w : CvWork) {s_ : State} (hks : Keeps s_ s) :
    Keeps s_ (State.cvCount s d l w) := by
  unfold State.cvCount
  with_reducible
    repeat' (first
      | assumption
      | lift_lets
      | (intro x; refine (fun (hx : Keeps s_ x) => ?_) ?_; clear_value x; rotate_left; unfold x; rotate_right)
      | (intro x; clear_value x)
      | apply State_addRg_keeps
      | apply State_cause_keeps
      | apply keeps_ite)

/-- `State.cvCluster` keeps them. -/
theorem State_cvCluster_keeps (f : Flight) (env : Env) (s : State) (x : Nat × CvWork) {s_ : State} (hks : Keeps s_ s) :
    Keeps s_ (State.cvCluster f env s x) := by
  unfold State.cvCluster
  with_reducible
    repeat' (first
      | assumption
      | lift_lets
      | (intro x; refine (fun (hx : Keeps s_ x) => ?_) ?_; clear_value x; rotate_left; unfold x; rotate_right)
      | (intro x; refine (fun (hx : Keeps s_ x.1) => ?_) ?_; clear_value x; rotate_left; unfold x; rotate_right)
      | (intro x; clear_value x)
      | apply State_cause_keeps
      | apply State_moreTraps_keeps
      | apply State_unitTrap_keeps
      | apply State_doPuts_keeps
      | apply State_cvCount_keeps
      | apply keeps_ite
      | split
      | (refine keeps_fst_eq (by assumption) ?_))

/-- `State.cvAdvance` keeps them. -/
theorem State_cvAdvance_keeps (s : State) (d : Nat) (x : Nat × CvWork) {s_ : State} (hks : Keeps s_ s) :
    Keeps s_ (State.cvAdvance s d x) := by
  unfold State.cvAdvance
  with_reducible
    repeat' (first
      | assumption
      | apply State_setLive_keeps
      | apply keeps_ite)

/-- `State.cvIssue` keeps them. -/
theorem State_cvIssue_keeps (s : State) (d c : Nat) (q : Bool) (idx : Nat) (ws : List Word) (env : Env) {s_ : State} (hks : Keeps s_ s) :
    Keeps s_ (State.cvIssue s d c q idx ws env) := by
  unfold State.cvIssue
  with_reducible
    repeat' (first
      | assumption
      | lift_lets
      | (intro x; refine (fun (hx : Keeps s_ x) => ?_) ?_; clear_value x; rotate_left; unfold x; rotate_right)
      | (intro x; refine (fun (hx : Keeps s_ x.1) => ?_) ?_; clear_value x; rotate_left; unfold x; rotate_right)
      | (intro x; clear_value x)
      | apply forEach_keeps
      | apply State_updFlight_keeps
      | apply State_advance_keeps
      | apply State_fly_keeps
      | apply State_refuseStart_keeps
      | apply State_settleFail_keeps
      | apply State_reportDets_keeps
      | apply State_cvCluster_keeps
      | apply State_cvAdvance_keeps
      | apply foldl_keeps
      | apply foldl_keeps1
      | apply keeps_ite
      | (apply keeps_mk; assumption)
      | (intro _)
      | split
      | (refine keeps_fst_eq (by assumption) ?_))

/-- `execConv` keeps them. -/
theorem execConv_keeps (d c : Nat) (q : Bool) (env : Env) (s : State) {s_ : State} (hks : Keeps s_ s) :
    KeepsO s_ (execConv d c q env s) := by
  unfold execConv
  with_reducible
    repeat' (first
      | assumption
      | apply State_memRow_keeps
      | apply State_cvIssue_keeps
      | apply keepsO_next
      | (intro _))

/-- `execElem` keeps them. -/
theorem execElem_keeps (d c : Nat) (q : Bool) (env : Env) (s : State) {s_ : State} (hks : Keeps s_ s) :
    KeepsO s_ (execElem d c q env s) := by
  unfold execElem
  with_reducible
    repeat' (first
      | assumption
      | apply State_memRow_keeps
      | apply State_cvIssue_keeps
      | apply keepsO_next
      | (intro _))

/-- `execOpt` keeps them. -/
theorem execOpt_keeps (d c : Nat) (q : Bool) (env : Env) (s : State) {s_ : State} (hks : Keeps s_ s) :
    KeepsO s_ (execOpt d c q env s) := by
  unfold execOpt
  with_reducible
    repeat' (first
      | assumption
      | apply State_memRow_keeps
      | apply State_cvIssue_keeps
      | apply keepsO_next
      | (intro _))

/-- `State.statIssue` keeps them. -/
theorem State_statIssue_keeps (s : State) (d c : Nat) (q : Bool) (idx : Nat) (ws : List Word) (env : Env) {s_ : State} (hks : Keeps s_ s) :
    Keeps s_ (State.statIssue s d c q idx ws env) := by
  unfold State.statIssue
  with_reducible
    repeat' (first
      | assumption
      | lift_lets
      | (intro x; refine (fun (hx : Keeps s_ x) => ?_) ?_; clear_value x; rotate_left; unfold x; rotate_right)
      | (intro x; refine (fun (hx : Keeps s_ x.1) => ?_) ?_; clear_value x; rotate_left; unfold x; rotate_right)
      | (intro x; clear_value x)
      | apply forEach_keeps
      | apply State_cause_keeps
      | apply State_moreTraps_keeps
      | apply State_advance_keeps
      | apply State_fly_keeps
      | apply State_unitTrap_keeps
      | apply State_reportDets_keeps
      | apply foldl_keeps
      | apply foldl_keeps1
      | (apply keeps_mk; assumption)
      | (intro _)
      | split
      | (refine keeps_fst_eq (by assumption) ?_))

/-- `execStat` keeps them. -/
theorem execStat_keeps (d c : Nat) (q : Bool) (env : Env) (s : State) {s_ : State} (hks : Keeps s_ s) :
    KeepsO s_ (execStat d c q env s) := by
  unfold execStat
  with_reducible
    repeat' (first
      | assumption
      | apply State_memRow_keeps
      | apply State_statIssue_keeps
      | apply keepsO_next
      | (intro _))

/-- `State.statRing` keeps them. -/
theorem State_statRing_keeps (s : State) (f : Flight) (env : Env) {s_ : State} (hks : Keeps s_ s) :
    Keeps s_ (State.statRing s f env) := by
  unfold State.statRing
  with_reducible
    repeat' (first
      | assumption
      | lift_lets
      | (intro x; refine (fun (hx : Keeps s_ x) => ?_) ?_; clear_value x; rotate_left; unfold x; rotate_right)
      | (intro x; clear_value x)
      | apply State_cause_keeps
      | apply State_raise_keeps
      | apply State_snoopAll_keeps
      | apply State_endUnit_keeps
      | apply State_unitTrap_keeps
      | apply State_stepWrite_keeps
      | apply keeps_ite
      | (apply keeps_mk; assumption)
      | split
      | (refine keeps_fst_eq (by assumption) ?_))

/-- `State.addFig` keeps them. -/
theorem State_addFig_keeps (s : State) (fid k n : Nat) {s_ : State} (hks : Keeps s_ s) :
    Keeps s_ (State.addFig s fid k n) := by
  unfold State.addFig
  with_reducible
    repeat' (first
      | assumption
      | apply State_updFlight_keeps
      | (apply keeps_mk; assumption)
      | (intro _))

/-- `State.moved` keeps them. -/
theorem State_moved_keeps (s : State) (f : Flight) (n : Nat) {s_ : State} (hks : Keeps s_ s) :
    Keeps s_ (State.moved s f n) := by
  unfold State.moved
  with_reducible
    repeat' (first
      | assumption
      | apply State_addRg_keeps
      | apply State_addFig_keeps)

/-- `State.remoteFail` keeps them. -/
theorem State_remoteFail_keeps (s : State) (f : Flight) (i st ga : Nat) {s_ : State} (hks : Keeps s_ s) :
    Keeps s_ (State.remoteFail s f i st ga) := by
  unfold State.remoteFail
  with_reducible
    repeat' (first
      | assumption
      | apply State_engTrap_keeps)

/-- `State.hostFail` keeps them. -/
theorem State_hostFail_keeps (s : State) (f : Flight) (i st la : Nat) {s_ : State} (hks : Keeps s_ s) :
    Keeps s_ (State.hostFail s f i st la) := by
  unfold State.hostFail
  with_reducible
    repeat' (first
      | assumption
      | apply State_engTrap_keeps)

/-- `State.rackCrc` keeps them. -/
theorem State_rackCrc_keeps (s : State) (f : Flight) (i ga : Nat) {s_ : State} (hks : Keeps s_ s) :
    Keeps s_ (State.rackCrc s f i ga) := by
  unfold State.rackCrc
  with_reducible
    repeat' (first
      | assumption
      | apply State_engTrap_keeps)

/-- `State.rackCe` keeps them. -/
theorem State_rackCe_keeps (s : State) (f : Flight) (n : Nat) {s_ : State} (hks : Keeps s_ s) :
    Keeps s_ (State.rackCe s f n) := by
  unfold State.rackCe
  with_reducible
    repeat' (first
      | assumption
      | apply State_raise_keeps
      | apply keeps_ite)

/-- `State.engRead` keeps them. -/
theorem State_engRead_keeps (s : State) (f : Flight) (env : Env) (i a : Nat) (ver : Option Nat) {s_ : State} (hks : Keeps s_ s) :
    Keeps s_ (State.engRead s f env i a ver).1 := by
  unfold State.engRead
  with_reducible
    repeat' (first
      | assumption
      | lift_lets
      | (intro x; refine (fun (hx : Keeps s_ x) => ?_) ?_; clear_value x; rotate_left; unfold x; rotate_right)
      | (intro x; clear_value x)
      | apply State_cause_keeps
      | apply State_unitTrap_keeps
      | apply State_remoteFail_keeps
      | apply State_rackCrc_keeps
      | apply State_rackCe_keeps
      | apply keeps_ite1
      | apply keeps_ite
      | split
      | (refine keeps_fst_eq (by assumption) ?_))

/-- `State.noteStale` keeps them. -/
theorem State_noteStale_keeps (s : State) (f : Flight) (l : Line) {s_ : State} (hks : Keeps s_ s) :
    Keeps s_ (State.noteStale s f l) := by
  unfold State.noteStale
  with_reducible
    repeat' (first
      | assumption
      | apply State_addFig_keeps
      | apply keeps_ite)

/-- `State.engPut` keeps them. -/
theorem State_engPut_keeps (s : State) (f : Flight) (i a : Nat) (l : Line) {s_ : State} (hks : Keeps s_ s) :
    Keeps s_ (State.engPut s f i a l) := by
  unfold State.engPut
  with_reducible
    repeat' (first
      | assumption
      | apply State_stepWrite_keeps
      | apply State_moved_keeps
      | apply State_remoteFail_keeps
      | apply State_noteStale_keeps
      | apply keeps_ite)

/-- `State.engSend` keeps them. -/
theorem State_engSend_keeps (s : State) (f : Flight) (i : Nat) (act : LineAct) (r : FRec) {s_ : State} (hks : Keeps s_ s) :
    Keeps s_ (State.engSend s f i act r) := by
  unfold State.engSend
  with_reducible
    repeat' (first
      | assumption
      | apply State_updFlight_keeps
      | apply State_issue_keeps
      | (apply keeps_mk; assumption)
      | (intro _))

/-- `State.hostSent` keeps them. -/
theorem State_hostSent_keeps (s : State) (f : Flight) (i la : Nat) (r : State × Option Nat) {s_ : State} (hks : Keeps s_ s) (hkr : Keeps s_ r.1) :
    Keeps s_ (State.hostSent s f i la r) := by
  unfold State.hostSent
  with_reducible
    repeat' (first
      | assumption
      | apply State_updFlight_keeps
      | apply State_hostFail_keeps
      | (apply keeps_mk; assumption)
      | (intro _)
      | split
      | (refine keeps_fst_eq (by assumption) ?_))

/-- `State.eCopy` keeps them. -/
theorem State_eCopy_keeps (s : State) (f : Flight) (env : Env) (i src dst : Nat) (flag : Bool) {s_ : State} (hks : Keeps s_ s) :
    Keeps s_ (State.eCopy s f env i src dst flag) := by
  unfold State.eCopy
  with_reducible
    repeat' (first
      | assumption
      | lift_lets
      | (intro x; refine (fun (hx : Keeps s_ x) => ?_) ?_; clear_value x; rotate_left; unfold x; rotate_right)
      | (intro x; clear_value x)
      | apply State_hostRead_keeps
      | apply State_hostWrite_keeps
      | apply State_moved_keeps
      | apply State_engRead_keeps
      | apply State_engPut_keeps
      | apply State_engSend_keeps
      | apply State_hostSent_keeps
      | apply keeps_ite
      | split
      | (refine keeps_fst_eq (by assumption) ?_))

/-- `State.engMerge` keeps them. -/
theorem State_engMerge_keeps (s : State) (f : Flight) (i a : Nat) (bs : List Byte) (side : Word) {s_ : State} (hks : Keeps s_ s) :
    Keeps s_ (State.engMerge s f i a bs side) := by
  unfold State.engMerge
  with_reducible
    repeat' (first
      | assumption
      | lift_lets
      | (intro x; refine (fun (hx : Keeps s_ x) => ?_) ?_; clear_value x; rotate_left; unfold x; rotate_right)
      | (intro x; refine (fun (hx : Keeps s_ x.1) => ?_) ?_; clear_value x; rotate_left; unfold x; rotate_right)
      | (intro x; clear_value x)
      | apply State_stepMerge_keeps
      | apply State_remoteFail_keeps
      | apply keeps_ite)

/-- `State.ePlaceRun` keeps them. -/
theorem State_ePlaceRun_keeps (s : State) (f : Flight) (i la b n : Nat) (x : State × Option Line) {s_ : State} (hks : Keeps s_ s) (hkx : Keeps s_
    x.1) :
    Keeps s_ (State.ePlaceRun s f i la b n x) := by
  unfold State.ePlaceRun
  with_reducible
    repeat' (first
      | assumption
      | lift_lets
      | (intro x; refine (fun (hx : Keeps s_ x) => ?_) ?_; clear_value x; rotate_left; unfold x; rotate_right)
      | (intro x; refine (fun (hx : Keeps s_ x.1) => ?_) ?_; clear_value x; rotate_left; unfold x; rotate_right)
      | (intro x; clear_value x)
      | apply State_engSend_keeps
      | apply State_engMerge_keeps
      | apply keeps_ite
      | split
      | (refine keeps_fst_eq (by assumption) ?_))

/-- `State.ePutRun` keeps them. -/
theorem State_ePutRun_keeps (f : Flight) (env : Env) (i a b n : Nat) (s : State) {s_ : State} (hks : Keeps s_ s) :
    Keeps s_ (State.ePutRun f env i a b n s) := by
  unfold State.ePutRun
  with_reducible
    repeat' (first
      | assumption
      | apply State_engRead_keeps
      | apply State_ePlaceRun_keeps)

/-- `State.eGetRun` keeps them. -/
theorem State_eGetRun_keeps (f : Flight) (i a b n : Nat) (s : State) {s_ : State} (hks : Keeps s_ s) :
    Keeps s_ (State.eGetRun f i a b n s) := by
  unfold State.eGetRun
  with_reducible
    repeat' (first
      | assumption
      | apply State_engSend_keeps)

/-- `State.ePart` keeps them. -/
theorem State_ePart_keeps (s : State) (f : Flight) (env : Env) (i src soff dst doff n : Nat) {s_ : State} (hks : Keeps s_ s) :
    Keeps s_ (State.ePart s f env i src soff dst doff n) := by
  unfold State.ePart
  with_reducible
    repeat' (first
      | assumption
      | lift_lets
      | (intro x; refine (fun (hx : Keeps s_ x) => ?_) ?_; clear_value x; rotate_left; unfold x; rotate_right)
      | (intro x; refine (fun (hx : Keeps s_ x.1) => ?_) ?_; clear_value x; rotate_left; unfold x; rotate_right)
      | (intro x; clear_value x)
      | apply forEach_keeps
      | apply State_ePutRun_keeps
      | apply State_eGetRun_keeps
      | apply keeps_ite
      | (intro _))

/-- `State.eLine` keeps them. -/
theorem State_eLine_keeps (s : State) (f : Flight) (i dst : Nat) (l : Line) {s_ : State} (hks : Keeps s_ s) :
    Keeps s_ (State.eLine s f i dst l) := by
  unfold State.eLine
  with_reducible
    repeat' (first
      | assumption
      | apply State_stepWrite_keeps
      | apply State_remoteFail_keeps
      | apply State_engSend_keeps
      | apply keeps_ite)

/-- `State.eact` keeps them. -/
theorem State_eact_keeps (s : State) (f : Flight) (env : Env) (y0 : EAct) {s_ : State} (hks : Keeps s_ s) :
    Keeps s_ (State.eact s f env y0) := by
  unfold State.eact
  with_reducible
    repeat' (first
      | assumption
      | lift_lets
      | (intro x; refine (fun (hx : Keeps s_ x) => ?_) ?_; clear_value x; rotate_left; unfold x; rotate_right)
      | (intro x; refine (fun (hx : Keeps s_ x.1) => ?_) ?_; clear_value x; rotate_left; unfold x; rotate_right)
      | (intro x; clear_value x)
      | apply forEach_keeps
      | apply State_hostWrite_keeps
      | apply State_signal_keeps
      | apply State_hostSent_keeps
      | apply State_eCopy_keeps
      | apply State_engMerge_keeps
      | apply State_ePart_keeps
      | apply State_eLine_keeps
      | apply keeps_ite
      | (intro _)
      | split
      | (refine keeps_fst_eq (by assumption) ?_))

/-- `State.eacts` keeps them. -/
theorem State_eacts_keeps (fid : Nat) (env : Env) (y0 : List EAct) (y1 : State) {s_ : State} (hk_ : Keeps s_ y1) :
    Keeps s_ (State.eacts fid env y0 y1) := by
  induction y0 generalizing y1 with
  | nil =>
    unfold State.eacts
    with_reducible
      repeat' (first
        | assumption
        | apply State_eact_keeps
        | apply keeps_ite
        | split
        | (refine keeps_fst_eq (by assumption) ?_))
  | cons _ _ ih =>
    unfold State.eacts
    with_reducible
      repeat' (first
        | assumption
        | apply ih
        | apply State_eact_keeps
        | apply keeps_ite
        | split
        | (refine keeps_fst_eq (by assumption) ?_))

/-- `State.flushTodo` keeps them. -/
theorem State_flushTodo_keeps (s : State) (fid : Nat) (env : Env) {s_ : State} (hks : Keeps s_ s) :
    Keeps s_ (State.flushTodo s fid env) := by
  unfold State.flushTodo
  with_reducible
    repeat' (first
      | assumption
      | apply State_updFlight_keeps
      | apply State_eacts_keeps
      | apply keeps_ite
      | (apply keeps_mk; assumption)
      | (intro _)
      | split
      | (refine keeps_fst_eq (by assumption) ?_))

/-- `State.engArrive` keeps them. -/
theorem State_engArrive_keeps (s : State) (fid i : Nat) (act : LineAct) (l : Line) {s_ : State} (hks : Keeps s_ s) :
    Keeps s_ (State.engArrive s fid i act l) := by
  unfold State.engArrive
  with_reducible
    repeat' (first
      | assumption
      | apply State_engPut_keeps
      | apply State_engMerge_keeps
      | apply keeps_ite
      | split
      | (refine keeps_fst_eq (by assumption) ?_))

/-- `State.engAnswered` keeps them. -/
theorem State_engAnswered_keeps (s : State) (fid : Nat) {s_ : State} (hks : Keeps s_ s) :
    Keeps s_ (State.engAnswered s fid) := by
  unfold State.engAnswered
  with_reducible
    repeat' (first
      | assumption
      | apply State_updFlight_keeps
      | apply State_flushTodo_keeps
      | (apply keeps_mk; assumption)
      | (intro _))

/-- `State.slotWrites` keeps them. -/
theorem State_slotWrites_keeps (s : State) (fid : Nat) (ws : List Word) (slots : List Nat) {s_ : State} (hks : Keeps s_ s) :
    Keeps s_ (State.slotWrites s fid ws slots) := by
  unfold State.slotWrites
  with_reducible
    repeat' (first
      | assumption
      | lift_lets
      | (intro x; refine (fun (hx : Keeps s_ x) => ?_) ?_; clear_value x; rotate_left; unfold x; rotate_right)
      | (intro x; refine (fun (hx : Keeps s_ x.1) => ?_) ?_; clear_value x; rotate_left; unfold x; rotate_right)
      | (intro x; clear_value x)
      | apply forEach_keeps
      | apply State_stepMerge_keeps
      | apply keeps_ite
      | (intro _))

/-- `State.engStop` keeps them. -/
theorem State_engStop_keeps (s : State) (f : Flight) (x : Nat × Nat × Nat × Nat) {s_ : State} (hks : Keeps s_ s) :
    Keeps s_ (State.engStop s f x) := by
  unfold State.engStop
  with_reducible
    repeat' (first
      | assumption
      | lift_lets
      | (intro x; refine (fun (hx : Keeps s_ x) => ?_) ?_; clear_value x; rotate_left; unfold x; rotate_right)
      | (intro x; clear_value x)
      | apply State_cause_keeps
      | apply State_engTrap_keeps
      | apply State_remoteFail_keeps
      | apply State_rackCrc_keeps
      | apply keeps_ite)

/-- `State.engIssue` keeps them. -/
theorem State_engIssue_keeps (s : State) (d c : Nat) (q : Bool) (idx : Nat) (ws : List Word) (env : Env) {s_ : State} (hks : Keeps s_ s) :
    Keeps s_ (State.engIssue s d c q idx ws env) := by
  unfold State.engIssue
  with_reducible
    repeat' (first
      | assumption
      | lift_lets
      | (intro x; refine (fun (hx : Keeps s_ x) => ?_) ?_; clear_value x; rotate_left; unfold x; rotate_right)
      | (intro x; clear_value x)
      | apply State_advance_keeps
      | apply State_fly_keeps
      | apply State_settleFail_keeps
      | apply State_rackCe_keeps
      | apply State_eacts_keeps
      | apply State_flushTodo_keeps
      | apply State_slotWrites_keeps
      | apply State_engStop_keeps
      | apply keeps_ite
      | split
      | (refine keeps_fst_eq (by assumption) ?_))

/-- `State.engRow` keeps them. -/
theorem State_engRow_keeps (s : State) (d c : Nat) (q : Bool) (k : Nat) (env : Env) {s_ : State} (hks : Keeps s_ s) :
    KeepsO s_ (State.engRow s d c q k env) := by
  unfold State.engRow
  with_reducible
    repeat' (first
      | assumption
      | apply State_memRow_keeps
      | apply State_engIssue_keeps
      | apply keepsO_next
      | (intro _))

/-- `execRack` keeps them. -/
theorem execRack_keeps (d c : Nat) (q : Bool) (env : Env) (s : State) {s_ : State} (hks : Keeps s_ s) :
    KeepsO s_ (execRack d c q env s) := by
  unfold execRack
  with_reducible
    repeat' (first
      | assumption
      | apply State_engRow_keeps
      | apply keepsO_next)

/-- `execDecant` keeps them. -/
theorem execDecant_keeps (d c : Nat) (q : Bool) (env : Env) (s : State) {s_ : State} (hks : Keeps s_ s) :
    KeepsO s_ (execDecant d c q env s) := by
  unfold execDecant
  with_reducible
    repeat' (first
      | assumption
      | apply State_engRow_keeps
      | apply keepsO_next)

/-- `execGather` keeps them. -/
theorem execGather_keeps (d c : Nat) (q : Bool) (env : Env) (s : State) {s_ : State} (hks : Keeps s_ s) :
    KeepsO s_ (execGather d c q env s) := by
  unfold execGather
  with_reducible
    repeat' (first
      | assumption
      | apply State_engRow_keeps
      | apply keepsO_next)

/-- `execScatter` keeps them. -/
theorem execScatter_keeps (d c : Nat) (q : Bool) (env : Env) (s : State) {s_ : State} (hks : Keeps s_ s) :
    KeepsO s_ (execScatter d c q env s) := by
  unfold execScatter
  with_reducible
    repeat' (first
      | assumption
      | apply State_engRow_keeps
      | apply keepsO_next)

/-- `execDispatch` keeps them. -/
theorem execDispatch_keeps (d c : Nat) (q : Bool) (env : Env) (s : State) {s_ : State} (hks : Keeps s_ s) :
    KeepsO s_ (execDispatch d c q env s) := by
  unfold execDispatch
  with_reducible
    repeat' (first
      | assumption
      | apply State_engRow_keeps
      | apply keepsO_next)

/-- `execCombine` keeps them. -/
theorem execCombine_keeps (d c : Nat) (q : Bool) (env : Env) (s : State) {s_ : State} (hks : Keeps s_ s) :
    KeepsO s_ (execCombine d c q env s) := by
  unfold execCombine
  with_reducible
    repeat' (first
      | assumption
      | apply State_engRow_keeps
      | apply keepsO_next)

/-- `execMcast` keeps them. -/
theorem execMcast_keeps (d c : Nat) (q : Bool) (env : Env) (s : State) {s_ : State} (hks : Keeps s_ s) :
    KeepsO s_ (execMcast d c q env s) := by
  unfold execMcast
  with_reducible
    repeat' (first
      | assumption
      | apply State_engRow_keeps
      | apply keepsO_next)

/-- `execReplica` keeps them. -/
theorem execReplica_keeps (d c : Nat) (q : Bool) (env : Env) (s : State) {s_ : State} (hks : Keeps s_ s) :
    KeepsO s_ (execReplica d c q env s) := by
  unfold execReplica
  with_reducible
    repeat' (first
      | assumption
      | apply State_engRow_keeps
      | apply keepsO_next)

/-- `execSnap` keeps them. -/
theorem execSnap_keeps (d c : Nat) (q : Bool) (env : Env) (s : State) {s_ : State} (hks : Keeps s_ s) :
    KeepsO s_ (execSnap d c q env s) := by
  unfold execSnap
  with_reducible
    repeat' (first
      | assumption
      | apply State_engRow_keeps
      | apply keepsO_next)

/-- `State.enterSteps` keeps them. -/
theorem State_enterSteps_keeps (s : State) (d c : Nat) (q : Bool) (ln : Nat) {s_ : State} (hks : Keeps s_ s) :
    Keeps s_ (State.enterSteps s d c q ln) := by
  unfold State.enterSteps
  with_reducible
    repeat' (first
      | assumption
      | lift_lets
      | (intro x; refine (fun (hx : Keeps s_ x) => ?_) ?_; clear_value x; rotate_left; unfold x; rotate_right)
      | (intro x; refine (fun (hx : Keeps s_ x.1) => ?_) ?_; clear_value x; rotate_left; unfold x; rotate_right)
      | (intro x; clear_value x)
      | apply State_updQueue_keeps
      | (apply keeps_mk; assumption)
      | (intro _))

/-- `State.tableFetch` keeps them. -/
theorem State_tableFetch_keeps (s : State) (d c : Nat) (q : Bool) (env : Env) {s_ : State} (hks : Keeps s_ s) :
    Keeps s_ (State.tableFetch s d c q env) := by
  unfold State.tableFetch
  with_reducible
    repeat' (first
      | assumption
      | lift_lets
      | (intro x; refine (fun (hx : Keeps s_ x) => ?_) ?_; clear_value x; rotate_left; unfold x; rotate_right)
      | (intro x; clear_value x)
      | apply State_touchRead_keeps
      | apply State_sendSnoop_keeps
      | apply State_stepCrc_keeps
      | apply State_stepCrcCe_keeps
      | apply State_enterSteps_keeps
      | apply keeps_ite
      | split
      | (refine keeps_fst_eq (by assumption) ?_))

/-- `execTableFetch` keeps them. -/
theorem execTableFetch_keeps (d c : Nat) (q : Bool) (env : Env) (s : State) {s_ : State} (hks : Keeps s_ s) :
    KeepsO s_ (execTableFetch d c q env s) := by
  unfold execTableFetch
  with_reducible
    repeat' (first
      | assumption
      | apply State_tableFetch_keeps
      | apply keepsO_next)

/-- `State.settleClear` keeps them. -/
theorem State_settleClear_keeps (s : State) (c : Nat) {s_ : State} (hks : Keeps s_ s) :
    Keeps s_ (State.settleClear s c) := by
  unfold State.settleClear
  with_reducible
    repeat' (first
      | assumption
      | lift_lets
      | (intro x; refine (fun (hx : Keeps s_ x) => ?_) ?_; clear_value x; rotate_left; unfold x; rotate_right)
      | (intro x; clear_value x)
      | apply forEach_keeps
      | apply State_updCtx_keeps
      | apply State_updHc_keeps
      | apply State_trap_keeps
      | apply keeps_ite
      | (apply keeps_mk; assumption)
      | (intro _))

/-- `State.doStop` keeps them. -/
theorem State_doStop_keeps (s : State) (c : Nat) {s_ : State} (hks : Keeps s_ s) :
    Keeps s_ (State.doStop s c) := by
  unfold State.doStop
  with_reducible
    repeat' (first
      | assumption
      | apply forEach_keeps
      | apply State_updCtx_keeps
      | apply keeps_ite
      | (apply keeps_mk; assumption)
      | (intro _))

/-- `State.doResume` keeps them. -/
theorem State_doResume_keeps (s : State) (c : Nat) {s_ : State} (hks : Keeps s_ s) :
    Keeps s_ (State.doResume s c) := by
  unfold State.doResume
  with_reducible
    repeat' (first
      | assumption
      | apply forEach_keeps
      | apply State_updCtx_keeps
      | apply keeps_ite
      | (apply keeps_mk; assumption)
      | (intro _))

/-- `State.doClear` keeps them. -/
theorem State_doClear_keeps (s : State) (c : Nat) {s_ : State} (hks : Keeps s_ s) :
    Keeps s_ (State.doClear s c) := by
  unfold State.doClear
  with_reducible
    repeat' (first
      | assumption
      | apply State_updHc_keeps
      | apply State_settleClear_keeps
      | apply keeps_ite
      | (apply keeps_mk; assumption)
      | (intro _))

/-- `execStop` keeps them. -/
theorem execStop_keeps (c : Nat) (s : State) {s_ : State} (hks : Keeps s_ s) :
    KeepsO s_ (execStop c s) := by
  unfold execStop
  with_reducible
    repeat' (first
      | assumption
      | apply State_doStop_keeps
      | apply keepsO_ite
      | apply keepsO_next
      | apply keeps_ite)

/-- `execResume` keeps them. -/
theorem execResume_keeps (c : Nat) (s : State) {s_ : State} (hks : Keeps s_ s) :
    KeepsO s_ (execResume c s) := by
  unfold execResume
  with_reducible
    repeat' (first
      | assumption
      | apply State_doResume_keeps
      | apply keepsO_ite
      | apply keepsO_next
      | apply keeps_ite)

/-- `execClear` keeps them. -/
theorem execClear_keeps (c : Nat) (s : State) {s_ : State} (hks : Keeps s_ s) :
    KeepsO s_ (execClear c s) := by
  unfold execClear
  with_reducible
    repeat' (first
      | assumption
      | apply State_doClear_keeps
      | apply keepsO_ite
      | apply keepsO_next
      | apply keeps_ite)

/-- `State.countSnap` keeps them. -/
theorem State_countSnap_keeps (s : State) (f : Flight) {s_ : State} (hks : Keeps s_ s) :
    Keeps s_ (State.countSnap s f) := by
  unfold State.countSnap
  with_reducible
    repeat' (first
      | assumption
      | apply State_updCtx_keeps
      | apply keeps_ite
      | (apply keeps_mk; assumption)
      | (intro _))

/-- `State.unitComplete` keeps them. -/
theorem State_unitComplete_keeps (s : State) (d fid u : Nat) {s_ : State} (hks : Keeps s_ s) :
    Keeps s_ (State.unitComplete s d fid u) := by
  unfold State.unitComplete
  with_reducible
    repeat' (first
      | assumption
      | apply State_endUnit_keeps
      | apply State_settleClear_keeps
      | apply State_countSnap_keeps
      | apply keeps_ite
      | split
      | (refine keeps_fst_eq (by assumption) ?_))

/-- `execStatRingUpdate` keeps them. -/
theorem execStatRingUpdate_keeps (d fid : Nat) (env : Env) (s : State) {s_ : State} (hks : Keeps s_ s) :
    KeepsO s_ (execStatRingUpdate d fid env s) := by
  unfold execStatRingUpdate
  with_reducible
    repeat' (first
      | assumption
      | apply State_statRing_keeps
      | apply State_settleClear_keeps
      | apply keepsO_ite
      | apply keepsO_next
      | apply keeps_ite
      | split
      | (refine keeps_fst_eq (by assumption) ?_))

/-- `execUnitComplete` keeps them. -/
theorem execUnitComplete_keeps (d fid u : Nat) (s : State) {s_ : State} (hks : Keeps s_ s) :
    KeepsO s_ (execUnitComplete d fid u s) := by
  unfold execUnitComplete
  with_reducible
    repeat' (first
      | assumption
      | apply State_unitComplete_keeps
      | apply keepsO_next)

/-- `State.waitTimeout` keeps them. -/
theorem State_waitTimeout_keeps (s : State) (d c : Nat) (q : Bool) {s_ : State} (hks : Keeps s_ s) :
    Keeps s_ (State.waitTimeout s d c q) := by
  unfold State.waitTimeout
  with_reducible
    repeat' (first
      | assumption
      | lift_lets
      | (intro x; refine (fun (hx : Keeps s_ x) => ?_) ?_; clear_value x; rotate_left; unfold x; rotate_right)
      | (intro x; clear_value x)
      | apply State_linkEvent_keeps
      | apply keeps_ite
      | split
      | (refine keeps_fst_eq (by assumption) ?_))

/-- `execWaitTimeout` keeps them. -/
theorem execWaitTimeout_keeps (d c : Nat) (q : Bool) (s : State) {s_ : State} (hks : Keeps s_ s) :
    KeepsO s_ (execWaitTimeout d c q s) := by
  unfold execWaitTimeout
  with_reducible
    repeat' (first
      | assumption
      | apply State_waitTimeout_keeps
      | apply keepsO_next)

/-- `State.putTrap` keeps them. -/
theorem State_putTrap_keeps (s : State) (c : Nat) (bs : List Byte) {s_ : State} (hks : Keeps s_ s) :
    Keeps s_ (State.putTrap s c bs) := by
  unfold State.putTrap
  with_reducible
    repeat' (first
      | assumption
      | lift_lets
      | (intro x; refine (fun (hx : Keeps s_ x) => ?_) ?_; clear_value x; rotate_left; unfold x; rotate_right)
      | (intro x; refine (fun (hx : Keeps s_ x.1) => ?_) ?_; clear_value x; rotate_left; unfold x; rotate_right)
      | (intro x; clear_value x)
      | apply State_mergeAt_keeps
      | apply State_hostMerge_keeps
      | apply State_trap_keeps
      | apply keeps_ite)

/-- `State.trapRecord` keeps them. -/
theorem State_trapRecord_keeps (s : State) (c : Nat) {s_ : State} (hks : Keeps s_ s) :
    Keeps s_ (State.trapRecord s c) := by
  unfold State.trapRecord
  with_reducible
    repeat' (first
      | assumption
      | lift_lets
      | (intro x; refine (fun (hx : Keeps s_ x) => ?_) ?_; clear_value x; rotate_left; unfold x; rotate_right)
      | (intro x; clear_value x)
      | apply State_updHc_keeps
      | apply State_cause_keeps
      | apply State_sendSnoop_keeps
      | apply State_trap_keeps
      | apply State_putTrap_keeps
      | apply keeps_ite
      | (apply keeps_mk; assumption)
      | (intro _)
      | split
      | (refine keeps_fst_eq (by assumption) ?_))

/-- `execTrapRecord` keeps them. -/
theorem execTrapRecord_keeps (c : Nat) (s : State) {s_ : State} (hks : Keeps s_ s) :
    KeepsO s_ (execTrapRecord c s) := by
  unfold execTrapRecord
  with_reducible
    repeat' (first
      | assumption
      | apply State_trapRecord_keeps
      | apply keepsO_next)

/-- `State.cntWrite` keeps them. -/
theorem State_cntWrite_keeps (s : State) (d c i : Nat) (v : Word) {s_ : State} (hks : Keeps s_ s) :
    Keeps s_ (State.cntWrite s d c i v).1 := by
  unfold State.cntWrite
  with_reducible
    repeat' (first
      | assumption
      | apply State_setRg_keeps
      | apply State_configBusy_keeps
      | apply keeps_ite1
      | apply keeps_ite)

/-- `execSeqCntWrite` keeps them. -/
theorem execSeqCntWrite_keeps (d c i : Nat) (v : Word) (s : State) {s_ : State} (hks : Keeps s_ s) :
    KeepsO s_ (execSeqCntWrite d c i v s) := by
  unfold execSeqCntWrite
  with_reducible
    repeat' (first
      | assumption
      | apply State_cntWrite_keeps
      | apply keepsO_ite
      | apply keepsO_next
      | apply keeps_ite)

/-- `State.quantumExpiry` keeps them. -/
theorem State_quantumExpiry_keeps (s : State) (d l : Nat) {s_ : State} (hks : Keeps s_ s) :
    Keeps s_ (State.quantumExpiry s d l) := by
  unfold State.quantumExpiry
  with_reducible
    repeat' (first
      | assumption
      | apply State_updCl_keeps
      | apply keeps_ite
      | (apply keeps_mk; assumption)
      | (intro _)
      | split
      | (refine keeps_fst_eq (by assumption) ?_))

/-- `execQuantumExpiry` keeps them. -/
theorem execQuantumExpiry_keeps (d l : Nat) (s : State) {s_ : State} (hks : Keeps s_ s) :
    KeepsO s_ (execQuantumExpiry d l s) := by
  unfold execQuantumExpiry
  with_reducible
    repeat' (first
      | assumption
      | apply State_quantumExpiry_keeps
      | apply keepsO_next)

/-- `State.imageTrap` keeps them. -/
theorem State_imageTrap_keeps (s : State) (d c a : Nat) {s_ : State} (hks : Keeps s_ s) :
    Keeps s_ (State.imageTrap s d c a) := by
  unfold State.imageTrap
  with_reducible
    repeat' (first
      | assumption
      | apply State_stepCrc_keeps)

/-- `State.loadImage` keeps them. -/
theorem State_loadImage_keeps (s : State) (d c l : Nat) {s_ : State} (hks : Keeps s_ s) :
    Keeps s_ (State.loadImage s d c l) := by
  unfold State.loadImage
  with_reducible
    repeat' (first
      | assumption
      | lift_lets
      | (intro x; refine (fun (hx : Keeps s_ x) => ?_) ?_; clear_value x; rotate_left; unfold x; rotate_right)
      | (intro x; clear_value x)
      | apply forEach_keeps
      | apply State_updCl_keeps
      | apply State_setShad_keeps
      | (apply keeps_mk; assumption)
      | (intro _))

/-- `State.saveImage` keeps them. -/
theorem State_saveImage_keeps (s : State) (d c l : Nat) {s_ : State} (hks : Keeps s_ s) :
    Keeps s_ (State.saveImage s d c l) := by
  unfold State.saveImage
  with_reducible
    repeat' (first
      | assumption
      | lift_lets
      | (intro x; refine (fun (hx : Keeps s_ x) => ?_) ?_; clear_value x; rotate_left; unfold x; rotate_right)
      | (intro x; refine (fun (hx : Keeps s_ x.1) => ?_) ?_; clear_value x; rotate_left; unfold x; rotate_right)
      | (intro x; refine (fun (hx : ∀ y, Keeps s_ (x y)) => ?_) ?_; clear_value x; rotate_left; unfold x; rotate_right)
      | (intro x; clear_value x)
      | apply forEach_keeps
      | apply State_writeAt_keeps
      | apply State_imageTrap_keeps
      | apply keeps_ite
      | apply keeps_ite1
      | (apply keeps_mk; first | assumption | apply forEach_keeps | apply State_writeAt_keeps | apply State_imageTrap_keeps)
      | (intro _)
      | split
      | (dsimp only; split)
      | (refine keeps_fst_eq (by assumption) ?_))

/-- `State.preloadNow` keeps them. -/
theorem State_preloadNow_keeps (s : State) (d l c : Nat) (env : Env) {s_ : State} (hks : Keeps s_ s) :
    Keeps s_ (State.preloadNow s d l c env) := by
  unfold State.preloadNow
  with_reducible
    repeat' (first
      | assumption
      | lift_lets
      | (intro x; refine (fun (hx : Keeps s_ x) => ?_) ?_; clear_value x; rotate_left; unfold x; rotate_right)
      | (intro x; clear_value x)
      | apply State_stepCrcCe_keeps
      | apply State_imageTrap_keeps
      | apply State_loadImage_keeps
      | apply keeps_ite
      | split
      | (refine keeps_fst_eq (by assumption) ?_))

/-- `State.contextPreload` keeps them. -/
theorem State_contextPreload_keeps (s : State) (d l : Nat) (env : Env) {s_ : State} (hks : Keeps s_ s) :
    Keeps s_ (State.contextPreload s d l env) := by
  unfold State.contextPreload
  with_reducible
    repeat' (first
      | assumption
      | lift_lets
      | (intro x; refine (fun (hx : Keeps s_ x) => ?_) ?_; clear_value x; rotate_left; unfold x; rotate_right)
      | (intro x; clear_value x)
      | apply State_snoopAll_keeps
      | apply State_preloadNow_keeps
      | apply keeps_ite
      | (intro _)
      | split
      | (refine keeps_fst_eq (by assumption) ?_))

/-- `execContextPreload` keeps them. -/
theorem execContextPreload_keeps (d l : Nat) (env : Env) (s : State) {s_ : State} (hks : Keeps s_ s) :
    KeepsO s_ (execContextPreload d l env s) := by
  unfold execContextPreload
  with_reducible
    repeat' (first
      | assumption
      | apply State_contextPreload_keeps
      | apply keepsO_next)

/-- `State.switchNow` keeps them. -/
theorem State_switchNow_keeps (s : State) (d l c : Nat) {s_ : State} (hks : Keeps s_ s) :
    Keeps s_ (State.switchNow s d l c) := by
  unfold State.switchNow
  with_reducible
    repeat' (first
      | assumption
      | lift_lets
      | (intro x; refine (fun (hx : Keeps s_ x) => ?_) ?_; clear_value x; rotate_left; unfold x; rotate_right)
      | (intro x; clear_value x)
      | apply State_updCl_keeps
      | apply State_copyRegs_keeps
      | apply State_saveImage_keeps
      | apply keeps_ite
      | (apply keeps_mk; assumption)
      | (intro _)
      | split
      | (refine keeps_fst_eq (by assumption) ?_))

/-- `State.contextSwitch` keeps them. -/
theorem State_contextSwitch_keeps (s : State) (d l : Nat) (env : Env) {s_ : State} (hks : Keeps s_ s) :
    Keeps s_ (State.contextSwitch s d l env) := by
  unfold State.contextSwitch
  with_reducible
    repeat' (first
      | assumption
      | lift_lets
      | (intro x; refine (fun (hx : Keeps s_ x) => ?_) ?_; clear_value x; rotate_left; unfold x; rotate_right)
      | (intro x; clear_value x)
      | apply State_snoopAll_keeps
      | apply State_preloadNow_keeps
      | apply State_switchNow_keeps
      | apply keeps_ite
      | (intro _)
      | split
      | (refine keeps_fst_eq (by assumption) ?_))

/-- `execContextSwitch` keeps them. -/
theorem execContextSwitch_keeps (d l : Nat) (env : Env) (s : State) {s_ : State} (hks : Keeps s_ s) :
    KeepsO s_ (execContextSwitch d l env s) := by
  unfold execContextSwitch
  with_reducible
    repeat' (first
      | assumption
      | apply State_contextSwitch_keeps
      | apply keepsO_next)

end Sys2Proof.Machine
end

