-- ==== Sys2Proof/Laws/Reads.lean ====
section
/-! SUPPORT. What a read gives after a write: registers, their fields, memory lines and every table of the block. A value that equals
what an unlisted key reads as leaves no entry, so a read of the key that was written takes the canonical form as its premise. -/

namespace Sys2Proof.Machine

/-! ### Fields of a word -/

/-- Bit `k` of a field. -/
theorem testBit_bits (w : Word) (lo n k : Nat) : (bits w lo n).testBit k = (decide (k < n) && w.getLsbD (lo + k)) := by
  unfold bits
  rw [Nat.testBit_mod_two_pow, Nat.testBit_shiftRight]
  rfl

/-- Bit `k` of a word with a field set. -/
theorem getLsbD_withBits (w : Word) (lo n v k : Nat) (hk : k < 64) :
    (withBits w lo n v).getLsbD k = if lo ≤ k ∧ k < lo + n then v.testBit (k - lo) else w.getLsbD k := by
  unfold withBits maskOf
  simp only [BitVec.getLsbD_or, BitVec.getLsbD_and, BitVec.getLsbD_not, BitVec.getLsbD_ofNat, Nat.testBit_shiftLeft,
    Nat.testBit_two_pow_sub_one, Nat.testBit_mod_two_pow, hk, decide_true, Bool.true_and]
  by_cases h1 : lo ≤ k
  · by_cases h2 : k < lo + n
    · have h3 : k - lo < n := by omega
      simp [h1, h2, h3]
    · have h3 : ¬ k - lo < n := by omega
      simp [h1, h2, h3]
  · simp [h1]

/-- A field that was set reads as its value. -/
theorem bits_withBits (w : Word) (lo n v : Nat) (h : lo + n ≤ 64) : bits (withBits w lo n v) lo n = v % 2 ^ n := by
  apply Nat.eq_of_testBit_eq
  intro k
  rw [testBit_bits, Nat.testBit_mod_two_pow]
  by_cases hk : k < n
  · rw [getLsbD_withBits w lo n v (lo + k) (by omega), if_pos ⟨by omega, by omega⟩]
    simp [hk]
  · simp [hk]

/-- A field apart from the one that was set reads as before. -/
theorem bits_withBits_apart (w : Word) (lo n v lo' n' : Nat) (h : lo' + n' ≤ 64) (ha : lo' + n' ≤ lo ∨ lo + n ≤ lo') :
    bits (withBits w lo n v) lo' n' = bits w lo' n' := by
  apply Nat.eq_of_testBit_eq
  intro k
  rw [testBit_bits, testBit_bits]
  by_cases hk : k < n'
  · rw [getLsbD_withBits w lo n v (lo' + k) (by omega), if_neg (by omega)]
  · simp [hk]

/-! ### Registers -/

/-- A register reads as it was written. -/
theorem State.reg_setReg (s : State) (a : Nat) (v : Word) : (s.setReg a v).reg a = v := by
  unfold State.reg
  rw [State.setReg_part, State.setReg_eq]
  exact smGet_smPut _ _ a v

/-- A register write leaves the registers at other addresses alone. -/
theorem State.reg_setReg_ne (s : State) {a b : Nat} (v : Word) (h : b ≠ a) : (s.setReg a v).reg b = s.reg b := by
  unfold State.reg
  rw [State.setReg_part, State.setReg_eq]
  exact smGet_smPut_ne _ _ _ v h

/-- A register reads as it was written. -/
theorem State.rg_setRg (s : State) (d : Nat) (b : Blk) (i f : Nat) (v : Word) : (s.setRg d b i f v).rg d b i f = v :=
  State.reg_setReg s _ v

/-- A register write leaves the other registers alone. -/
theorem State.rg_setRg_ne (s : State) (d : Nat) (b : Blk) (i f : Nat) (v : Word) (d' : Nat) (b' : Blk) (i' f' : Nat)
    (h : regAddr d' b' i' f' ≠ regAddr d b i f) : (s.setRg d b i f v).rg d' b' i' f' = s.rg d' b' i' f' :=
  State.reg_setReg_ne s v h

/-- Offsets of one instance tell its registers apart. -/
theorem regAddr_ne (d : Nat) (b : Blk) (i : Nat) {f f' : Nat} (h : f' ≠ f) : regAddr d b i f' ≠ regAddr d b i f := by
  unfold regAddr; omega

/-- A field that was set reads as its value. -/
theorem State.fld_setFld (s : State) (d : Nat) (b : Blk) (i f lo n v : Nat) (hn : lo + n ≤ 64) :
    (s.setFld d b i f lo n v).fld d b i f lo n = v % 2 ^ n := by
  unfold State.fld State.setFld
  rw [State.rg_setRg s]
  exact bits_withBits _ _ _ _ hn

/-- Another field of the same register reads as before. -/
theorem State.fld_setFld_apart (s : State) (d : Nat) (b : Blk) (i f lo n v lo' n' : Nat) (hn : lo' + n' ≤ 64)
    (ha : lo' + n' ≤ lo ∨ lo + n ≤ lo') : (s.setFld d b i f lo n v).fld d b i f lo' n' = s.fld d b i f lo' n' := by
  unfold State.fld State.setFld
  rw [State.rg_setRg s]
  exact bits_withBits_apart _ _ _ _ _ _ hn ha

/-! ### Memory -/

/-- A run of writes leaves the keys outside it alone. -/
theorem smGet_smPuts_out {α : Type} [DecidableEq α] (d : α) (m : List (Nat × α)) (k : Nat) (vs : List α) (j : Nat)
    (h : j < k ∨ k + vs.length ≤ j) : smGet d (smPuts d m k vs) j = smGet d m j := by
  induction vs generalizing m k with
  | nil => rfl
  | cons v r ih =>
    have h1 : j ≠ k := by
      simp only [List.length_cons] at h; omega
    have h2 : j < k + 1 ∨ k + 1 + r.length ≤ j := by
      simp only [List.length_cons] at h; omega
    show smGet d (smPuts d (smPut d m k v) (k + 1) r) j = _
    rw [ih _ _ h2, smGet_smPut_ne d d m v h1]

/-- A run of writes is read back. -/
theorem smGet_smPuts_in {α : Type} [DecidableEq α] (d : α) (m : List (Nat × α)) (k : Nat) (vs : List α)
    (i : Nat) (h : i < vs.length) : smGet d (smPuts d m k vs) (k + i) = vs.getD i d := by
  induction vs generalizing m k i with
  | nil => simp at h
  | cons v r ih =>
    show smGet d (smPuts d (smPut d m k v) (k + 1) r) (k + i) = _
    cases i with
    | zero =>
      rw [Nat.add_zero, smGet_smPuts_out d _ _ _ _ (by omega)]
      exact smGet_smPut d m k v
    | succ i =>
      have e : k + (i + 1) = k + 1 + i := by omega
      rw [e, ih (smPut d m k v) (k + 1) i (by simpa using h)]
      rfl

/-- Padded bytes have the length asked for. -/
theorem length_padTo (n : Nat) (xs : List Byte) : (padTo n xs).length = n := by
  unfold padTo
  simp
  try omega

/-- A line write leaves the bytes outside the line alone. -/
theorem State.byte_putLine_out (s : State) (n : Nat) (l : Line) {a : Nat} (h : a / 128 ≠ n) : (s.putLine n l).byte a = s.byte a := by
  unfold State.byte
  rw [State.putLine_eq]
  refine smGet_smPuts_out _ _ _ _ _ ?_
  rw [length_padTo]
  omega

/-- A line write is read back. -/
theorem State.byte_putLine (s : State) (n : Nat) (l : Line) (i : Nat) (hi : i < 128) :
    (s.putLine n l).byte (128 * n + i) = (padTo 128 l.bytes).getD i 0 := by
  unfold State.byte
  rw [State.putLine_eq]
  refine smGet_smPuts_in _ _ _ _ _ ?_
  rw [length_padTo]
  exact hi

/-- The sideband of a line that was written. -/
theorem State.sideOf_putLine (s : State) (n : Nat) (l : Line) : (s.putLine n l).sideOf n = l.sb := by
  unfold State.sideOf
  rw [State.putLine_eq]
  exact smGet_smPut _ _ n l.sb

/-- A line write leaves the other sidebands alone. -/
theorem State.sideOf_putLine_ne (s : State) {n m : Nat} (l : Line) (h : m ≠ n) : (s.putLine n l).sideOf m = s.sideOf m := by
  unfold State.sideOf
  rw [State.putLine_eq]
  exact smGet_smPut_ne _ _ _ l.sb h

/-! ### Tables -/

/-- The entry that was written. -/
theorem State.die_putDie (s : State) (d : Nat) (x : DieSt) : (s.putDie d x).die d = x :=
  smGet_smPut _ _ (d) x
/-- The other entries of the table. -/
theorem State.die_putDie_ne (s : State) (d : Nat) (x : DieSt) (d' : Nat) (h : d' ≠ d) : (s.putDie d x).die d' = s.die d' :=
  smGet_smPut_ne _ _ _ x h
/-- The entry that was changed. -/
theorem State.die_updDie (s : State) (d : Nat) (f : DieSt → DieSt) : (s.updDie d f).die d = f (s.die d) :=
  State.die_putDie s d _
/-- The other entries of the table. -/
theorem State.die_updDie_ne (s : State) (d : Nat) (f : DieSt → DieSt) (d' : Nat) (h : d' ≠ d) : (s.updDie d f).die d' = s.die d' :=
  State.die_putDie_ne s d _ d' h

/-- The entry that was written. -/
theorem State.router_putRouter (s : State) (d : Nat) (x : Router) : (s.putRouter d x).router d = x :=
  smGet_smPut _ _ (d) x
/-- The other entries of the table. -/
theorem State.router_putRouter_ne (s : State) (d : Nat) (x : Router) (d' : Nat) (h : d' ≠ d) : (s.putRouter d x).router d' = s.router d' :=
  smGet_smPut_ne _ _ _ x h
/-- The entry that was changed. -/
theorem State.router_updRouter (s : State) (d : Nat) (f : Router → Router) : (s.updRouter d f).router d = f (s.router d) :=
  State.router_putRouter s d _
/-- The other entries of the table. -/
theorem State.router_updRouter_ne (s : State) (d : Nat) (f : Router → Router) (d' : Nat) (h : d' ≠ d) : (s.updRouter d f).router d' = s.router d' :=
  State.router_putRouter_ne s d _ d' h

/-- The entry that was written. -/
theorem State.link_putLink (s : State) (d : Nat) (x : Link) : (s.putLink d x).link d = x :=
  smGet_smPut _ _ (d) x
/-- The other entries of the table. -/
theorem State.link_putLink_ne (s : State) (d : Nat) (x : Link) (d' : Nat) (h : d' ≠ d) : (s.putLink d x).link d' = s.link d' :=
  smGet_smPut_ne _ _ _ x h
/-- The entry that was changed. -/
theorem State.link_updLink (s : State) (d : Nat) (f : Link → Link) : (s.updLink d f).link d = f (s.link d) :=
  State.link_putLink s d _
/-- The other entries of the table. -/
theorem State.link_updLink_ne (s : State) (d : Nat) (f : Link → Link) (d' : Nat) (h : d' ≠ d) : (s.updLink d f).link d' = s.link d' :=
  State.link_putLink_ne s d _ d' h

/-- The entry that was written. -/
theorem State.cel_putCel (s : State) (d : Nat) (x : Cellar) : (s.putCel d x).cel d = x :=
  smGet_smPut _ _ (d) x
/-- The other entries of the table. -/
theorem State.cel_putCel_ne (s : State) (d : Nat) (x : Cellar) (d' : Nat) (h : d' ≠ d) : (s.putCel d x).cel d' = s.cel d' :=
  smGet_smPut_ne _ _ _ x h
/-- The entry that was changed. -/
theorem State.cel_updCel (s : State) (d : Nat) (f : Cellar → Cellar) : (s.updCel d f).cel d = f (s.cel d) :=
  State.cel_putCel s d _
/-- The other entries of the table. -/
theorem State.cel_updCel_ne (s : State) (d : Nat) (f : Cellar → Cellar) (d' : Nat) (h : d' ≠ d) : (s.updCel d f).cel d' = s.cel d' :=
  State.cel_putCel_ne s d _ d' h

/-- The entry that was written. -/
theorem State.ctx_putCtx (s : State) (d c : Nat) (x : Ctx) : (s.putCtx d c x).ctx d c = x :=
  smGet_smPut _ _ (d * 8 + c) x
/-- The other entries of the table. -/
theorem State.ctx_putCtx_ne (s : State) (d c : Nat) (x : Ctx) (d' c' : Nat) (h : d' * 8 + c' ≠ d * 8 + c) : (s.putCtx d c x).ctx d' c' = s.ctx d' c' :=
  smGet_smPut_ne _ _ _ x h
/-- The entry that was changed. -/
theorem State.ctx_updCtx (s : State) (d c : Nat) (f : Ctx → Ctx) : (s.updCtx d c f).ctx d c = f (s.ctx d c) :=
  State.ctx_putCtx s d c _
/-- The other entries of the table. -/
theorem State.ctx_updCtx_ne (s : State) (d c : Nat) (f : Ctx → Ctx) (d' c' : Nat) (h : d' * 8 + c' ≠ d * 8 + c) : (s.updCtx d c f).ctx d' c' = s.ctx d' c' :=
  State.ctx_putCtx_ne s d c _ d' c' h

/-- The entry that was written. -/
theorem State.hc_putHc (s : State) (c : Nat) (x : HCtx) : (s.putHc c x).hc c = x :=
  smGet_smPut _ _ (c) x
/-- The other entries of the table. -/
theorem State.hc_putHc_ne (s : State) (c : Nat) (x : HCtx) (c' : Nat) (h : c' ≠ c) : (s.putHc c x).hc c' = s.hc c' :=
  smGet_smPut_ne _ _ _ x h
/-- The entry that was changed. -/
theorem State.hc_updHc (s : State) (c : Nat) (f : HCtx → HCtx) : (s.updHc c f).hc c = f (s.hc c) :=
  State.hc_putHc s c _
/-- The other entries of the table. -/
theorem State.hc_updHc_ne (s : State) (c : Nat) (f : HCtx → HCtx) (c' : Nat) (h : c' ≠ c) : (s.updHc c f).hc c' = s.hc c' :=
  State.hc_putHc_ne s c _ c' h

/-- The entry that was written. -/
theorem State.cl_putCl (s : State) (d l : Nat) (x : Cluster) : (s.putCl d l x).cl d l = x :=
  smGet_smPut _ _ (d * 64 + l) x
/-- The other entries of the table. -/
theorem State.cl_putCl_ne (s : State) (d l : Nat) (x : Cluster) (d' l' : Nat) (h : d' * 64 + l' ≠ d * 64 + l) : (s.putCl d l x).cl d' l' = s.cl d' l' :=
  smGet_smPut_ne _ _ _ x h
/-- The entry that was changed. -/
theorem State.cl_updCl (s : State) (d l : Nat) (f : Cluster → Cluster) : (s.updCl d l f).cl d l = f (s.cl d l) :=
  State.cl_putCl s d l _
/-- The other entries of the table. -/
theorem State.cl_updCl_ne (s : State) (d l : Nat) (f : Cluster → Cluster) (d' l' : Nat) (h : d' * 64 + l' ≠ d * 64 + l) : (s.updCl d l f).cl d' l' = s.cl d' l' :=
  State.cl_putCl_ne s d l _ d' l' h

/-- The entry that was written. -/
theorem State.ph_putPh (s : State) (d p : Nat) (x : Phys) : (s.putPh d p x).ph d p = x :=
  smGet_smPut _ _ (d * 64 + p) x
/-- The other entries of the table. -/
theorem State.ph_putPh_ne (s : State) (d p : Nat) (x : Phys) (d' p' : Nat) (h : d' * 64 + p' ≠ d * 64 + p) : (s.putPh d p x).ph d' p' = s.ph d' p' :=
  smGet_smPut_ne _ _ _ x h
/-- The entry that was changed. -/
theorem State.ph_updPh (s : State) (d p : Nat) (f : Phys → Phys) : (s.updPh d p f).ph d p = f (s.ph d p) :=
  State.ph_putPh s d p _
/-- The other entries of the table. -/
theorem State.ph_updPh_ne (s : State) (d p : Nat) (f : Phys → Phys) (d' p' : Nat) (h : d' * 64 + p' ≠ d * 64 + p) : (s.updPh d p f).ph d' p' = s.ph d' p' :=
  State.ph_putPh_ne s d p _ d' p' h

/-- The entry that was written. -/
theorem State.port_putPort (s : State) (d p : Nat) (x : Port) : (s.putPort d p x).port d p = x :=
  smGet_smPut _ _ (d * 8 + p) x
/-- The other entries of the table. -/
theorem State.port_putPort_ne (s : State) (d p : Nat) (x : Port) (d' p' : Nat) (h : d' * 8 + p' ≠ d * 8 + p) : (s.putPort d p x).port d' p' = s.port d' p' :=
  smGet_smPut_ne _ _ _ x h
/-- The entry that was changed. -/
theorem State.port_updPort (s : State) (d p : Nat) (f : Port → Port) : (s.updPort d p f).port d p = f (s.port d p) :=
  State.port_putPort s d p _
/-- The other entries of the table. -/
theorem State.port_updPort_ne (s : State) (d p : Nat) (f : Port → Port) (d' p' : Nat) (h : d' * 8 + p' ≠ d * 8 + p) : (s.updPort d p f).port d' p' = s.port d' p' :=
  State.port_putPort_ne s d p _ d' p' h

/-- The entry that was written. -/
theorem State.chan_putChan (s : State) (d c k : Nat) (x : Chan) : (s.putChan d c k x).chan d c k = x :=
  smGet_smPut _ _ ((d * 8 + c) * 16 + k) x
/-- The other entries of the table. -/
theorem State.chan_putChan_ne (s : State) (d c k : Nat) (x : Chan) (d' c' k' : Nat) (h : (d' * 8 + c') * 16 + k' ≠ (d * 8 + c) * 16 + k) : (s.putChan d c k x).chan d' c' k' = s.chan d' c' k' :=
  smGet_smPut_ne _ _ _ x h
/-- The entry that was changed. -/
theorem State.chan_updChan (s : State) (d c k : Nat) (f : Chan → Chan) : (s.updChan d c k f).chan d c k = f (s.chan d c k) :=
  State.chan_putChan s d c k _
/-- The other entries of the table. -/
theorem State.chan_updChan_ne (s : State) (d c k : Nat) (f : Chan → Chan) (d' c' k' : Nat) (h : (d' * 8 + c') * 16 + k' ≠ (d * 8 + c) * 16 + k) : (s.updChan d c k f).chan d' c' k' = s.chan d' c' k' :=
  State.chan_putChan_ne s d c k _ d' c' k' h

/-- The entry that was written. -/
theorem State.hbm_putHbm (s : State) (d k : Nat) (x : Hbm) : (s.putHbm d k x).hbm d k = x :=
  smGet_smPut _ _ (d * 2 + k) x
/-- The other entries of the table. -/
theorem State.hbm_putHbm_ne (s : State) (d k : Nat) (x : Hbm) (d' k' : Nat) (h : d' * 2 + k' ≠ d * 2 + k) : (s.putHbm d k x).hbm d' k' = s.hbm d' k' :=
  smGet_smPut_ne _ _ _ x h
/-- The entry that was changed. -/
theorem State.hbm_updHbm (s : State) (d k : Nat) (f : Hbm → Hbm) : (s.updHbm d k f).hbm d k = f (s.hbm d k) :=
  State.hbm_putHbm s d k _
/-- The other entries of the table. -/
theorem State.hbm_updHbm_ne (s : State) (d k : Nat) (f : Hbm → Hbm) (d' k' : Nat) (h : d' * 2 + k' ≠ d * 2 + k) : (s.updHbm d k f).hbm d' k' = s.hbm d' k' :=
  State.hbm_putHbm_ne s d k _ d' k' h

/-- What a change keeps holds of the canonical form. -/
theorem Keeps.canonical {s t : State} (k : Keeps s t) (h : s.Canonical) : t.Canonical := k.wf h

end Sys2Proof.Machine
end

