-- ==== Sys2Proof/Laws/Calm.lean ====
section
/-! SUPPORT. What a step leaves alone once it has issued. -/

namespace Sys2Proof.Machine

/-- What a step leaves alone once it has issued: the canonical form, the queues, the context that issued last, and the number of the next
flight. -/
structure Calm (s t : State) : Prop where
  can : s.Canonical → t.Canonical
  queue : s.Canonical → ∀ d c q, (t.ctx d c).queue q = (s.ctx d c).queue q
  last : s.Canonical → ∀ d, (t.die d).lastCtx = (s.die d).lastCtx
  nextId : t.nextId = s.nextId

/-- The same of an outcome. -/
def CalmO (s : State) (o : Host.Outcome State Fault Refusal) : Prop := ∀ t, o = .next t → Calm s t

/-- Nothing changes. -/
theorem Calm.refl (s : State) : Calm s s := ⟨id, fun _ _ _ _ => rfl, fun _ _ => rfl, rfl⟩
/-- The relation passes through. -/
theorem calm_letS {s0 : State} {e : State} {b : State → State} (h : Calm s0 e) (hb : ∀ x, Calm s0 x → Calm s0 (b x)) :
  Calm s0 (let x := e; b x) := hb _ h
/-- The relation passes through. -/
theorem calm_letS1 {β : Type} {s0 : State} {e : State} {b : State → State × β} (h : Calm s0 e) (hb : ∀ x, Calm s0 x → Calm s0 (b x).1) :
  Calm s0 (let x := e; b x).1 := hb _ h
/-- The relation passes through. -/
theorem calm_letP {α : Type} {s0 : State} {e : State × α} {b : State × α → State} (h : Calm s0 e.1) (hb : ∀ x : State × α, Calm s0 x.1 → Calm s0 (b x)) :
  Calm s0 (let x := e; b x) := hb _ h
/-- The relation passes through. -/
theorem calm_letP1 {α β : Type} {s0 : State} {e : State × α} {b : State × α → State × β} (h : Calm s0 e.1) (hb : ∀ x : State × α, Calm s0 x.1 → Calm s0 (b x).1) :
  Calm s0 (let x := e; b x).1 := hb _ h
/-- The relation passes through. -/
theorem calmO_letS {s0 : State} {e : State} {b : State → Host.Outcome State Fault Refusal} (h : Calm s0 e) (hb : ∀ x, Calm s0 x → CalmO s0 (b x)) :
  CalmO s0 (let x := e; b x) := hb _ h
/-- The relation passes through. -/
theorem calm_ite {s0 a b : State} {c : Prop} [Decidable c] (ha : Calm s0 a) (hb : Calm s0 b) : Calm s0 (if c then a else b) := by
  split <;> assumption
/-- The relation passes through. -/
theorem calm_ite1 {β : Type} {s0 : State} {a b : State × β} {c : Prop} [Decidable c] (ha : Calm s0 a.1) (hb : Calm s0 b.1) : Calm s0 (if c then a else b).1 := by
  split <;> assumption
/-- The relation passes through. -/
theorem calmO_ite {s0 : State} {a b : Host.Outcome State Fault Refusal} {c : Prop} [Decidable c] (ha : CalmO s0 a) (hb : CalmO s0 b) : CalmO s0 (if c then a else b) := by
  split <;> assumption
/-- The relation passes through. -/
theorem calmO_next {s0 a : State} (h : Calm s0 a) : CalmO s0 (.next a) := by
  intro t ht; cases ht; exact h
/-- The relation passes through. -/
theorem calmO_fault {s0 : State} {f : Fault} : CalmO s0 (.fault f) := by
  intro t ht; cases ht
/-- A loop keeps what its body keeps. -/
theorem forEach_calm {α : Type} {s0 s : State} {xs : List α} {f : α → State → State} (hf : ∀ x t, Calm s0 t → Calm s0 (f x t)) (h : Calm s0 s) :
    Calm s0 (forEach xs f s) := by
  unfold forEach
  induction xs generalizing s with
  | nil => exact h
  | cons x xs ih => exact ih (hf x s h)

/-- The relation passes through. -/
theorem calm_let {α : Type} {s0 : State} {e : α} {b : α → State} (hb : ∀ x, Calm s0 (b x)) : Calm s0 (let x := e; b x) := hb _
/-- The relation passes through. -/
theorem calm_let1 {α β : Type} {s0 : State} {e : α} {b : α → State × β} (hb : ∀ x, Calm s0 (b x).1) :
    Calm s0 (let x := e; b x).1 := hb _
/-- The relation passes through. -/
theorem calmO_let {α : Type} {s0 : State} {e : α} {b : α → Host.Outcome State Fault Refusal} (hb : ∀ x, CalmO s0 (b x)) :
    CalmO s0 (let x := e; b x) := hb _


/-- The relation passes through a destructured pair. -/
theorem calm_fst_eq {β : Type} {s0 t : State} {p : State × β} {o : β} (e : p = (t, o)) (h : Calm s0 p.1) : Calm s0 t := by
  rw [e] at h; exact h

/-- The relation passes along an equation of pairs. -/
theorem calm_fst_of {β : Type} {s0 : State} {p q : State × β} (e : q = p) (h : Calm s0 q.1) : Calm s0 p.1 := e ▸ h

/-- The relation passes to a pair. -/
theorem calm_pair {β : Type} {s0 a : State} {b : β} (h : Calm s0 a) : Calm s0 (a, b).1 := h

/-- A fold keeps what its body keeps. -/
theorem foldl_calm {α : Type} {s0 s : State} {xs : List α} {f : State → α → State} (hf : ∀ t x, Calm s0 t → Calm s0 (f t x))
    (h : Calm s0 s) : Calm s0 (xs.foldl f s) := by
  induction xs generalizing s with
  | nil => exact h
  | cons x xs ih => exact ih (hf s x h)

/-- A fold over a pair keeps what its body keeps. -/
theorem foldl_calm1 {α β : Type} {s0 : State} {p : State × β} {xs : List α} {f : State × β → α → State × β}
    (hf : ∀ t x, Calm s0 t.1 → Calm s0 (f t x).1) (h : Calm s0 p.1) : Calm s0 (xs.foldl f p).1 := by
  induction xs generalizing p with
  | nil => exact h
  | cons x xs ih => exact ih (hf p x h)

/-- One change keeps what the next one keeps. -/
theorem Calm.trans {a b c : State} (h : Calm a b) (k : Calm b c) : Calm a c :=
  ⟨fun c => k.can (h.can c), fun c d e q => (k.queue (h.can c) d e q).trans (h.queue c d e q),
    fun c d => (k.last (h.can c) d).trans (h.last c d), k.nextId.trans h.nextId⟩

/-- A change of the other fields. -/
theorem calm_of {s0 s t : State} (h : Calm s0 s) (k : Keeps s t) (hc : t.ctxs = s.ctxs) (hd : t.dies = s.dies) (hn : t.nextId = s.nextId) :
    Calm s0 t where
  can := fun c => k.wf (h.can c)
  queue := fun c d e q => by
    rw [← h.queue c d e q]; unfold State.ctx; rw [hc]
  last := fun c d => by
    rw [← h.last c d]; unfold State.die; rw [hd]
  nextId := hn.trans h.nextId

/-- A change of the fields that hold no table. -/
theorem calm_mk {s0 s : State} {f1 f2 f3 f4 f5 f6} (h : Calm s0 s) :
    Calm s0 (State.mk s.pending s.part f1 f2 s.mem s.side s.regs s.shadow s.classes s.ctxs s.hctx f3 s.nextId s.clus s.phys s.dies s.routers s.ports s.links s.chans s.cels s.hbms f4 f5 f6) :=
  ⟨fun c => h.can c, fun c => h.queue c, fun c => h.last c, h.nextId⟩

/-- Writing this table. -/
theorem State_putRouter_calm {s0 s : State} (hk : Calm s0 s) (d : Nat) (x : Router) : Calm s0 (s.putRouter d x) :=
  calm_of hk (State_putRouter_keeps (Keeps.refl s) d x) rfl rfl rfl
/-- Changing this table. -/
theorem State_updRouter_calm {s0 s : State} (hk : Calm s0 s) (d : Nat) (f : Router → Router) : Calm s0 (s.updRouter d f) :=
  State_putRouter_calm hk d _

/-- Writing this table. -/
theorem State_putLink_calm {s0 s : State} (hk : Calm s0 s) (d : Nat) (x : Link) : Calm s0 (s.putLink d x) :=
  calm_of hk (State_putLink_keeps (Keeps.refl s) d x) rfl rfl rfl
/-- Changing this table. -/
theorem State_updLink_calm {s0 s : State} (hk : Calm s0 s) (d : Nat) (f : Link → Link) : Calm s0 (s.updLink d f) :=
  State_putLink_calm hk d _

/-- Writing this table. -/
theorem State_putCel_calm {s0 s : State} (hk : Calm s0 s) (d : Nat) (x : Cellar) : Calm s0 (s.putCel d x) :=
  calm_of hk (State_putCel_keeps (Keeps.refl s) d x) rfl rfl rfl
/-- Changing this table. -/
theorem State_updCel_calm {s0 s : State} (hk : Calm s0 s) (d : Nat) (f : Cellar → Cellar) : Calm s0 (s.updCel d f) :=
  State_putCel_calm hk d _

/-- Writing this table. -/
theorem State_putHc_calm {s0 s : State} (hk : Calm s0 s) (c : Nat) (x : HCtx) : Calm s0 (s.putHc c x) :=
  calm_of hk (State_putHc_keeps (Keeps.refl s) c x) rfl rfl rfl
/-- Changing this table. -/
theorem State_updHc_calm {s0 s : State} (hk : Calm s0 s) (c : Nat) (f : HCtx → HCtx) : Calm s0 (s.updHc c f) :=
  State_putHc_calm hk c _

/-- Writing this table. -/
theorem State_putCl_calm {s0 s : State} (hk : Calm s0 s) (d l : Nat) (x : Cluster) : Calm s0 (s.putCl d l x) :=
  calm_of hk (State_putCl_keeps (Keeps.refl s) d l x) rfl rfl rfl
/-- Changing this table. -/
theorem State_updCl_calm {s0 s : State} (hk : Calm s0 s) (d l : Nat) (f : Cluster → Cluster) : Calm s0 (s.updCl d l f) :=
  State_putCl_calm hk d l _

/-- Writing this table. -/
theorem State_putPh_calm {s0 s : State} (hk : Calm s0 s) (d p : Nat) (x : Phys) : Calm s0 (s.putPh d p x) :=
  calm_of hk (State_putPh_keeps (Keeps.refl s) d p x) rfl rfl rfl
/-- Changing this table. -/
theorem State_updPh_calm {s0 s : State} (hk : Calm s0 s) (d p : Nat) (f : Phys → Phys) : Calm s0 (s.updPh d p f) :=
  State_putPh_calm hk d p _

/-- Writing this table. -/
theorem State_putPort_calm {s0 s : State} (hk : Calm s0 s) (d p : Nat) (x : Port) : Calm s0 (s.putPort d p x) :=
  calm_of hk (State_putPort_keeps (Keeps.refl s) d p x) rfl rfl rfl
/-- Changing this table. -/
theorem State_updPort_calm {s0 s : State} (hk : Calm s0 s) (d p : Nat) (f : Port → Port) : Calm s0 (s.updPort d p f) :=
  State_putPort_calm hk d p _

/-- Writing this table. -/
theorem State_putChan_calm {s0 s : State} (hk : Calm s0 s) (d c h : Nat) (x : Chan) : Calm s0 (s.putChan d c h x) :=
  calm_of hk (State_putChan_keeps (Keeps.refl s) d c h x) rfl rfl rfl
/-- Changing this table. -/
theorem State_updChan_calm {s0 s : State} (hk : Calm s0 s) (d c h : Nat) (f : Chan → Chan) : Calm s0 (s.updChan d c h f) :=
  State_putChan_calm hk d c h _

/-- Writing this table. -/
theorem State_putHbm_calm {s0 s : State} (hk : Calm s0 s) (d k : Nat) (x : Hbm) : Calm s0 (s.putHbm d k x) :=
  calm_of hk (State_putHbm_keeps (Keeps.refl s) d k x) rfl rfl rfl
/-- Changing this table. -/
theorem State_updHbm_calm {s0 s : State} (hk : Calm s0 s) (d k : Nat) (f : Hbm → Hbm) : Calm s0 (s.updHbm d k f) :=
  State_putHbm_calm hk d k _

/-- A change of the classes of one cause bit. -/
theorem calm_classes {s0 s : State} (h : Calm s0 s) (k v : Nat) : Calm s0 { s with classes := smPut 0 s.classes k v } :=
  calm_of h (keeps_classes (Keeps.refl s) k v) rfl rfl rfl
/-- A register write. -/
theorem State_setReg_calm {s0 s : State} (h : Calm s0 s) (a : Nat) (v : Word) : Calm s0 (s.setReg a v) :=
  calm_of h (State_setReg_keeps (Keeps.refl s) a v) (State.setReg_ctxs s a v) (State.setReg_dies s a v) (State.setReg_nextId s a v)
/-- A shadow write. -/
theorem State_setShad_calm {s0 s : State} (h : Calm s0 s) (a : Nat) (v : Word) : Calm s0 (s.setShad a v) :=
  calm_of h (State_setShad_keeps (Keeps.refl s) a v) (State.setShad_ctxs s a v) (State.setShad_dies s a v) (State.setShad_nextId s a v)
/-- A line write. -/
theorem State_putLine_calm {s0 s : State} (h : Calm s0 s) (n : Nat) (l : Line) : Calm s0 (s.putLine n l) :=
  calm_of h (State_putLine_keeps (Keeps.refl s) n l) (State.putLine_ctxs s n l) (State.putLine_dies s n l) (State.putLine_nextId s n l)
/-- A sideband write. -/
theorem State_putSide_calm {s0 s : State} (h : Calm s0 s) (n : Nat) (x : Word) : Calm s0 (s.putSide n x) :=
  calm_of h (State_putSide_keeps (Keeps.refl s) n x) (State.putSide_ctxs s n x) (State.putSide_dies s n x) (State.putSide_nextId s n x)

/-- A change of a die that leaves the context that issued last. -/
theorem State_updDie_calm {s0 s : State} (hk : Calm s0 s) (d : Nat) (f : DieSt → DieSt) (hf : ∀ x, (f x).lastCtx = x.lastCtx) :
    Calm s0 (s.updDie d f) where
  can := fun c => (State_updDie_keeps (Keeps.refl s) d f).wf (hk.can c)
  queue := fun c d' e q => hk.queue c d' e q
  last := fun c d' => by
    rw [← hk.last c d']
    by_cases e : d' = d
    · rw [e, State.die_updDie _]; exact hf _
    · rw [State.die_updDie_ne s d f d' e]
  nextId := hk.nextId

/-- A change of a context that leaves its queues. -/
theorem State_updCtx_calm {s0 s : State} (hk : Calm s0 s) (d c : Nat) (f : Ctx → Ctx) (hf : ∀ x q, (f x).queue q = x.queue q) :
    Calm s0 (s.updCtx d c f) where
  can := fun w => (State_updCtx_keeps (Keeps.refl s) d c f).wf (hk.can w)
  queue := fun w d' c' q => by
    rw [← hk.queue w d' c' q]
    by_cases e : d' * 8 + c' = d * 8 + c
    · have h1 : (s.updCtx d c f).ctx d' c' = (s.updCtx d c f).ctx d c := by unfold State.ctx; rw [e]
      have h2 : s.ctx d' c' = s.ctx d c := by unfold State.ctx; rw [e]
      rw [h1, h2, State.ctx_updCtx _]; exact hf _ q
    · rw [State.ctx_updCtx_ne s d c f d' c' e]
  last := fun w d' => hk.last w d'
  nextId := hk.nextId

end Sys2Proof.Machine
end

