-- ==== Sys2Proof/Laws/CalmOps.lean ====
section
/-! SUPPORT. What a step leaves alone once it has issued: the operations, from the inside out. -/

set_option Elab.async false

namespace Sys2Proof.Machine

/-- `State.setRg`. -/
theorem State_setRg_calm (s : State) (d : Nat) (b : Blk) (i f : Nat) (v : Word) {s_ : State} (hks : Calm s_ s) :
    Calm s_ (State.setRg s d b i f v) := by
  unfold State.setRg
  with_reducible
    repeat' (first
      | assumption
      | apply State_setReg_calm)

/-- `State.setFld`. -/
theorem State_setFld_calm (s : State) (d : Nat) (b : Blk) (i f lo n v : Nat) {s_ : State} (hks : Calm s_ s) :
    Calm s_ (State.setFld s d b i f lo n v) := by
  unfold State.setFld
  with_reducible
    repeat' (first
      | assumption
      | apply State_setRg_calm)

/-- `State.addRg`. -/
theorem State_addRg_calm (s : State) (d : Nat) (b : Blk) (i f k : Nat) {s_ : State} (hks : Calm s_ s) :
    Calm s_ (State.addRg s d b i f k) := by
  unfold State.addRg
  with_reducible
    repeat' (first
      | assumption
      | apply State_setRg_calm)

/-- `State.poisonLine`. -/
theorem State_poisonLine_calm (s : State) (n : Nat) {s_ : State} (hks : Calm s_ s) :
    Calm s_ (State.poisonLine s n) := by
  unfold State.poisonLine
  with_reducible
    repeat' (first
      | assumption
      | apply State_putSide_calm)

/-- `State.mergeLine`. -/
theorem State_mergeLine_calm (s : State) (n mask : Nat) (bs : List Byte) (sb : Word) {s_ : State} (hks : Calm s_ s) :
    Calm s_ (State.mergeLine s n mask bs sb) := by
  unfold State.mergeLine
  with_reducible
    repeat' (first
      | assumption
      | lift_lets
      | (intro x; refine (fun (hx : Calm s_ x) => ?_) ?_; clear_value x; rotate_left; unfold x; rotate_right)
      | (intro x; clear_value x)
      | apply State_putLine_calm)

/-- `State.allocate`. -/
theorem State_allocate_calm (s : State) (a : Nat) (dirty : Bool) {s_ : State} (hks : Calm s_ s) :
    Calm s_ (State.allocate s a dirty) := by
  unfold State.allocate
  with_reducible
    repeat' (first
      | assumption
      | lift_lets
      | (intro x; refine (fun (hx : Calm s_ x) => ?_) ?_; clear_value x; rotate_left; unfold x; rotate_right)
      | (intro x; refine (fun (hx : Calm s_ x.1) => ?_) ?_; clear_value x; rotate_left; unfold x; rotate_right)
      | (intro x; clear_value x)
      | apply State_updCel_calm
      | apply State_addRg_calm
      | apply calm_ite
      | (apply calm_mk; assumption)
      | (intro _))

/-- `State.touchWrite`. -/
theorem State_touchWrite_calm (s : State) (a : Nat) (masked : Bool) {s_ : State} (hks : Calm s_ s) :
    Calm s_ (State.touchWrite s a masked) := by
  unfold State.touchWrite
  with_reducible
    repeat' (first
      | assumption
      | lift_lets
      | (intro x; refine (fun (hx : Calm s_ x) => ?_) ?_; clear_value x; rotate_left; unfold x; rotate_right)
      | (intro x; refine (fun (hx : Calm s_ x.1) => ?_) ?_; clear_value x; rotate_left; unfold x; rotate_right)
      | (intro x; clear_value x)
      | apply State_updCel_calm
      | apply State_addRg_calm
      | apply State_allocate_calm
      | apply calm_ite
      | (apply calm_mk; assumption)
      | (intro _)
      | split
      | (refine calm_fst_eq (by assumption) ?_))

/-- `State.writeAt`. -/
theorem State_writeAt_calm (s : State) (a : Nat) (l : Line) {s_ : State} (hks : Calm s_ s) :
    Calm s_ (State.writeAt s a l) := by
  unfold State.writeAt
  with_reducible
    repeat' (first
      | assumption
      | lift_lets
      | (intro x; refine (fun (hx : Calm s_ x) => ?_) ?_; clear_value x; rotate_left; unfold x; rotate_right)
      | (intro x; refine (fun (hx : Calm s_ x.1) => ?_) ?_; clear_value x; rotate_left; unfold x; rotate_right)
      | (intro x; refine (fun (hx : ∀ y, Calm s_ (x y)) => ?_) ?_; clear_value x; rotate_left; unfold x; rotate_right)
      | (intro x; clear_value x)
      | apply State_putLine_calm
      | apply State_touchWrite_calm
      | apply calm_ite
      | apply calm_ite1
      | (apply calm_mk; first | assumption | apply State_putLine_calm | apply State_touchWrite_calm)
      | (intro _)
      | split
      | (dsimp only; split)
      | (refine calm_fst_eq (by assumption) ?_))

/-- `State.mergeAt`. -/
theorem State_mergeAt_calm (s : State) (a mask : Nat) (bs : List Byte) (sb : Word) {s_ : State} (hks : Calm s_ s) :
    Calm s_ (State.mergeAt s a mask bs sb) := by
  unfold State.mergeAt
  with_reducible
    repeat' (first
      | assumption
      | lift_lets
      | (intro x; refine (fun (hx : Calm s_ x) => ?_) ?_; clear_value x; rotate_left; unfold x; rotate_right)
      | (intro x; refine (fun (hx : Calm s_ x.1) => ?_) ?_; clear_value x; rotate_left; unfold x; rotate_right)
      | (intro x; refine (fun (hx : ∀ y, Calm s_ (x y)) => ?_) ?_; clear_value x; rotate_left; unfold x; rotate_right)
      | (intro x; clear_value x)
      | apply State_mergeLine_calm
      | apply State_touchWrite_calm
      | apply calm_ite
      | apply calm_ite1
      | (apply calm_mk; first | assumption | apply State_mergeLine_calm | apply State_touchWrite_calm)
      | (intro _)
      | split
      | (dsimp only; split)
      | (refine calm_fst_eq (by assumption) ?_))

/-- `State.emit`. -/
theorem State_emit_calm (s : State) (o : OutMsg) {s_ : State} (hks : Calm s_ s) :
    Calm s_ (State.emit s o) := by
  unfold State.emit
  with_reducible
    repeat' (first
      | assumption
      | (apply calm_mk; assumption))

/-- `State.fresh`. -/
theorem State_fresh_calm (s : State) {s_ : State} (hks : Calm s_ s) :
    Calm s_ (State.fresh s) := by
  unfold State.fresh
  with_reducible
    repeat' (first
      | assumption
      | (apply calm_mk; assumption))

/-- `State.queueIntr`. -/
theorem State_queueIntr_calm (s : State) (d v : Nat) {s_ : State} (hks : Calm s_ s) :
    Calm s_ (State.queueIntr s d v) := by
  unfold State.queueIntr
  with_reducible
    repeat' (first
      | assumption
      | apply State_updLink_calm
      | (apply calm_mk; assumption)
      | (intro _))

/-- `State.setStat`. -/
theorem State_setStat_calm (s : State) (d : Nat) (b : Blk) (i : Nat) (bitsUp : Word) {s_ : State} (hks : Calm s_ s) :
    Calm s_ (State.setStat s d b i bitsUp) := by
  unfold State.setStat
  with_reducible
    repeat' (first
      | assumption
      | lift_lets
      | (intro x; refine (fun (hx : Calm s_ x) => ?_) ?_; clear_value x; rotate_left; unfold x; rotate_right)
      | (intro x; clear_value x)
      | apply State_setRg_calm
      | apply State_queueIntr_calm
      | apply calm_ite)

/-- `State.fillLog`. -/
theorem State_fillLog_calm (s : State) (d : Nat) (b : Blk) (i : Nat) (log : Nat) {s_ : State} (hks : Calm s_ s) :
    Calm s_ (State.fillLog s d b i log) := by
  unfold State.fillLog
  with_reducible
    repeat' (first
      | assumption
      | apply State_setRg_calm
      | apply calm_ite)

/-- `State.noteClass`. -/
theorem State_noteClass_calm (s : State) (d : Nat) (b : Blk) (i bit : Nat) (c : Cls) {s_ : State} (hks : Calm s_ s) :
    Calm s_ (State.noteClass s d b i bit c) := by
  unfold State.noteClass
  with_reducible
    repeat' (first
      | assumption
      | lift_lets
      | (intro x; refine (fun (hx : Calm s_ x) => ?_) ?_; clear_value x; rotate_left; unfold x; rotate_right)
      | (intro x; clear_value x)
      | apply calm_classes
      | (apply calm_mk; assumption))

/-- `State.noteStop`. -/
theorem State_noteStop_calm (s : State) (d : Nat) (b : Blk) (bit : Nat) (c : Cls) {s_ : State} (hks : Calm s_ s) :
    Calm s_ (State.noteStop s d b bit c) := by
  unfold State.noteStop
  with_reducible
    repeat' (first
      | assumption
      | apply State_updDie_calm
      | apply calm_ite
      | (apply calm_mk; assumption)
      | (intro _)
      | (with_unfolding_all rfl))

/-- `State.cause`. -/
theorem State_cause_calm (s : State) (d : Nat) (b : Blk) (i bit : Nat) (c : Cls) {s_ : State} (hks : Calm s_ s) :
    Calm s_ (State.cause s d b i bit c) := by
  unfold State.cause
  with_reducible
    repeat' (first
      | assumption
      | apply State_setStat_calm
      | apply State_noteClass_calm
      | apply State_noteStop_calm)

/-- `State.raise`. -/
theorem State_raise_calm (s : State) (d : Nat) (b : Blk) (i bit : Nat) (c : Cls) (log : Nat) {s_ : State} (hks : Calm s_ s) :
    Calm s_ (State.raise s d b i bit c log) := by
  unfold State.raise
  with_reducible
    repeat' (first
      | assumption
      | apply State_fillLog_calm
      | apply State_cause_calm)

/-- `State.aglCnt`. -/
theorem State_aglCnt_calm (s : State) (d k n : Nat) {s_ : State} (hks : Calm s_ s) :
    Calm s_ (State.aglCnt s d k n) := by
  unfold State.aglCnt
  with_reducible
    repeat' (first
      | assumption
      | apply State_addRg_calm)

/-- `State.injected`. -/
theorem State_injected_calm (s : State) (d u : Nat) (l : Line) {s_ : State} (hks : Calm s_ s) :
    Calm s_ (State.injected s d u l).1 := by
  unfold State.injected
  with_reducible
    repeat' (first
      | assumption
      | apply State_updDie_calm
      | apply calm_ite1
      | apply calm_ite
      | (apply calm_mk; assumption)
      | (intro _)
      | (with_unfolding_all rfl))

/-- `State.exitLine`. -/
theorem State_exitLine_calm (s : State) (d u : Nat) (src : Option Nat) (l : Line) {s_ : State} (hks : Calm s_ s) :
    Calm s_ (State.exitLine s d u src l).1 := by
  unfold State.exitLine
  with_reducible
    repeat' (first
      | assumption
      | lift_lets
      | (intro x; refine (fun (hx : Calm s_ x) => ?_) ?_; clear_value x; rotate_left; unfold x; rotate_right)
      | (intro x; clear_value x)
      | apply State_poisonLine_calm
      | apply State_raise_calm
      | apply State_injected_calm
      | apply calm_ite1
      | apply calm_ite
      | (apply calm_mk; assumption)
      | split
      | (refine calm_fst_eq (by assumption) ?_))

/-- `State.emitFlit`. -/
theorem State_emitFlit_calm (s : State) (d : Nat) (f : Flit) {s_ : State} (hks : Calm s_ s) :
    Calm s_ (State.emitFlit s d f) := by
  unfold State.emitFlit
  with_reducible
    repeat' (first
      | assumption
      | apply State_emit_calm
      | apply State_aglCnt_calm)

/-- `State.sendFlit`. -/
theorem State_sendFlit_calm (s : State) (d : Nat) (m : Option LMsg) {s_ : State} (hks : Calm s_ s) :
    Calm s_ (State.sendFlit s d m) := by
  unfold State.sendFlit
  with_reducible
    repeat' (first
      | assumption
      | lift_lets
      | (intro x; refine (fun (hx : Calm s_ x) => ?_) ?_; clear_value x; rotate_left; unfold x; rotate_right)
      | (intro x; clear_value x)
      | apply State_putLink_calm
      | apply State_emitFlit_calm
      | (apply calm_mk; assumption)
      | split
      | (refine calm_fst_eq (by assumption) ?_))

/-- `State.pumpLink`. -/
theorem State_pumpLink_calm (d : Nat) (y0 : Nat) (y1 : State) {s_ : State} (hk_ : Calm s_ y1) :
    Calm s_ (State.pumpLink d y0 y1) := by
  induction y0 generalizing y1 with
  | zero =>
    unfold State.pumpLink
    with_reducible
      repeat' (first
        | assumption
        | apply State_updLink_calm
        | apply State_sendFlit_calm
        | (apply calm_mk; assumption)
        | (intro _)
        | split
        | (refine calm_fst_eq (by assumption) ?_))
  | succ _ ih =>
    unfold State.pumpLink
    with_reducible
      repeat' (first
        | assumption
        | apply ih
        | apply State_updLink_calm
        | apply State_sendFlit_calm
        | (apply calm_mk; assumption)
        | (intro _)
        | split
        | (refine calm_fst_eq (by assumption) ?_))

/-- `State.sendMsg`. -/
theorem State_sendMsg_calm (s : State) (d : Nat) (m : LMsg) {s_ : State} (hks : Calm s_ s) :
    Calm s_ (State.sendMsg s d m) := by
  unfold State.sendMsg
  with_reducible
    repeat' (first
      | assumption
      | lift_lets
      | (intro x; refine (fun (hx : Calm s_ x) => ?_) ?_; clear_value x; rotate_left; unfold x; rotate_right)
      | (intro x; clear_value x)
      | apply State_updLink_calm
      | apply State_pumpLink_calm
      | (apply calm_mk; assumption)
      | (intro _))

/-- `State.respond`. -/
theorem State_respond_calm (s : State) (d : Nat) (m : LMsg) {s_ : State} (hks : Calm s_ s) :
    Calm s_ (State.respond s d m) := by
  unfold State.respond
  with_reducible
    repeat' (first
      | assumption
      | lift_lets
      | (intro x; refine (fun (hx : Calm s_ x) => ?_) ?_; clear_value x; rotate_left; unfold x; rotate_right)
      | (intro x; clear_value x)
      | apply State_aglCnt_calm
      | apply State_sendMsg_calm
      | apply calm_ite)

/-- `State.hostReq`. -/
theorem State_hostReq_calm (s : State) (d opc la : Nat) (pay : Nat → List Byte) (own : HOwner) {s_ : State} (hks : Calm s_ s) :
    Calm s_ (State.hostReq s d opc la pay own).1 := by
  unfold State.hostReq
  with_reducible
    repeat' (first
      | assumption
      | lift_lets
      | (intro x; refine (fun (hx : Calm s_ x) => ?_) ?_; clear_value x; rotate_left; unfold x; rotate_right)
      | (intro x; clear_value x)
      | apply State_putLink_calm
      | apply State_sendMsg_calm
      | apply calm_ite1
      | apply calm_ite
      | (apply calm_mk; assumption))

/-- `State.hostRead`. -/
theorem State_hostRead_calm (s : State) (d la : Nat) (own : HOwner) {s_ : State} (hks : Calm s_ s) :
    Calm s_ (State.hostRead s d la own).1 := by
  unfold State.hostRead
  with_reducible
    repeat' (first
      | assumption
      | apply State_hostReq_calm
      | (intro _))

/-- `State.hostWrite`. -/
theorem State_hostWrite_calm (s : State) (d la : Nat) (src : Option Nat) (l : Line) (own : HOwner) {s_ : State} (hks : Calm s_ s) :
    Calm s_ (State.hostWrite s d la src l own).1 := by
  unfold State.hostWrite
  with_reducible
    repeat' (first
      | assumption
      | lift_lets
      | (intro x; refine (fun (hx : Calm s_ x) => ?_) ?_; clear_value x; rotate_left; unfold x; rotate_right)
      | (intro x; clear_value x)
      | apply State_exitLine_calm
      | apply State_hostReq_calm
      | apply calm_ite1
      | apply calm_ite)

/-- `State.sendSnoop`. -/
theorem State_sendSnoop_calm (s : State) (kind ln : Nat) {s_ : State} (hks : Calm s_ s) :
    Calm s_ (State.sendSnoop s kind ln) := by
  unfold State.sendSnoop
  with_reducible
    repeat' (first
      | assumption
      | lift_lets
      | (intro x; refine (fun (hx : Calm s_ x) => ?_) ?_; clear_value x; rotate_left; unfold x; rotate_right)
      | (intro x; refine (fun (hx : Calm s_ x.1) => ?_) ?_; clear_value x; rotate_left; unfold x; rotate_right)
      | (intro x; refine (fun (hx : ∀ y, Calm s_ (x y)) => ?_) ?_; clear_value x; rotate_left; unfold x; rotate_right)
      | (intro x; clear_value x)
      | apply State_putLink_calm
      | apply State_aglCnt_calm
      | apply State_sendMsg_calm
      | apply calm_ite
      | apply calm_ite1
      | (apply calm_mk; first | assumption | apply State_putLink_calm | apply State_aglCnt_calm | apply State_sendMsg_calm)
      | (intro _)
      | split
      | (dsimp only; split)
      | (refine calm_fst_eq (by assumption) ?_))

/-- `State.snoopAll`. -/
theorem State_snoopAll_calm (s : State) (acc : List (Nat × Nat)) {s_ : State} (hks : Calm s_ s) :
    Calm s_ (State.snoopAll s acc) := by
  unfold State.snoopAll
  with_reducible
    repeat' (first
      | assumption
      | apply forEach_calm
      | apply State_sendSnoop_calm
      | (intro _))

/-- `State.updMod`. -/
theorem State_updMod_calm (s : State) (f : ModCtl → ModCtl) {s_ : State} (hks : Calm s_ s) :
    Calm s_ (State.updMod s f) := by
  unfold State.updMod
  with_reducible
    repeat' (first
      | assumption
      | (apply calm_mk; assumption))

/-- `State.setRailSt`. -/
theorem State_setRailSt_calm (s : State) (d p v : Nat) {s_ : State} (hks : Calm s_ s) :
    Calm s_ (State.setRailSt s d p v) := by
  unfold State.setRailSt
  with_reducible
    repeat' (first
      | assumption
      | apply State_setFld_calm)

/-- `State.setLogical`. -/
theorem State_setLogical_calm (s : State) (d p l : Nat) {s_ : State} (hks : Calm s_ s) :
    Calm s_ (State.setLogical s d p l) := by
  unfold State.setLogical
  with_reducible
    repeat' (first
      | assumption
      | apply State_setFld_calm)

/-- `State.modRaise`. -/
theorem State_modRaise_calm (s : State) (bit cause d unit : Nat) (c : Cls) {s_ : State} (hks : Calm s_ s) :
    Calm s_ (State.modRaise s bit cause d unit c) := by
  unfold State.modRaise
  with_reducible
    repeat' (first
      | assumption
      | apply State_cause_calm
      | apply State_raise_calm)

/-- `State.repairDue`. -/
theorem State_repairDue_calm (s : State) (d : Nat) {s_ : State} (hks : Calm s_ s) :
    Calm s_ (State.repairDue s d) := by
  unfold State.repairDue
  with_reducible
    repeat' (first
      | assumption
      | apply State_updMod_calm
      | apply calm_ite
      | (apply calm_mk; assumption)
      | (intro _))

/-- `State.spareDue`. -/
theorem State_spareDue_calm (s : State) {s_ : State} (hks : Calm s_ s) :
    Calm s_ (State.spareDue s) := by
  unfold State.spareDue
  with_reducible
    repeat' (first
      | assumption
      | apply State_setStat_calm)

/-- `State.noSpare`. -/
theorem State_noSpare_calm (s : State) (d unit : Nat) {s_ : State} (hks : Calm s_ s) :
    Calm s_ (State.noSpare s d unit) := by
  unfold State.noSpare
  with_reducible
    repeat' (first
      | assumption
      | apply State_modRaise_calm)

/-- `State.evidence`. -/
theorem State_evidence_calm (s : State) (key win : Nat) {s_ : State} (hks : Calm s_ s) :
    Calm s_ (State.evidence s key win).1 := by
  unfold State.evidence
  with_reducible
    repeat' (first
      | assumption
      | lift_lets
      | (intro x; refine (fun (hx : Calm s_ x) => ?_) ?_; clear_value x; rotate_left; unfold x; rotate_right)
      | (intro x; refine (fun (hx : Calm s_ x.1) => ?_) ?_; clear_value x; rotate_left; unfold x; rotate_right)
      | (intro x; clear_value x)
      | apply State_updMod_calm
      | (apply calm_mk; assumption)
      | (intro _))

/-- `State.startSwitch`. -/
theorem State_startSwitch_calm (s : State) (d l p k : Nat) (test : Bool) {s_ : State} (hks : Calm s_ s) :
    Calm s_ (State.startSwitch s d l p k test) := by
  unfold State.startSwitch
  with_reducible
    repeat' (first
      | assumption
      | lift_lets
      | (intro x; refine (fun (hx : Calm s_ x) => ?_) ?_; clear_value x; rotate_left; unfold x; rotate_right)
      | (intro x; clear_value x)
      | apply State_setFld_calm
      | apply State_updMod_calm
      | apply State_setRailSt_calm
      | (apply calm_mk; assumption)
      | (intro _))

/-- `State.markAbsent`. -/
theorem State_markAbsent_calm (s : State) (d l p : Nat) {s_ : State} (hks : Calm s_ s) :
    Calm s_ (State.markAbsent s d l p) := by
  unfold State.markAbsent
  with_reducible
    repeat' (first
      | assumption
      | apply State_updPh_calm
      | apply State_updMod_calm
      | apply State_setLogical_calm
      | apply State_repairDue_calm
      | (apply calm_mk; assumption)
      | (intro _))

/-- `State.noClusterSpare`. -/
theorem State_noClusterSpare_calm (s : State) (d l p : Nat) {s_ : State} (hks : Calm s_ s) :
    Calm s_ (State.noClusterSpare s d l p) := by
  unfold State.noClusterSpare
  with_reducible
    repeat' (first
      | assumption
      | lift_lets
      | (intro x; refine (fun (hx : Calm s_ x) => ?_) ?_; clear_value x; rotate_left; unfold x; rotate_right)
      | (intro x; clear_value x)
      | apply State_noSpare_calm
      | apply State_markAbsent_calm
      | apply calm_ite)

/-- `State.clNeed`. -/
theorem State_clNeed_calm (s : State) (d l : Nat) {s_ : State} (hks : Calm s_ s) :
    Calm s_ (State.clNeed s d l) := by
  unfold State.clNeed
  with_reducible
    repeat' (first
      | assumption
      | apply State_startSwitch_calm
      | apply State_noClusterSpare_calm
      | split)

/-- `State.clTrigger`. -/
theorem State_clTrigger_calm (s : State) (d l : Nat) {s_ : State} (hks : Calm s_ s) :
    Calm s_ (State.clTrigger s d l) := by
  unfold State.clTrigger
  with_reducible
    repeat' (first
      | assumption
      | apply State_updMod_calm
      | apply State_spareDue_calm
      | apply State_clNeed_calm
      | apply calm_ite
      | (apply calm_mk; assumption)
      | (intro _)
      | split
      | (refine calm_fst_eq (by assumption) ?_))

/-- `State.residueEvent`. -/
theorem State_residueEvent_calm (s : State) (d l : Nat) {s_ : State} (hks : Calm s_ s) :
    Calm s_ (State.residueEvent s d l) := by
  unfold State.residueEvent
  with_reducible
    repeat' (first
      | assumption
      | lift_lets
      | (intro x; refine (fun (hx : Calm s_ x) => ?_) ?_; clear_value x; rotate_left; unfold x; rotate_right)
      | (intro x; refine (fun (hx : Calm s_ x.1) => ?_) ?_; clear_value x; rotate_left; unfold x; rotate_right)
      | (intro x; clear_value x)
      | apply State_evidence_calm
      | apply State_clTrigger_calm
      | apply calm_ite
      | split
      | (refine calm_fst_eq (by assumption) ?_))

/-- `State.writeDigest`. -/
theorem State_writeDigest_calm (s : State) (d c h : Nat) (complete : Bool) {s_ : State} (hks : Calm s_ s) :
    Calm s_ (State.writeDigest s d c h complete) := by
  unfold State.writeDigest
  with_reducible
    repeat' (first
      | assumption
      | lift_lets
      | (intro x; refine (fun (hx : Calm s_ x) => ?_) ?_; clear_value x; rotate_left; unfold x; rotate_right)
      | (intro x; clear_value x)
      | apply State_writeAt_calm
      | apply calm_ite
      | (intro _)
      | split
      | (refine calm_fst_eq (by assumption) ?_))

/-- `State.dropFlight`. -/
theorem State_dropFlight_calm (s : State) (id : Nat) {s_ : State} (hks : Calm s_ s) :
    Calm s_ (State.dropFlight s id) := by
  unfold State.dropFlight
  with_reducible
    repeat' (first
      | assumption
      | (apply calm_mk; assumption)
      | (intro _))

/-- `State.abandonChan`. -/
theorem State_abandonChan_calm (s : State) (d c h : Nat) {s_ : State} (hks : Calm s_ s) :
    Calm s_ (State.abandonChan s d c h) := by
  unfold State.abandonChan
  with_reducible
    repeat' (first
      | assumption
      | (intro _)
      | dsimp only
      | split
      | apply forEach_calm
      | apply State_updChan_calm
      | apply State_poisonLine_calm
      | apply State_writeDigest_calm
      | apply State_dropFlight_calm
      | apply calm_ite
      | (apply calm_mk; assumption)
      | (refine calm_fst_eq (by assumption) ?_))

/-- `State.abandonCtx`. -/
theorem State_abandonCtx_calm (s : State) (d c : Nat) {s_ : State} (hks : Calm s_ s) :
    Calm s_ (State.abandonCtx s d c) := by
  unfold State.abandonCtx
  with_reducible
    repeat' (first
      | assumption
      | apply forEach_calm
      | apply State_abandonChan_calm
      | (intro _))

/-- `State.trapDies`. -/
theorem State_trapDies_calm (s : State) (c : Nat) {s_ : State} (hks : Calm s_ s) :
    Calm s_ (State.trapDies s c) := by
  unfold State.trapDies
  with_reducible
    repeat' (first
      | assumption
      | apply forEach_calm
      | apply State_updCtx_calm
      | apply State_abandonCtx_calm
      | apply calm_ite
      | (apply calm_mk; assumption)
      | (intro _)
      | (with_unfolding_all rfl))

/-- `State.trap`. -/
theorem State_trap_calm (s : State) (c : Nat) (r : TrapRec) {s_ : State} (hks : Calm s_ s) :
    Calm s_ (State.trap s c r) := by
  unfold State.trap
  with_reducible
    repeat' (first
      | assumption
      | apply State_updHc_calm
      | apply State_trapDies_calm
      | (apply calm_mk; assumption)
      | (intro _)
      | split
      | (refine calm_fst_eq (by assumption) ?_))

/-- `State.moreTraps`. -/
theorem State_moreTraps_calm (s : State) (c n : Nat) {s_ : State} (hks : Calm s_ s) :
    Calm s_ (State.moreTraps s c n) := by
  unfold State.moreTraps
  with_reducible
    repeat' (first
      | assumption
      | apply State_updHc_calm
      | apply calm_ite
      | (apply calm_mk; assumption)
      | (intro _))

/-- `State.updFlight`. -/
theorem State_updFlight_calm (s : State) (id : Nat) (g : Flight → Flight) {s_ : State} (hks : Calm s_ s) :
    Calm s_ (State.updFlight s id g) := by
  unfold State.updFlight
  with_reducible
    repeat' (first
      | assumption
      | apply calm_ite
      | (apply calm_mk; assumption)
      | (intro _))

/-- `State.failFlight`. -/
theorem State_failFlight_calm (s : State) (id : Nat) {s_ : State} (hks : Calm s_ s) :
    Calm s_ (State.failFlight s id) := by
  unfold State.failFlight
  with_reducible
    repeat' (first
      | assumption
      | apply forEach_calm
      | apply State_poisonLine_calm
      | apply State_updHc_calm
      | apply State_updFlight_calm
      | (apply calm_mk; assumption)
      | (intro _)
      | split
      | (refine calm_fst_eq (by assumption) ?_))

/-- `State.engTrap`. -/
theorem State_engTrap_calm (s : State) (f : Flight) (cause bit w2 w3 : Nat) {s_ : State} (hks : Calm s_ s) :
    Calm s_ (State.engTrap s f cause bit w2 w3) := by
  unfold State.engTrap
  with_reducible
    repeat' (first
      | assumption
      | lift_lets
      | (intro x; refine (fun (hx : Calm s_ x) => ?_) ?_; clear_value x; rotate_left; unfold x; rotate_right)
      | (intro x; clear_value x)
      | apply State_cause_calm
      | apply State_raise_calm
      | apply State_trap_calm
      | apply State_failFlight_calm)

/-- `State.formatDet`. -/
theorem State_formatDet_calm (s : State) (r : FRec) {s_ : State} (hks : Calm s_ s) :
    Calm s_ (State.formatDet s r).1 := by
  unfold State.formatDet
  with_reducible
    repeat' (first
      | assumption
      | lift_lets
      | (intro x; refine (fun (hx : Calm s_ x) => ?_) ?_; clear_value x; rotate_left; unfold x; rotate_right)
      | (intro x; refine (fun (hx : Calm s_ x.1) => ?_) ?_; clear_value x; rotate_left; unfold x; rotate_right)
      | (intro x; clear_value x)
      | apply State_fresh_calm
      | apply calm_ite1
      | apply calm_ite
      | split
      | (refine calm_fst_eq (by assumption) ?_))

/-- `State.redTrap`. -/
theorem State_redTrap_calm (s : State) (d c h fid cause level st w2 w3 : Nat) {s_ : State} (hks : Calm s_ s) :
    Calm s_ (State.redTrap s d c h fid cause level st w2 w3) := by
  unfold State.redTrap
  with_reducible
    repeat' (first
      | assumption
      | lift_lets
      | (intro x; refine (fun (hx : Calm s_ x) => ?_) ?_; clear_value x; rotate_left; unfold x; rotate_right)
      | (intro x; clear_value x)
      | apply State_setRg_calm
      | apply State_cause_calm
      | apply State_trap_calm
      | apply calm_ite)

/-- `State.redFail`. -/
theorem State_redFail_calm (s : State) (d c h fid level st ga : Nat) {s_ : State} (hks : Calm s_ s) :
    Calm s_ (State.redFail s d c h fid level st ga) := by
  unfold State.redFail
  with_reducible
    repeat' (first
      | assumption
      | apply State_redTrap_calm)

/-- `State.failOwner`. -/
theorem State_failOwner_calm (s : State) (d : Nat) (t : TagEnt) (st : Nat) {s_ : State} (hks : Calm s_ s) :
    Calm s_ (State.failOwner s d t st) := by
  unfold State.failOwner
  with_reducible
    repeat' (first
      | assumption
      | lift_lets
      | (intro x; refine (fun (hx : Calm s_ x) => ?_) ?_; clear_value x; rotate_left; unfold x; rotate_right)
      | (intro x; refine (fun (hx : Calm s_ x.1) => ?_) ?_; clear_value x; rotate_left; unfold x; rotate_right)
      | (intro x; refine (fun (hx : ∀ y, Calm s_ (x y)) => ?_) ?_; clear_value x; rotate_left; unfold x; rotate_right)
      | (intro x; clear_value x)
      | apply State_cause_calm
      | apply State_respond_calm
      | apply State_trap_calm
      | apply State_updFlight_calm
      | apply State_engTrap_calm
      | apply State_formatDet_calm
      | apply State_redFail_calm
      | apply calm_ite
      | apply calm_ite1
      | (apply calm_mk; first | assumption | apply State_cause_calm | apply State_respond_calm | apply State_trap_calm | apply State_updFlight_calm | apply State_engTrap_calm | apply State_formatDet_calm | apply State_redFail_calm)
      | (intro _)
      | split
      | (dsimp only; split)
      | (refine calm_fst_eq (by assumption) ?_))

/-- `State.enqueue`. -/
theorem State_enqueue_calm (s : State) (x : Nat × Nat) (cls : Nat) (r : FRec) {s_ : State} (hks : Calm s_ s) :
    Calm s_ (State.enqueue s x cls r) := by
  unfold State.enqueue
  with_reducible
    repeat' (first
      | assumption
      | apply State_updPort_calm
      | (apply calm_mk; assumption)
      | (intro _))

/-- `State.forward`. -/
theorem State_forward_calm (s : State) (d cls : Nat) (r : FRec) {s_ : State} (hks : Calm s_ s) :
    Calm s_ (State.forward s d cls r).1 := by
  unfold State.forward
  with_reducible
    repeat' (first
      | assumption
      | lift_lets
      | (intro x; refine (fun (hx : Calm s_ x) => ?_) ?_; clear_value x; rotate_left; unfold x; rotate_right)
      | (intro x; clear_value x)
      | apply State_updRouter_calm
      | apply State_enqueue_calm
      | apply calm_ite1
      | apply calm_ite
      | (apply calm_mk; assumption)
      | (intro _)
      | split
      | (refine calm_fst_eq (by assumption) ?_))

/-- `State.keepMembers`. -/
theorem State_keepMembers_calm (s : State) (d : Nat) (r : FRec) (ms : List FRec) {s_ : State} (hks : Calm s_ s) :
    Calm s_ (State.keepMembers s d r ms) := by
  unfold State.keepMembers
  with_reducible
    repeat' (first
      | assumption
      | apply State_updRouter_calm
      | apply calm_ite
      | (apply calm_mk; assumption)
      | (intro _))

/-- `State.blend`. -/
theorem State_blend_calm (s : State) (d cls : Nat) (r : FRec) {s_ : State} (hks : Calm s_ s) :
    Calm s_ (State.blend s d cls r).1 := by
  unfold State.blend
  with_reducible
    repeat' (first
      | assumption
      | lift_lets
      | (intro x; refine (fun (hx : Calm s_ x) => ?_) ?_; clear_value x; rotate_left; unfold x; rotate_right)
      | (intro x; refine (fun (hx : Calm s_ x.1) => ?_) ?_; clear_value x; rotate_left; unfold x; rotate_right)
      | (intro x; clear_value x)
      | apply State_putRouter_calm
      | apply State_addRg_calm
      | apply State_forward_calm
      | apply State_keepMembers_calm
      | apply calm_ite1
      | apply calm_ite
      | (apply calm_mk; assumption)
      | (intro _)
      | split
      | (refine calm_fst_eq (by assumption) ?_))

/-- `State.launch`. -/
theorem State_launch_calm (s : State) (d : Nat) (own : Owner) (r : FRec) {s_ : State} (hks : Calm s_ s) :
    Calm s_ (State.launch s d own r) := by
  unfold State.launch
  with_reducible
    repeat' (first
      | assumption
      | lift_lets
      | (intro x; refine (fun (hx : Calm s_ x) => ?_) ?_; clear_value x; rotate_left; unfold x; rotate_right)
      | (intro x; refine (fun (hx : Calm s_ x.1) => ?_) ?_; clear_value x; rotate_left; unfold x; rotate_right)
      | (intro x; clear_value x)
      | apply State_putRouter_calm
      | apply State_updRouter_calm
      | apply State_setFld_calm
      | apply State_addRg_calm
      | apply State_raise_calm
      | apply State_failOwner_calm
      | apply State_forward_calm
      | apply State_blend_calm
      | apply calm_ite
      | (apply calm_mk; assumption)
      | (intro _)
      | split
      | (refine calm_fst_eq (by assumption) ?_))

/-- `State.pumpFab`. -/
theorem State_pumpFab_calm (d : Nat) (y0 : List (FRec × Owner)) (y1 : List (FRec × Owner)) (y2 : State) {s_ : State} (hk_ : Calm s_ y2) :
    Calm s_ (State.pumpFab d y0 y1 y2) := by
  induction y1 generalizing y0 y2 with
  | nil =>
    unfold State.pumpFab
    with_reducible
      repeat' (first
        | assumption
        | apply State_updRouter_calm
        | apply State_launch_calm
        | apply calm_ite
        | (apply calm_mk; assumption)
        | (intro _)
        | split
        | (refine calm_fst_eq (by assumption) ?_))
  | cons _ _ ih =>
    unfold State.pumpFab
    with_reducible
      repeat' (first
        | assumption
        | apply ih
        | apply State_updRouter_calm
        | apply State_launch_calm
        | apply calm_ite
        | (apply calm_mk; assumption)
        | (intro _)
        | split
        | (refine calm_fst_eq (by assumption) ?_))

/-- `State.issue`. -/
theorem State_issue_calm (s : State) (d : Nat) (own : Owner) (r : FRec) {s_ : State} (hks : Calm s_ s) :
    Calm s_ (State.issue s d own r) := by
  unfold State.issue
  with_reducible
    repeat' (first
      | assumption
      | lift_lets
      | (intro x; refine (fun (hx : Calm s_ x) => ?_) ?_; clear_value x; rotate_left; unfold x; rotate_right)
      | (intro x; clear_value x)
      | apply State_updRouter_calm
      | apply State_pumpFab_calm
      | (apply calm_mk; assumption)
      | (intro _))

/-- `State.addCnt`. -/
theorem State_addCnt_calm (s : State) (d c i n : Nat) {s_ : State} (hks : Calm s_ s) :
    Calm s_ (State.addCnt s d c i n) := by
  unfold State.addCnt
  with_reducible
    repeat' (first
      | assumption
      | apply State_addRg_calm)

/-- `State.signal`. -/
theorem State_signal_calm (s : State) (d c u : Nat) (defer : Bool) (idx tbase cref inc : Nat) {s_ : State} (hks : Calm s_ s) :
    Calm s_ (State.signal s d c u defer idx tbase cref inc) := by
  unfold State.signal
  with_reducible
    repeat' (first
      | assumption
      | lift_lets
      | (intro x; refine (fun (hx : Calm s_ x) => ?_) ?_; clear_value x; rotate_left; unfold x; rotate_right)
      | (intro x; clear_value x)
      | apply State_cause_calm
      | apply State_trap_calm
      | apply State_issue_calm
      | apply State_addCnt_calm
      | apply calm_ite
      | split
      | (refine calm_fst_eq (by assumption) ?_))

/-- `State.record`. -/
theorem State_record_calm (s : State) (f : Flight) {s_ : State} (hks : Calm s_ s) :
    Calm s_ (State.record s f) := by
  unfold State.record
  with_reducible
    repeat' (first
      | assumption
      | apply State_updHc_calm
      | (apply calm_mk; assumption)
      | (intro _))

/-- `State.unitSignal`. -/
theorem State_unitSignal_calm (s : State) (f : Flight) (u inc : Nat) {s_ : State} (hks : Calm s_ s) :
    Calm s_ (State.unitSignal s f u inc) := by
  unfold State.unitSignal
  with_reducible
    repeat' (first
      | assumption
      | lift_lets
      | (intro x; refine (fun (hx : Calm s_ x) => ?_) ?_; clear_value x; rotate_left; unfold x; rotate_right)
      | (intro x; clear_value x)
      | apply State_signal_calm
      | apply calm_ite)

/-- `State.unitTrap`. -/
theorem State_unitTrap_calm (s : State) (f : Flight) (l : Nat) (x : Nat) (t : Det) {s_ : State} (hks : Calm s_ s) :
    Calm s_ (State.unitTrap s f l x t) := by
  unfold State.unitTrap
  with_reducible
    repeat' (first
      | assumption
      | lift_lets
      | (intro x; refine (fun (hx : Calm s_ x) => ?_) ?_; clear_value x; rotate_left; unfold x; rotate_right)
      | (intro x; refine (fun (hx : Calm s_ x.1) => ?_) ?_; clear_value x; rotate_left; unfold x; rotate_right)
      | (intro x; clear_value x)
      | apply State_cause_calm
      | apply State_raise_calm
      | apply State_residueEvent_calm
      | apply State_trap_calm
      | apply State_failFlight_calm
      | apply calm_ite)

/-- `State.glitchLog`. -/
theorem State_glitchLog_calm (s : State) (f : Flight) (l n : Nat) {s_ : State} (hks : Calm s_ s) :
    Calm s_ (State.glitchLog s f l n) := by
  unfold State.glitchLog
  with_reducible
    repeat' (first
      | assumption
      | apply State_raise_calm
      | apply calm_ite)

/-- `State.refuseStart`. -/
theorem State_refuseStart_calm (s : State) (f : Flight) (l reason : Nat) {s_ : State} (hks : Calm s_ s) :
    Calm s_ (State.refuseStart s f l reason) := by
  unfold State.refuseStart
  with_reducible
    repeat' (first
      | assumption
      | apply State_raise_calm
      | apply State_trap_calm
      | apply State_failFlight_calm)

/-- `State.stepWrite`. -/
theorem State_stepWrite_calm (s : State) (fid ln : Nat) (l : Line) {s_ : State} (hks : Calm s_ s) :
    Calm s_ (State.stepWrite s fid ln l) := by
  unfold State.stepWrite
  with_reducible
    repeat' (first
      | assumption
      | apply State_writeAt_calm
      | apply State_updFlight_calm
      | apply calm_ite
      | (apply calm_mk; assumption)
      | (intro _))

/-- `State.stepMerge`. -/
theorem State_stepMerge_calm (s : State) (fid ln mask : Nat) (bs : List Byte) (side : Word) {s_ : State} (hks : Calm s_ s) :
    Calm s_ (State.stepMerge s fid ln mask bs side) := by
  unfold State.stepMerge
  with_reducible
    repeat' (first
      | assumption
      | lift_lets
      | (intro x; refine (fun (hx : Calm s_ x) => ?_) ?_; clear_value x; rotate_left; unfold x; rotate_right)
      | (intro x; clear_value x)
      | apply State_mergeAt_calm
      | apply State_updFlight_calm
      | apply calm_ite
      | (apply calm_mk; assumption)
      | (intro _))

/-- `State.copyReg`. -/
theorem State_copyReg_calm (s : State) (a : Nat) {s_ : State} (hks : Calm s_ s) :
    Calm s_ (State.copyReg s a) := by
  unfold State.copyReg
  with_reducible
    repeat' (first
      | assumption
      | lift_lets
      | (intro x; refine (fun (hx : Calm s_ x) => ?_) ?_; clear_value x; rotate_left; unfold x; rotate_right)
      | (intro x; clear_value x)
      | apply State_setReg_calm)

/-- `State.setLive`. -/
theorem State_setLive_calm (s : State) (a : Nat) (v : Word) {s_ : State} (hks : Calm s_ s) :
    Calm s_ (State.setLive s a v) := by
  unfold State.setLive
  with_reducible
    repeat' (first
      | assumption
      | lift_lets
      | (intro x; refine (fun (hx : Calm s_ x) => ?_) ?_; clear_value x; rotate_left; unfold x; rotate_right)
      | (intro x; clear_value x)
      | apply State_setReg_calm
      | apply State_setShad_calm
      | apply calm_ite)

/-- `State.seqRequest`. -/
theorem State_seqRequest_calm (s : State) (d : Nat) (cs : List Nat) {s_ : State} (hks : Calm s_ s) :
    Calm s_ (State.seqRequest s d cs) := by
  unfold State.seqRequest
  with_reducible
    repeat' (first
      | assumption
      | lift_lets
      | (intro x; refine (fun (hx : Calm s_ x) => ?_) ?_; clear_value x; rotate_left; unfold x; rotate_right)
      | (intro x; clear_value x)
      | apply State_updDie_calm
      | apply State_copyReg_calm
      | (apply calm_mk; assumption)
      | (intro _)
      | (with_unfolding_all rfl))

/-- `State.requestSwap`. -/
theorem State_requestSwap_calm (s : State) (d : Nat) (b : Blk) (i : Nat) {s_ : State} (hks : Calm s_ s) :
    Calm s_ (State.requestSwap s d b i) := by
  unfold State.requestSwap
  with_reducible
    repeat' (first
      | assumption
      | apply State_updDie_calm
      | apply State_seqRequest_calm
      | apply calm_ite
      | (apply calm_mk; assumption)
      | (intro _)
      | (with_unfolding_all rfl))

/-- `State.drainRows`. -/
theorem State_drainRows_calm (j : MmaJob) (rank a : Nat) (t : Tile) (y0 : List (Nat × Nat)) (y1 : State) {s_ : State} (hk_ : Calm s_ y1) :
    Calm s_ (State.drainRows j rank a t y0 y1).1 := by
  induction y0 generalizing y1 with
  | nil => exact hk_
  | cons x rest ih =>
    rw [drainRows_cons]
    exact calm_ite1 hk_ (ih _ (State_stepWrite_calm _ _ _ _ hk_))

/-- `State.mmaArray`. -/
theorem State_mmaArray_calm (s0 : State) (j : MmaJob) (rank l a : Nat) (s : State) {s_ : State} (hks0 : Calm s_ s0) (hks : Calm s_ s) :
    Calm s_ (State.mmaArray s0 j rank l a s).1 := by
  unfold State.mmaArray
  with_reducible
    repeat' (first
      | assumption
      | (intro x; refine (fun (hx : Calm s_ x) => ?_) ?_; clear_value x; rotate_left; unfold x; rotate_right)
      | (intro x; clear_value x)
      | apply State_updCl_calm
      | apply State_cause_calm
      | apply State_moreTraps_calm
      | apply State_unitTrap_calm
      | apply State_drainRows_calm
      | apply calm_ite1
      | apply calm_ite
      | (apply calm_mk; assumption)
      | (intro _)
      | split
      | lift_lets
      | (refine calm_fst_eq (by assumption) ?_))

/-- `State.mmaCount`. -/
theorem State_mmaCount_calm (s : State) (d l : Nat) (mac : Nat) (c : MmaCnt) {s_ : State} (hks : Calm s_ s) :
    Calm s_ (State.mmaCount s d l mac c) := by
  unfold State.mmaCount
  with_reducible
    repeat' (first
      | assumption
      | lift_lets
      | (intro x; refine (fun (hx : Calm s_ x) => ?_) ?_; clear_value x; rotate_left; unfold x; rotate_right)
      | (intro x; clear_value x)
      | apply State_addRg_calm
      | apply State_cause_calm
      | apply calm_ite)

/-- `State.mmaCluster`. -/
theorem State_mmaCluster_calm (s0 : State) (j : MmaJob) (rank l : Nat) (x : State × MmaCnt × Nat) {s_ : State} (hks0 : Calm s_ s0) (hkx : Calm s_
    x.1) :
    Calm s_ (State.mmaCluster s0 j rank l x).1 := by
  unfold State.mmaCluster
  with_reducible
    repeat' (first
      | assumption
      | (intro x; refine (fun (hx : Calm s_ x) => ?_) ?_; clear_value x; rotate_left; unfold x; rotate_right)
      | (intro x; refine (fun (hx : Calm s_ x.1) => ?_) ?_; clear_value x; rotate_left; unfold x; rotate_right)
      | (intro x; clear_value x)
      | apply State_mmaArray_calm
      | apply State_mmaCount_calm
      | apply foldl_calm
      | apply foldl_calm1
      | apply calm_ite1
      | apply calm_ite
      | (intro _)
      | lift_lets)

/-- `State.settleFail`. -/
theorem State_settleFail_calm (s : State) (id : Nat) {s_ : State} (hks : Calm s_ s) :
    Calm s_ (State.settleFail s id) := by
  unfold State.settleFail
  with_reducible
    repeat' (first
      | assumption
      | apply State_failFlight_calm
      | apply calm_ite
      | split)

/-- `State.reportDets`. -/
theorem State_reportDets_calm (s : State) (f : Flight) (l : Nat) (ds : List (Nat × Det)) (ce : Nat) {s_ : State} (hks : Calm s_ s) :
    Calm s_ (State.reportDets s f l ds ce) := by
  unfold State.reportDets
  with_reducible
    repeat' (first
      | assumption
      | apply forEach_calm
      | apply State_unitTrap_calm
      | apply State_glitchLog_calm
      | (intro _))

/-- `State.stepCrcCe`. -/
theorem State_stepCrcCe_calm (s : State) (d c : Nat) (q : Bool) (idx : Nat) {s_ : State} (hks : Calm s_ s) :
    Calm s_ (State.stepCrcCe s d c q idx) := by
  unfold State.stepCrcCe
  with_reducible
    repeat' (first
      | assumption
      | apply State_raise_calm)

/-- `State.doPuts`. -/
theorem State_doPuts_calm (fid : Nat) (y0 : List Put) (y1 : State) {s_ : State} (hk_ : Calm s_ y1) :
    Calm s_ (State.doPuts fid y0 y1).1 := by
  induction y0 generalizing y1 with
  | nil =>
    unfold State.doPuts
    with_reducible
      repeat' (first
        | assumption
        | apply State_stepWrite_calm
        | apply State_stepMerge_calm
        | apply calm_ite1
        | apply calm_ite
        | split
        | (refine calm_fst_eq (by assumption) ?_))
  | cons _ _ ih =>
    unfold State.doPuts
    with_reducible
      repeat' (first
        | assumption
        | apply ih
        | apply State_stepWrite_calm
        | apply State_stepMerge_calm
        | apply calm_ite1
        | apply calm_ite
        | split
        | (refine calm_fst_eq (by assumption) ?_))

/-- `State.cvCount`. -/
theorem State_cvCount_calm (s : State) (d l : Nat) (w : CvWork) {s_ : State} (hks : Calm s_ s) :
    Calm s_ (State.cvCount s d l w) := by
  unfold State.cvCount
  with_reducible
    repeat' (first
      | assumption
      | lift_lets
      | (intro x; refine (fun (hx : Calm s_ x) => ?_) ?_; clear_value x; rotate_left; unfold x; rotate_right)
      | (intro x; clear_value x)
      | apply State_addRg_calm
      | apply State_cause_calm
      | apply calm_ite)

/-- `State.cvCluster`. -/
theorem State_cvCluster_calm (f : Flight) (env : Env) (s : State) (x : Nat × CvWork) {s_ : State} (hks : Calm s_ s) :
    Calm s_ (State.cvCluster f env s x) := by
  unfold State.cvCluster
  with_reducible
    repeat' (first
      | assumption
      | lift_lets
      | (intro x; refine (fun (hx : Calm s_ x) => ?_) ?_; clear_value x; rotate_left; unfold x; rotate_right)
      | (intro x; refine (fun (hx : Calm s_ x.1) => ?_) ?_; clear_value x; rotate_left; unfold x; rotate_right)
      | (intro x; clear_value x)
      | apply State_cause_calm
      | apply State_moreTraps_calm
      | apply State_unitTrap_calm
      | apply State_doPuts_calm
      | apply State_cvCount_calm
      | apply calm_ite
      | split
      | (refine calm_fst_eq (by assumption) ?_))

/-- `State.cvAdvance`. -/
theorem State_cvAdvance_calm (s : State) (d : Nat) (x : Nat × CvWork) {s_ : State} (hks : Calm s_ s) :
    Calm s_ (State.cvAdvance s d x) := by
  unfold State.cvAdvance
  with_reducible
    repeat' (first
      | assumption
      | apply State_setLive_calm
      | apply calm_ite)

/-- `State.addFig`. -/
theorem State_addFig_calm (s : State) (fid k n : Nat) {s_ : State} (hks : Calm s_ s) :
    Calm s_ (State.addFig s fid k n) := by
  unfold State.addFig
  with_reducible
    repeat' (first
      | assumption
      | apply State_updFlight_calm
      | (apply calm_mk; assumption)
      | (intro _))

/-- `State.moved`. -/
theorem State_moved_calm (s : State) (f : Flight) (n : Nat) {s_ : State} (hks : Calm s_ s) :
    Calm s_ (State.moved s f n) := by
  unfold State.moved
  with_reducible
    repeat' (first
      | assumption
      | apply State_addRg_calm
      | apply State_addFig_calm)

/-- `State.remoteFail`. -/
theorem State_remoteFail_calm (s : State) (f : Flight) (i st ga : Nat) {s_ : State} (hks : Calm s_ s) :
    Calm s_ (State.remoteFail s f i st ga) := by
  unfold State.remoteFail
  with_reducible
    repeat' (first
      | assumption
      | apply State_engTrap_calm)

/-- `State.hostFail`. -/
theorem State_hostFail_calm (s : State) (f : Flight) (i st la : Nat) {s_ : State} (hks : Calm s_ s) :
    Calm s_ (State.hostFail s f i st la) := by
  unfold State.hostFail
  with_reducible
    repeat' (first
      | assumption
      | apply State_engTrap_calm)

/-- `State.rackCrc`. -/
theorem State_rackCrc_calm (s : State) (f : Flight) (i ga : Nat) {s_ : State} (hks : Calm s_ s) :
    Calm s_ (State.rackCrc s f i ga) := by
  unfold State.rackCrc
  with_reducible
    repeat' (first
      | assumption
      | apply State_engTrap_calm)

/-- `State.rackCe`. -/
theorem State_rackCe_calm (s : State) (f : Flight) (n : Nat) {s_ : State} (hks : Calm s_ s) :
    Calm s_ (State.rackCe s f n) := by
  unfold State.rackCe
  with_reducible
    repeat' (first
      | assumption
      | apply State_raise_calm
      | apply calm_ite)

/-- `State.engRead`. -/
theorem State_engRead_calm (s : State) (f : Flight) (env : Env) (i a : Nat) (ver : Option Nat) {s_ : State} (hks : Calm s_ s) :
    Calm s_ (State.engRead s f env i a ver).1 := by
  unfold State.engRead
  with_reducible
    repeat' (first
      | assumption
      | lift_lets
      | (intro x; refine (fun (hx : Calm s_ x) => ?_) ?_; clear_value x; rotate_left; unfold x; rotate_right)
      | (intro x; clear_value x)
      | apply State_cause_calm
      | apply State_unitTrap_calm
      | apply State_remoteFail_calm
      | apply State_rackCrc_calm
      | apply State_rackCe_calm
      | apply calm_ite1
      | apply calm_ite
      | split
      | (refine calm_fst_eq (by assumption) ?_))

/-- `State.noteStale`. -/
theorem State_noteStale_calm (s : State) (f : Flight) (l : Line) {s_ : State} (hks : Calm s_ s) :
    Calm s_ (State.noteStale s f l) := by
  unfold State.noteStale
  with_reducible
    repeat' (first
      | assumption
      | apply State_addFig_calm
      | apply calm_ite)

/-- `State.engPut`. -/
theorem State_engPut_calm (s : State) (f : Flight) (i a : Nat) (l : Line) {s_ : State} (hks : Calm s_ s) :
    Calm s_ (State.engPut s f i a l) := by
  unfold State.engPut
  with_reducible
    repeat' (first
      | assumption
      | apply State_stepWrite_calm
      | apply State_moved_calm
      | apply State_remoteFail_calm
      | apply State_noteStale_calm
      | apply calm_ite)

/-- `State.engSend`. -/
theorem State_engSend_calm (s : State) (f : Flight) (i : Nat) (act : LineAct) (r : FRec) {s_ : State} (hks : Calm s_ s) :
    Calm s_ (State.engSend s f i act r) := by
  unfold State.engSend
  with_reducible
    repeat' (first
      | assumption
      | apply State_updFlight_calm
      | apply State_issue_calm
      | (apply calm_mk; assumption)
      | (intro _))

/-- `State.hostSent`. -/
theorem State_hostSent_calm (s : State) (f : Flight) (i la : Nat) (r : State × Option Nat) {s_ : State} (hks : Calm s_ s) (hkr : Calm s_ r.1) :
    Calm s_ (State.hostSent s f i la r) := by
  unfold State.hostSent
  with_reducible
    repeat' (first
      | assumption
      | apply State_updFlight_calm
      | apply State_hostFail_calm
      | (apply calm_mk; assumption)
      | (intro _)
      | split
      | (refine calm_fst_eq (by assumption) ?_))

/-- `State.eCopy`. -/
theorem State_eCopy_calm (s : State) (f : Flight) (env : Env) (i src dst : Nat) (flag : Bool) {s_ : State} (hks : Calm s_ s) :
    Calm s_ (State.eCopy s f env i src dst flag) := by
  unfold State.eCopy
  with_reducible
    repeat' (first
      | assumption
      | lift_lets
      | (intro x; refine (fun (hx : Calm s_ x) => ?_) ?_; clear_value x; rotate_left; unfold x; rotate_right)
      | (intro x; clear_value x)
      | apply State_hostRead_calm
      | apply State_hostWrite_calm
      | apply State_moved_calm
      | apply State_engRead_calm
      | apply State_engPut_calm
      | apply State_engSend_calm
      | apply State_hostSent_calm
      | apply calm_ite
      | split
      | (refine calm_fst_eq (by assumption) ?_))

/-- `State.engMerge`. -/
theorem State_engMerge_calm (s : State) (f : Flight) (i a : Nat) (bs : List Byte) (side : Word) {s_ : State} (hks : Calm s_ s) :
    Calm s_ (State.engMerge s f i a bs side) := by
  unfold State.engMerge
  with_reducible
    repeat' (first
      | assumption
      | lift_lets
      | (intro x; refine (fun (hx : Calm s_ x) => ?_) ?_; clear_value x; rotate_left; unfold x; rotate_right)
      | (intro x; refine (fun (hx : Calm s_ x.1) => ?_) ?_; clear_value x; rotate_left; unfold x; rotate_right)
      | (intro x; clear_value x)
      | apply State_stepMerge_calm
      | apply State_remoteFail_calm
      | apply calm_ite)

/-- `State.ePlaceRun`. -/
theorem State_ePlaceRun_calm (s : State) (f : Flight) (i la b n : Nat) (x : State × Option Line) {s_ : State} (hks : Calm s_ s) (hkx : Calm s_
    x.1) :
    Calm s_ (State.ePlaceRun s f i la b n x) := by
  unfold State.ePlaceRun
  with_reducible
    repeat' (first
      | assumption
      | lift_lets
      | (intro x; refine (fun (hx : Calm s_ x) => ?_) ?_; clear_value x; rotate_left; unfold x; rotate_right)
      | (intro x; refine (fun (hx : Calm s_ x.1) => ?_) ?_; clear_value x; rotate_left; unfold x; rotate_right)
      | (intro x; clear_value x)
      | apply State_engSend_calm
      | apply State_engMerge_calm
      | apply calm_ite
      | split
      | (refine calm_fst_eq (by assumption) ?_))

/-- `State.ePutRun`. -/
theorem State_ePutRun_calm (f : Flight) (env : Env) (i a b n : Nat) (s : State) {s_ : State} (hks : Calm s_ s) :
    Calm s_ (State.ePutRun f env i a b n s) := by
  unfold State.ePutRun
  with_reducible
    repeat' (first
      | assumption
      | apply State_engRead_calm
      | apply State_ePlaceRun_calm)

/-- `State.eGetRun`. -/
theorem State_eGetRun_calm (f : Flight) (i a b n : Nat) (s : State) {s_ : State} (hks : Calm s_ s) :
    Calm s_ (State.eGetRun f i a b n s) := by
  unfold State.eGetRun
  with_reducible
    repeat' (first
      | assumption
      | apply State_engSend_calm)

/-- `State.ePart`. -/
theorem State_ePart_calm (s : State) (f : Flight) (env : Env) (i src soff dst doff n : Nat) {s_ : State} (hks : Calm s_ s) :
    Calm s_ (State.ePart s f env i src soff dst doff n) := by
  unfold State.ePart
  with_reducible
    repeat' (first
      | assumption
      | lift_lets
      | (intro x; refine (fun (hx : Calm s_ x) => ?_) ?_; clear_value x; rotate_left; unfold x; rotate_right)
      | (intro x; refine (fun (hx : Calm s_ x.1) => ?_) ?_; clear_value x; rotate_left; unfold x; rotate_right)
      | (intro x; clear_value x)
      | apply forEach_calm
      | apply State_ePutRun_calm
      | apply State_eGetRun_calm
      | apply calm_ite
      | (intro _))

/-- `State.eLine`. -/
theorem State_eLine_calm (s : State) (f : Flight) (i dst : Nat) (l : Line) {s_ : State} (hks : Calm s_ s) :
    Calm s_ (State.eLine s f i dst l) := by
  unfold State.eLine
  with_reducible
    repeat' (first
      | assumption
      | apply State_stepWrite_calm
      | apply State_remoteFail_calm
      | apply State_engSend_calm
      | apply calm_ite)

/-- `State.eact`. -/
theorem State_eact_calm (s : State) (f : Flight) (env : Env) (y0 : EAct) {s_ : State} (hks : Calm s_ s) :
    Calm s_ (State.eact s f env y0) := by
  unfold State.eact
  with_reducible
    repeat' (first
      | assumption
      | lift_lets
      | (intro x; refine (fun (hx : Calm s_ x) => ?_) ?_; clear_value x; rotate_left; unfold x; rotate_right)
      | (intro x; refine (fun (hx : Calm s_ x.1) => ?_) ?_; clear_value x; rotate_left; unfold x; rotate_right)
      | (intro x; clear_value x)
      | apply forEach_calm
      | apply State_hostWrite_calm
      | apply State_signal_calm
      | apply State_hostSent_calm
      | apply State_eCopy_calm
      | apply State_engMerge_calm
      | apply State_ePart_calm
      | apply State_eLine_calm
      | apply calm_ite
      | (intro _)
      | split
      | (refine calm_fst_eq (by assumption) ?_))

/-- `State.eacts`. -/
theorem State_eacts_calm (fid : Nat) (env : Env) (y0 : List EAct) (y1 : State) {s_ : State} (hk_ : Calm s_ y1) :
    Calm s_ (State.eacts fid env y0 y1) := by
  induction y0 generalizing y1 with
  | nil =>
    unfold State.eacts
    with_reducible
      repeat' (first
        | assumption
        | apply State_eact_calm
        | apply calm_ite
        | split
        | (refine calm_fst_eq (by assumption) ?_))
  | cons _ _ ih =>
    unfold State.eacts
    with_reducible
      repeat' (first
        | assumption
        | apply ih
        | apply State_eact_calm
        | apply calm_ite
        | split
        | (refine calm_fst_eq (by assumption) ?_))

/-- `State.flushTodo`. -/
theorem State_flushTodo_calm (s : State) (fid : Nat) (env : Env) {s_ : State} (hks : Calm s_ s) :
    Calm s_ (State.flushTodo s fid env) := by
  unfold State.flushTodo
  with_reducible
    repeat' (first
      | assumption
      | apply State_updFlight_calm
      | apply State_eacts_calm
      | apply calm_ite
      | (apply calm_mk; assumption)
      | (intro _)
      | split
      | (refine calm_fst_eq (by assumption) ?_))

/-- `State.slotWrites`. -/
theorem State_slotWrites_calm (s : State) (fid : Nat) (ws : List Word) (slots : List Nat) {s_ : State} (hks : Calm s_ s) :
    Calm s_ (State.slotWrites s fid ws slots) := by
  unfold State.slotWrites
  with_reducible
    repeat' (first
      | assumption
      | lift_lets
      | (intro x; refine (fun (hx : Calm s_ x) => ?_) ?_; clear_value x; rotate_left; unfold x; rotate_right)
      | (intro x; refine (fun (hx : Calm s_ x.1) => ?_) ?_; clear_value x; rotate_left; unfold x; rotate_right)
      | (intro x; clear_value x)
      | apply forEach_calm
      | apply State_stepMerge_calm
      | apply calm_ite
      | (intro _))

/-- `State.engStop`. -/
theorem State_engStop_calm (s : State) (f : Flight) (x : Nat × Nat × Nat × Nat) {s_ : State} (hks : Calm s_ s) :
    Calm s_ (State.engStop s f x) := by
  unfold State.engStop
  with_reducible
    repeat' (first
      | assumption
      | lift_lets
      | (intro x; refine (fun (hx : Calm s_ x) => ?_) ?_; clear_value x; rotate_left; unfold x; rotate_right)
      | (intro x; clear_value x)
      | apply State_cause_calm
      | apply State_engTrap_calm
      | apply State_remoteFail_calm
      | apply State_rackCrc_calm
      | apply calm_ite)

/-- `State.redFormat`. -/
theorem State_redFormat_calm (s : State) (j : RedJob) (cause block w2 w3 : Nat) {s_ : State} (hks : Calm s_ s) :
    Calm s_ (State.redFormat s j cause block w2 w3) := by
  unfold State.redFormat
  with_reducible
    repeat' (first
      | assumption
      | lift_lets
      | (intro x; refine (fun (hx : Calm s_ x) => ?_) ?_; clear_value x; rotate_left; unfold x; rotate_right)
      | (intro x; clear_value x)
      | apply State_cause_calm
      | apply State_raise_calm
      | apply State_trap_calm)

end Sys2Proof.Machine
end

