-- ==== Sys2Proof/Laws/KeepsFabric.lean ====
section
/-! SUPPORT. What the fabric, the ports and the rings keep: the part, the queue and the canonical form of what is stored. -/

set_option Elab.async false

namespace Sys2Proof.Machine

/-- `State.homeCause` keeps them. -/
theorem State_homeCause_keeps (s : State) (hd cause : Nat) (r : FRec) {s_ : State} (hks : Keeps s_ s) :
    Keeps s_ (State.homeCause s hd cause r) := by
  unfold State.homeCause
  with_reducible
    repeat' (first
      | assumption
      | apply State_cause_keeps
      | apply State_raise_keeps)

/-- `State.atomicAt` keeps them. -/
theorem State_atomicAt_keeps (s : State) (a w kind : Nat) (x y : Word) (r : FRec) {s_ : State} (hks : Keeps s_ s) :
    Keeps s_ (State.atomicAt s a w kind x y r).1 := by
  unfold State.atomicAt
  with_reducible
    repeat' (first
      | assumption
      | lift_lets
      | (intro x; refine (fun (hx : Keeps s_ x) => ?_) ?_; clear_value x; rotate_left; unfold x; rotate_right)
      | (intro x; clear_value x)
      | apply State_poisonLine_keeps
      | apply State_writeAt_keeps
      | apply State_homeCause_keeps
      | apply keeps_ite1
      | apply keeps_ite)

/-- `State.noteRed` keeps them. -/
theorem State_noteRed_keeps (s : State) (a sat : Nat) (r : FRec) (unit : List Byte) {s_ : State} (hks : Keeps s_ s) :
    Keeps s_ (State.noteRed s a sat r unit) := by
  unfold State.noteRed
  with_reducible
    repeat' (first
      | assumption
      | lift_lets
      | (intro x; refine (fun (hx : Keeps s_ x) => ?_) ?_; clear_value x; rotate_left; unfold x; rotate_right)
      | (intro x; refine (fun (hx : Keeps s_ x.1) => ?_) ?_; clear_value x; rotate_left; unfold x; rotate_right)
      | (intro x; refine (fun (hx : ∀ y, Keeps s_ (x y)) => ?_) ?_; clear_value x; rotate_left; unfold x; rotate_right)
      | (intro x; clear_value x)
      | apply State_putChan_keeps
      | apply keeps_ite
      | apply keeps_ite1
      | (apply keeps_mk; first | assumption | apply State_putChan_keeps)
      | (intro _)
      | split
      | (dsimp only; split)
      | (refine keeps_fst_eq (by assumption) ?_))

/-- `State.redstoreAt` keeps them. -/
theorem State_redstoreAt_keeps (s : State) (r : FRec) (alu : Bool) {s_ : State} (hks : Keeps s_ s) :
    Keeps s_ (State.redstoreAt s r alu).1 := by
  unfold State.redstoreAt
  with_reducible
    repeat' (first
      | assumption
      | lift_lets
      | (intro x; refine (fun (hx : Keeps s_ x) => ?_) ?_; clear_value x; rotate_left; unfold x; rotate_right)
      | (intro x; refine (fun (hx : Keeps s_ x.1) => ?_) ?_; clear_value x; rotate_left; unfold x; rotate_right)
      | (intro x; clear_value x)
      | apply forEach_keeps
      | apply State_addRg_keeps
      | apply State_poisonLine_keeps
      | apply State_writeAt_keeps
      | apply State_mergeAt_keeps
      | apply State_raise_keeps
      | apply State_homeCause_keeps
      | apply State_noteRed_keeps
      | apply keeps_ite1
      | apply keeps_ite
      | (intro _)
      | split
      | (refine keeps_fst_eq (by assumption) ?_))

/-- `State.writeFab` keeps them. -/
theorem State_writeFab_keeps (s : State) (cls : Nat) (r : FRec) {s_ : State} (hks : Keeps s_ s) :
    Keeps s_ (State.writeFab s cls r).1 := by
  unfold State.writeFab
  with_reducible
    repeat' (first
      | assumption
      | (intro x; refine (fun (hx : Keeps s_ x) => ?_) ?_; clear_value x; rotate_left; unfold x; rotate_right)
      | (intro x; clear_value x)
      | apply State_mergeBare_keeps
      | apply State_touchWrite_keeps
      | apply State_writeAt_keeps
      | apply State_mergeAt_keeps
      | apply State_homeCause_keeps
      | apply keeps_ite1
      | apply keeps_ite
      | lift_lets)

/-- `State.signalAt` keeps them. -/
theorem State_signalAt_keeps (s : State) (r : FRec) {s_ : State} (hks : Keeps s_ s) :
    Keeps s_ (State.signalAt s r).1 := by
  unfold State.signalAt
  with_reducible
    repeat' (first
      | assumption
      | lift_lets
      | (intro x; refine (fun (hx : Keeps s_ x) => ?_) ?_; clear_value x; rotate_left; unfold x; rotate_right)
      | (intro x; clear_value x)
      | apply State_addCnt_keeps
      | apply keeps_ite1
      | apply keeps_ite)

/-- `State.ctrlUe` keeps them. -/
theorem State_ctrlUe_keeps (s : State) (d : Nat) {s_ : State} (hks : Keeps s_ s) :
    Keeps s_ (State.ctrlUe s d) := by
  unfold State.ctrlUe
  with_reducible
    repeat' (first
      | assumption
      | apply State_raise_keeps)

/-- `State.splitResp` keeps them. -/
theorem State_splitResp_keeps (s : State) (r : FRec) {s_ : State} (hks : Keeps s_ s) :
    Keeps s_ (State.splitResp s r).1 := by
  unfold State.splitResp
  with_reducible
    repeat' (first
      | assumption
      | apply State_updRouter_keeps
      | (apply keeps_mk; assumption)
      | (intro _)
      | split
      | (refine keeps_fst_eq (by assumption) ?_))

/-- `State.sendResp` keeps them. -/
theorem State_sendResp_keeps (s : State) (d cls : Nat) (r : FRec) {s_ : State} (hks : Keeps s_ s) :
    Keeps s_ (State.sendResp s d cls r) := by
  unfold State.sendResp
  with_reducible
    repeat' (first
      | assumption
      | apply State_updRouter_keeps
      | apply State_forward_keeps
      | apply keeps_ite
      | (apply keeps_mk; assumption)
      | (intro _))

/-- `State.takeResp` keeps them. -/
theorem State_takeResp_keeps (s : State) (d cls : Nat) (r : FRec) {s_ : State} (hks : Keeps s_ s) :
    Keeps s_ (State.takeResp s d cls r) := by
  unfold State.takeResp
  with_reducible
    repeat' (first
      | assumption
      | lift_lets
      | (intro x; refine (fun (hx : Keeps s_ x) => ?_) ?_; clear_value x; rotate_left; unfold x; rotate_right)
      | (intro x; refine (fun (hx : Keeps s_ x.1) => ?_) ?_; clear_value x; rotate_left; unfold x; rotate_right)
      | (intro x; clear_value x)
      | apply forEach_keeps
      | apply State_splitResp_keeps
      | apply State_sendResp_keeps
      | (intro _))

/-- `State.noteApplied` keeps them. -/
theorem State_noteApplied_keeps (s : State) (cls : Nat) (q : FRec) {s_ : State} (hks : Keeps s_ s) :
    Keeps s_ (State.noteApplied s cls q) := by
  unfold State.noteApplied
  with_reducible
    repeat' (first
      | assumption
      | lift_lets
      | (intro x; refine (fun (hx : Keeps s_ x) => ?_) ?_; clear_value x; rotate_left; unfold x; rotate_right)
      | (intro x; clear_value x)
      | apply State_updRouter_keeps
      | (apply keeps_mk; assumption)
      | (intro _))

/-- `State.finish` keeps them. -/
theorem State_finish_keeps (s : State) (d cls : Nat) (r : FRec) (st : Nat) (pay : List Byte) {s_ : State} (hks : Keeps s_ s) :
    Keeps s_ (State.finish s d cls r st pay) := by
  unfold State.finish
  with_reducible
    repeat' (first
      | assumption
      | lift_lets
      | (intro x; refine (fun (hx : Keeps s_ x) => ?_) ?_; clear_value x; rotate_left; unfold x; rotate_right)
      | (intro x; clear_value x)
      | apply forEach_keeps
      | apply State_takeResp_keeps
      | apply State_noteApplied_keeps
      | apply keeps_ite
      | (intro _))

/-- `State.macCnt` keeps them. -/
theorem State_macCnt_keeps (s : State) (d p k n : Nat) {s_ : State} (hks : Keeps s_ s) :
    Keeps s_ (State.macCnt s d p k n) := by
  unfold State.macCnt
  with_reducible
    repeat' (first
      | assumption
      | apply State_addRg_keeps)

/-- `State.noRoute` keeps them. -/
theorem State_noRoute_keeps (s : State) (d cls : Nat) (r : FRec) {s_ : State} (hks : Keeps s_ s) :
    Keeps s_ (State.noRoute s d cls r) := by
  unfold State.noRoute
  with_reducible
    repeat' (first
      | assumption
      | apply State_takeResp_keeps
      | apply keeps_ite)

/-- `State.forwardOr` keeps them. -/
theorem State_forwardOr_keeps (s : State) (d cls : Nat) (r : FRec) {s_ : State} (hks : Keeps s_ s) :
    Keeps s_ (State.forwardOr s d cls r) := by
  unfold State.forwardOr
  with_reducible
    repeat' (first
      | assumption
      | lift_lets
      | (intro x; refine (fun (hx : Keeps s_ x) => ?_) ?_; clear_value x; rotate_left; unfold x; rotate_right)
      | (intro x; refine (fun (hx : Keeps s_ x.1) => ?_) ?_; clear_value x; rotate_left; unfold x; rotate_right)
      | (intro x; clear_value x)
      | apply State_forward_keeps
      | apply State_noRoute_keeps
      | apply keeps_ite)

/-- `State.failTag` keeps them. -/
theorem State_failTag_keeps (s : State) (d tag st : Nat) {s_ : State} (hks : Keeps s_ s) :
    Keeps s_ (State.failTag s d tag st) := by
  unfold State.failTag
  with_reducible
    repeat' (first
      | assumption
      | apply State_failOwner_keeps
      | apply State_returnTag_keeps
      | (intro _)
      | split
      | (refine keeps_fst_eq (by assumption) ?_))

/-- `State.resend` keeps them. -/
theorem State_resend_keeps (s : State) (d tag : Nat) {s_ : State} (hks : Keeps s_ s) :
    Keeps s_ (State.resend s d tag) := by
  unfold State.resend
  with_reducible
    repeat' (first
      | assumption
      | (intro x; refine (fun (hx : Keeps s_ x) => ?_) ?_; clear_value x; rotate_left; unfold x; rotate_right)
      | (intro x; refine (fun (hx : Keeps s_ x.1) => ?_) ?_; clear_value x; rotate_left; unfold x; rotate_right)
      | (intro x; clear_value x)
      | apply State_updRouter_keeps
      | apply State_addRg_keeps
      | apply State_raise_keeps
      | apply State_forward_keeps
      | apply State_failTag_keeps
      | apply keeps_ite
      | (apply keeps_mk; assumption)
      | (intro _)
      | split
      | lift_lets
      | (refine keeps_fst_eq (by assumption) ?_))

/-- `State.ackTo` keeps them. -/
theorem State_ackTo_keeps (s : State) (d p h : Nat) {s_ : State} (hks : Keeps s_ s) :
    Keeps s_ (State.ackTo s d p h) := by
  unfold State.ackTo
  with_reducible
    repeat' (first
      | assumption
      | lift_lets
      | (intro x; refine (fun (hx : Keeps s_ x) => ?_) ?_; clear_value x; rotate_left; unfold x; rotate_right)
      | (intro x; clear_value x)
      | apply State_updPort_keeps
      | (apply keeps_mk; assumption)
      | (intro _)
      | split
      | (refine keeps_fst_eq (by assumption) ?_))

/-- `State.sendFrame` keeps them. -/
theorem State_sendFrame_keeps (s : State) (d p : Nat) (f : Frame) (len : Nat) {s_ : State} (hks : Keeps s_ s) :
    Keeps s_ (State.sendFrame s d p f len) := by
  unfold State.sendFrame
  with_reducible
    repeat' (first
      | assumption
      | apply State_emit_keeps
      | apply State_macCnt_keeps)

/-- `State.resendFrames` keeps them. -/
theorem State_resendFrames_keeps (s : State) (d p h : Nat) {s_ : State} (hks : Keeps s_ s) :
    Keeps s_ (State.resendFrames s d p h) := by
  unfold State.resendFrames
  with_reducible
    repeat' (first
      | assumption
      | lift_lets
      | (intro x; refine (fun (hx : Keeps s_ x) => ?_) ?_; clear_value x; rotate_left; unfold x; rotate_right)
      | (intro x; clear_value x)
      | apply forEach_keeps
      | apply State_updPort_keeps
      | apply State_addRg_keeps
      | apply State_raise_keeps
      | apply State_sendFrame_keeps
      | apply keeps_ite
      | (apply keeps_mk; assumption)
      | (intro _))

/-- `State.portDown` keeps them. -/
theorem State_portDown_keeps (s : State) (d p : Nat) {s_ : State} (hks : Keeps s_ s) :
    Keeps s_ (State.portDown s d p) := by
  unfold State.portDown
  with_reducible
    repeat' (first
      | assumption
      | lift_lets
      | (intro x; refine (fun (hx : Keeps s_ x) => ?_) ?_; clear_value x; rotate_left; unfold x; rotate_right)
      | (intro x; refine (fun (hx : Keeps s_ x.1) => ?_) ?_; clear_value x; rotate_left; unfold x; rotate_right)
      | (intro x; clear_value x)
      | apply forEach_keeps
      | apply State_updRouter_keeps
      | apply State_putPort_keeps
      | apply State_setFld_keeps
      | apply State_raise_keeps
      | apply State_forwardOr_keeps
      | apply State_resend_keeps
      | apply keeps_ite
      | (apply keeps_mk; assumption)
      | (intro _))

/-- `State.retryFrom` keeps them. -/
theorem State_retryFrom_keeps (s : State) (d p h : Nat) {s_ : State} (hks : Keeps s_ s) :
    Keeps s_ (State.retryFrom s d p h) := by
  unfold State.retryFrom
  with_reducible
    repeat' (first
      | assumption
      | apply State_updPort_keeps
      | apply State_resendFrames_keeps
      | apply State_portDown_keeps
      | apply keeps_ite
      | (apply keeps_mk; assumption)
      | (intro _))

/-- `State.askAgain` keeps them. -/
theorem State_askAgain_keeps (s : State) (d p : Nat) {s_ : State} (hks : Keeps s_ s) :
    Keeps s_ (State.askAgain s d p) := by
  unfold State.askAgain
  with_reducible
    repeat' (first
      | assumption
      | lift_lets
      | (intro x; refine (fun (hx : Keeps s_ x) => ?_) ?_; clear_value x; rotate_left; unfold x; rotate_right)
      | (intro x; clear_value x)
      | apply State_putPort_keeps
      | apply keeps_ite
      | (apply keeps_mk; assumption))

/-- `State.sendPfc` keeps them. -/
theorem State_sendPfc_keeps (s : State) (d p cls quanta : Nat) {s_ : State} (hks : Keeps s_ s) :
    Keeps s_ (State.sendPfc s d p cls quanta) := by
  unfold State.sendPfc
  with_reducible
    repeat' (first
      | assumption
      | apply State_emit_keeps
      | apply State_macCnt_keeps)

/-- `State.holdLines` keeps them. -/
theorem State_holdLines_keeps (s : State) (d p cls n : Nat) (r : FRec) {s_ : State} (hks : Keeps s_ s) :
    Keeps s_ (State.holdLines s d p cls n r) := by
  unfold State.holdLines
  with_reducible
    repeat' (first
      | assumption
      | lift_lets
      | (intro x; refine (fun (hx : Keeps s_ x) => ?_) ?_; clear_value x; rotate_left; unfold x; rotate_right)
      | (intro x; clear_value x)
      | apply State_updPort_keeps
      | apply State_sendPfc_keeps
      | apply keeps_ite
      | (apply keeps_mk; assumption)
      | (intro _))

/-- `State.releasePfc` keeps them. -/
theorem State_releasePfc_keeps (s : State) (d p : Nat) {s_ : State} (hks : Keeps s_ s) :
    Keeps s_ (State.releasePfc s d p) := by
  unfold State.releasePfc
  with_reducible
    repeat' (first
      | assumption
      | apply forEach_keeps
      | apply State_updPort_keeps
      | apply State_sendPfc_keeps
      | (apply keeps_mk; assumption)
      | (intro _))

/-- `State.freeTransit` keeps them. -/
theorem State_freeTransit_keeps (s : State) (r : FRec) {s_ : State} (hks : Keeps s_ s) :
    Keeps s_ (State.freeTransit s r) := by
  unfold State.freeTransit
  with_reducible
    repeat' (first
      | assumption
      | (intro x; refine (fun (hx : Keeps s_ x) => ?_) ?_; clear_value x; rotate_left; unfold x; rotate_right)
      | (intro x; refine (fun (hx : Keeps s_ x.1) => ?_) ?_; clear_value x; rotate_left; unfold x; rotate_right)
      | (intro x; refine (fun (hx : ∀ y, Keeps s_ (x y)) => ?_) ?_; clear_value x; rotate_left; unfold x; rotate_right)
      | (intro x; clear_value x)
      | split
      | apply forEach_keeps
      | apply State_updPort_keeps
      | apply State_releasePfc_keeps
      | apply keeps_ite
      | apply keeps_ite1
      | (apply keeps_mk; first | assumption | apply forEach_keeps | apply State_updPort_keeps | apply State_releasePfc_keeps)
      | (intro _)
      | lift_lets
      | (refine keeps_fst_eq (by assumption) ?_))

/-- `State.takePfc` keeps them. -/
theorem State_takePfc_keeps (s : State) (d p : Nat) (ts : List (Nat × Nat)) {s_ : State} (hks : Keeps s_ s) :
    Keeps s_ (State.takePfc s d p ts) := by
  unfold State.takePfc
  with_reducible
    repeat' (first
      | assumption
      | apply forEach_keeps
      | apply State_updPort_keeps
      | apply State_macCnt_keeps
      | apply keeps_ite
      | (apply keeps_mk; assumption)
      | (intro _))

/-- `State.putBytes` keeps them. -/
theorem State_putBytes_keeps (s : State) (a : Nat) (bs : List Byte) {s_ : State} (hks : Keeps s_ s) :
    Keeps s_ (State.putBytes s a bs) := by
  unfold State.putBytes
  with_reducible
    repeat' (first
      | assumption
      | apply State_putLine_keeps
      | apply keeps_ite)

/-- `State.putFrame` keeps them. -/
theorem State_putFrame_keeps (s : State) (a : Nat) (y0 : Nat) (y1 : List Byte) {s_ : State} (hks : Keeps s_ s) :
    Keeps s_ (State.putFrame s a y0 y1) := by
  induction y0 generalizing s a y1 with
  | zero => exact hks
  | succ n ih =>
    unfold State.putFrame
    exact keeps_ite hks (ih _ _ _ (State_putBytes_keeps s _ _ hks))

/-- `State.hostReceive` keeps them. -/
theorem State_hostReceive_keeps (s : State) (d p cls : Nat) (bs : List Byte) {s_ : State} (hks : Keeps s_ s) :
    Keeps s_ (State.hostReceive s d p cls bs) := by
  unfold State.hostReceive
  with_reducible
    repeat' (first
      | assumption
      | lift_lets
      | (intro x; refine (fun (hx : Keeps s_ x) => ?_) ?_; clear_value x; rotate_left; unfold x; rotate_right)
      | (intro x; clear_value x)
      | apply State_setFld_keeps
      | apply State_mergeBare_keeps
      | apply State_setStat_keeps
      | apply State_macCnt_keeps
      | apply State_putFrame_keeps
      | apply keeps_ite)

/-- `State.txCons` keeps them. -/
theorem State_txCons_keeps (s : State) (d p : Nat) {s_ : State} (hks : Keeps s_ s) :
    Keeps s_ (State.txCons s d p) := by
  unfold State.txCons
  with_reducible
    repeat' (first
      | assumption
      | apply State_setFld_keeps)

/-- `State.portUpNow` keeps them. -/
theorem State_portUpNow_keeps (s : State) (d p peer : Nat) {s_ : State} (hks : Keeps s_ s) :
    Keeps s_ (State.portUpNow s d p peer) := by
  unfold State.portUpNow
  with_reducible
    repeat' (first
      | assumption
      | lift_lets
      | (intro x; refine (fun (hx : Keeps s_ x) => ?_) ?_; clear_value x; rotate_left; unfold x; rotate_right)
      | (intro x; clear_value x)
      | apply State_putPort_keeps
      | apply State_setFld_keeps
      | apply State_setStat_keeps)

/-- `State.moveLane` keeps them. -/
theorem State_moveLane_keeps (s : State) (d p lane : Nat) {s_ : State} (hks : Keeps s_ s) :
    Keeps s_ (State.moveLane s d p lane) := by
  unfold State.moveLane
  with_reducible
    repeat' (first
      | assumption
      | apply State_updPort_keeps
      | (apply keeps_mk; assumption)
      | (intro _))

/-- `State.retrainPort` keeps them. -/
theorem State_retrainPort_keeps (s : State) (d p : Nat) {s_ : State} (hks : Keeps s_ s) :
    Keeps s_ (State.retrainPort s d p) := by
  unfold State.retrainPort
  with_reducible
    repeat' (first
      | assumption
      | (intro x; refine (fun (hx : Keeps s_ x) => ?_) ?_; clear_value x; rotate_left; unfold x; rotate_right)
      | (intro x; refine (fun (hx : Keeps s_ x.1) => ?_) ?_; clear_value x; rotate_left; unfold x; rotate_right)
      | (intro x; refine (fun (hx : ∀ y, Keeps s_ (x y)) => ?_) ?_; clear_value x; rotate_left; unfold x; rotate_right)
      | (intro x; clear_value x)
      | split
      | apply forEach_keeps
      | apply State_updPort_keeps
      | apply State_portDown_keeps
      | apply keeps_ite
      | apply keeps_ite1
      | (apply keeps_mk; first | assumption | apply forEach_keeps | apply State_updPort_keeps | apply State_portDown_keeps)
      | (intro _)
      | lift_lets
      | (refine keeps_fst_eq (by assumption) ?_))

/-- `State.doorbell` keeps them. -/
theorem State_doorbell_keeps (s : State) (c : Nat) (p : BitVec 32) {s_ : State} (hks : Keeps s_ s) :
    Keeps s_ (State.doorbell s c p) := by
  unfold State.doorbell
  with_reducible
    repeat' (first
      | assumption
      | lift_lets
      | (intro x; refine (fun (hx : Keeps s_ x) => ?_) ?_; clear_value x; rotate_left; unfold x; rotate_right)
      | (intro x; clear_value x)
      | apply State_setRg_keeps
      | apply State_setFld_keeps
      | apply keeps_ite)

/-- `execDoorbell` keeps them. -/
theorem execDoorbell_keeps (c : Nat) (p : BitVec 32) (s : State) {s_ : State} (hks : Keeps s_ s) :
    KeepsO s_ (execDoorbell c p s) := by
  unfold execDoorbell
  with_reducible
    repeat' (first
      | assumption
      | apply State_doorbell_keeps
      | apply keepsO_ite
      | apply keepsO_next
      | apply keeps_ite)

/-- `State.ringReset` keeps them. -/
theorem State_ringReset_keeps (s : State) (c : Nat) {s_ : State} (hks : Keeps s_ s) :
    Keeps s_ (State.ringReset s c).1 := by
  unfold State.ringReset
  with_reducible
    repeat' (first
      | assumption
      | apply State_setRg_keeps
      | apply State_configBusy_keeps
      | apply keeps_ite1
      | apply keeps_ite)

/-- `execSeqRingReset` keeps them. -/
theorem execSeqRingReset_keeps (c : Nat) (s : State) {s_ : State} (hks : Keeps s_ s) :
    KeepsO s_ (execSeqRingReset c s) := by
  unfold execSeqRingReset
  with_reducible
    repeat' (first
      | assumption
      | apply State_ringReset_keeps
      | apply keepsO_ite
      | apply keepsO_next
      | apply keeps_ite)

/-- `State.refuseDesc` keeps them. -/
theorem State_refuseDesc_keeps (s : State) (c reason : Nat) {s_ : State} (hks : Keeps s_ s) :
    Keeps s_ (State.refuseDesc s c reason) := by
  unfold State.refuseDesc
  with_reducible
    repeat' (first
      | assumption
      | apply State_updHc_keeps
      | apply State_cause_keeps
      | (apply keeps_mk; assumption)
      | (intro _))

/-- `State.descFetch` keeps them. -/
theorem State_descFetch_keeps (s : State) (c : Nat) {s_ : State} (hks : Keeps s_ s) :
    Keeps s_ (State.descFetch s c) := by
  unfold State.descFetch
  with_reducible
    repeat' (first
      | assumption
      | lift_lets
      | (intro x; refine (fun (hx : Keeps s_ x) => ?_) ?_; clear_value x; rotate_left; unfold x; rotate_right)
      | (intro x; clear_value x)
      | apply State_updHc_keeps
      | apply State_hostRead_keeps
      | apply State_trap_keeps
      | apply State_refuseDesc_keeps
      | apply keeps_ite
      | (intro _)
      | split
      | (refine keeps_fst_eq (by assumption) ?_))

/-- `execDescriptorFetch` keeps them. -/
theorem execDescriptorFetch_keeps (c : Nat) (s : State) {s_ : State} (hks : Keeps s_ s) :
    KeepsO s_ (execDescriptorFetch c s) := by
  unfold execDescriptorFetch
  with_reducible
    repeat' (first
      | assumption
      | apply State_descFetch_keeps
      | apply keepsO_next)

/-- `State.descArrive` keeps them. -/
theorem State_descArrive_keeps (s : State) (c : Nat) (ok : Bool) (ws : List Word) {s_ : State} (hks : Keeps s_ s) :
    Keeps s_ (State.descArrive s c ok ws) := by
  unfold State.descArrive
  with_reducible
    repeat' (first
      | assumption
      | lift_lets
      | (intro x; refine (fun (hx : Keeps s_ x) => ?_) ?_; clear_value x; rotate_left; unfold x; rotate_right)
      | (intro x; clear_value x)
      | apply State_updHc_keeps
      | apply State_refuseDesc_keeps
      | apply keeps_ite
      | (intro _)
      | split
      | (refine keeps_fst_eq (by assumption) ?_))

/-- `execDescriptorArrive` keeps them. -/
theorem execDescriptorArrive_keeps (c : Nat) (ok : Bool) (ws : List Word) (s : State) {s_ : State} (hks : Keeps s_ s) :
    KeepsO s_ (execDescriptorArrive c ok ws s) := by
  unfold execDescriptorArrive
  with_reducible
    repeat' (first
      | assumption
      | apply State_updLink_keeps
      | apply State_descArrive_keeps
      | apply keepsO_ite
      | apply keepsO_next
      | apply keeps_ite
      | (apply keeps_mk; assumption)
      | (intro _))

/-- `State.clearCounters` keeps them. -/
theorem State_clearCounters_keeps (s : State) (c : Nat) {s_ : State} (hks : Keeps s_ s) :
    Keeps s_ (State.clearCounters s c) := by
  unfold State.clearCounters
  with_reducible
    repeat' (first
      | assumption
      | lift_lets
      | (intro x; refine (fun (hx : Keeps s_ x) => ?_) ?_; clear_value x; rotate_left; unfold x; rotate_right)
      | (intro x; clear_value x)
      | apply forEach_keeps
      | apply State_setRg_keeps
      | (intro _))

/-- `State.startDesc` keeps them. -/
theorem State_startDesc_keeps (s : State) (c : Nat) (bs : List Byte) {s_ : State} (hks : Keeps s_ s) :
    Keeps s_ (State.startDesc s c bs) := by
  unfold State.startDesc
  with_reducible
    repeat' (first
      | assumption
      | lift_lets
      | (intro x; refine (fun (hx : Keeps s_ x) => ?_) ?_; clear_value x; rotate_left; unfold x; rotate_right)
      | (intro x; clear_value x)
      | apply forEach_keeps
      | apply State_putCtx_keeps
      | apply State_updHc_keeps
      | apply State_clearCounters_keeps
      | (apply keeps_mk; assumption)
      | (intro _))

/-- `State.dirArrive` keeps them. -/
theorem State_dirArrive_keeps (s : State) (c : Nat) {s_ : State} (hks : Keeps s_ s) :
    Keeps s_ (State.dirArrive s c) := by
  unfold State.dirArrive
  with_reducible
    repeat' (first
      | assumption
      | lift_lets
      | (intro x; refine (fun (hx : Keeps s_ x) => ?_) ?_; clear_value x; rotate_left; unfold x; rotate_right)
      | (intro x; clear_value x)
      | apply State_touchRead_keeps
      | apply State_sendSnoop_keeps
      | apply State_refuseDesc_keeps
      | apply State_startDesc_keeps
      | apply keeps_ite
      | split
      | (refine keeps_fst_eq (by assumption) ?_))

/-- `execDirectoryArrive` keeps them. -/
theorem execDirectoryArrive_keeps (c : Nat) (_env : Env) (s : State) {s_ : State} (hks : Keeps s_ s) :
    KeepsO s_ (execDirectoryArrive c _env s) := by
  unfold execDirectoryArrive
  with_reducible
    repeat' (first
      | assumption
      | apply State_dirArrive_keeps
      | apply keepsO_ite
      | apply keepsO_next
      | apply keeps_ite)

/-- `State.descComplete` keeps them. -/
theorem State_descComplete_keeps (s : State) (c : Nat) {s_ : State} (hks : Keeps s_ s) :
    Keeps s_ (State.descComplete s c) := by
  unfold State.descComplete
  with_reducible
    repeat' (first
      | assumption
      | apply forEach_keeps
      | apply State_updCtx_keeps
      | apply State_updHc_keeps
      | apply State_trap_keeps
      | apply keeps_ite
      | (apply keeps_mk; assumption)
      | (intro _))

/-- `execDescriptorComplete` keeps them. -/
theorem execDescriptorComplete_keeps (c : Nat) (s : State) {s_ : State} (hks : Keeps s_ s) :
    KeepsO s_ (execDescriptorComplete c s) := by
  unfold execDescriptorComplete
  with_reducible
    repeat' (first
      | assumption
      | apply State_descComplete_keeps
      | apply keepsO_ite
      | apply keepsO_next
      | apply keeps_ite)

/-- `State.postPut` keeps them. -/
theorem State_postPut_keeps (s : State) (c a : Nat) (bs : List Byte) {s_ : State} (hks : Keeps s_ s) :
    Keeps s_ (State.postPut s c a bs) := by
  unfold State.postPut
  with_reducible
    repeat' (first
      | assumption
      | lift_lets
      | (intro x; refine (fun (hx : Keeps s_ x) => ?_) ?_; clear_value x; rotate_left; unfold x; rotate_right)
      | (intro x; refine (fun (hx : Keeps s_ x.1) => ?_) ?_; clear_value x; rotate_left; unfold x; rotate_right)
      | (intro x; clear_value x)
      | apply State_updHc_keeps
      | apply State_hostWrite_keeps
      | apply State_hostMerge_keeps
      | apply keeps_ite
      | (apply keeps_mk; assumption)
      | (intro _)
      | split
      | (refine keeps_fst_eq (by assumption) ?_))

/-- `State.writeReport` keeps them. -/
theorem State_writeReport_keeps (s : State) (c : Nat) {s_ : State} (hks : Keeps s_ s) :
    Keeps s_ (State.writeReport s c) := by
  unfold State.writeReport
  with_reducible
    repeat' (first
      | assumption
      | lift_lets
      | (intro x; refine (fun (hx : Keeps s_ x) => ?_) ?_; clear_value x; rotate_left; unfold x; rotate_right)
      | (intro x; clear_value x)
      | apply forEach_keeps
      | apply State_postPut_keeps
      | apply keeps_ite
      | (intro _))

/-- `State.descPost` keeps them. -/
theorem State_descPost_keeps (s : State) (c : Nat) {s_ : State} (hks : Keeps s_ s) :
    Keeps s_ (State.descPost s c) := by
  unfold State.descPost
  with_reducible
    repeat' (first
      | assumption
      | lift_lets
      | (intro x; refine (fun (hx : Keeps s_ x) => ?_) ?_; clear_value x; rotate_left; unfold x; rotate_right)
      | (intro x; clear_value x)
      | apply State_updHc_keeps
      | apply State_writeReport_keeps
      | apply keeps_ite
      | (intro _))

/-- `execDescriptorPost` keeps them. -/
theorem execDescriptorPost_keeps (c : Nat) (s : State) {s_ : State} (hks : Keeps s_ s) :
    KeepsO s_ (execDescriptorPost c s) := by
  unfold execDescriptorPost
  with_reducible
    repeat' (first
      | assumption
      | apply State_descPost_keeps
      | apply keepsO_next)

/-- `State.entryWrite` keeps them. -/
theorem State_entryWrite_keeps (s : State) (c : Nat) {s_ : State} (hks : Keeps s_ s) :
    Keeps s_ (State.entryWrite s c) := by
  unfold State.entryWrite
  with_reducible
    repeat' (first
      | assumption
      | lift_lets
      | (intro x; refine (fun (hx : Keeps s_ x) => ?_) ?_; clear_value x; rotate_left; unfold x; rotate_right)
      | (intro x; clear_value x)
      | apply State_updHc_keeps
      | apply State_postPut_keeps
      | apply keeps_ite
      | (apply keeps_mk; assumption)
      | (intro _))

/-- `execCompletionEntryWrite` keeps them. -/
theorem execCompletionEntryWrite_keeps (c : Nat) (s : State) {s_ : State} (hks : Keeps s_ s) :
    KeepsO s_ (execCompletionEntryWrite c s) := by
  unfold execCompletionEntryWrite
  with_reducible
    repeat' (first
      | assumption
      | lift_lets
      | (intro x; refine (fun (hx : Keeps s_ x) => ?_) ?_; clear_value x; rotate_left; unfold x; rotate_right)
      | (intro x; refine (fun (hx : Keeps s_ x.1) => ?_) ?_; clear_value x; rotate_left; unfold x; rotate_right)
      | (intro x; refine (fun (hx : ∀ y, Keeps s_ (x y)) => ?_) ?_; clear_value x; rotate_left; unfold x; rotate_right)
      | (intro x; clear_value x)
      | apply State_entryWrite_keeps
      | apply keepsO_ite
      | apply keepsO_next
      | exact keepsO_fault
      | apply keeps_ite
      | apply keeps_ite1
      | (apply keeps_mk; first | assumption | apply State_entryWrite_keeps)
      | (intro _)
      | split
      | (dsimp only; split)
      | (refine keeps_fst_eq (by assumption) ?_))

/-- `State.consBack` keeps them. -/
theorem State_consBack_keeps (s : State) (c : Nat) {s_ : State} (hks : Keeps s_ s) :
    Keeps s_ (State.consBack s c) := by
  unfold State.consBack
  with_reducible
    repeat' (first
      | assumption
      | lift_lets
      | (intro x; refine (fun (hx : Keeps s_ x) => ?_) ?_; clear_value x; rotate_left; unfold x; rotate_right)
      | (intro x; clear_value x)
      | apply State_updHc_keeps
      | apply State_setFld_keeps
      | apply State_postPut_keeps
      | apply keeps_ite
      | (apply keeps_mk; assumption)
      | (intro _))

/-- `execConsWriteBack` keeps them. -/
theorem execConsWriteBack_keeps (c : Nat) (s : State) {s_ : State} (hks : Keeps s_ s) :
    KeepsO s_ (execConsWriteBack c s) := by
  unfold execConsWriteBack
  with_reducible
    repeat' (first
      | assumption
      | apply State_consBack_keeps
      | apply keepsO_next)

/-- `State.postVector` keeps them. -/
theorem State_postVector_keeps (s : State) (c : Nat) {s_ : State} (hks : Keeps s_ s) :
    Keeps s_ (State.postVector s c) := by
  unfold State.postVector
  with_reducible
    repeat' (first
      | assumption
      | lift_lets
      | (intro x; refine (fun (hx : Keeps s_ x) => ?_) ?_; clear_value x; rotate_left; unfold x; rotate_right)
      | (intro x; clear_value x)
      | apply State_updHc_keeps
      | apply State_queueIntr_keeps
      | apply State_trap_keeps
      | apply State_settleClear_keeps
      | apply keeps_ite
      | (intro _))

/-- `execCompletionVector` keeps them. -/
theorem execCompletionVector_keeps (c : Nat) (s : State) {s_ : State} (hks : Keeps s_ s) :
    KeepsO s_ (execCompletionVector c s) := by
  unfold execCompletionVector
  with_reducible
    repeat' (first
      | assumption
      | apply State_postVector_keeps
      | apply keepsO_next)

/-- `State.postAnswered` keeps them. -/
theorem State_postAnswered_keeps (s : State) (c : Nat) {s_ : State} (hks : Keeps s_ s) :
    Keeps s_ (State.postAnswered s c) := by
  unfold State.postAnswered
  with_reducible
    repeat' (first
      | assumption
      | apply State_updHc_keeps
      | (apply keeps_mk; assumption)
      | (intro _))

/-- `State.aglRaise` keeps them. -/
theorem State_aglRaise_keeps (s : State) (d bit cause : Nat) (c : Cls) (opc tag fseq addr : Nat) {s_ : State} (hks : Keeps s_ s) :
    Keeps s_ (State.aglRaise s d bit cause c opc tag fseq addr) := by
  unfold State.aglRaise
  with_reducible
    repeat' (first
      | assumption
      | lift_lets
      | (intro x; refine (fun (hx : Keeps s_ x) => ?_) ?_; clear_value x; rotate_left; unfold x; rotate_right)
      | (intro x; clear_value x)
      | apply State_setRg_keeps
      | apply State_cause_keeps
      | apply State_raise_keeps
      | apply keeps_ite)

/-- `State.mergeBack` keeps them. -/
theorem State_mergeBack_keeps (s : State) (q : HReq) (mask : Nat) (bs : List Byte) (l : Line) (own : HOwner) {s_ : State} (hks : Keeps s_ s) :
    Keeps s_ (State.mergeBack s q mask bs l own).1 := by
  unfold State.mergeBack
  with_reducible
    repeat' (first
      | assumption
      | lift_lets
      | (intro x; refine (fun (hx : Keeps s_ x) => ?_) ?_; clear_value x; rotate_left; unfold x; rotate_right)
      | (intro x; refine (fun (hx : Keeps s_ x.1) => ?_) ?_; clear_value x; rotate_left; unfold x; rotate_right)
      | (intro x; refine (fun (hx : ∀ y, Keeps s_ (x y)) => ?_) ?_; clear_value x; rotate_left; unfold x; rotate_right)
      | (intro x; clear_value x)
      | apply State_hostWrite_keeps
      | apply keeps_ite1
      | apply keeps_ite
      | (apply keeps_mk; first | assumption | apply State_hostWrite_keeps)
      | (intro _)
      | split
      | (dsimp only; split)
      | (refine keeps_fst_eq (by assumption) ?_))

/-- `State.ownerEnd` keeps them. -/
theorem State_ownerEnd_keeps (s : State) (c k : Nat) {s_ : State} (hks : Keeps s_ s) :
    Keeps s_ (State.ownerEnd s c k) := by
  unfold State.ownerEnd
  with_reducible
    repeat' (first
      | assumption
      | apply State_postAnswered_keeps
      | apply keeps_ite)

/-- `State.hostEnd` keeps them. -/
theorem State_hostEnd_keeps (s : State) (q : HReq) (st : Nat) (l : Line) {s_ : State} (hks : Keeps s_ s) :
    Keeps s_ (State.hostEnd s q st l) := by
  unfold State.hostEnd
  with_reducible
    repeat' (first
      | assumption
      | lift_lets
      | (intro x; refine (fun (hx : Keeps s_ x) => ?_) ?_; clear_value x; rotate_left; unfold x; rotate_right)
      | (intro x; refine (fun (hx : Keeps s_ x.1) => ?_) ?_; clear_value x; rotate_left; unfold x; rotate_right)
      | (intro x; clear_value x)
      | apply State_trap_keeps
      | apply State_updFlight_keeps
      | apply State_hostFail_keeps
      | apply State_engArrive_keeps
      | apply State_engAnswered_keeps
      | apply State_descArrive_keeps
      | apply State_postAnswered_keeps
      | apply State_mergeBack_keeps
      | apply State_ownerEnd_keeps
      | apply keeps_ite
      | (apply keeps_mk; assumption)
      | (intro _)
      | split
      | (refine keeps_fst_eq (by assumption) ?_))

/-- `State.endReq` keeps them. -/
theorem State_endReq_keeps (s : State) (d : Nat) (q : HReq) (st : Nat) (l : Line) {s_ : State} (hks : Keeps s_ s) :
    Keeps s_ (State.endReq s d q st l) := by
  unfold State.endReq
  with_reducible
    repeat' (first
      | assumption
      | apply State_updLink_keeps
      | apply State_hostEnd_keeps
      | (apply keeps_mk; assumption)
      | (intro _))

/-- `State.answerReq` keeps them. -/
theorem State_answerReq_keeps (s : State) (d tag st : Nat) (bs : List Byte) (sb : Word) {s_ : State} (hks : Keeps s_ s) :
    Keeps s_ (State.answerReq s d tag st bs sb).1 := by
  unfold State.answerReq
  with_reducible
    repeat' (first
      | assumption
      | lift_lets
      | (intro x; refine (fun (hx : Keeps s_ x) => ?_) ?_; clear_value x; rotate_left; unfold x; rotate_right)
      | (intro x; refine (fun (hx : Keeps s_ x.1) => ?_) ?_; clear_value x; rotate_left; unfold x; rotate_right)
      | (intro x; clear_value x)
      | apply State_aglCnt_keeps
      | apply State_snoopAll_keeps
      | apply State_endReq_keeps
      | apply keeps_ite1
      | apply keeps_ite
      | (intro _)
      | split
      | (refine keeps_fst_eq (by assumption) ?_))

/-- `State.snoopAnswer` keeps them. -/
theorem State_snoopAnswer_keeps (s : State) (d : Nat) (x : Snoop) (data : Option (List Byte × Word)) {s_ : State} (hks : Keeps s_ s) :
    Keeps s_ (State.snoopAnswer s d x data) := by
  unfold State.snoopAnswer
  with_reducible
    repeat' (first
      | assumption
      | lift_lets
      | (intro x; refine (fun (hx : Keeps s_ x) => ?_) ?_; clear_value x; rotate_left; unfold x; rotate_right)
      | (intro x; refine (fun (hx : Keeps s_ x.1) => ?_) ?_; clear_value x; rotate_left; unfold x; rotate_right)
      | (intro x; clear_value x)
      | apply State_writeAt_keeps
      | apply State_endSnoop_keeps
      | apply keeps_ite
      | split
      | (refine keeps_fst_eq (by assumption) ?_))

/-- `State.snoopLate` keeps them. -/
theorem State_snoopLate_keeps (s : State) (d : Nat) (x : Snoop) {s_ : State} (hks : Keeps s_ s) :
    Keeps s_ (State.snoopLate s d x) := by
  unfold State.snoopLate
  with_reducible
    repeat' (first
      | assumption
      | lift_lets
      | (intro x; refine (fun (hx : Keeps s_ x) => ?_) ?_; clear_value x; rotate_left; unfold x; rotate_right)
      | (intro x; refine (fun (hx : Keeps s_ x.1) => ?_) ?_; clear_value x; rotate_left; unfold x; rotate_right)
      | (intro x; clear_value x)
      | apply State_updLink_keeps
      | apply State_poisonLine_keeps
      | apply State_aglRaise_keeps
      | apply keeps_ite
      | (apply keeps_mk; assumption)
      | (intro _))

/-- `State.reqLate` keeps them. -/
theorem State_reqLate_keeps (s : State) (d tag : Nat) {s_ : State} (hks : Keeps s_ s) :
    Keeps s_ (State.reqLate s d tag) := by
  unfold State.reqLate
  with_reducible
    repeat' (first
      | assumption
      | apply State_aglRaise_keeps
      | apply State_endReq_keeps
      | (intro _)
      | split
      | (refine keeps_fst_eq (by assumption) ?_))

/-- `State.linkDown` keeps them. -/
theorem State_linkDown_keeps (s : State) (d : Nat) {s_ : State} (hks : Keeps s_ s) :
    Keeps s_ (State.linkDown s d) := by
  unfold State.linkDown
  with_reducible
    repeat' (first
      | assumption
      | lift_lets
      | (intro x; refine (fun (hx : Keeps s_ x) => ?_) ?_; clear_value x; rotate_left; unfold x; rotate_right)
      | (intro x; refine (fun (hx : Keeps s_ x.1) => ?_) ?_; clear_value x; rotate_left; unfold x; rotate_right)
      | (intro x; clear_value x)
      | apply forEach_keeps
      | apply State_putLink_keeps
      | apply State_poisonLine_keeps
      | apply State_setLk_keeps
      | apply State_aglCnt_keeps
      | apply State_hostEnd_keeps
      | (intro _))

/-- `State.linkLost` keeps them. -/
theorem State_linkLost_keeps (s : State) (d : Nat) {s_ : State} (hks : Keeps s_ s) :
    Keeps s_ (State.linkLost s d) := by
  unfold State.linkLost
  with_reducible
    repeat' (first
      | assumption
      | apply State_aglRaise_keeps
      | apply State_linkDown_keeps)

/-- `State.linkRetrain` keeps them. -/
theorem State_linkRetrain_keeps (s : State) (d : Nat) {s_ : State} (hks : Keeps s_ s) :
    Keeps s_ (State.linkRetrain s d) := by
  unfold State.linkRetrain
  with_reducible
    repeat' (first
      | assumption
      | apply State_updLink_keeps
      | apply State_setLk_keeps
      | apply State_aglCnt_keeps
      | apply State_aglRaise_keeps
      | apply keeps_ite
      | (apply keeps_mk; assumption)
      | (intro _))

/-- `State.linkProtocol` keeps them. -/
theorem State_linkProtocol_keeps (s : State) (d : Nat) (m : LMsg) {s_ : State} (hks : Keeps s_ s) :
    Keeps s_ (State.linkProtocol s d m) := by
  unfold State.linkProtocol
  with_reducible
    repeat' (first
      | assumption
      | apply State_aglRaise_keeps
      | apply State_linkRetrain_keeps)

/-- `State.replay` keeps them. -/
theorem State_replay_keeps (s : State) (d : Nat) {s_ : State} (hks : Keeps s_ s) :
    Keeps s_ (State.replay s d) := by
  unfold State.replay
  with_reducible
    repeat' (first
      | assumption
      | lift_lets
      | (intro x; refine (fun (hx : Keeps s_ x) => ?_) ?_; clear_value x; rotate_left; unfold x; rotate_right)
      | (intro x; clear_value x)
      | apply forEach_keeps
      | apply State_putLink_keeps
      | apply State_aglCnt_keeps
      | apply State_emitFlit_keeps
      | apply State_aglRaise_keeps
      | apply State_linkRetrain_keeps
      | apply keeps_ite
      | (apply keeps_mk; assumption)
      | (intro _))

/-- `State.linkAck` keeps them. -/
theorem State_linkAck_keeps (s : State) (d fack : Nat) {s_ : State} (hks : Keeps s_ s) :
    Keeps s_ (State.linkAck s d fack) := by
  unfold State.linkAck
  with_reducible
    repeat' (first
      | assumption
      | lift_lets
      | (intro x; refine (fun (hx : Keeps s_ x) => ?_) ?_; clear_value x; rotate_left; unfold x; rotate_right)
      | (intro x; clear_value x)
      | apply State_updLink_keeps
      | apply State_pumpLink_keeps
      | (apply keeps_mk; assumption)
      | (intro _)
      | split
      | (refine keeps_fst_eq (by assumption) ?_))

/-- `State.linkNak` keeps them. -/
theorem State_linkNak_keeps (s : State) (d fack : Nat) {s_ : State} (hks : Keeps s_ s) :
    Keeps s_ (State.linkNak s d fack) := by
  unfold State.linkNak
  with_reducible
    repeat' (first
      | assumption
      | apply State_replay_keeps
      | apply State_linkAck_keeps
      | apply keeps_ite)

/-- `State.linkAlign` keeps them. -/
theorem State_linkAlign_keeps (s : State) (d : Nat) (x8 half : Bool) {s_ : State} (hks : Keeps s_ s) :
    Keeps s_ (State.linkAlign s d x8 half) := by
  unfold State.linkAlign
  with_reducible
    repeat' (first
      | assumption
      | lift_lets
      | (intro x; refine (fun (hx : Keeps s_ x) => ?_) ?_; clear_value x; rotate_left; unfold x; rotate_right)
      | (intro x; clear_value x)
      | apply State_setFld_keeps
      | apply State_setLk_keeps
      | apply State_emitFlit_keeps
      | apply State_aglRaise_keeps
      | apply keeps_ite)

/-- `State.trainFails` keeps them. -/
theorem State_trainFails_keeps (s : State) (d : Nat) {s_ : State} (hks : Keeps s_ s) :
    Keeps s_ (State.trainFails s d) := by
  unfold State.trainFails
  with_reducible
    repeat' (first
      | assumption
      | lift_lets
      | (intro x; refine (fun (hx : Keeps s_ x) => ?_) ?_; clear_value x; rotate_left; unfold x; rotate_right)
      | (intro x; clear_value x)
      | apply State_putLink_keeps
      | apply State_setLk_keeps
      | apply State_linkLost_keeps
      | apply keeps_ite
      | (apply keeps_mk; assumption))

/-- `State.lanesTrained` keeps them. -/
theorem State_lanesTrained_keeps (s : State) (d lanes : Nat) {s_ : State} (hks : Keeps s_ s) :
    Keeps s_ (State.lanesTrained s d lanes) := by
  unfold State.lanesTrained
  with_reducible
    repeat' (first
      | assumption
      | lift_lets
      | (intro x; refine (fun (hx : Keeps s_ x) => ?_) ?_; clear_value x; rotate_left; unfold x; rotate_right)
      | (intro x; clear_value x)
      | apply State_linkAlign_keeps
      | apply State_trainFails_keeps
      | apply keeps_ite)

/-- `State.linkInit` keeps them. -/
theorem State_linkInit_keeps (s : State) (d proto side cr cs cp : Nat) {s_ : State} (hks : Keeps s_ s) :
    Keeps s_ (State.linkInit s d proto side cr cs cp) := by
  unfold State.linkInit
  with_reducible
    repeat' (first
      | assumption
      | lift_lets
      | (intro x; refine (fun (hx : Keeps s_ x) => ?_) ?_; clear_value x; rotate_left; unfold x; rotate_right)
      | (intro x; clear_value x)
      | apply State_putLink_keeps
      | apply State_setStat_keeps
      | apply State_setLk_keeps
      | apply State_pumpLink_keeps
      | apply State_aglRaise_keeps
      | apply State_replay_keeps
      | apply keeps_ite
      | (apply keeps_mk; assumption))

/-- `State.linkTrain` keeps them. -/
theorem State_linkTrain_keeps (s : State) (d : Nat) {s_ : State} (hks : Keeps s_ s) :
    Keeps s_ (State.linkTrain s d) := by
  unfold State.linkTrain
  with_reducible
    repeat' (first
      | assumption
      | apply State_setLk_keeps
      | apply keeps_ite)

/-- `State.aglRetrain` keeps them. -/
theorem State_aglRetrain_keeps (s : State) (d : Nat) {s_ : State} (hks : Keeps s_ s) :
    Keeps s_ (State.aglRetrain s d) := by
  unfold State.aglRetrain
  with_reducible
    repeat' (first
      | assumption
      | apply State_linkRetrain_keeps
      | apply keeps_ite)

/-- `State.aglDown` keeps them. -/
theorem State_aglDown_keeps (s : State) (d : Nat) {s_ : State} (hks : Keeps s_ s) :
    Keeps s_ (State.aglDown s d) := by
  unfold State.aglDown
  with_reducible
    repeat' (first
      | assumption
      | apply State_linkDown_keeps
      | apply keeps_ite)

/-- `State.redLineTrap` keeps them. -/
theorem State_redLineTrap_keeps (s : State) (j : RedJob) (level : Nat) (x : Nat × Bool) {s_ : State} (hks : Keeps s_ s) :
    Keeps s_ (State.redLineTrap s j level x) := by
  unfold State.redLineTrap
  with_reducible
    repeat' (first
      | assumption
      | apply State_redTrap_keeps
      | apply State_redFail_keeps
      | apply keeps_ite)

/-- `State.redFormat` keeps them. -/
theorem State_redFormat_keeps (s : State) (j : RedJob) (cause block w2 w3 : Nat) {s_ : State} (hks : Keeps s_ s) :
    Keeps s_ (State.redFormat s j cause block w2 w3) := by
  unfold State.redFormat
  with_reducible
    repeat' (first
      | assumption
      | lift_lets
      | (intro x; refine (fun (hx : Keeps s_ x) => ?_) ?_; clear_value x; rotate_left; unfold x; rotate_right)
      | (intro x; clear_value x)
      | apply State_cause_keeps
      | apply State_raise_keeps
      | apply State_trap_keeps)

/-- `State.redIssue` keeps them. -/
theorem State_redIssue_keeps (s : State) (d c : Nat) (q : Bool) (idx : Nat) (ws : List Word) {s_ : State} (hks : Keeps s_ s) :
    Keeps s_ (State.redIssue s d c q idx ws) := by
  unfold State.redIssue
  with_reducible
    repeat' (first
      | assumption
      | apply State_updChan_keeps
      | apply State_advance_keeps
      | apply State_fly_keeps
      | (apply keeps_mk; assumption)
      | (intro _))

/-- `execRed` keeps them. -/
theorem execRed_keeps (d c : Nat) (q : Bool) (s : State) {s_ : State} (hks : Keeps s_ s) :
    KeepsO s_ (execRed d c q s) := by
  unfold execRed
  with_reducible
    repeat' (first
      | assumption
      | apply State_stepRow_keeps
      | apply State_redIssue_keeps
      | apply keepsO_next
      | (intro _))

/-- `State.startFormat` keeps them. -/
theorem State_startFormat_keeps (s : State) (j : RedJob) (o : Option (Nat × Bool)) {s_ : State} (hks : Keeps s_ s) :
    Keeps s_ (State.startFormat s j o) := by
  unfold State.startFormat
  with_reducible
    repeat' (first
      | assumption
      | apply State_redLineTrap_keeps
      | apply State_redFormat_keeps
      | apply keeps_ite
      | split
      | (refine keeps_fst_eq (by assumption) ?_))

/-- `State.startOr` keeps them. -/
theorem State_startOr_keeps (s : State) (j : RedJob) (l : List (Nat × Nat × Nat)) {s_ : State} (hks : Keeps s_ s) :
    Keeps s_ (State.startOr s j l) := by
  unfold State.startOr
  with_reducible
    repeat' (first
      | assumption
      | apply State_cause_keeps
      | apply State_moreTraps_keeps
      | apply State_redTrap_keeps
      | apply State_startFormat_keeps
      | split
      | (refine keeps_fst_eq (by assumption) ?_))

/-- `State.startChecks` keeps them. -/
theorem State_startChecks_keeps (s : State) (j : RedJob) (l : List (Nat × Nat × Nat)) (o : Option Nat) {s_ : State} (hks : Keeps s_ s) :
    Keeps s_ (State.startChecks s j l o) := by
  unfold State.startChecks
  with_reducible
    repeat' (first
      | assumption
      | apply State_redFail_keeps
      | apply State_startOr_keeps
      | split
      | (refine keeps_fst_eq (by assumption) ?_))

/-- `State.startBucket` keeps them. -/
theorem State_startBucket_keeps (s : State) (d c h : Nat) (b : Bucket) {s_ : State} (hks : Keeps s_ s) :
    Keeps s_ (State.startBucket s d c h b) := by
  unfold State.startBucket
  with_reducible
    repeat' (first
      | assumption
      | lift_lets
      | (intro x; refine (fun (hx : Keeps s_ x) => ?_) ?_; clear_value x; rotate_left; unfold x; rotate_right)
      | (intro x; clear_value x)
      | apply State_putChan_keeps
      | apply State_setRg_keeps
      | apply State_startChecks_keeps
      | apply foldl_keeps
      | apply foldl_keeps1
      | apply keeps_ite
      | (apply keeps_mk; assumption)
      | (intro _))

/-- `State.bucketStart` keeps them. -/
theorem State_bucketStart_keeps (s : State) (d c h : Nat) {s_ : State} (hks : Keeps s_ s) :
    Keeps s_ (State.bucketStart s d c h) := by
  unfold State.bucketStart
  with_reducible
    repeat' (first
      | assumption
      | lift_lets
      | (intro x; refine (fun (hx : Keeps s_ x) => ?_) ?_; clear_value x; rotate_left; unfold x; rotate_right)
      | (intro x; clear_value x)
      | apply State_snoopAll_keeps
      | apply State_startBucket_keeps
      | apply keeps_ite
      | (intro _)
      | split
      | (refine keeps_fst_eq (by assumption) ?_))

/-- `execBucketStart` keeps them. -/
theorem execBucketStart_keeps (d c h : Nat) (s : State) {s_ : State} (hks : Keeps s_ s) :
    KeepsO s_ (execBucketStart d c h s) := by
  unfold execBucketStart
  with_reducible
    repeat' (first
      | assumption
      | apply State_bucketStart_keeps
      | apply keepsO_next)

/-- `State.loadUnit` keeps them. -/
theorem State_loadUnit_keeps (j : RedJob) (w : Nat) (s : State) (i : Nat) {s_ : State} (hks : Keeps s_ s) :
    Keeps s_ (State.loadUnit j w s i) := by
  unfold State.loadUnit
  with_reducible
    repeat' (first
      | assumption
      | lift_lets
      | (intro x; refine (fun (hx : Keeps s_ x) => ?_) ?_; clear_value x; rotate_left; unfold x; rotate_right)
      | (intro x; clear_value x)
      | apply forEach_keeps
      | apply State_updChan_keeps
      | apply State_writeAt_keeps
      | apply keeps_ite
      | (intro _))

/-- `State.loadChunk` keeps them. -/
theorem State_loadChunk_keeps (s : State) (j : RedJob) (k : Nat) {s_ : State} (hks : Keeps s_ s) :
    Keeps s_ (State.loadChunk s j k) := by
  unfold State.loadChunk
  with_reducible
    repeat' (first
      | assumption
      | lift_lets
      | (intro x; refine (fun (hx : Keeps s_ x) => ?_) ?_; clear_value x; rotate_left; unfold x; rotate_right)
      | (intro x; clear_value x)
      | apply State_updChan_keeps
      | apply State_writeAt_keeps
      | apply State_loadUnit_keeps
      | apply foldl_keeps
      | apply foldl_keeps1
      | apply keeps_ite
      | (apply keeps_mk; assumption)
      | (intro _))

/-- `State.redSend` keeps them. -/
theorem State_redSend_keeps (s : State) (j : RedJob) (level : Nat) (r : FRec) {s_ : State} (hks : Keeps s_ s) :
    Keeps s_ (State.redSend s j level r) := by
  unfold State.redSend
  with_reducible
    repeat' (first
      | assumption
      | apply State_updChan_keeps
      | apply State_issue_keeps
      | (apply keeps_mk; assumption)
      | (intro _))

/-- `State.redWrite` keeps them. -/
theorem State_redWrite_keeps (s : State) (j : RedJob) (level mod a n : Nat) {s_ : State} (hks : Keeps s_ s) :
    Keeps s_ (State.redWrite s j level mod a n) := by
  unfold State.redWrite
  with_reducible
    repeat' (first
      | assumption
      | apply State_redSend_keeps)

/-- `State.redSwap` keeps them. -/
theorem State_redSwap_keeps (s : State) (j : RedJob) (level mod word count : Nat) (flag : Bool) {s_ : State} (hks : Keeps s_ s) :
    Keeps s_ (State.redSwap s j level mod word count flag) := by
  unfold State.redSwap
  with_reducible
    repeat' (first
      | assumption
      | lift_lets
      | (intro x; refine (fun (hx : Keeps s_ x) => ?_) ?_; clear_value x; rotate_left; unfold x; rotate_right)
      | (intro x; clear_value x)
      | apply State_redSend_keeps)

/-- `State.sendUp` keeps them. -/
theorem State_sendUp_keeps (j : RedJob) (s : State) (k : Nat) {s_ : State} (hks : Keeps s_ s) :
    Keeps s_ (State.sendUp j s k) := by
  unfold State.sendUp
  with_reducible
    repeat' (first
      | assumption
      | lift_lets
      | (intro x; refine (fun (hx : Keeps s_ x) => ?_) ?_; clear_value x; rotate_left; unfold x; rotate_right)
      | (intro x; clear_value x)
      | apply State_updChan_keeps
      | apply State_redLineTrap_keeps
      | apply State_redSend_keeps
      | apply State_redWrite_keeps
      | apply State_redSwap_keeps
      | apply foldl_keeps
      | apply foldl_keeps1
      | apply keeps_ite
      | (apply keeps_mk; assumption)
      | (intro _)
      | split
      | (refine keeps_fst_eq (by assumption) ?_))

/-- `State.sendGo` keeps them. -/
theorem State_sendGo_keeps (j : RedJob) (s : State) (k : Nat) {s_ : State} (hks : Keeps s_ s) :
    Keeps s_ (State.sendGo j s k) := by
  unfold State.sendGo
  with_reducible
    repeat' (first
      | assumption
      | lift_lets
      | (intro x; refine (fun (hx : Keeps s_ x) => ?_) ?_; clear_value x; rotate_left; unfold x; rotate_right)
      | (intro x; clear_value x)
      | apply State_updChan_keeps
      | apply State_redSwap_keeps
      | apply keeps_ite
      | (apply keeps_mk; assumption)
      | (intro _))

/-- `State.rootChunk` keeps them. -/
theorem State_rootChunk_keeps (j : RedJob) (alu : Bool) (s : State) (k : Nat) {s_ : State} (hks : Keeps s_ s) :
    Keeps s_ (State.rootChunk j alu s k) := by
  unfold State.rootChunk
  with_reducible
    repeat' (first
      | assumption
      | (intro x; refine (fun (hx : Keeps s_ x) => ?_) ?_; clear_value x; rotate_left; unfold x; rotate_right)
      | (intro x; refine (fun (hx : Keeps s_ x.1) => ?_) ?_; clear_value x; rotate_left; unfold x; rotate_right)
      | (intro x; clear_value x)
      | split
      | apply State_updChan_keeps
      | apply State_writeAt_keeps
      | apply State_raise_keeps
      | apply State_redLineTrap_keeps
      | apply foldl_keeps
      | apply foldl_keeps1
      | apply keeps_ite
      | (intro _)
      | lift_lets
      | (refine keeps_fst_eq (by assumption) ?_))

/-- `State.sendDown` keeps them. -/
theorem State_sendDown_keeps (j : RedJob) (s : State) (k : Nat) {s_ : State} (hks : Keeps s_ s) :
    Keeps s_ (State.sendDown j s k) := by
  unfold State.sendDown
  with_reducible
    repeat' (first
      | assumption
      | (intro x; refine (fun (hx : Keeps s_ x) => ?_) ?_; clear_value x; rotate_left; unfold x; rotate_right)
      | (intro x; clear_value x)
      | apply State_updChan_keeps
      | apply State_redLineTrap_keeps
      | apply State_redWrite_keeps
      | apply State_redSwap_keeps
      | apply foldl_keeps
      | apply foldl_keeps1
      | apply keeps_ite
      | (intro _)
      | split
      | lift_lets
      | (refine keeps_fst_eq (by assumption) ?_))

/-- `State.redPhase` keeps them. -/
theorem State_redPhase_keeps (s : State) (d c h : Nat) {s_ : State} (hks : Keeps s_ s) :
    Keeps s_ (State.redPhase s d c h) := by
  unfold State.redPhase
  with_reducible
    repeat' (first
      | assumption
      | apply State_updChan_keeps
      | apply keeps_ite
      | (intro _)
      | split
      | (refine keeps_fst_eq (by assumption) ?_))

/-- `State.redWork` keeps them. -/
theorem State_redWork_keeps (s : State) (j : RedJob) (alu : Bool) {s_ : State} (hks : Keeps s_ s) :
    Keeps s_ (State.redWork s j alu) := by
  unfold State.redWork
  with_reducible
    repeat' (first
      | assumption
      | lift_lets
      | (intro x; refine (fun (hx : Keeps s_ x) => ?_) ?_; clear_value x; rotate_left; unfold x; rotate_right)
      | (intro x; clear_value x)
      | apply State_updChan_keeps
      | apply State_sendUp_keeps
      | apply State_sendGo_keeps
      | apply State_rootChunk_keeps
      | apply State_sendDown_keeps
      | apply State_redPhase_keeps
      | apply foldl_keeps
      | apply foldl_keeps1
      | apply keeps_ite
      | (apply keeps_mk; assumption)
      | (intro _))

/-- `State.redCounts` keeps them. -/
theorem State_redCounts_keeps (s : State) (j : RedJob) (alu : Bool) (o : Option Nat) {s_ : State} (hks : Keeps s_ s) :
    Keeps s_ (State.redCounts s j alu o) := by
  unfold State.redCounts
  with_reducible
    repeat' (first
      | assumption
      | apply State_redTrap_keeps
      | apply State_redWork_keeps
      | split
      | (refine keeps_fst_eq (by assumption) ?_))

/-- `State.redHeader` keeps them. -/
theorem State_redHeader_keeps (s : State) (j : RedJob) (alu : Bool) (o : Option (Nat × Bool)) {s_ : State} (hks : Keeps s_ s) :
    Keeps s_ (State.redHeader s j alu o) := by
  unfold State.redHeader
  with_reducible
    repeat' (first
      | assumption
      | apply State_redLineTrap_keeps
      | apply State_redCounts_keeps
      | split
      | (refine keeps_fst_eq (by assumption) ?_))

/-- `State.redStep` keeps them. -/
theorem State_redStep_keeps (s : State) (j : RedJob) (alu : Bool) {s_ : State} (hks : Keeps s_ s) :
    Keeps s_ (State.redStep s j alu) := by
  unfold State.redStep
  with_reducible
    repeat' (first
      | assumption
      | apply State_redHeader_keeps)

/-- `State.headerUpdate` keeps them. -/
theorem State_headerUpdate_keeps (s : State) (d c h : Nat) (alu : Bool) {s_ : State} (hks : Keeps s_ s) :
    Keeps s_ (State.headerUpdate s d c h alu) := by
  unfold State.headerUpdate
  with_reducible
    repeat' (first
      | assumption
      | apply State_snoopAll_keeps
      | apply State_redStep_keeps
      | apply keeps_ite
      | split
      | (refine keeps_fst_eq (by assumption) ?_))

/-- `execChannelHeaderUpdate` keeps them. -/
theorem execChannelHeaderUpdate_keeps (d c h : Nat) (_env : Env) (alu : Bool) (s : State) {s_ : State} (hks : Keeps s_ s) :
    KeepsO s_ (execChannelHeaderUpdate d c h _env alu s) := by
  unfold execChannelHeaderUpdate
  with_reducible
    repeat' (first
      | assumption
      | apply State_headerUpdate_keeps
      | apply keepsO_next)

/-- `State.chunkLoaded` keeps them. -/
theorem State_chunkLoaded_keeps (s : State) (d c h : Nat) {s_ : State} (hks : Keeps s_ s) :
    Keeps s_ (State.chunkLoaded s d c h) := by
  unfold State.chunkLoaded
  with_reducible
    repeat' (first
      | assumption
      | lift_lets
      | (intro x; refine (fun (hx : Keeps s_ x) => ?_) ?_; clear_value x; rotate_left; unfold x; rotate_right)
      | (intro x; clear_value x)
      | apply State_cause_keeps
      | apply State_snoopAll_keeps
      | apply State_redLineTrap_keeps
      | apply State_redFormat_keeps
      | apply State_loadChunk_keeps
      | apply State_redPhase_keeps
      | apply State_headerUpdate_keeps
      | apply keeps_ite
      | (intro _)
      | split
      | (refine keeps_fst_eq (by assumption) ?_))

/-- `execChunkLoaded` keeps them. -/
theorem execChunkLoaded_keeps (d c h : Nat) (_env : Env) (s : State) {s_ : State} (hks : Keeps s_ s) :
    KeepsO s_ (execChunkLoaded d c h _env s) := by
  unfold execChunkLoaded
  with_reducible
    repeat' (first
      | assumption
      | apply State_chunkLoaded_keeps
      | apply keepsO_next)

/-- `State.bucketComplete` keeps them. -/
theorem State_bucketComplete_keeps (s : State) (d c h : Nat) {s_ : State} (hks : Keeps s_ s) :
    Keeps s_ (State.bucketComplete s d c h) := by
  unfold State.bucketComplete
  with_reducible
    repeat' (first
      | assumption
      | lift_lets
      | (intro x; refine (fun (hx : Keeps s_ x) => ?_) ?_; clear_value x; rotate_left; unfold x; rotate_right)
      | (intro x; clear_value x)
      | apply State_updChan_keeps
      | apply State_sendSnoop_keeps
      | apply State_writeDigest_keeps
      | apply State_endUnit_keeps
      | apply State_settleClear_keeps
      | apply keeps_ite
      | (apply keeps_mk; assumption)
      | (intro _)
      | split
      | (refine keeps_fst_eq (by assumption) ?_))

/-- `execBucketComplete` keeps them. -/
theorem execBucketComplete_keeps (d c h : Nat) (s : State) {s_ : State} (hks : Keeps s_ s) :
    KeepsO s_ (execBucketComplete d c h s) := by
  unfold execBucketComplete
  with_reducible
    repeat' (first
      | assumption
      | apply State_bucketComplete_keeps
      | apply keepsO_next)

/-- `State.redTimeout` keeps them. -/
theorem State_redTimeout_keeps (s : State) (d c h i : Nat) {s_ : State} (hks : Keeps s_ s) :
    Keeps s_ (State.redTimeout s d c h i) := by
  unfold State.redTimeout
  with_reducible
    repeat' (first
      | assumption
      | apply State_redTrap_keeps
      | apply keeps_ite
      | split
      | (refine keeps_fst_eq (by assumption) ?_))

/-- `execRedTimeout` keeps them. -/
theorem execRedTimeout_keeps (d c h w : Nat) (s : State) {s_ : State} (hks : Keeps s_ s) :
    KeepsO s_ (execRedTimeout d c h w s) := by
  unfold execRedTimeout
  with_reducible
    repeat' (first
      | assumption
      | apply State_redTimeout_keeps
      | apply keepsO_next)

/-- `State.redAnswered` keeps them. -/
theorem State_redAnswered_keeps (s : State) (d c h fid : Nat) {s_ : State} (hks : Keeps s_ s) :
    Keeps s_ (State.redAnswered s d c h fid) := by
  unfold State.redAnswered
  with_reducible
    repeat' (first
      | assumption
      | apply State_updChan_keeps
      | apply keeps_ite
      | (apply keeps_mk; assumption)
      | (intro _)
      | split
      | (refine keeps_fst_eq (by assumption) ?_))

/-- `State.takeRec` keeps them. -/
theorem State_takeRec_keeps (s : State) (d : Nat) (r : FRec) {s_ : State} (hks : Keeps s_ s) :
    Keeps s_ (State.takeRec s d r) := by
  unfold State.takeRec
  with_reducible
    repeat' (first
      | assumption
      | apply State_updRouter_keeps
      | apply State_freeTransit_keeps
      | (apply keeps_mk; assumption)
      | (intro _)
      | split
      | (refine keeps_fst_eq (by assumption) ?_))

/-- `State.serve` keeps them. -/
theorem State_serve_keeps (s : State) (d hd : Nat) (r : FRec) (f : Nat → State → State × Nat × List Byte) {s_ : State} (hks : Keeps s_ s) (hff : ∀
    z0 z1 p, f z0 z1 = p → Keeps s_ z1 → Keeps s_ p.1) :
    Keeps s_ (State.serve s d hd r f) := by
  have hf : ∀ z0 z1, Keeps s_ z1 → Keeps s_ (f z0 z1).1 := fun z0 z1 h => hff z0 z1 (f z0 z1) rfl h
  clear hff
  unfold State.serve
  with_reducible
    repeat' (first | assumption | lift_lets | (intro x; refine (fun (hx : Keeps s_ x) => ?_) ?_; clear_value x; rotate_left; unfold x; rotate_right) | (intro x; refine (fun (hx : Keeps s_ x.1) => ?_) ?_; clear_value x; rotate_left; unfold x; rotate_right) | (intro x; clear_value x) | apply hf | apply State_takeResp_keeps | apply State_addRg_keeps | apply State_takeRec_keeps | apply State_finish_keeps | apply State_snoopAll_keeps | apply keeps_ite | split)

/-- `State.readFab` keeps them. -/
theorem State_readFab_keeps (s : State) (r : FRec) {s_ : State} (hks : Keeps s_ s) :
    Keeps s_ (State.readFab s r).1 := by
  unfold State.readFab
  with_reducible
    repeat' (first
      | assumption
      | (intro x; refine (fun (hx : Keeps s_ x) => ?_) ?_; clear_value x; rotate_left; unfold x; rotate_right)
      | (intro x; clear_value x)
      | apply State_touchRead_keeps
      | apply keeps_ite1
      | apply keeps_ite
      | lift_lets)

/-- `execRead` keeps them. -/
theorem execRead_keeps (d : Nat) (r : FRec) (s : State) {s_ : State} (hks : Keeps s_ s) :
    KeepsO s_ (execRead d r s) := by
  unfold execRead
  exact keepsO_next (keeps_ite (State_serve_keeps s _ _ _ _ hks
    (fun _ t _ e ht => keeps_fst_of (q := t.readFab r) e (State_readFab_keeps t r ht))) hks)

/-- `State.doWrite` keeps them. -/
theorem State_doWrite_keeps (s : State) (r : FRec) (cls : Nat) {s_ : State} (hks : Keeps s_ s) :
    Keeps s_ (State.doWrite s r cls).1 := by
  exact keeps_pair (State_writeFab_keeps s cls r hks)

/-- `execWrite` keeps them. -/
theorem execWrite_keeps (d : Nat) (r : FRec) (s : State) {s_ : State} (hks : Keeps s_ s) :
    KeepsO s_ (execWrite d r s) := by
  unfold execWrite
  exact keepsO_next (keeps_ite (State_serve_keeps s _ _ _ _ hks
    (fun c t _ e ht => keeps_fst_of (q := t.doWrite r c) e (State_doWrite_keeps t r c ht))) hks)

/-- `State.doRedstore` keeps them. -/
theorem State_doRedstore_keeps (s : State) (r : FRec) (alu : Bool) {s_ : State} (hks : Keeps s_ s) :
    Keeps s_ (State.doRedstore s r alu).1 := by
  exact keeps_pair (State_redstoreAt_keeps s r alu hks)

/-- `execRedstore` keeps them. -/
theorem execRedstore_keeps (d : Nat) (r : FRec) (alu : Bool) (s : State) {s_ : State} (hks : Keeps s_ s) :
    KeepsO s_ (execRedstore d r alu s) := by
  unfold execRedstore
  exact keepsO_next (keeps_ite (State_serve_keeps s _ _ _ _ hks
    (fun _ t _ e ht => keeps_fst_of (q := t.doRedstore r alu) e (State_doRedstore_keeps t r alu ht))) hks)

/-- `State.doAtomic` keeps them. -/
theorem State_doAtomic_keeps (s : State) (r : FRec) {s_ : State} (hks : Keeps s_ s) :
    Keeps s_ (State.doAtomic s r).1 := by
  unfold State.doAtomic
  extract_lets a
  refine keeps_ite1 ?_ (keeps_pair hks)
  extract_lets x
  exact keeps_pair (State_atomicAt_keeps s a _ _ _ _ r hks)

/-- `State.atomicRow` keeps them. -/
theorem State_atomicRow_keeps (s : State) (d : Nat) (r : FRec) (alu : Bool) {s_ : State} (hks : Keeps s_ s) :
    Keeps s_ (State.atomicRow s d r alu) := by
  unfold State.atomicRow
  exact keeps_ite hks (keeps_ite (State_ctrlUe_keeps _ _ (State_takeRec_keeps _ _ _ hks)) (State_serve_keeps s _ _ _ _ hks
    (fun _ t _ e ht => keeps_fst_of (q := t.doAtomic r) e (State_doAtomic_keeps t r ht))))

/-- `execAtomic` keeps them. -/
theorem execAtomic_keeps (d : Nat) (r : FRec) (_env : Env) (alu : Bool) (s : State) {s_ : State} (hks : Keeps s_ s) :
    KeepsO s_ (execAtomic d r _env alu s) := by
  unfold execAtomic
  with_reducible
    repeat' (first
      | assumption
      | apply State_atomicRow_keeps
      | apply keepsO_next)

/-- `State.doSignal` keeps them. -/
theorem State_doSignal_keeps (s : State) (r : FRec) {s_ : State} (hks : Keeps s_ s) :
    Keeps s_ (State.doSignal s r).1 := by
  exact keeps_pair (State_signalAt_keeps s r hks)

/-- `State.signalRow` keeps them. -/
theorem State_signalRow_keeps (s : State) (d : Nat) (r : FRec) (alu : Bool) {s_ : State} (hks : Keeps s_ s) :
    Keeps s_ (State.signalRow s d r alu) := by
  unfold State.signalRow
  extract_lets td
  exact keeps_ite hks (keeps_ite (State_ctrlUe_keeps _ _ (State_takeRec_keeps _ _ _ hks))
    (State_serve_keeps s _ _ _ _ hks (fun _ t _ e ht => keeps_fst_of (q := t.doSignal r) e (State_doSignal_keeps t r ht))))

/-- `execSignal` keeps them. -/
theorem execSignal_keeps (d : Nat) (r : FRec) (alu : Bool) (s : State) {s_ : State} (hks : Keeps s_ s) :
    KeepsO s_ (execSignal d r alu s) := by
  unfold execSignal
  with_reducible
    repeat' (first
      | assumption
      | apply State_signalRow_keeps
      | apply keepsO_next)

/-- `State.proxyDone` keeps them. -/
theorem State_proxyDone_keeps (s : State) (pd tag opc word : Nat) (r : FRec) (bs : List Byte) {s_ : State} (hks : Keeps s_ s) :
    Keeps s_ (State.proxyDone s pd tag opc word r bs) := by
  unfold State.proxyDone
  with_reducible
    repeat' (first
      | assumption
      | lift_lets
      | (intro x; refine (fun (hx : Keeps s_ x) => ?_) ?_; clear_value x; rotate_left; unfold x; rotate_right)
      | (intro x; clear_value x)
      | apply State_respond_keeps
      | apply keeps_ite)

/-- `State.okOwner` keeps them. -/
theorem State_okOwner_keeps (s : State) (d : Nat) (t : TagEnt) (bs : List Byte) (sb : Word) {s_ : State} (hks : Keeps s_ s) :
    Keeps s_ (State.okOwner s d t bs sb) := by
  unfold State.okOwner
  with_reducible
    repeat' (first
      | assumption
      | apply State_engArrive_keeps
      | apply State_engAnswered_keeps
      | apply State_redAnswered_keeps
      | apply State_proxyDone_keeps
      | split
      | (refine keeps_fst_eq (by assumption) ?_))

/-- `State.fabricResponse` keeps them. -/
theorem State_fabricResponse_keeps (s : State) (d tag st : Nat) (bs : List Byte) (sb : Word) {s_ : State} (hks : Keeps s_ s) :
    Keeps s_ (State.fabricResponse s d tag st bs sb) := by
  unfold State.fabricResponse
  with_reducible
    repeat' (first
      | assumption
      | lift_lets
      | (intro x; refine (fun (hx : Keeps s_ x) => ?_) ?_; clear_value x; rotate_left; unfold x; rotate_right)
      | (intro x; refine (fun (hx : Keeps s_ x.1) => ?_) ?_; clear_value x; rotate_left; unfold x; rotate_right)
      | (intro x; clear_value x)
      | apply State_raise_keeps
      | apply State_snoopAll_keeps
      | apply State_failOwner_keeps
      | apply State_returnTag_keeps
      | apply State_takeRec_keeps
      | apply State_okOwner_keeps
      | apply keeps_ite
      | (intro _)
      | split
      | (refine keeps_fst_eq (by assumption) ?_))

/-- `execFabricResponse` keeps them. -/
theorem execFabricResponse_keeps (d tag st : Nat) (bs : List Byte) (sb : Word) (s : State) {s_ : State} (hks : Keeps s_ s) :
    KeepsO s_ (execFabricResponse d tag st bs sb s) := by
  unfold execFabricResponse
  with_reducible
    repeat' (first
      | assumption
      | apply State_fabricResponse_keeps
      | apply keepsO_ite
      | apply keepsO_next
      | apply keeps_ite)

/-- `State.leaveBlend` keeps them. -/
theorem State_leaveBlend_keeps (s : State) (d cls : Nat) (r : FRec) {s_ : State} (hks : Keeps s_ s) :
    Keeps s_ (State.leaveBlend s d cls r) := by
  unfold State.leaveBlend
  with_reducible
    repeat' (first
      | assumption
      | apply State_updRouter_keeps
      | apply State_forwardOr_keeps
      | apply keeps_ite
      | (apply keeps_mk; assumption)
      | (intro _))

/-- `State.hotWindow` keeps them. -/
theorem State_hotWindow_keeps (s : State) (d i : Nat) (alu : Bool) {s_ : State} (hks : Keeps s_ s) :
    Keeps s_ (State.hotWindow s d i alu) := by
  unfold State.hotWindow
  with_reducible
    repeat' (first
      | assumption
      | lift_lets
      | (intro x; refine (fun (hx : Keeps s_ x) => ?_) ?_; clear_value x; rotate_left; unfold x; rotate_right)
      | (intro x; refine (fun (hx : Keeps s_ x.1) => ?_) ?_; clear_value x; rotate_left; unfold x; rotate_right)
      | (intro x; clear_value x)
      | apply State_putRouter_keeps
      | apply State_raise_keeps
      | apply State_keepMembers_keeps
      | apply State_ctrlUe_keeps
      | apply State_leaveBlend_keeps
      | apply keeps_ite
      | (apply keeps_mk; assumption)
      | split
      | (refine keeps_fst_eq (by assumption) ?_))

/-- `execHotLineWindow` keeps them. -/
theorem execHotLineWindow_keeps (d i : Nat) (alu : Bool) (s : State) {s_ : State} (hks : Keeps s_ s) :
    KeepsO s_ (execHotLineWindow d i alu s) := by
  unfold execHotLineWindow
  with_reducible
    repeat' (first
      | assumption
      | apply State_hotWindow_keeps
      | apply keepsO_ite
      | apply keepsO_next
      | apply keeps_ite)

/-- `State.hotFree` keeps them. -/
theorem State_hotFree_keeps (s : State) (d i : Nat) {s_ : State} (hks : Keeps s_ s) :
    Keeps s_ (State.hotFree s d i) := by
  unfold State.hotFree
  with_reducible
    repeat' (first
      | assumption
      | lift_lets
      | (intro x; refine (fun (hx : Keeps s_ x) => ?_) ?_; clear_value x; rotate_left; unfold x; rotate_right)
      | (intro x; clear_value x)
      | apply State_putRouter_keeps
      | apply keeps_ite
      | (apply keeps_mk; assumption)
      | split
      | (refine keeps_fst_eq (by assumption) ?_))

/-- `execHotLineFree` keeps them. -/
theorem execHotLineFree_keeps (d i : Nat) (s : State) {s_ : State} (hks : Keeps s_ s) :
    KeepsO s_ (execHotLineFree d i s) := by
  unfold execHotLineFree
  with_reducible
    repeat' (first
      | assumption
      | apply State_hotFree_keeps
      | apply keepsO_ite
      | apply keepsO_next
      | apply keeps_ite)

/-- `State.hopTimeout` keeps them. -/
theorem State_hopTimeout_keeps (s : State) (d p : Nat) {s_ : State} (hks : Keeps s_ s) :
    Keeps s_ (State.hopTimeout s d p) := by
  unfold State.hopTimeout
  with_reducible
    repeat' (first
      | assumption
      | lift_lets
      | (intro x; refine (fun (hx : Keeps s_ x) => ?_) ?_; clear_value x; rotate_left; unfold x; rotate_right)
      | (intro x; clear_value x)
      | apply State_retryFrom_keeps
      | apply keeps_ite
      | split)

/-- `execHopAckTimeout` keeps them. -/
theorem execHopAckTimeout_keeps (d p : Nat) (s : State) {s_ : State} (hks : Keeps s_ s) :
    KeepsO s_ (execHopAckTimeout d p s) := by
  unfold execHopAckTimeout
  with_reducible
    repeat' (first
      | assumption
      | apply State_hopTimeout_keeps
      | apply keepsO_next)

/-- `State.takeNak` keeps them. -/
theorem State_takeNak_keeps (s : State) (d p h : Nat) {s_ : State} (hks : Keeps s_ s) :
    Keeps s_ (State.takeNak s d p h) := by
  unfold State.takeNak
  with_reducible
    repeat' (first
      | assumption
      | apply State_ackTo_keeps
      | apply State_retryFrom_keeps
      | apply keeps_ite
      | (intro _))

/-- `execNak` keeps them. -/
theorem execNak_keeps (d p hseq : Nat) (s : State) {s_ : State} (hks : Keeps s_ s) :
    KeepsO s_ (execNak d p hseq s) := by
  unfold execNak
  with_reducible
    repeat' (first
      | assumption
      | apply State_takeNak_keeps
      | apply keepsO_next)

/-- `execE2eTimeout` keeps them. -/
theorem execE2eTimeout_keeps (d tag : Nat) (s : State) {s_ : State} (hks : Keeps s_ s) :
    KeepsO s_ (execE2eTimeout d tag s) := by
  unfold execE2eTimeout
  with_reducible
    repeat' (first
      | assumption
      | apply State_resend_keeps
      | apply keepsO_ite
      | apply keepsO_next
      | apply keeps_ite)

/-- `State.bulkEscape` keeps them. -/
theorem State_bulkEscape_keeps (s : State) (d p i : Nat) {s_ : State} (hks : Keeps s_ s) :
    Keeps s_ (State.bulkEscape s d p i) := by
  unfold State.bulkEscape
  with_reducible
    repeat' (first
      | assumption
      | apply State_updPort_keeps
      | apply State_forwardOr_keeps
      | apply keeps_ite
      | (apply keeps_mk; assumption)
      | (intro _)
      | split
      | (refine keeps_fst_eq (by assumption) ?_))

/-- `execBulkEscape` keeps them. -/
theorem execBulkEscape_keeps (d p i : Nat) (s : State) {s_ : State} (hks : Keeps s_ s) :
    KeepsO s_ (execBulkEscape d p i s) := by
  unfold execBulkEscape
  with_reducible
    repeat' (first
      | assumption
      | apply State_bulkEscape_keeps
      | apply keepsO_ite
      | apply keepsO_next
      | apply keeps_ite)

/-- `State.holdRelease` keeps them. -/
theorem State_holdRelease_keeps (s : State) (d : Nat) {s_ : State} (hks : Keeps s_ s) :
    Keeps s_ (State.holdRelease s d) := by
  unfold State.holdRelease
  with_reducible
    repeat' (first
      | assumption
      | lift_lets
      | (intro x; refine (fun (hx : Keeps s_ x) => ?_) ?_; clear_value x; rotate_left; unfold x; rotate_right)
      | (intro x; refine (fun (hx : Keeps s_ x.1) => ?_) ?_; clear_value x; rotate_left; unfold x; rotate_right)
      | (intro x; clear_value x)
      | apply forEach_keeps
      | apply State_updRouter_keeps
      | apply State_setFld_keeps
      | apply State_forwardOr_keeps
      | apply keeps_ite
      | (apply keeps_mk; assumption)
      | (intro _))

/-- `execCtrlHoldRelease` keeps them. -/
theorem execCtrlHoldRelease_keeps (d : Nat) (s : State) {s_ : State} (hks : Keeps s_ s) :
    KeepsO s_ (execCtrlHoldRelease d s) := by
  unfold execCtrlHoldRelease
  with_reducible
    repeat' (first
      | assumption
      | apply State_holdRelease_keeps
      | apply keepsO_ite
      | apply keepsO_next
      | apply keeps_ite)

/-- `State.arriveRec` keeps them. -/
theorem State_arriveRec_keeps (s : State) (d cls : Nat) (r : FRec) {s_ : State} (hks : Keeps s_ s) :
    Keeps s_ (State.arriveRec s d cls r) := by
  unfold State.arriveRec
  with_reducible
    repeat' (first
      | assumption
      | lift_lets
      | (intro x; refine (fun (hx : Keeps s_ x) => ?_) ?_; clear_value x; rotate_left; unfold x; rotate_right)
      | (intro x; clear_value x)
      | apply State_updRouter_keeps
      | apply State_blend_keeps
      | apply State_takeResp_keeps
      | apply State_forwardOr_keeps
      | apply State_freeTransit_keeps
      | apply keeps_ite
      | (apply keeps_mk; assumption)
      | (intro _)
      | split
      | (refine keeps_fst_eq (by assumption) ?_))

/-- `State.takeSpareReq` keeps them. -/
theorem State_takeSpareReq_keeps (s : State) (d p lane : Nat) {s_ : State} (hks : Keeps s_ s) :
    Keeps s_ (State.takeSpareReq s d p lane) := by
  unfold State.takeSpareReq
  with_reducible
    repeat' (first
      | assumption
      | apply State_updPort_keeps
      | apply State_setFld_keeps
      | apply keeps_ite
      | (apply keeps_mk; assumption)
      | (intro _))

/-- `State.takeSpareDone` keeps them. -/
theorem State_takeSpareDone_keeps (s : State) (d p : Nat) {s_ : State} (hks : Keeps s_ s) :
    Keeps s_ (State.takeSpareDone s d p) := by
  unfold State.takeSpareDone
  with_reducible
    repeat' (first
      | assumption
      | lift_lets
      | (intro x; refine (fun (hx : Keeps s_ x) => ?_) ?_; clear_value x; rotate_left; unfold x; rotate_right)
      | (intro x; clear_value x)
      | apply State_putPort_keeps
      | apply State_resendFrames_keeps
      | apply keeps_ite
      | (apply keeps_mk; assumption)
      | split)

/-- `State.takeHello` keeps them. -/
theorem State_takeHello_keeps (s : State) (d p peer port : Nat) {s_ : State} (hks : Keeps s_ s) :
    Keeps s_ (State.takeHello s d p peer port) := by
  unfold State.takeHello
  with_reducible
    repeat' (first
      | assumption
      | lift_lets
      | (intro x; refine (fun (hx : Keeps s_ x) => ?_) ?_; clear_value x; rotate_left; unfold x; rotate_right)
      | (intro x; clear_value x)
      | apply State_putPort_keeps
      | apply State_raise_keeps
      | apply State_portUpNow_keeps
      | apply keeps_ite
      | (apply keeps_mk; assumption))

/-- `State.linkCtl` keeps them. -/
theorem State_linkCtl_keeps (s : State) (d p : Nat) (r : FRec) {s_ : State} (hks : Keeps s_ s) :
    Keeps s_ (State.linkCtl s d p r) := by
  unfold State.linkCtl
  with_reducible
    repeat' (first
      | assumption
      | apply State_takeNak_keeps
      | apply State_takeSpareReq_keeps
      | apply State_takeSpareDone_keeps
      | apply State_takeHello_keeps
      | apply keeps_ite)

/-- `State.rxCount` keeps them. -/
theorem State_rxCount_keeps (s : State) (d p n : Nat) {s_ : State} (hks : Keeps s_ s) :
    Keeps s_ (State.rxCount s d p n) := by
  unfold State.rxCount
  with_reducible
    repeat' (first
      | assumption
      | apply State_macCnt_keeps)

/-- `State.rxDrop` keeps them. -/
theorem State_rxDrop_keeps (s : State) (d p k : Nat) {s_ : State} (hks : Keeps s_ s) :
    Keeps s_ (State.rxDrop s d p k) := by
  unfold State.rxDrop
  with_reducible
    repeat' (first
      | assumption
      | lift_lets
      | (intro x; refine (fun (hx : Keeps s_ x) => ?_) ?_; clear_value x; rotate_left; unfold x; rotate_right)
      | (intro x; clear_value x)
      | apply State_setStat_keeps
      | apply State_macCnt_keeps
      | apply State_askAgain_keeps
      | apply keeps_ite)

/-- `State.fabricFrame` keeps them. -/
theorem State_fabricFrame_keeps (s : State) (d p cls : Nat) (bs : List Byte) {s_ : State} (hks : Keeps s_ s) :
    Keeps s_ (State.fabricFrame s d p cls bs) := by
  unfold State.fabricFrame
  with_reducible
    repeat' (first
      | assumption
      | lift_lets
      | (intro x; refine (fun (hx : Keeps s_ x) => ?_) ?_; clear_value x; rotate_left; unfold x; rotate_right)
      | (intro x; clear_value x)
      | apply forEach_keeps
      | apply State_updPort_keeps
      | apply State_ackTo_keeps
      | apply State_askAgain_keeps
      | apply State_holdLines_keeps
      | apply State_arriveRec_keeps
      | apply State_linkCtl_keeps
      | apply State_rxCount_keeps
      | apply State_rxDrop_keeps
      | apply keeps_ite
      | (apply keeps_mk; assumption)
      | (intro _)
      | split
      | (refine keeps_fst_eq (by assumption) ?_))

/-- `State.frameReceive` keeps them. -/
theorem State_frameReceive_keeps (s : State) (d p : Nat) (bs : List Byte) (fcs : Bool) {s_ : State} (hks : Keeps s_ s) :
    Keeps s_ (State.frameReceive s d p bs fcs) := by
  unfold State.frameReceive
  with_reducible
    repeat' (first
      | assumption
      | lift_lets
      | (intro x; refine (fun (hx : Keeps s_ x) => ?_) ?_; clear_value x; rotate_left; unfold x; rotate_right)
      | (intro x; refine (fun (hx : Keeps s_ x.1) => ?_) ?_; clear_value x; rotate_left; unfold x; rotate_right)
      | (intro x; clear_value x)
      | apply State_macCnt_keeps
      | apply State_takePfc_keeps
      | apply State_hostReceive_keeps
      | apply State_rxCount_keeps
      | apply State_rxDrop_keeps
      | apply State_fabricFrame_keeps
      | apply keeps_ite
      | (intro _)
      | split
      | (refine keeps_fst_eq (by assumption) ?_))

/-- `execFrameReceive` keeps them. -/
theorem execFrameReceive_keeps (d p : Nat) (bs : List Byte) (fcs : Bool) (s : State) {s_ : State} (hks : Keeps s_ s) :
    KeepsO s_ (execFrameReceive d p bs fcs s) := by
  unfold execFrameReceive
  with_reducible
    repeat' (first
      | assumption
      | apply State_frameReceive_keeps
      | apply keepsO_next)

/-- `State.exitPay` keeps them. -/
theorem State_exitPay_keeps (s : State) (d p n i : Nat) (r : FRec) {s_ : State} (hks : Keeps s_ s) :
    Keeps s_ (State.exitPay s d p n i r).1 := by
  unfold State.exitPay
  with_reducible
    repeat' (first
      | assumption
      | lift_lets
      | (intro x; refine (fun (hx : Keeps s_ x) => ?_) ?_; clear_value x; rotate_left; unfold x; rotate_right)
      | (intro x; refine (fun (hx : Keeps s_ x.1) => ?_) ?_; clear_value x; rotate_left; unfold x; rotate_right)
      | (intro x; clear_value x)
      | apply State_exitLine_keeps
      | apply keeps_ite1
      | apply keeps_ite
      | (apply keeps_mk; assumption))

/-- `State.exitRec` keeps them. -/
theorem State_exitRec_keeps (s : State) (d p : Nat) (r : FRec) {s_ : State} (hks : Keeps s_ s) :
    Keeps s_ (State.exitRec s d p r).1 := by
  unfold State.exitRec
  with_reducible
    repeat' (first
      | assumption
      | lift_lets
      | (intro x; refine (fun (hx : Keeps s_ x) => ?_) ?_; clear_value x; rotate_left; unfold x; rotate_right)
      | (intro x; refine (fun (hx : Keeps s_ x.1) => ?_) ?_; clear_value x; rotate_left; unfold x; rotate_right)
      | (intro x; clear_value x)
      | apply State_exitPay_keeps
      | apply foldl_keeps
      | apply foldl_keeps1
      | (intro _))

/-- `State.exitRecs` keeps them. -/
theorem State_exitRecs_keeps (s : State) (d p : Nat) (rs : List FRec) {s_ : State} (hks : Keeps s_ s) :
    Keeps s_ (State.exitRecs s d p rs).1 := by
  unfold State.exitRecs
  with_reducible
    repeat' (first
      | assumption
      | (intro x; refine (fun (hx : Keeps s_ x) => ?_) ?_; clear_value x; rotate_left; unfold x; rotate_right)
      | (intro x; refine (fun (hx : Keeps s_ x.1) => ?_) ?_; clear_value x; rotate_left; unfold x; rotate_right)
      | (intro x; clear_value x)
      | apply State_exitRec_keeps
      | apply foldl_keeps
      | apply foldl_keeps1
      | (intro _)
      | lift_lets)

/-- `State.sendCtl` keeps them. -/
theorem State_sendCtl_keeps (s : State) (d p : Nat) {s_ : State} (hks : Keeps s_ s) :
    Keeps s_ (State.sendCtl s d p) := by
  unfold State.sendCtl
  with_reducible
    repeat' (first
      | assumption
      | lift_lets
      | (intro x; refine (fun (hx : Keeps s_ x) => ?_) ?_; clear_value x; rotate_left; unfold x; rotate_right)
      | (intro x; clear_value x)
      | apply State_putPort_keeps
      | apply State_sendFrame_keeps
      | (apply keeps_mk; assumption))

/-- `State.sendData` keeps them. -/
theorem State_sendData_keeps (s : State) (d p cls : Nat) {s_ : State} (hks : Keeps s_ s) :
    Keeps s_ (State.sendData s d p cls) := by
  unfold State.sendData
  with_reducible
    repeat' (first
      | assumption
      | lift_lets
      | (intro x; refine (fun (hx : Keeps s_ x) => ?_) ?_; clear_value x; rotate_left; unfold x; rotate_right)
      | (intro x; refine (fun (hx : Keeps s_ x.1) => ?_) ?_; clear_value x; rotate_left; unfold x; rotate_right)
      | (intro x; clear_value x)
      | apply forEach_keeps
      | apply State_putPort_keeps
      | apply State_sendFrame_keeps
      | apply State_freeTransit_keeps
      | apply State_exitRecs_keeps
      | apply keeps_ite
      | (apply keeps_mk; assumption)
      | (intro _))

/-- `State.sendHost` keeps them. -/
theorem State_sendHost_keeps (s : State) (d p : Nat) {s_ : State} (hks : Keeps s_ s) :
    Keeps s_ (State.sendHost s d p) := by
  unfold State.sendHost
  with_reducible
    repeat' (first
      | assumption
      | lift_lets
      | (intro x; refine (fun (hx : Keeps s_ x) => ?_) ?_; clear_value x; rotate_left; unfold x; rotate_right)
      | (intro x; refine (fun (hx : Keeps s_ x.1) => ?_) ?_; clear_value x; rotate_left; unfold x; rotate_right)
      | (intro x; refine (fun (hx : ∀ y, Keeps s_ (x y)) => ?_) ?_; clear_value x; rotate_left; unfold x; rotate_right)
      | (intro x; clear_value x)
      | apply State_updPort_keeps
      | apply State_emit_keeps
      | apply State_exitLine_keeps
      | apply State_macCnt_keeps
      | apply State_txCons_keeps
      | apply foldl_keeps
      | apply foldl_keeps1
      | apply keeps_ite
      | apply keeps_ite1
      | (apply keeps_mk; first | assumption | apply State_updPort_keeps | apply State_emit_keeps | apply State_exitLine_keeps | apply State_macCnt_keeps | apply State_txCons_keeps | apply foldl_keeps | apply foldl_keeps1)
      | (intro _)
      | split
      | (dsimp only; split)
      | (refine keeps_fst_eq (by assumption) ?_))

/-- `State.frameTransmit` keeps them. -/
theorem State_frameTransmit_keeps (s : State) (d p : Nat) {s_ : State} (hks : Keeps s_ s) :
    Keeps s_ (State.frameTransmit s d p) := by
  unfold State.frameTransmit
  with_reducible
    repeat' (first
      | assumption
      | lift_lets
      | (intro x; refine (fun (hx : Keeps s_ x) => ?_) ?_; clear_value x; rotate_left; unfold x; rotate_right)
      | (intro x; clear_value x)
      | apply State_sendCtl_keeps
      | apply State_sendData_keeps
      | apply State_sendHost_keeps
      | apply keeps_ite
      | split
      | (refine keeps_fst_eq (by assumption) ?_))

/-- `execFrameTransmit` keeps them. -/
theorem execFrameTransmit_keeps (d p : Nat) (s : State) {s_ : State} (hks : Keeps s_ s) :
    KeepsO s_ (execFrameTransmit d p s) := by
  unfold execFrameTransmit
  with_reducible
    repeat' (first
      | assumption
      | apply State_frameTransmit_keeps
      | apply keepsO_next)

/-- `State.frameTxEnd` keeps them. -/
theorem State_frameTxEnd_keeps (s : State) (d p : Nat) {s_ : State} (hks : Keeps s_ s) :
    Keeps s_ (State.frameTxEnd s d p) := by
  unfold State.frameTxEnd
  with_reducible
    repeat' (first
      | assumption
      | apply State_updPort_keeps
      | apply State_setStat_keeps
      | apply State_txCons_keeps
      | apply keeps_ite
      | (apply keeps_mk; assumption)
      | (intro _))

/-- `execFrameTxEnd` keeps them. -/
theorem execFrameTxEnd_keeps (d p : Nat) (s : State) {s_ : State} (hks : Keeps s_ s) :
    KeepsO s_ (execFrameTxEnd d p s) := by
  unfold execFrameTxEnd
  with_reducible
    repeat' (first
      | assumption
      | apply State_frameTxEnd_keeps
      | apply keepsO_next)

/-- `execPfcReceive` keeps them. -/
theorem execPfcReceive_keeps (d p cls quanta : Nat) (s : State) {s_ : State} (hks : Keeps s_ s) :
    KeepsO s_ (execPfcReceive d p cls quanta s) := by
  unfold execPfcReceive
  with_reducible
    repeat' (first
      | assumption
      | apply State_takePfc_keeps
      | apply keepsO_ite
      | apply keepsO_next
      | apply keeps_ite)

/-- `State.pfcRepeat` keeps them. -/
theorem State_pfcRepeat_keeps (s : State) (d p : Nat) {s_ : State} (hks : Keeps s_ s) :
    Keeps s_ (State.pfcRepeat s d p) := by
  unfold State.pfcRepeat
  with_reducible
    repeat' (first
      | assumption
      | apply forEach_keeps
      | apply State_sendPfc_keeps
      | (intro _))

/-- `execPfcRepeat` keeps them. -/
theorem execPfcRepeat_keeps (d p : Nat) (s : State) {s_ : State} (hks : Keeps s_ s) :
    KeepsO s_ (execPfcRepeat d p s) := by
  unfold execPfcRepeat
  with_reducible
    repeat' (first
      | assumption
      | apply State_pfcRepeat_keeps
      | apply keepsO_ite
      | apply keepsO_next
      | apply keeps_ite)

/-- `execPauseExpiry` keeps them. -/
theorem execPauseExpiry_keeps (d p cls : Nat) (s : State) {s_ : State} (hks : Keeps s_ s) :
    KeepsO s_ (execPauseExpiry d p cls s) := by
  unfold execPauseExpiry
  with_reducible
    repeat' (first
      | assumption
      | apply State_updPort_keeps
      | apply keepsO_ite
      | apply keepsO_next
      | apply keeps_ite
      | (apply keeps_mk; assumption)
      | (intro _))

/-- `State.ackOnly` keeps them. -/
theorem State_ackOnly_keeps (s : State) (d p : Nat) {s_ : State} (hks : Keeps s_ s) :
    Keeps s_ (State.ackOnly s d p) := by
  unfold State.ackOnly
  with_reducible
    repeat' (first
      | assumption
      | lift_lets
      | (intro x; refine (fun (hx : Keeps s_ x) => ?_) ?_; clear_value x; rotate_left; unfold x; rotate_right)
      | (intro x; clear_value x)
      | apply State_putPort_keeps
      | apply State_sendFrame_keeps
      | apply keeps_ite
      | (apply keeps_mk; assumption))

/-- `execAckOnlyFrame` keeps them. -/
theorem execAckOnlyFrame_keeps (d p : Nat) (s : State) {s_ : State} (hks : Keeps s_ s) :
    KeepsO s_ (execAckOnlyFrame d p s) := by
  unfold execAckOnlyFrame
  with_reducible
    repeat' (first
      | assumption
      | apply State_ackOnly_keeps
      | apply keepsO_next)

/-- `State.portBringUp` keeps them. -/
theorem State_portBringUp_keeps (s : State) (d p locks : Nat) {s_ : State} (hks : Keeps s_ s) :
    Keeps s_ (State.portBringUp s d p locks) := by
  unfold State.portBringUp
  with_reducible
    repeat' (first
      | assumption
      | lift_lets
      | (intro x; refine (fun (hx : Keeps s_ x) => ?_) ?_; clear_value x; rotate_left; unfold x; rotate_right)
      | (intro x; clear_value x)
      | apply forEach_keeps
      | apply State_updPort_keeps
      | apply State_setFld_keeps
      | apply State_portUpNow_keeps
      | apply keeps_ite
      | (apply keeps_mk; assumption)
      | (intro _))

/-- `execPortBringUp` keeps them. -/
theorem execPortBringUp_keeps (d p locks : Nat) (s : State) {s_ : State} (hks : Keeps s_ s) :
    KeepsO s_ (execPortBringUp d p locks s) := by
  unfold execPortBringUp
  with_reducible
    repeat' (first
      | assumption
      | apply State_portBringUp_keeps
      | apply keepsO_next)

/-- `execHello` keeps them. -/
theorem execHello_keeps (d p peer port : Nat) (s : State) {s_ : State} (hks : Keeps s_ s) :
    KeepsO s_ (execHello d p peer port s) := by
  unfold execHello
  with_reducible
    repeat' (first
      | assumption
      | apply State_takeHello_keeps
      | apply keepsO_next)

/-- `execPortRetrainTimer` keeps them. -/
theorem execPortRetrainTimer_keeps (d p : Nat) (s : State) {s_ : State} (hks : Keeps s_ s) :
    KeepsO s_ (execPortRetrainTimer d p s) := by
  unfold execPortRetrainTimer
  with_reducible
    repeat' (first
      | assumption
      | apply State_retrainPort_keeps
      | apply keepsO_ite
      | apply keepsO_next
      | apply keeps_ite)

/-- `State.macRetrain` keeps them. -/
theorem State_macRetrain_keeps (s : State) (d p : Nat) {s_ : State} (hks : Keeps s_ s) :
    Keeps s_ (State.macRetrain s d p) := by
  unfold State.macRetrain
  with_reducible
    repeat' (first
      | assumption
      | apply State_retrainPort_keeps
      | apply keeps_ite)

/-- `execMacRetrain` keeps them. -/
theorem execMacRetrain_keeps (d p : Nat) (s : State) {s_ : State} (hks : Keeps s_ s) :
    KeepsO s_ (execMacRetrain d p s) := by
  unfold execMacRetrain
  with_reducible
    repeat' (first
      | assumption
      | apply State_macRetrain_keeps
      | apply keepsO_next)

/-- `State.lockLoss` keeps them. -/
theorem State_lockLoss_keeps (s : State) (d p lane : Nat) {s_ : State} (hks : Keeps s_ s) :
    Keeps s_ (State.lockLoss s d p lane) := by
  unfold State.lockLoss
  with_reducible
    repeat' (first
      | assumption
      | lift_lets
      | (intro x; refine (fun (hx : Keeps s_ x) => ?_) ?_; clear_value x; rotate_left; unfold x; rotate_right)
      | (intro x; clear_value x)
      | apply forEach_keeps
      | apply State_setFld_keeps
      | apply State_raise_keeps
      | apply State_spareDue_keeps
      | apply State_noSpare_keeps
      | apply State_portDown_keeps
      | apply State_moveLane_keeps
      | apply keeps_ite
      | (intro _))

/-- `execLaneLockLoss` keeps them. -/
theorem execLaneLockLoss_keeps (d p lane : Nat) (s : State) {s_ : State} (hks : Keeps s_ s) :
    KeepsO s_ (execLaneLockLoss d p lane s) := by
  unfold execLaneLockLoss
  with_reducible
    repeat' (first
      | assumption
      | apply State_lockLoss_keeps
      | apply keepsO_next)

/-- `State.macSpareIn` keeps them. -/
theorem State_macSpareIn_keeps (s : State) (d p lane : Nat) {s_ : State} (hks : Keeps s_ s) :
    Keeps s_ (State.macSpareIn s d p lane).1 := by
  unfold State.macSpareIn
  with_reducible
    repeat' (first
      | assumption
      | apply State_configBusy_keeps
      | apply State_moveLane_keeps
      | apply keeps_ite1
      | apply keeps_ite)

/-- `execMacSpareIn` keeps them. -/
theorem execMacSpareIn_keeps (d p lane : Nat) (s : State) {s_ : State} (hks : Keeps s_ s) :
    KeepsO s_ (execMacSpareIn d p lane s) := by
  unfold execMacSpareIn
  with_reducible
    repeat' (first
      | assumption
      | apply State_macSpareIn_keeps
      | apply keepsO_next)

/-- `execSpareReq` keeps them. -/
theorem execSpareReq_keeps (d p lane : Nat) (s : State) {s_ : State} (hks : Keeps s_ s) :
    KeepsO s_ (execSpareReq d p lane s) := by
  unfold execSpareReq
  with_reducible
    repeat' (first
      | assumption
      | apply State_takeSpareReq_keeps
      | apply keepsO_ite
      | apply keepsO_next
      | apply keeps_ite)

/-- `State.pcsRealigned` keeps them. -/
theorem State_pcsRealigned_keeps (s : State) (d p : Nat) {s_ : State} (hks : Keeps s_ s) :
    Keeps s_ (State.pcsRealigned s d p) := by
  unfold State.pcsRealigned
  with_reducible
    repeat' (first
      | assumption
      | lift_lets
      | (intro x; refine (fun (hx : Keeps s_ x) => ?_) ?_; clear_value x; rotate_left; unfold x; rotate_right)
      | (intro x; clear_value x)
      | apply State_putPort_keeps
      | apply State_setFld_keeps
      | apply State_raise_keeps
      | (apply keeps_mk; assumption)
      | split
      | (refine keeps_fst_eq (by assumption) ?_))

/-- `execPcsRealigned` keeps them. -/
theorem execPcsRealigned_keeps (d p : Nat) (s : State) {s_ : State} (hks : Keeps s_ s) :
    KeepsO s_ (execPcsRealigned d p s) := by
  unfold execPcsRealigned
  with_reducible
    repeat' (first
      | assumption
      | apply State_pcsRealigned_keeps
      | apply keepsO_ite
      | apply keepsO_next
      | apply keeps_ite)

/-- `execSpareDone` keeps them. -/
theorem execSpareDone_keeps (d p : Nat) (s : State) {s_ : State} (hks : Keeps s_ s) :
    KeepsO s_ (execSpareDone d p s) := by
  unfold execSpareDone
  with_reducible
    repeat' (first
      | assumption
      | apply State_takeSpareDone_keeps
      | apply keepsO_ite
      | apply keepsO_next
      | apply keeps_ite)

/-- `State.laneEvent` keeps them. -/
theorem State_laneEvent_keeps (s : State) (d p lane : Nat) {s_ : State} (hks : Keeps s_ s) :
    Keeps s_ (State.laneEvent s d p lane) := by
  unfold State.laneEvent
  with_reducible
    repeat' (first
      | assumption
      | lift_lets
      | (intro x; refine (fun (hx : Keeps s_ x) => ?_) ?_; clear_value x; rotate_left; unfold x; rotate_right)
      | (intro x; refine (fun (hx : Keeps s_ x.1) => ?_) ?_; clear_value x; rotate_left; unfold x; rotate_right)
      | (intro x; clear_value x)
      | apply State_spareDue_keeps
      | apply State_noSpare_keeps
      | apply State_evidence_keeps
      | apply State_moveLane_keeps
      | apply keeps_ite)

/-- `State.laneSer` keeps them. -/
theorem State_laneSer_keeps (s : State) (d p lane errs : Nat) {s_ : State} (hks : Keeps s_ s) :
    Keeps s_ (State.laneSer s d p lane errs) := by
  unfold State.laneSer
  with_reducible
    repeat' (first
      | assumption
      | lift_lets
      | (intro x; refine (fun (hx : Keeps s_ x) => ?_) ?_; clear_value x; rotate_left; unfold x; rotate_right)
      | (intro x; clear_value x)
      | apply State_addRg_keeps
      | apply State_raise_keeps
      | apply State_laneEvent_keeps
      | apply keeps_ite)

/-- `execLaneSerWindow` keeps them. -/
theorem execLaneSerWindow_keeps (d p lane errs : Nat) (s : State) {s_ : State} (hks : Keeps s_ s) :
    KeepsO s_ (execLaneSerWindow d p lane errs s) := by
  unfold execLaneSerWindow
  with_reducible
    repeat' (first
      | assumption
      | apply State_laneSer_keeps
      | apply keepsO_next)

/-- `State.gateEntry` keeps them. -/
theorem State_gateEntry_keeps (s : State) (d p : Nat) {s_ : State} (hks : Keeps s_ s) :
    Keeps s_ (State.gateEntry s d p) := by
  unfold State.gateEntry
  with_reducible
    repeat' (first
      | assumption
      | lift_lets
      | (intro x; refine (fun (hx : Keeps s_ x) => ?_) ?_; clear_value x; rotate_left; unfold x; rotate_right)
      | (intro x; refine (fun (hx : Keeps s_ x.1) => ?_) ?_; clear_value x; rotate_left; unfold x; rotate_right)
      | (intro x; clear_value x)
      | apply State_putPort_keeps
      | apply State_macCnt_keeps
      | apply keeps_ite
      | (apply keeps_mk; assumption)
      | (intro _))

/-- `execGateEntry` keeps them. -/
theorem execGateEntry_keeps (d p : Nat) (s : State) {s_ : State} (hks : Keeps s_ s) :
    KeepsO s_ (execGateEntry d p s) := by
  unfold execGateEntry
  with_reducible
    repeat' (first
      | assumption
      | apply State_gateEntry_keeps
      | apply keepsO_ite
      | apply keepsO_next
      | apply keeps_ite)

/-- `State.hqRxCons` keeps them. -/
theorem State_hqRxCons_keeps (s : State) (d p v : Nat) {s_ : State} (hks : Keeps s_ s) :
    Keeps s_ (State.hqRxCons s d p v) := by
  unfold State.hqRxCons
  with_reducible
    repeat' (first
      | assumption
      | apply State_setFld_keeps)

/-- `execHqRxCons` keeps them. -/
theorem execHqRxCons_keeps (d p v : Nat) (s : State) {s_ : State} (hks : Keeps s_ s) :
    KeepsO s_ (execHqRxCons d p v s) := by
  unfold execHqRxCons
  with_reducible
    repeat' (first
      | assumption
      | apply State_hqRxCons_keeps
      | apply keepsO_ite
      | apply keepsO_next
      | apply keeps_ite)

/-- `State.hqTxProd` keeps them. -/
theorem State_hqTxProd_keeps (s : State) (d p v : Nat) {s_ : State} (hks : Keeps s_ s) :
    Keeps s_ (State.hqTxProd s d p v) := by
  unfold State.hqTxProd
  with_reducible
    repeat' (first
      | assumption
      | apply State_setFld_keeps)

/-- `execHqTxProd` keeps them. -/
theorem execHqTxProd_keeps (d p v : Nat) (s : State) {s_ : State} (hks : Keeps s_ s) :
    KeepsO s_ (execHqTxProd d p v s) := by
  unfold execHqTxProd
  with_reducible
    repeat' (first
      | assumption
      | apply State_hqTxProd_keeps
      | apply keepsO_ite
      | apply keepsO_next
      | apply keeps_ite)

end Sys2Proof.Machine
end

