-- ==== Sys2Proof/Laws/KeepsUnits.lean ====
section
/-! SUPPORT. What memory units, start-up and clocks keep: the part, the queue and the canonical form of what is stored. -/

set_option Elab.async false

namespace Sys2Proof.Machine

/-- `State.bankTrigger` keeps them. -/
theorem State_bankTrigger_keeps (s : State) (d bank : Nat) {s_ : State} (hks : Keeps s_ s) :
    Keeps s_ (State.bankTrigger s d bank) := by
  unfold State.bankTrigger
  with_reducible
    repeat' (first
      | assumption
      | lift_lets
      | (intro x; refine (fun (hx : Keeps s_ x) => ?_) ?_; clear_value x; rotate_left; unfold x; rotate_right)
      | (intro x; clear_value x)
      | apply State_updCel_keeps
      | apply State_spareDue_keeps
      | apply State_noSpare_keeps
      | apply keeps_ite
      | (apply keeps_mk; assumption)
      | (intro _)
      | split
      | (refine keeps_fst_eq (by assumption) ?_))

/-- `State.eccCe` keeps them. -/
theorem State_eccCe_keeps (s : State) (a w : Nat) {s_ : State} (hks : Keeps s_ s) :
    Keeps s_ (State.eccCe s a w) := by
  unfold State.eccCe
  with_reducible
    repeat' (first
      | assumption
      | lift_lets
      | (intro x; refine (fun (hx : Keeps s_ x) => ?_) ?_; clear_value x; rotate_left; unfold x; rotate_right)
      | (intro x; clear_value x)
      | apply State_setFld_keeps
      | apply State_addRg_keeps
      | apply State_fresh_keeps
      | apply State_setStat_keeps
      | apply State_raise_keeps
      | apply State_bankTrigger_keeps
      | apply keeps_ite)

/-- `State.bankUe` keeps them. -/
theorem State_bankUe_keeps (s : State) (d bank : Nat) {s_ : State} (hks : Keeps s_ s) :
    Keeps s_ (State.bankUe s d bank) := by
  unfold State.bankUe
  with_reducible
    repeat' (first
      | assumption
      | lift_lets
      | (intro x; refine (fun (hx : Keeps s_ x) => ?_) ?_; clear_value x; rotate_left; unfold x; rotate_right)
      | (intro x; refine (fun (hx : Keeps s_ x.1) => ?_) ?_; clear_value x; rotate_left; unfold x; rotate_right)
      | (intro x; clear_value x)
      | apply State_updMod_keeps
      | apply State_evidence_keeps
      | apply State_bankTrigger_keeps
      | apply keeps_ite
      | (apply keeps_mk; assumption)
      | (intro _))

/-- `State.eccUe` keeps them. -/
theorem State_eccUe_keeps (s : State) (a w : Nat) {s_ : State} (hks : Keeps s_ s) :
    Keeps s_ (State.eccUe s a w) := by
  unfold State.eccUe
  with_reducible
    repeat' (first
      | assumption
      | lift_lets
      | (intro x; refine (fun (hx : Keeps s_ x) => ?_) ?_; clear_value x; rotate_left; unfold x; rotate_right)
      | (intro x; clear_value x)
      | apply State_putSide_keeps
      | apply State_fresh_keeps
      | apply State_raise_keeps
      | apply State_bankUe_keeps
      | apply keeps_ite)

/-- `State.eccCheck` keeps them. -/
theorem State_eccCheck_keeps (s : State) (a : Nat) (ecc : List (Nat × Bool)) {s_ : State} (hks : Keeps s_ s) :
    Keeps s_ (State.eccCheck s a ecc) := by
  unfold State.eccCheck
  with_reducible
    repeat' (first
      | assumption
      | apply forEach_keeps
      | apply State_eccCe_keeps
      | apply State_eccUe_keeps
      | apply keeps_ite
      | (intro _))

/-- `State.cellarAccess` keeps them. -/
theorem State_cellarAccess_keeps (s : State) (kind a : Nat) (f : State → State) {s_ : State} (hks : Keeps s_ s) (hff : ∀ z0, Keeps s_ z0 → Keeps
    s_ (f z0)) :
    Keeps s_ (State.cellarAccess s kind a f) := by
  unfold State.cellarAccess
  with_reducible
    repeat' (first
      | assumption
      | apply State_sendSnoop_keeps
      | apply hff
      | apply keeps_ite)

/-- `execCellarRead` keeps them. -/
theorem execCellarRead_keeps (a : Nat) (ecc : List (Nat × Bool)) (s : State) {s_ : State} (hks : Keeps s_ s) :
    KeepsO s_ (execCellarRead a ecc s) := by
  unfold execCellarRead
  with_reducible
    repeat' (first
      | assumption
      | apply State_touchRead_keeps
      | apply State_eccCheck_keeps
      | apply State_cellarAccess_keeps
      | apply keepsO_next
      | (intro _))

/-- `execCellarWrite` keeps them. -/
theorem execCellarWrite_keeps (a : Nat) (bs : List Byte) (sb : Word) (s : State) {s_ : State} (hks : Keeps s_ s) :
    KeepsO s_ (execCellarWrite a bs sb s) := by
  unfold execCellarWrite
  with_reducible
    repeat' (first
      | assumption
      | lift_lets
      | (intro x; refine (fun (hx : Keeps s_ x) => ?_) ?_; clear_value x; rotate_left; unfold x; rotate_right)
      | (intro x; refine (fun (hx : Keeps s_ x.1) => ?_) ?_; clear_value x; rotate_left; unfold x; rotate_right)
      | (intro x; refine (fun (hx : ∀ y, Keeps s_ (x y)) => ?_) ?_; clear_value x; rotate_left; unfold x; rotate_right)
      | (intro x; clear_value x)
      | apply State_writeAt_keeps
      | apply State_cellarAccess_keeps
      | apply keepsO_ite
      | apply keepsO_next
      | exact keepsO_fault
      | apply keeps_ite
      | apply keeps_ite1
      | (apply keeps_mk; first | assumption | apply State_writeAt_keeps | apply State_cellarAccess_keeps)
      | (intro _)
      | split
      | (dsimp only; split)
      | (refine keeps_fst_eq (by assumption) ?_))

/-- `State.cellarMerge` keeps them. -/
theorem State_cellarMerge_keeps (s : State) (a : Nat) (bs : List Byte) (mask : Nat) (sb : Option Word) (crc : Nat) {s_ : State} (hks : Keeps s_ s) :
    Keeps s_ (State.cellarMerge s a bs mask sb crc) := by
  unfold State.cellarMerge
  with_reducible
    repeat' (first
      | assumption
      | lift_lets
      | (intro x; refine (fun (hx : Keeps s_ x) => ?_) ?_; clear_value x; rotate_left; unfold x; rotate_right)
      | (intro x; clear_value x)
      | apply State_mergeBare_keeps
      | apply State_touchWrite_keeps
      | apply State_mergeAt_keeps
      | apply keeps_ite
      | split
      | (refine keeps_fst_eq (by assumption) ?_))

/-- `execCellarMaskedWrite` keeps them. -/
theorem execCellarMaskedWrite_keeps (a : Nat) (bs : List Byte) (mask : Nat) (sb : Option Word) (crc : Nat) (s : State) {s_ : State} (hks : Keeps
    s_ s) :
    KeepsO s_ (execCellarMaskedWrite a bs mask sb crc s) := by
  unfold execCellarMaskedWrite
  with_reducible
    repeat' (first
      | assumption
      | apply State_cellarAccess_keeps
      | apply State_cellarMerge_keeps
      | apply keepsO_next
      | (intro _))

/-- `State.scrub` keeps them. -/
theorem State_scrub_keeps (s : State) (a : Nat) (ecc : List (Nat × Bool)) {s_ : State} (hks : Keeps s_ s) :
    Keeps s_ (State.scrub s a ecc) := by
  unfold State.scrub
  with_reducible
    repeat' (first
      | assumption
      | lift_lets
      | (intro x; refine (fun (hx : Keeps s_ x) => ?_) ?_; clear_value x; rotate_left; unfold x; rotate_right)
      | (intro x; refine (fun (hx : Keeps s_ x.1) => ?_) ?_; clear_value x; rotate_left; unfold x; rotate_right)
      | (intro x; clear_value x)
      | apply State_eccCheck_keeps
      | apply keeps_ite
      | (intro _))

/-- `execScrub` keeps them. -/
theorem execScrub_keeps (a : Nat) (ecc : List (Nat × Bool)) (s : State) {s_ : State} (hks : Keeps s_ s) :
    KeepsO s_ (execScrub a ecc s) := by
  unfold execScrub
  with_reducible
    repeat' (first
      | assumption
      | apply State_scrub_keeps
      | apply keepsO_next)

/-- `execCelPartitionChange` keeps them. -/
theorem execCelPartitionChange_keeps (d : Nat) (s : State) {s_ : State} (hks : Keeps s_ s) :
    KeepsO s_ (execCelPartitionChange d s) := by
  unfold execCelPartitionChange
  with_reducible
    repeat' (first
      | assumption
      | apply State_doSwap_keeps
      | apply keepsO_ite
      | apply keepsO_next
      | apply keeps_ite)

/-- `State.flushLines` keeps them. -/
theorem State_flushLines_keeps (s : State) (d : Nat) (inval : Bool) {s_ : State} (hks : Keeps s_ s) :
    Keeps s_ (State.flushLines s d inval) := by
  unfold State.flushLines
  with_reducible
    repeat' (first
      | assumption
      | lift_lets
      | (intro x; refine (fun (hx : Keeps s_ x) => ?_) ?_; clear_value x; rotate_left; unfold x; rotate_right)
      | (intro x; clear_value x)
      | apply State_updCel_keeps
      | apply State_setFld_keeps
      | apply State_cleanLines_keeps
      | apply State_dropLines_keeps
      | apply keeps_ite
      | (apply keeps_mk; assumption)
      | (intro _))

/-- `State.doFlush` keeps them. -/
theorem State_doFlush_keeps (s : State) (d : Nat) {s_ : State} (hks : Keeps s_ s) :
    Keeps s_ (State.doFlush s d).1 := by
  unfold State.doFlush
  with_reducible
    repeat' (first
      | assumption
      | apply State_configBusy_keeps
      | apply State_flushLines_keeps
      | apply keeps_ite1
      | apply keeps_ite)

/-- `execFlush` keeps them. -/
theorem execFlush_keeps (d : Nat) (s : State) {s_ : State} (hks : Keeps s_ s) :
    KeepsO s_ (execFlush d s) := by
  unfold execFlush
  with_reducible
    repeat' (first
      | assumption
      | apply State_doFlush_keeps
      | apply keepsO_next)

/-- `State.doPurge` keeps them. -/
theorem State_doPurge_keeps (s : State) (d : Nat) {s_ : State} (hks : Keeps s_ s) :
    Keeps s_ (State.doPurge s d).1 := by
  unfold State.doPurge
  with_reducible
    repeat' (first
      | assumption
      | apply State_updCel_keeps
      | apply State_configBusy_keeps
      | apply State_flushLines_keeps
      | apply keeps_ite1
      | apply keeps_ite
      | (apply keeps_mk; assumption)
      | (intro _))

/-- `execPurge` keeps them. -/
theorem execPurge_keeps (d : Nat) (s : State) {s_ : State} (hks : Keeps s_ s) :
    KeepsO s_ (execPurge d s) := by
  unfold execPurge
  with_reducible
    repeat' (first
      | assumption
      | apply State_doPurge_keeps
      | apply keepsO_next)

/-- `State.flushComplete` keeps them. -/
theorem State_flushComplete_keeps (s : State) (d : Nat) {s_ : State} (hks : Keeps s_ s) :
    Keeps s_ (State.flushComplete s d) := by
  unfold State.flushComplete
  with_reducible
    repeat' (first
      | assumption
      | lift_lets
      | (intro x; refine (fun (hx : Keeps s_ x) => ?_) ?_; clear_value x; rotate_left; unfold x; rotate_right)
      | (intro x; clear_value x)
      | apply State_updCel_keeps
      | apply State_setFld_keeps
      | apply State_setStat_keeps
      | apply State_flushLines_keeps
      | apply keeps_ite
      | (apply keeps_mk; assumption)
      | (intro _))

/-- `execFlushComplete` keeps them. -/
theorem execFlushComplete_keeps (d : Nat) (s : State) {s_ : State} (hks : Keeps s_ s) :
    KeepsO s_ (execFlushComplete d s) := by
  unfold execFlushComplete
  with_reducible
    repeat' (first
      | assumption
      | apply State_flushComplete_keeps
      | apply keepsO_ite
      | apply keepsO_next
      | apply keeps_ite)

/-- `State.celSpareIn` keeps them. -/
theorem State_celSpareIn_keeps (s : State) (d bank spare : Nat) {s_ : State} (hks : Keeps s_ s) :
    Keeps s_ (State.celSpareIn s d bank spare).1 := by
  unfold State.celSpareIn
  with_reducible
    repeat' (first
      | assumption
      | apply State_updCel_keeps
      | apply State_configBusy_keeps
      | apply keeps_ite1
      | apply keeps_ite
      | (apply keeps_mk; assumption)
      | (intro _))

/-- `execCelSpareIn` keeps them. -/
theorem execCelSpareIn_keeps (d bank spare : Nat) (s : State) {s_ : State} (hks : Keeps s_ s) :
    KeepsO s_ (execCelSpareIn d bank spare s) := by
  unfold execCelSpareIn
  with_reducible
    repeat' (first
      | assumption
      | apply State_celSpareIn_keeps
      | apply keepsO_next)

/-- `State.celSpareDone` keeps them. -/
theorem State_celSpareDone_keeps (s : State) (d : Nat) {s_ : State} (hks : Keeps s_ s) :
    Keeps s_ (State.celSpareDone s d) := by
  unfold State.celSpareDone
  with_reducible
    repeat' (first
      | assumption
      | apply State_updCel_keeps
      | apply State_setRg_keeps
      | apply State_setStat_keeps
      | apply State_repairDue_keeps
      | apply keeps_ite
      | (apply keeps_mk; assumption)
      | (intro _)
      | split
      | (refine keeps_fst_eq (by assumption) ?_))

/-- `execCelSpareDone` keeps them. -/
theorem execCelSpareDone_keeps (d : Nat) (s : State) {s_ : State} (hks : Keeps s_ s) :
    KeepsO s_ (execCelSpareDone d s) := by
  unfold execCelSpareDone
  with_reducible
    repeat' (first
      | assumption
      | apply State_celSpareDone_keeps
      | apply keepsO_next)

/-- `State.celRetain` keeps them. -/
theorem State_celRetain_keeps (s : State) (d : Nat) {s_ : State} (hks : Keeps s_ s) :
    Keeps s_ (State.celRetain s d) := by
  unfold State.celRetain
  with_reducible
    repeat' (first
      | assumption
      | apply State_updCel_keeps
      | apply State_cleanLines_keeps
      | (apply keeps_mk; assumption)
      | (intro _))

/-- `State.celWake` keeps them. -/
theorem State_celWake_keeps (s : State) (d : Nat) {s_ : State} (hks : Keeps s_ s) :
    Keeps s_ (State.celWake s d) := by
  unfold State.celWake
  with_reducible
    repeat' (first
      | assumption
      | lift_lets
      | (intro x; refine (fun (hx : Keeps s_ x) => ?_) ?_; clear_value x; rotate_left; unfold x; rotate_right)
      | (intro x; clear_value x)
      | apply State_updCel_keeps
      | apply State_raise_keeps
      | apply State_dropLines_keeps
      | apply State_poisonScratch_keeps
      | apply keeps_ite
      | (apply keeps_mk; assumption)
      | (intro _))

/-- `State.sbTouch` keeps them. -/
theorem State_sbTouch_keeps (s : State) (a : Nat) (dirty : Bool) {s_ : State} (hks : Keeps s_ s) :
    Keeps s_ (State.sbTouch s a dirty) := by
  unfold State.sbTouch
  with_reducible
    repeat' (first
      | assumption
      | lift_lets
      | (intro x; refine (fun (hx : Keeps s_ x) => ?_) ?_; clear_value x; rotate_left; unfold x; rotate_right)
      | (intro x; refine (fun (hx : Keeps s_ x.1) => ?_) ?_; clear_value x; rotate_left; unfold x; rotate_right)
      | (intro x; clear_value x)
      | apply State_updHbm_keeps
      | apply State_addRg_keeps
      | apply keeps_ite
      | (apply keeps_mk; assumption)
      | (intro _))

/-- `State.hbmCause` keeps them. -/
theorem State_hbmCause_keeps (s : State) (a cause cnt : Nat) (c : Cls) {s_ : State} (hks : Keeps s_ s) :
    Keeps s_ (State.hbmCause s a cause cnt c) := by
  unfold State.hbmCause
  with_reducible
    repeat' (first
      | assumption
      | lift_lets
      | (intro x; refine (fun (hx : Keeps s_ x) => ?_) ?_; clear_value x; rotate_left; unfold x; rotate_right)
      | (intro x; refine (fun (hx : Keeps s_ x.1) => ?_) ?_; clear_value x; rotate_left; unfold x; rotate_right)
      | (intro x; clear_value x)
      | apply State_addRg_keeps
      | apply State_cause_keeps
      | apply State_raise_keeps)

/-- `State.hbmPoison` keeps them. -/
theorem State_hbmPoison_keeps (s : State) (a : Nat) {s_ : State} (hks : Keeps s_ s) :
    Keeps s_ (State.hbmPoison s a) := by
  unfold State.hbmPoison
  with_reducible
    repeat' (first
      | assumption
      | apply State_putSide_keeps)

/-- `State.sbLost` keeps them. -/
theorem State_sbLost_keeps (s : State) (a : Nat) {s_ : State} (hks : Keeps s_ s) :
    Keeps s_ (State.sbLost s a) := by
  unfold State.sbLost
  with_reducible
    repeat' (first
      | assumption
      | lift_lets
      | (intro x; refine (fun (hx : Keeps s_ x) => ?_) ?_; clear_value x; rotate_left; unfold x; rotate_right)
      | (intro x; refine (fun (hx : Keeps s_ x.1) => ?_) ?_; clear_value x; rotate_left; unfold x; rotate_right)
      | (intro x; clear_value x)
      | apply forEach_keeps
      | apply State_putSide_keeps
      | (intro _))

/-- `State.hbmTrigger` keeps them. -/
theorem State_hbmTrigger_keeps (s : State) (a : Nat) {s_ : State} (hks : Keeps s_ s) :
    Keeps s_ (State.hbmTrigger s a) := by
  unfold State.hbmTrigger
  with_reducible
    repeat' (first
      | assumption
      | lift_lets
      | (intro x; refine (fun (hx : Keeps s_ x) => ?_) ?_; clear_value x; rotate_left; unfold x; rotate_right)
      | (intro x; refine (fun (hx : Keeps s_ x.1) => ?_) ?_; clear_value x; rotate_left; unfold x; rotate_right)
      | (intro x; clear_value x)
      | apply State_putHbm_keeps
      | apply State_setStat_keeps
      | apply State_spareDue_keeps
      | apply State_noSpare_keeps
      | apply State_retire_keeps
      | apply keeps_ite
      | (apply keeps_mk; assumption)
      | split
      | (refine keeps_fst_eq (by assumption) ?_))

/-- `State.hbmCeEvent` keeps them. -/
theorem State_hbmCeEvent_keeps (s : State) (a : Nat) {s_ : State} (hks : Keeps s_ s) :
    Keeps s_ (State.hbmCeEvent s a) := by
  unfold State.hbmCeEvent
  with_reducible
    repeat' (first
      | assumption
      | lift_lets
      | (intro x; refine (fun (hx : Keeps s_ x) => ?_) ?_; clear_value x; rotate_left; unfold x; rotate_right)
      | (intro x; refine (fun (hx : Keeps s_ x.1) => ?_) ?_; clear_value x; rotate_left; unfold x; rotate_right)
      | (intro x; clear_value x)
      | apply State_evidence_keeps
      | apply State_hbmTrigger_keeps
      | apply keeps_ite)

/-- `State.hbmReadEvent` keeps them. -/
theorem State_hbmReadEvent_keeps (s : State) (a : Nat) (y0 : HbmEvent) {s_ : State} (hks : Keeps s_ s) :
    Keeps s_ (State.hbmReadEvent s a y0) := by
  unfold State.hbmReadEvent
  with_reducible
    repeat' (first
      | assumption
      | apply State_eccCe_keeps
      | apply State_eccUe_keeps
      | apply State_hbmCause_keeps
      | apply State_hbmPoison_keeps
      | apply State_sbLost_keeps
      | apply State_hbmTrigger_keeps
      | apply State_hbmCeEvent_keeps
      | split
      | (refine keeps_fst_eq (by assumption) ?_))

/-- `State.hbmRead` keeps them. -/
theorem State_hbmRead_keeps (s : State) (a : Nat) (ev : HbmEvent) {s_ : State} (hks : Keeps s_ s) :
    Keeps s_ (State.hbmRead s a ev) := by
  unfold State.hbmRead
  with_reducible
    repeat' (first
      | assumption
      | lift_lets
      | (intro x; refine (fun (hx : Keeps s_ x) => ?_) ?_; clear_value x; rotate_left; unfold x; rotate_right)
      | (intro x; clear_value x)
      | apply State_sbTouch_keeps
      | apply State_hbmReadEvent_keeps
      | apply keeps_ite)

/-- `execHbmRead` keeps them. -/
theorem execHbmRead_keeps (a : Nat) (ev : HbmEvent) (s : State) {s_ : State} (hks : Keeps s_ s) :
    KeepsO s_ (execHbmRead a ev s) := by
  unfold execHbmRead
  with_reducible
    repeat' (first
      | assumption
      | apply State_hbmRead_keeps
      | apply keepsO_next)

/-- `State.hbmWrite` keeps them. -/
theorem State_hbmWrite_keeps (s : State) (a : Nat) (bs : List Byte) (sb : Word) (ev : HbmEvent) {s_ : State} (hks : Keeps s_ s) :
    Keeps s_ (State.hbmWrite s a bs sb ev) := by
  unfold State.hbmWrite
  with_reducible
    repeat' (first
      | assumption
      | lift_lets
      | (intro x; refine (fun (hx : Keeps s_ x) => ?_) ?_; clear_value x; rotate_left; unfold x; rotate_right)
      | (intro x; clear_value x)
      | apply State_putLine_keeps
      | apply State_sbTouch_keeps
      | apply State_hbmCause_keeps
      | apply State_hbmReadEvent_keeps
      | apply keeps_ite
      | split
      | (refine keeps_fst_eq (by assumption) ?_))

/-- `execHbmWrite` keeps them. -/
theorem execHbmWrite_keeps (a : Nat) (bs : List Byte) (sb : Word) (ev : HbmEvent) (s : State) {s_ : State} (hks : Keeps s_ s) :
    KeepsO s_ (execHbmWrite a bs sb ev s) := by
  unfold execHbmWrite
  with_reducible
    repeat' (first
      | assumption
      | lift_lets
      | (intro x; refine (fun (hx : Keeps s_ x) => ?_) ?_; clear_value x; rotate_left; unfold x; rotate_right)
      | (intro x; refine (fun (hx : Keeps s_ x.1) => ?_) ?_; clear_value x; rotate_left; unfold x; rotate_right)
      | (intro x; refine (fun (hx : ∀ y, Keeps s_ (x y)) => ?_) ?_; clear_value x; rotate_left; unfold x; rotate_right)
      | (intro x; clear_value x)
      | apply State_hbmWrite_keeps
      | apply keepsO_ite
      | apply keepsO_next
      | exact keepsO_fault
      | apply keeps_ite
      | apply keeps_ite1
      | (apply keeps_mk; first | assumption | apply State_hbmWrite_keeps)
      | (intro _)
      | split
      | (dsimp only; split)
      | (refine keeps_fst_eq (by assumption) ?_))

/-- `State.refreshEval` keeps them. -/
theorem State_refreshEval_keeps (s : State) (d k : Nat) (below : Bool) {s_ : State} (hks : Keeps s_ s) :
    Keeps s_ (State.refreshEval s d k below) := by
  unfold State.refreshEval
  with_reducible
    repeat' (first
      | assumption
      | lift_lets
      | (intro x; refine (fun (hx : Keeps s_ x) => ?_) ?_; clear_value x; rotate_left; unfold x; rotate_right)
      | (intro x; clear_value x)
      | apply State_putHbm_keeps
      | apply State_setFld_keeps
      | apply keeps_ite
      | (apply keeps_mk; assumption))

/-- `execRefreshRateEval` keeps them. -/
theorem execRefreshRateEval_keeps (d k : Nat) (below : Bool) (s : State) {s_ : State} (hks : Keeps s_ s) :
    KeepsO s_ (execRefreshRateEval d k below s) := by
  unfold execRefreshRateEval
  with_reducible
    repeat' (first
      | assumption
      | apply State_refreshEval_keeps
      | apply keepsO_ite
      | apply keepsO_next
      | apply keeps_ite)

/-- `execPerBankRefresh` keeps them. -/
theorem execPerBankRefresh_keeps (d k pc : Nat) (s : State) {s_ : State} (hks : Keeps s_ s) :
    KeepsO s_ (execPerBankRefresh d k pc s) := by
  unfold execPerBankRefresh
  with_reducible
    repeat' (first
      | assumption
      | apply State_updHbm_keeps
      | apply keepsO_ite
      | apply keepsO_next
      | apply keeps_ite
      | (apply keeps_mk; assumption)
      | (intro _))

/-- `State.flushSb` keeps them. -/
theorem State_flushSb_keeps (s : State) (d k : Nat) {s_ : State} (hks : Keeps s_ s) :
    Keeps s_ (State.flushSb s d k) := by
  unfold State.flushSb
  with_reducible
    repeat' (first
      | assumption
      | apply State_updHbm_keeps
      | (apply keeps_mk; assumption)
      | (intro _))

/-- `execFlushSb` keeps them. -/
theorem execFlushSb_keeps (d k : Nat) (s : State) {s_ : State} (hks : Keeps s_ s) :
    KeepsO s_ (execFlushSb d k s) := by
  unfold execFlushSb
  with_reducible
    repeat' (first
      | assumption
      | apply State_flushSb_keeps
      | apply keepsO_ite
      | apply keepsO_next
      | apply keeps_ite)

/-- `State.setFreeMin` keeps them. -/
theorem State_setFreeMin_keeps (s : State) (d k : Nat) {s_ : State} (hks : Keeps s_ s) :
    Keeps s_ (State.setFreeMin s d k) := by
  unfold State.setFreeMin
  with_reducible
    repeat' (first
      | assumption
      | apply State_setRg_keeps
      | apply foldl_keeps
      | apply foldl_keeps1
      | (intro _))

/-- `State.hbmRetire` keeps them. -/
theorem State_hbmRetire_keeps (s : State) (d k pc unit : Nat) {s_ : State} (hks : Keeps s_ s) :
    Keeps s_ (State.hbmRetire s d k pc unit).1 := by
  unfold State.hbmRetire
  with_reducible
    repeat' (first
      | assumption
      | lift_lets
      | (intro x; refine (fun (hx : Keeps s_ x) => ?_) ?_; clear_value x; rotate_left; unfold x; rotate_right)
      | (intro x; clear_value x)
      | apply State_putHbm_keeps
      | apply State_setStat_keeps
      | apply State_configBusy_keeps
      | apply State_retire_keeps
      | apply keeps_ite1
      | apply keeps_ite
      | (apply keeps_mk; assumption)
      | split
      | (refine keeps_fst_eq (by assumption) ?_))

/-- `execHbmRetire` keeps them. -/
theorem execHbmRetire_keeps (d k pc unit : Nat) (s : State) {s_ : State} (hks : Keeps s_ s) :
    KeepsO s_ (execHbmRetire d k pc unit s) := by
  unfold execHbmRetire
  with_reducible
    repeat' (first
      | assumption
      | apply State_hbmRetire_keeps
      | apply keepsO_next)

/-- `State.retireDone` keeps them. -/
theorem State_retireDone_keeps (s : State) (d k : Nat) (bad : List Nat) {s_ : State} (hks : Keeps s_ s) :
    Keeps s_ (State.retireDone s d k bad) := by
  unfold State.retireDone
  with_reducible
    repeat' (first
      | assumption
      | lift_lets
      | (intro x; refine (fun (hx : Keeps s_ x) => ?_) ?_; clear_value x; rotate_left; unfold x; rotate_right)
      | (intro x; refine (fun (hx : Keeps s_ x.1) => ?_) ?_; clear_value x; rotate_left; unfold x; rotate_right)
      | (intro x; refine (fun (hx : ∀ y, Keeps s_ (x y)) => ?_) ?_; clear_value x; rotate_left; unfold x; rotate_right)
      | (intro x; clear_value x)
      | apply forEach_keeps
      | apply State_putHbm_keeps
      | apply State_addRg_keeps
      | apply State_setStat_keeps
      | apply State_repairDue_keeps
      | apply State_retire_keeps
      | apply State_eccUe_keeps
      | apply State_hbmReadEvent_keeps
      | apply State_setFreeMin_keeps
      | apply keeps_ite
      | apply keeps_ite1
      | (apply keeps_mk; first | assumption | apply forEach_keeps | apply State_putHbm_keeps | apply State_addRg_keeps | apply State_setStat_keeps | apply State_repairDue_keeps | apply State_retire_keeps | apply State_eccUe_keeps | apply State_hbmReadEvent_keeps | apply State_setFreeMin_keeps)
      | (intro _)
      | split
      | (dsimp only; split)
      | (refine keeps_fst_eq (by assumption) ?_))

/-- `execRetireDone` keeps them. -/
theorem execRetireDone_keeps (d k : Nat) (bad : List Nat) (s : State) {s_ : State} (hks : Keeps s_ s) :
    KeepsO s_ (execRetireDone d k bad s) := by
  unfold execRetireDone
  with_reducible
    repeat' (first
      | assumption
      | apply State_retireDone_keeps
      | apply keepsO_ite
      | apply keepsO_next
      | apply keeps_ite)

/-- `State.maintEnter` keeps them. -/
theorem State_maintEnter_keeps (s : State) (d k : Nat) {s_ : State} (hks : Keeps s_ s) :
    Keeps s_ (State.maintEnter s d k) := by
  unfold State.maintEnter
  with_reducible
    repeat' (first
      | assumption
      | apply State_setFld_keeps
      | apply State_flushSb_keeps
      | apply keeps_ite)

/-- `execMaintEnter` keeps them. -/
theorem execMaintEnter_keeps (d k : Nat) (s : State) {s_ : State} (hks : Keeps s_ s) :
    KeepsO s_ (execMaintEnter d k s) := by
  unfold execMaintEnter
  with_reducible
    repeat' (first
      | assumption
      | apply State_maintEnter_keeps
      | apply keepsO_next)

/-- `State.maintExit` keeps them. -/
theorem State_maintExit_keeps (s : State) (d k : Nat) {s_ : State} (hks : Keeps s_ s) :
    Keeps s_ (State.maintExit s d k) := by
  unfold State.maintExit
  with_reducible
    repeat' (first
      | assumption
      | lift_lets
      | (intro x; refine (fun (hx : Keeps s_ x) => ?_) ?_; clear_value x; rotate_left; unfold x; rotate_right)
      | (intro x; clear_value x)
      | apply State_updHbm_keeps
      | apply State_setFld_keeps
      | apply State_zeroStack_keeps
      | apply keeps_ite
      | (apply keeps_mk; assumption)
      | (intro _))

/-- `execMaintExit` keeps them. -/
theorem execMaintExit_keeps (d k : Nat) (s : State) {s_ : State} (hks : Keeps s_ s) :
    KeepsO s_ (execMaintExit d k s) := by
  unfold execMaintExit
  with_reducible
    repeat' (first
      | assumption
      | apply State_maintExit_keeps
      | apply keepsO_next)

/-- `State.doMbist` keeps them. -/
theorem State_doMbist_keeps (s : State) (d k pat : Nat) {s_ : State} (hks : Keeps s_ s) :
    Keeps s_ (State.doMbist s d k pat).1 := by
  unfold State.doMbist
  with_reducible
    repeat' (first
      | assumption
      | apply State_updHbm_keeps
      | apply State_configBusy_keeps
      | apply keeps_ite1
      | apply keeps_ite
      | (apply keeps_mk; assumption)
      | (intro _))

/-- `execMbist` keeps them. -/
theorem execMbist_keeps (d k pat : Nat) (s : State) {s_ : State} (hks : Keeps s_ s) :
    KeepsO s_ (execMbist d k pat s) := by
  unfold execMbist
  with_reducible
    repeat' (first
      | assumption
      | apply State_doMbist_keeps
      | apply keepsO_next)

/-- `State.mbistDone` keeps them. -/
theorem State_mbistDone_keeps (s : State) (d k : Nat) (fail : Option (Nat × Nat)) {s_ : State} (hks : Keeps s_ s) :
    Keeps s_ (State.mbistDone s d k fail) := by
  unfold State.mbistDone
  with_reducible
    repeat' (first
      | assumption
      | lift_lets
      | (intro x; refine (fun (hx : Keeps s_ x) => ?_) ?_; clear_value x; rotate_left; unfold x; rotate_right)
      | (intro x; clear_value x)
      | apply State_updHbm_keeps
      | apply State_setStat_keeps
      | apply State_fillLog_keeps
      | (apply keeps_mk; assumption)
      | (intro _)
      | split
      | (refine keeps_fst_eq (by assumption) ?_))

/-- `execMbistDone` keeps them. -/
theorem execMbistDone_keeps (d k : Nat) (fail : Option (Nat × Nat)) (s : State) {s_ : State} (hks : Keeps s_ s) :
    KeepsO s_ (execMbistDone d k fail s) := by
  unfold execMbistDone
  with_reducible
    repeat' (first
      | assumption
      | apply State_mbistDone_keeps
      | apply keepsO_ite
      | apply keepsO_next
      | apply keeps_ite)

/-- `State.shiftGo` keeps them. -/
theorem State_shiftGo_keeps (s : State) (d k wir len : Nat) {s_ : State} (hks : Keeps s_ s) :
    Keeps s_ (State.shiftGo s d k wir len).1 := by
  unfold State.shiftGo
  with_reducible
    repeat' (first
      | assumption
      | lift_lets
      | (intro x; refine (fun (hx : Keeps s_ x) => ?_) ?_; clear_value x; rotate_left; unfold x; rotate_right)
      | (intro x; clear_value x)
      | apply State_updHbm_keeps
      | apply State_setRg_keeps
      | apply State_configBusy_keeps
      | apply keeps_ite1
      | apply keeps_ite
      | (apply keeps_mk; assumption)
      | (intro _))

/-- `execHbm1500Go` keeps them. -/
theorem execHbm1500Go_keeps (d k wir len : Nat) (s : State) {s_ : State} (hks : Keeps s_ s) :
    KeepsO s_ (execHbm1500Go d k wir len s) := by
  unfold execHbm1500Go
  with_reducible
    repeat' (first
      | assumption
      | apply State_shiftGo_keeps
      | apply keepsO_next)

/-- `State.shiftDone` keeps them. -/
theorem State_shiftDone_keeps (s : State) (d k out : Nat) {s_ : State} (hks : Keeps s_ s) :
    Keeps s_ (State.shiftDone s d k out) := by
  unfold State.shiftDone
  with_reducible
    repeat' (first
      | assumption
      | lift_lets
      | (intro x; refine (fun (hx : Keeps s_ x) => ?_) ?_; clear_value x; rotate_left; unfold x; rotate_right)
      | (intro x; clear_value x)
      | apply forEach_keeps
      | apply State_updHbm_keeps
      | apply State_setFld_keeps
      | apply keeps_ite
      | (apply keeps_mk; assumption)
      | (intro _))

/-- `execHbm1500Done` keeps them. -/
theorem execHbm1500Done_keeps (d k out : Nat) (s : State) {s_ : State} (hks : Keeps s_ s) :
    KeepsO s_ (execHbm1500Done d k out s) := by
  unfold execHbm1500Done
  with_reducible
    repeat' (first
      | assumption
      | apply State_shiftDone_keeps
      | apply keepsO_ite
      | apply keepsO_next
      | apply keeps_ite)

/-- `State.noteTrained` keeps them. -/
theorem State_noteTrained_keeps (s : State) (d k : Nat) {s_ : State} (hks : Keeps s_ s) :
    Keeps s_ (State.noteTrained s d k) := by
  unfold State.noteTrained
  with_reducible
    repeat' (first
      | assumption
      | lift_lets
      | (intro x; refine (fun (hx : Keeps s_ x) => ?_) ?_; clear_value x; rotate_left; unfold x; rotate_right)
      | (intro x; clear_value x)
      | apply State_setFld_keeps
      | apply keeps_ite)

/-- `State.hbmBringup` keeps them. -/
theorem State_hbmBringup_keeps (s : State) (d k fails : Nat) {s_ : State} (hks : Keeps s_ s) :
    Keeps s_ (State.hbmBringup s d k fails) := by
  unfold State.hbmBringup
  with_reducible
    repeat' (first
      | assumption
      | lift_lets
      | (intro x; refine (fun (hx : Keeps s_ x) => ?_) ?_; clear_value x; rotate_left; unfold x; rotate_right)
      | (intro x; clear_value x)
      | apply State_updHbm_keeps
      | apply State_setFld_keeps
      | apply State_raise_keeps
      | apply State_setFreeMin_keeps
      | apply State_zeroStack_keeps
      | apply State_noteTrained_keeps
      | apply keeps_ite
      | (apply keeps_mk; assumption)
      | (intro _))

/-- `execHbmBringup` keeps them. -/
theorem execHbmBringup_keeps (d k fails : Nat) (s : State) {s_ : State} (hks : Keeps s_ s) :
    KeepsO s_ (execHbmBringup d k fails s) := by
  unfold execHbmBringup
  with_reducible
    repeat' (first
      | assumption
      | apply State_hbmBringup_keeps
      | apply keepsO_next)

/-- `State.hbmSleep` keeps them. -/
theorem State_hbmSleep_keeps (s : State) (d k : Nat) {s_ : State} (hks : Keeps s_ s) :
    Keeps s_ (State.hbmSleep s d k) := by
  unfold State.hbmSleep
  with_reducible
    repeat' (first
      | assumption
      | apply State_setFld_keeps
      | apply State_flushSb_keeps)

/-- `State.hbmWake` keeps them. -/
theorem State_hbmWake_keeps (s : State) (d k : Nat) {s_ : State} (hks : Keeps s_ s) :
    Keeps s_ (State.hbmWake s d k) := by
  unfold State.hbmWake
  with_reducible
    repeat' (first
      | assumption
      | apply State_updHbm_keeps
      | apply State_setFld_keeps
      | apply keeps_ite
      | (apply keeps_mk; assumption)
      | (intro _))

/-- `State.secRaise` keeps them. -/
theorem State_secRaise_keeps (s : State) (d cause typ check : Nat) (c : Cls) {s_ : State} (hks : Keeps s_ s) :
    Keeps s_ (State.secRaise s d cause typ check c) := by
  unfold State.secRaise
  with_reducible
    repeat' (first
      | assumption
      | apply State_cause_keeps
      | apply State_raise_keeps)

/-- `State.recFails` keeps them. -/
theorem State_recFails_keeps (s : State) (d cause typ check : Nat) (c : Cls) {s_ : State} (hks : Keeps s_ s) :
    Keeps s_ (State.recFails s d cause typ check c) := by
  unfold State.recFails
  with_reducible
    repeat' (first
      | assumption
      | lift_lets
      | (intro x; refine (fun (hx : Keeps s_ x) => ?_) ?_; clear_value x; rotate_left; unfold x; rotate_right)
      | (intro x; clear_value x)
      | apply State_cause_keeps
      | apply State_secRaise_keeps
      | apply keeps_ite)

/-- `State.loadRec` keeps them. -/
theorem State_loadRec_keeps (s : State) (r : FlashRec) {s_ : State} (hks : Keeps s_ s) :
    Keeps s_ (State.loadRec s r) := by
  unfold State.loadRec
  with_reducible
    repeat' (first
      | assumption
      | apply State_updMod_keeps
      | apply keeps_ite
      | (intro _))

/-- `State.fieldWrite` keeps them. -/
theorem State_fieldWrite_keeps (s : State) (t d : Nat) (pay : List Byte) {s_ : State} (hks : Keeps s_ s) :
    Keeps s_ (State.fieldWrite s t d pay) := by
  unfold State.fieldWrite
  with_reducible
    repeat' (first
      | assumption
      | lift_lets
      | (intro x; refine (fun (hx : Keeps s_ x) => ?_) ?_; clear_value x; rotate_left; unfold x; rotate_right)
      | (intro x; clear_value x)
      | apply State_updMod_keeps
      | (apply keeps_mk; assumption)
      | (intro _))

/-- `State.vfLoad` keeps them. -/
theorem State_vfLoad_keeps (s : State) (d p : Nat) (pay : List Byte) {s_ : State} (hks : Keeps s_ s) :
    Keeps s_ (State.vfLoad s d p pay) := by
  unfold State.vfLoad
  with_reducible
    repeat' (first
      | assumption
      | lift_lets
      | (intro x; refine (fun (hx : Keeps s_ x) => ?_) ?_; clear_value x; rotate_left; unfold x; rotate_right)
      | (intro x; clear_value x)
      | apply State_updPh_keeps
      | apply State_setFld_keeps
      | apply foldl_keeps
      | apply foldl_keeps1
      | (apply keeps_mk; assumption)
      | (intro _))

/-- `State.vfMissing` keeps them. -/
theorem State_vfMissing_keeps (s : State) (d p : Nat) {s_ : State} (hks : Keeps s_ s) :
    Keeps s_ (State.vfMissing s d p) := by
  unfold State.vfMissing
  with_reducible
    repeat' (first
      | assumption
      | lift_lets
      | (intro x; refine (fun (hx : Keeps s_ x) => ?_) ?_; clear_value x; rotate_left; unfold x; rotate_right)
      | (intro x; clear_value x)
      | apply State_setFld_keeps)

/-- `State.loadItems` keeps them. -/
theorem State_loadItems_keeps (s : State) (d k : Nat) (bs : List Byte) {s_ : State} (hks : Keeps s_ s) :
    Keeps s_ (State.loadItems s d k bs).1 := by
  unfold State.loadItems
  with_reducible
    repeat' (first
      | assumption
      | lift_lets
      | (intro x; refine (fun (hx : Keeps s_ x) => ?_) ?_; clear_value x; rotate_left; unfold x; rotate_right)
      | (intro x; clear_value x)
      | apply State_updHbm_keeps
      | apply State_setRg_keeps
      | apply foldl_keeps
      | apply foldl_keeps1
      | (apply keeps_mk; assumption)
      | (intro _))

/-- `State.loadCluster` keeps them. -/
theorem State_loadCluster_keeps (s : State) (d p : Nat) (pay : List Byte) {s_ : State} (hks : Keeps s_ s) :
    Keeps s_ (State.loadCluster s d p pay) := by
  unfold State.loadCluster
  with_reducible
    repeat' (first
      | assumption
      | lift_lets
      | (intro x; refine (fun (hx : Keeps s_ x) => ?_) ?_; clear_value x; rotate_left; unfold x; rotate_right)
      | (intro x; clear_value x)
      | apply State_updPh_keeps
      | apply State_setFld_keeps
      | apply State_setRailSt_keeps
      | apply State_setLogical_keeps
      | apply keeps_ite
      | (apply keeps_mk; assumption)
      | (intro _))

/-- `State.loadRepair` keeps them. -/
theorem State_loadRepair_keeps (s : State) (d : Nat) (pay : List Byte) {s_ : State} (hks : Keeps s_ s) :
    Keeps s_ (State.loadRepair s d pay) := by
  unfold State.loadRepair
  with_reducible
    repeat' (first
      | assumption
      | lift_lets
      | (intro x; refine (fun (hx : Keeps s_ x) => ?_) ?_; clear_value x; rotate_left; unfold x; rotate_right)
      | (intro x; refine (fun (hx : Keeps s_ x.1) => ?_) ?_; clear_value x; rotate_left; unfold x; rotate_right)
      | (intro x; clear_value x)
      | apply forEach_keeps
      | apply State_setRg_keeps
      | apply State_setFld_keeps
      | apply State_updMod_keeps
      | apply State_loadItems_keeps
      | apply State_loadCluster_keeps
      | (intro _))

/-- `State.setStage` keeps them. -/
theorem State_setStage_keeps (s : State) (v : Nat) {s_ : State} (hks : Keeps s_ s) :
    Keeps s_ (State.setStage s v) := by
  unfold State.setStage
  with_reducible
    repeat' (first
      | assumption
      | apply State_setFld_keeps)

/-- `State.rstFall` keeps them. -/
theorem State_rstFall_keeps (s : State) {s_ : State} (hks : Keeps s_ s) :
    Keeps s_ (State.rstFall s) := by
  unfold State.rstFall
  with_reducible
    repeat' (first
      | assumption
      | apply State_updMod_keeps
      | apply State_coreReset_keeps
      | (apply keeps_mk; assumption)
      | (intro _))

/-- `execRstNFall` keeps them. -/
theorem execRstNFall_keeps (s : State) {s_ : State} (hks : Keeps s_ s) :
    KeepsO s_ (execRstNFall s) := by
  unfold execRstNFall
  with_reducible
    repeat' (first
      | assumption
      | apply State_rstFall_keeps
      | apply keepsO_next)

/-- `State.pendStart` keeps them. -/
theorem State_pendStart_keeps (s : State) {s_ : State} (hks : Keeps s_ s) :
    Keeps s_ (State.pendStart s) := by
  unfold State.pendStart
  with_reducible
    repeat' (first
      | assumption
      | lift_lets
      | (intro x; refine (fun (hx : Keeps s_ x) => ?_) ?_; clear_value x; rotate_left; unfold x; rotate_right)
      | (intro x; clear_value x)
      | apply forEach_keeps
      | apply State_updMod_keeps
      | apply State_secRaise_keeps
      | (apply keeps_mk; assumption)
      | (intro _))

/-- `State.loadFirmware` keeps them. -/
theorem State_loadFirmware_keeps (s : State) (t d logDie : Nat) {s_ : State} (hks : Keeps s_ s) :
    Keeps s_ (State.loadFirmware s t d logDie).1 := by
  unfold State.loadFirmware
  with_reducible
    repeat' (first
      | assumption
      | lift_lets
      | (intro x; refine (fun (hx : Keeps s_ x) => ?_) ?_; clear_value x; rotate_left; unfold x; rotate_right)
      | (intro x; refine (fun (hx : Keeps s_ x.1) => ?_) ?_; clear_value x; rotate_left; unfold x; rotate_right)
      | (intro x; refine (fun (hx : ∀ y, Keeps s_ (x y)) => ?_) ?_; clear_value x; rotate_left; unfold x; rotate_right)
      | (intro x; clear_value x)
      | apply State_updMod_keeps
      | apply State_recFails_keeps
      | apply State_loadRec_keeps
      | apply keeps_ite1
      | apply keeps_ite
      | (apply keeps_mk; first | assumption | apply State_updMod_keeps | apply State_recFails_keeps | apply State_loadRec_keeps)
      | (intro _)
      | split
      | (dsimp only; split)
      | (refine keeps_fst_eq (by assumption) ?_))

/-- `State.loadOne` keeps them. -/
theorem State_loadOne_keeps (s : State) (t : Nat) (wanted : Bool) {s_ : State} (hks : Keeps s_ s) :
    Keeps s_ (State.loadOne s t wanted).1 := by
  unfold State.loadOne
  with_reducible
    repeat' (first
      | assumption
      | lift_lets
      | (intro x; refine (fun (hx : Keeps s_ x) => ?_) ?_; clear_value x; rotate_left; unfold x; rotate_right)
      | (intro x; clear_value x)
      | apply State_recFails_keeps
      | apply State_loadRec_keeps
      | apply keeps_ite1
      | apply keeps_ite
      | split
      | (refine keeps_fst_eq (by assumption) ?_))

/-- `State.loadModule` keeps them. -/
theorem State_loadModule_keeps (s : State) {s_ : State} (hks : Keeps s_ s) :
    Keeps s_ (State.loadModule s) := by
  unfold State.loadModule
  with_reducible
    repeat' (first
      | assumption
      | lift_lets
      | (intro x; refine (fun (hx : Keeps s_ x) => ?_) ?_; clear_value x; rotate_left; unfold x; rotate_right)
      | (intro x; refine (fun (hx : Keeps s_ x.1) => ?_) ?_; clear_value x; rotate_left; unfold x; rotate_right)
      | (intro x; clear_value x)
      | apply State_setFld_keeps
      | apply State_updMod_keeps
      | apply State_loadOne_keeps
      | apply keeps_ite
      | (apply keeps_mk; assumption)
      | (intro _)
      | split
      | (refine keeps_fst_eq (by assumption) ?_))

/-- `State.startUp` keeps them. -/
theorem State_startUp_keeps (s : State) (slot : Nat) (recs : List FlashRec) (mcBad : Bool) {s_ : State} (hks : Keeps s_ s) :
    Keeps s_ (State.startUp s slot recs mcBad) := by
  unfold State.startUp
  with_reducible
    repeat' (first
      | assumption
      | lift_lets
      | (intro x; refine (fun (hx : Keeps s_ x) => ?_) ?_; clear_value x; rotate_left; unfold x; rotate_right)
      | (intro x; refine (fun (hx : Keeps s_ x.1) => ?_) ?_; clear_value x; rotate_left; unfold x; rotate_right)
      | (intro x; clear_value x)
      | apply State_updMod_keeps
      | apply State_modRaise_keeps
      | apply State_recFails_keeps
      | apply State_setStage_keeps
      | apply State_coreReset_keeps
      | apply State_pendStart_keeps
      | apply State_loadFirmware_keeps
      | apply State_loadModule_keeps
      | apply keeps_ite
      | (apply keeps_mk; assumption)
      | (intro _)
      | split
      | (refine keeps_fst_eq (by assumption) ?_))

/-- `execStartUp` keeps them. -/
theorem execStartUp_keeps (slot : Nat) (recs : List FlashRec) (mcBad : Bool) (s : State) {s_ : State} (hks : Keeps s_ s) :
    KeepsO s_ (execStartUp slot recs mcBad s) := by
  unfold execStartUp
  with_reducible
    repeat' (first
      | assumption
      | apply State_startUp_keeps
      | apply keepsO_next)

/-- `State.stageTimeout` keeps them. -/
theorem State_stageTimeout_keeps (s : State) {s_ : State} (hks : Keeps s_ s) :
    Keeps s_ (State.stageTimeout s) := by
  unfold State.stageTimeout
  with_reducible
    repeat' (first
      | assumption
      | apply State_secRaise_keeps
      | apply State_setStage_keeps
      | apply keeps_ite)

/-- `execBootStageTimeout` keeps them. -/
theorem execBootStageTimeout_keeps (s : State) {s_ : State} (hks : Keeps s_ s) :
    KeepsO s_ (execBootStageTimeout s) := by
  unfold execBootStageTimeout
  with_reducible
    repeat' (first
      | assumption
      | apply State_stageTimeout_keeps
      | apply keepsO_next)

/-- `State.needRec` keeps them. -/
theorem State_needRec_keeps (s : State) (d t : Nat) (x : Option FlashRec × Option Nat) {s_ : State} (hks : Keeps s_ s) :
    Keeps s_ (State.needRec s d t x).1 := by
  unfold State.needRec
  with_reducible
    repeat' (first
      | assumption
      | apply State_recFails_keeps
      | apply State_loadRec_keeps
      | split
      | (refine keeps_fst_eq (by assumption) ?_))

/-- `State.badCluster` keeps them. -/
theorem State_badCluster_keeps (s : State) (d p : Nat) {s_ : State} (hks : Keeps s_ s) :
    Keeps s_ (State.badCluster s d p) := by
  unfold State.badCluster
  with_reducible
    repeat' (first
      | assumption
      | lift_lets
      | (intro x; refine (fun (hx : Keeps s_ x) => ?_) ?_; clear_value x; rotate_left; unfold x; rotate_right)
      | (intro x; clear_value x)
      | apply State_updPh_keeps
      | apply State_raise_keeps
      | apply State_updMod_keeps
      | apply State_setRailSt_keeps
      | apply State_setLogical_keeps
      | apply State_modRaise_keeps
      | apply State_repairDue_keeps
      | apply State_noSpare_keeps
      | apply keeps_ite
      | (apply keeps_mk; assumption)
      | (intro _)
      | split
      | (refine keeps_fst_eq (by assumption) ?_))

/-- `State.loadMac` keeps them. -/
theorem State_loadMac_keeps (s : State) (d : Nat) {s_ : State} (hks : Keeps s_ s) :
    Keeps s_ (State.loadMac s d) := by
  unfold State.loadMac
  with_reducible
    repeat' (first
      | assumption
      | lift_lets
      | (intro x; refine (fun (hx : Keeps s_ x) => ?_) ?_; clear_value x; rotate_left; unfold x; rotate_right)
      | (intro x; clear_value x)
      | apply forEach_keeps
      | apply State_setReg_keeps
      | apply State_setShad_keeps
      | (intro _)
      | split
      | (refine keeps_fst_eq (by assumption) ?_))

/-- `State.dieStarts` keeps them. -/
theorem State_dieStarts_keeps (s : State) (d slot : Nat) {s_ : State} (hks : Keeps s_ s) :
    Keeps s_ (State.dieStarts s d slot) := by
  unfold State.dieStarts
  with_reducible
    repeat' (first
      | assumption
      | lift_lets
      | (intro x; refine (fun (hx : Keeps s_ x) => ?_) ?_; clear_value x; rotate_left; unfold x; rotate_right)
      | (intro x; clear_value x)
      | apply State_updDie_keeps
      | apply State_setReg_keeps
      | apply State_setShad_keeps
      | apply State_setFld_keeps
      | apply State_setStage_keeps
      | apply State_loadMac_keeps
      | apply keeps_ite
      | (apply keeps_mk; assumption)
      | (intro _))

/-- `State.loadVf` keeps them. -/
theorem State_loadVf_keeps (s : State) (d : Nat) {s_ : State} (hks : Keeps s_ s) :
    Keeps s_ (State.loadVf s d) := by
  unfold State.loadVf
  with_reducible
    repeat' (first
      | assumption
      | apply forEach_keeps
      | apply State_recFails_keeps
      | apply State_loadRec_keeps
      | apply State_vfLoad_keeps
      | apply State_vfMissing_keeps
      | (intro _)
      | split
      | (refine keeps_fst_eq (by assumption) ?_))

/-- `State.dieRelease` keeps them. -/
theorem State_dieRelease_keeps (s : State) (d : Nat) (clk : Bool) (bad : List Nat) (dieBad : Bool) {s_ : State} (hks : Keeps s_ s) :
    Keeps s_ (State.dieRelease s d clk bad dieBad) := by
  unfold State.dieRelease
  with_reducible
    repeat' (first
      | assumption
      | lift_lets
      | (intro x; refine (fun (hx : Keeps s_ x) => ?_) ?_; clear_value x; rotate_left; unfold x; rotate_right)
      | (intro x; refine (fun (hx : Keeps s_ x.1) => ?_) ?_; clear_value x; rotate_left; unfold x; rotate_right)
      | (intro x; clear_value x)
      | apply forEach_keeps
      | apply State_raise_keeps
      | apply State_updMod_keeps
      | apply State_secRaise_keeps
      | apply State_recFails_keeps
      | apply State_loadRepair_keeps
      | apply State_loadFirmware_keeps
      | apply State_needRec_keeps
      | apply State_badCluster_keeps
      | apply State_dieStarts_keeps
      | apply State_loadVf_keeps
      | apply keeps_ite
      | (apply keeps_mk; assumption)
      | (intro _)
      | split
      | (refine keeps_fst_eq (by assumption) ?_))

/-- `execDieRelease` keeps them. -/
theorem execDieRelease_keeps (d : Nat) (clk : Bool) (bad : List Nat) (dieBad : Bool) (s : State) {s_ : State} (hks : Keeps s_ s) :
    KeepsO s_ (execDieRelease d clk bad dieBad s) := by
  unfold execDieRelease
  with_reducible
    repeat' (first
      | assumption
      | apply State_dieRelease_keeps
      | apply keepsO_next)

/-- `State.moduleReady` keeps them. -/
theorem State_moduleReady_keeps (s : State) {s_ : State} (hks : Keeps s_ s) :
    Keeps s_ (State.moduleReady s) := by
  unfold State.moduleReady
  with_reducible
    repeat' (first
      | assumption
      | lift_lets
      | (intro x; refine (fun (hx : Keeps s_ x) => ?_) ?_; clear_value x; rotate_left; unfold x; rotate_right)
      | (intro x; clear_value x)
      | apply forEach_keeps
      | apply State_setFld_keeps
      | apply State_updMod_keeps
      | apply State_setStage_keeps
      | apply keeps_ite
      | (apply keeps_mk; assumption)
      | (intro _))

/-- `execModuleReady` keeps them. -/
theorem execModuleReady_keeps (s : State) {s_ : State} (hks : Keeps s_ s) :
    KeepsO s_ (execModuleReady s) := by
  unfold execModuleReady
  with_reducible
    repeat' (first
      | assumption
      | apply State_moduleReady_keeps
      | apply keepsO_next)

/-- `State.secStart` keeps them. -/
theorem State_secStart_keeps (s : State) (op : Nat) {s_ : State} (hks : Keeps s_ s) :
    Keeps s_ (State.secStart s op) := by
  unfold State.secStart
  with_reducible
    repeat' (first
      | assumption
      | apply State_setFld_keeps
      | apply State_updMod_keeps
      | (apply keeps_mk; assumption)
      | (intro _))

/-- `State.secCmd` keeps them. -/
theorem State_secCmd_keeps (s : State) (op : Nat) {s_ : State} (hks : Keeps s_ s) :
    Keeps s_ (State.secCmd s op).1 := by
  unfold State.secCmd
  with_reducible
    repeat' (first
      | assumption
      | apply State_configBusy_keeps
      | apply State_updMod_keeps
      | apply State_secStart_keeps
      | apply keeps_ite1
      | apply keeps_ite
      | (apply keeps_mk; assumption)
      | (intro _))

/-- `State.secCode` keeps them. -/
theorem State_secCode_keeps (s : State) (op code len : Nat) {s_ : State} (hks : Keeps s_ s) :
    Keeps s_ (State.secCode s op code len) := by
  unfold State.secCode
  with_reducible
    repeat' (first
      | assumption
      | apply State_updMod_keeps
      | (apply keeps_mk; assumption)
      | (intro _))

/-- `State.secRun` keeps them. -/
theorem State_secRun_keeps (s : State) (op : Nat) (f : State → State) {s_ : State} (hks : Keeps s_ s) (hff : ∀ z0, Keeps s_ z0 → Keeps s_ (f z0)) :
    Keeps s_ (State.secRun s op f) := by
  unfold State.secRun
  with_reducible
    repeat' (first
      | assumption
      | apply State_configBusy_keeps
      | apply State_secStart_keeps
      | apply hff
      | apply keeps_ite)

/-- `State.secRefuse` keeps them. -/
theorem State_secRefuse_keeps (s : State) (op code typ : Nat) {s_ : State} (hks : Keeps s_ s) :
    Keeps s_ (State.secRefuse s op code typ) := by
  unfold State.secRefuse
  with_reducible
    repeat' (first
      | assumption
      | apply State_secRaise_keeps
      | apply State_secCode_keeps
      | apply keeps_ite)

/-- `State.doUpdate` keeps them. -/
theorem State_doUpdate_keeps (s : State) (rec : Option FlashRec) (wr : Bool) {s_ : State} (hks : Keeps s_ s) :
    Keeps s_ (State.doUpdate s rec wr) := by
  unfold State.doUpdate
  with_reducible
    repeat' (first
      | assumption
      | lift_lets
      | (intro x; refine (fun (hx : Keeps s_ x) => ?_) ?_; clear_value x; rotate_left; unfold x; rotate_right)
      | (intro x; clear_value x)
      | apply State_updMod_keeps
      | apply State_secCode_keeps
      | apply State_secRefuse_keeps
      | apply keeps_ite
      | (apply keeps_mk; assumption)
      | (intro _)
      | split
      | (refine keeps_fst_eq (by assumption) ?_))

/-- `execUpdate` keeps them. -/
theorem execUpdate_keeps (rec : Option FlashRec) (wr : Bool) (s : State) {s_ : State} (hks : Keeps s_ s) :
    KeepsO s_ (execUpdate rec wr s) := by
  unfold execUpdate
  with_reducible
    repeat' (first
      | assumption
      | apply State_secRun_keeps
      | apply State_doUpdate_keeps
      | apply keepsO_next
      | (intro _))

/-- `State.doCommit` keeps them. -/
theorem State_doCommit_keeps (s : State) (wr : Bool) {s_ : State} (hks : Keeps s_ s) :
    Keeps s_ (State.doCommit s wr) := by
  unfold State.doCommit
  with_reducible
    repeat' (first
      | assumption
      | lift_lets
      | (intro x; refine (fun (hx : Keeps s_ x) => ?_) ?_; clear_value x; rotate_left; unfold x; rotate_right)
      | (intro x; clear_value x)
      | apply State_updMod_keeps
      | apply State_secRaise_keeps
      | apply State_secCode_keeps
      | apply foldl_keeps
      | apply foldl_keeps1
      | apply keeps_ite
      | (apply keeps_mk; assumption)
      | (intro _))

/-- `execCommit` keeps them. -/
theorem execCommit_keeps (wr : Bool) (s : State) {s_ : State} (hks : Keeps s_ s) :
    KeepsO s_ (execCommit wr s) := by
  unfold execCommit
  with_reducible
    repeat' (first
      | assumption
      | apply State_secRun_keeps
      | apply State_doCommit_keeps
      | apply keepsO_next
      | (intro _))

/-- `State.putHost` keeps them. -/
theorem State_putHost_keeps (s : State) (a : Nat) (bs : List Byte) {s_ : State} (hks : Keeps s_ s) :
    Keeps s_ (State.putHost s a bs) := by
  unfold State.putHost
  with_reducible
    repeat' (first
      | assumption
      | lift_lets
      | (intro x; refine (fun (hx : Keeps s_ x) => ?_) ?_; clear_value x; rotate_left; unfold x; rotate_right)
      | (intro x; refine (fun (hx : Keeps s_ x.1) => ?_) ?_; clear_value x; rotate_left; unfold x; rotate_right)
      | (intro x; clear_value x)
      | apply forEach_keeps
      | apply State_hostWrite_keeps
      | apply State_hostMerge_keeps
      | apply keeps_ite
      | (intro _))

/-- `State.doAttest` keeps them. -/
theorem State_doAttest_keeps (s : State) (nonce : Option (List Byte)) (sig : List Byte) (wr : Bool) {s_ : State} (hks : Keeps s_ s) :
    Keeps s_ (State.doAttest s nonce sig wr) := by
  unfold State.doAttest
  with_reducible
    repeat' (first
      | assumption
      | lift_lets
      | (intro x; refine (fun (hx : Keeps s_ x) => ?_) ?_; clear_value x; rotate_left; unfold x; rotate_right)
      | (intro x; clear_value x)
      | apply State_secCode_keeps
      | apply State_putHost_keeps
      | apply keeps_ite
      | split
      | (refine keeps_fst_eq (by assumption) ?_))

/-- `execAttest` keeps them. -/
theorem execAttest_keeps (nonce : Option (List Byte)) (sig : List Byte) (wr : Bool) (s : State) {s_ : State} (hks : Keeps s_ s) :
    KeepsO s_ (execAttest nonce sig wr s) := by
  unfold execAttest
  with_reducible
    repeat' (first
      | assumption
      | apply State_secRun_keeps
      | apply State_doAttest_keeps
      | apply keepsO_next
      | (intro _))

/-- `State.ownerPut` keeps them. -/
theorem State_ownerPut_keeps (s : State) (r : FlashRec) {s_ : State} (hks : Keeps s_ s) :
    Keeps s_ (State.ownerPut s r) := by
  unfold State.ownerPut
  with_reducible
    repeat' (first
      | assumption
      | lift_lets
      | (intro x; refine (fun (hx : Keeps s_ x) => ?_) ?_; clear_value x; rotate_left; unfold x; rotate_right)
      | (intro x; clear_value x)
      | apply State_setFld_keeps
      | apply State_updMod_keeps
      | apply keeps_ite
      | (apply keeps_mk; assumption)
      | (intro _))

/-- `State.doOwner` keeps them. -/
theorem State_doOwner_keeps (s : State) (rec : Option FlashRec) (wr : Bool) {s_ : State} (hks : Keeps s_ s) :
    Keeps s_ (State.doOwner s rec wr) := by
  unfold State.doOwner
  with_reducible
    repeat' (first
      | assumption
      | apply State_secCode_keeps
      | apply State_secRefuse_keeps
      | apply State_ownerPut_keeps
      | apply keeps_ite
      | split
      | (refine keeps_fst_eq (by assumption) ?_))

/-- `execOwnerInstall` keeps them. -/
theorem execOwnerInstall_keeps (rec : Option FlashRec) (wr : Bool) (s : State) {s_ : State} (hks : Keeps s_ s) :
    KeepsO s_ (execOwnerInstall rec wr s) := by
  unfold execOwnerInstall
  with_reducible
    repeat' (first
      | assumption
      | apply State_secRun_keeps
      | apply State_doOwner_keeps
      | apply keepsO_next
      | (intro _))

/-- `State.secEnd` keeps them. -/
theorem State_secEnd_keeps (s : State) {s_ : State} (hks : Keeps s_ s) :
    Keeps s_ (State.secEnd s) := by
  unfold State.secEnd
  with_reducible
    repeat' (first
      | assumption
      | lift_lets
      | (intro x; refine (fun (hx : Keeps s_ x) => ?_) ?_; clear_value x; rotate_left; unfold x; rotate_right)
      | (intro x; clear_value x)
      | apply State_setRg_keeps
      | apply State_setFld_keeps
      | apply State_setStat_keeps
      | apply State_updMod_keeps
      | apply keeps_ite
      | (apply keeps_mk; assumption)
      | (intro _)
      | split
      | (refine keeps_fst_eq (by assumption) ?_))

/-- `execSecCommandEnd` keeps them. -/
theorem execSecCommandEnd_keeps (s : State) {s_ : State} (hks : Keeps s_ s) :
    KeepsO s_ (execSecCommandEnd s) := by
  unfold execSecCommandEnd
  with_reducible
    repeat' (first
      | assumption
      | apply State_secEnd_keeps
      | apply keepsO_next)

/-- `State.darkStep` keeps them. -/
theorem State_darkStep_keeps (s : State) (f : Flight) (l : Nat) {s_ : State} (hks : Keeps s_ s) :
    Keeps s_ (State.darkStep s f l) := by
  unfold State.darkStep
  with_reducible
    repeat' (first
      | assumption
      | lift_lets
      | (intro x; refine (fun (hx : Keeps s_ x) => ?_) ?_; clear_value x; rotate_left; unfold x; rotate_right)
      | (intro x; refine (fun (hx : Keeps s_ x.1) => ?_) ?_; clear_value x; rotate_left; unfold x; rotate_right)
      | (intro x; clear_value x)
      | apply State_fresh_keeps
      | apply State_trap_keeps
      | apply State_failFlight_keeps)

/-- `State.darkSteps` keeps them. -/
theorem State_darkSteps_keeps (s : State) (d l : Nat) {s_ : State} (hks : Keeps s_ s) :
    Keeps s_ (State.darkSteps s d l) := by
  unfold State.darkSteps
  with_reducible
    repeat' (first
      | assumption
      | apply forEach_keeps
      | apply State_darkStep_keeps
      | (intro _))

/-- `State.goDark` keeps them. -/
theorem State_goDark_keeps (s : State) (d p : Nat) {s_ : State} (hks : Keeps s_ s) :
    Keeps s_ (State.goDark s d p) := by
  unfold State.goDark
  with_reducible
    repeat' (first
      | assumption
      | lift_lets
      | (intro x; refine (fun (hx : Keeps s_ x) => ?_) ?_; clear_value x; rotate_left; unfold x; rotate_right)
      | (intro x; refine (fun (hx : Keeps s_ x.1) => ?_) ?_; clear_value x; rotate_left; unfold x; rotate_right)
      | (intro x; clear_value x)
      | apply State_updDie_keeps
      | apply State_updPh_keeps
      | apply State_setRailSt_keeps
      | apply State_darkSteps_keeps
      | apply keeps_ite
      | (apply keeps_mk; assumption)
      | (intro _))

/-- `State.railLost` keeps them. -/
theorem State_railLost_keeps (s : State) (d p ph : Nat) {s_ : State} (hks : Keeps s_ s) :
    Keeps s_ (State.railLost s d p ph) := by
  unfold State.railLost
  with_reducible
    repeat' (first
      | assumption
      | lift_lets
      | (intro x; refine (fun (hx : Keeps s_ x) => ?_) ?_; clear_value x; rotate_left; unfold x; rotate_right)
      | (intro x; clear_value x)
      | apply State_raise_keeps
      | apply State_physTrigger_keeps
      | apply State_spareFailed_keeps
      | apply State_goDark_keeps
      | apply keeps_ite)

/-- `State.stopContexts` keeps them. -/
theorem State_stopContexts_keeps (s : State) {s_ : State} (hks : Keeps s_ s) :
    Keeps s_ (State.stopContexts s) := by
  unfold State.stopContexts
  with_reducible
    repeat' (first
      | assumption
      | (intro x; refine (fun (hx : Keeps s_ x) => ?_) ?_; clear_value x; rotate_left; unfold x; rotate_right)
      | (intro x; refine (fun (hx : Keeps s_ x.1) => ?_) ?_; clear_value x; rotate_left; unfold x; rotate_right)
      | (intro x; refine (fun (hx : ∀ y, Keeps s_ (x y)) => ?_) ?_; clear_value x; rotate_left; unfold x; rotate_right)
      | (intro x; clear_value x)
      | split
      | apply forEach_keeps
      | apply State_updCtx_keeps
      | apply keeps_ite
      | apply keeps_ite1
      | (apply keeps_mk; first | assumption | apply forEach_keeps | apply State_updCtx_keeps)
      | (intro _)
      | lift_lets
      | (refine keeps_fst_eq (by assumption) ?_))

/-- `State.stopWork` keeps them. -/
theorem State_stopWork_keeps (s : State) (d : Nat) {s_ : State} (hks : Keeps s_ s) :
    Keeps s_ (State.stopWork s d) := by
  unfold State.stopWork
  with_reducible
    repeat' (first
      | assumption
      | lift_lets
      | (intro x; refine (fun (hx : Keeps s_ x) => ?_) ?_; clear_value x; rotate_left; unfold x; rotate_right)
      | (intro x; clear_value x)
      | apply forEach_keeps
      | apply State_dropFlight_keeps
      | apply State_abandonCtx_keeps
      | apply State_failFlight_keeps
      | (intro _))

/-- `State.stopPorts` keeps them. -/
theorem State_stopPorts_keeps (s : State) (d : Nat) {s_ : State} (hks : Keeps s_ s) :
    Keeps s_ (State.stopPorts s d) := by
  unfold State.stopPorts
  with_reducible
    repeat' (first
      | assumption
      | (intro x; refine (fun (hx : Keeps s_ x) => ?_) ?_; clear_value x; rotate_left; unfold x; rotate_right)
      | (intro x; refine (fun (hx : Keeps s_ x.1) => ?_) ?_; clear_value x; rotate_left; unfold x; rotate_right)
      | (intro x; refine (fun (hx : ∀ y, Keeps s_ (x y)) => ?_) ?_; clear_value x; rotate_left; unfold x; rotate_right)
      | (intro x; clear_value x)
      | split
      | apply forEach_keeps
      | apply State_portDown_keeps
      | apply State_linkDown_keeps
      | apply keeps_ite
      | apply keeps_ite1
      | (apply keeps_mk; first | assumption | apply forEach_keeps | apply State_portDown_keeps | apply State_linkDown_keeps)
      | (intro _)
      | lift_lets
      | (refine keeps_fst_eq (by assumption) ?_))

/-- `State.dieStop` keeps them. -/
theorem State_dieStop_keeps (s : State) (d : Nat) (b : Blk) (bit : Nat) {s_ : State} (hks : Keeps s_ s) :
    Keeps s_ (State.dieStop s d b bit) := by
  unfold State.dieStop
  with_reducible
    repeat' (first
      | assumption
      | lift_lets
      | (intro x; refine (fun (hx : Keeps s_ x) => ?_) ?_; clear_value x; rotate_left; unfold x; rotate_right)
      | (intro x; clear_value x)
      | apply forEach_keeps
      | apply State_updDie_keeps
      | apply State_putRouter_keeps
      | apply State_putCel_keeps
      | apply State_updPh_keeps
      | apply State_putHbm_keeps
      | apply State_setRg_keeps
      | apply State_setFld_keeps
      | apply State_setStat_keeps
      | apply State_setRailSt_keeps
      | apply State_stopContexts_keeps
      | apply State_stopWork_keeps
      | apply State_stopPorts_keeps
      | apply State_loseMemory_keeps
      | (apply keeps_mk; assumption)
      | (intro _))

/-- `State.moduleStop` keeps them. -/
theorem State_moduleStop_keeps (s : State) (bit : Nat) {s_ : State} (hks : Keeps s_ s) :
    Keeps s_ (State.moduleStop s bit) := by
  unfold State.moduleStop
  with_reducible
    repeat' (first
      | assumption
      | lift_lets
      | (intro x; refine (fun (hx : Keeps s_ x) => ?_) ?_; clear_value x; rotate_left; unfold x; rotate_right)
      | (intro x; refine (fun (hx : Keeps s_ x.1) => ?_) ?_; clear_value x; rotate_left; unfold x; rotate_right)
      | (intro x; clear_value x)
      | apply forEach_keeps
      | apply State_setFld_keeps
      | apply State_updMod_keeps
      | apply State_dieStop_keeps
      | (apply keeps_mk; assumption)
      | (intro _))

/-- `State.codeFor` keeps them. -/
theorem State_codeFor_keeps (s : State) (d p n : Nat) {s_ : State} (hks : Keeps s_ s) :
    Keeps s_ (State.codeFor s d p n) := by
  unfold State.codeFor
  with_reducible
    repeat' (first
      | assumption
      | apply State_setFld_keeps)

/-- `State.freqStart` keeps them. -/
theorem State_freqStart_keeps (s : State) (d p n : Nat) {s_ : State} (hks : Keeps s_ s) :
    Keeps s_ (State.freqStart s d p n) := by
  unfold State.freqStart
  with_reducible
    repeat' (first
      | assumption
      | lift_lets
      | (intro x; refine (fun (hx : Keeps s_ x) => ?_) ?_; clear_value x; rotate_left; unfold x; rotate_right)
      | (intro x; clear_value x)
      | apply State_updPh_keeps
      | apply State_setFld_keeps
      | apply State_codeFor_keeps
      | apply keeps_ite
      | (apply keeps_mk; assumption)
      | (intro _))

/-- `State.deferUp` keeps them. -/
theorem State_deferUp_keeps (s : State) (d p n : Nat) {s_ : State} (hks : Keeps s_ s) :
    Keeps s_ (State.deferUp s d p n) := by
  unfold State.deferUp
  with_reducible
    repeat' (first
      | assumption
      | apply State_updPh_keeps
      | apply State_addRg_keeps
      | (apply keeps_mk; assumption)
      | (intro _))

/-- `State.freqRequest` keeps them. -/
theorem State_freqRequest_keeps (s : State) (d p n : Nat) {s_ : State} (hks : Keeps s_ s) :
    Keeps s_ (State.freqRequest s d p n) := by
  unfold State.freqRequest
  with_reducible
    repeat' (first
      | assumption
      | lift_lets
      | (intro x; refine (fun (hx : Keeps s_ x) => ?_) ?_; clear_value x; rotate_left; unfold x; rotate_right)
      | (intro x; clear_value x)
      | apply State_updPh_keeps
      | apply State_freqStart_keeps
      | apply State_deferUp_keeps
      | apply keeps_ite
      | (apply keeps_mk; assumption)
      | (intro _))

/-- `execFreqChangeRequest` keeps them. -/
theorem execFreqChangeRequest_keeps (d p n : Nat) (s : State) {s_ : State} (hks : Keeps s_ s) :
    KeepsO s_ (execFreqChangeRequest d p n s) := by
  unfold execFreqChangeRequest
  with_reducible
    repeat' (first
      | assumption
      | apply State_freqRequest_keeps
      | apply keepsO_next)

/-- `State.freqRestart` keeps them. -/
theorem State_freqRestart_keeps (s : State) (d p : Nat) {s_ : State} (hks : Keeps s_ s) :
    Keeps s_ (State.freqRestart s d p) := by
  unfold State.freqRestart
  with_reducible
    repeat' (first
      | assumption
      | lift_lets
      | (intro x; refine (fun (hx : Keeps s_ x) => ?_) ?_; clear_value x; rotate_left; unfold x; rotate_right)
      | (intro x; clear_value x)
      | apply State_updPh_keeps
      | apply State_setFld_keeps
      | apply State_addRg_keeps
      | apply State_codeFor_keeps
      | apply State_freqRequest_keeps
      | apply keeps_ite
      | (apply keeps_mk; assumption)
      | (intro _)
      | split
      | (refine keeps_fst_eq (by assumption) ?_))

/-- `execFreqChangeRestart` keeps them. -/
theorem execFreqChangeRestart_keeps (d p : Nat) (s : State) {s_ : State} (hks : Keeps s_ s) :
    KeepsO s_ (execFreqChangeRestart d p s) := by
  unfold execFreqChangeRestart
  with_reducible
    repeat' (first
      | assumption
      | apply State_freqRestart_keeps
      | apply keepsO_next)

/-- `State.deferredUp` keeps them. -/
theorem State_deferredUp_keeps (s : State) (d p : Nat) {s_ : State} (hks : Keeps s_ s) :
    Keeps s_ (State.deferredUp s d p) := by
  unfold State.deferredUp
  with_reducible
    repeat' (first
      | assumption
      | apply State_updPh_keeps
      | apply State_deferUp_keeps
      | apply State_freqRequest_keeps
      | apply keeps_ite
      | (apply keeps_mk; assumption)
      | (intro _)
      | split
      | (refine keeps_fst_eq (by assumption) ?_))

/-- `execDeferredIncrease` keeps them. -/
theorem execDeferredIncrease_keeps (d p : Nat) (s : State) {s_ : State} (hks : Keeps s_ s) :
    KeepsO s_ (execDeferredIncrease d p s) := by
  unfold execDeferredIncrease
  with_reducible
    repeat' (first
      | assumption
      | apply State_deferredUp_keeps
      | apply keepsO_next)

/-- `State.fmaxFall` keeps them. -/
theorem State_fmaxFall_keeps (s : State) (d p n : Nat) {s_ : State} (hks : Keeps s_ s) :
    Keeps s_ (State.fmaxFall s d p n) := by
  unfold State.fmaxFall
  with_reducible
    repeat' (first
      | assumption
      | lift_lets
      | (intro x; refine (fun (hx : Keeps s_ x) => ?_) ?_; clear_value x; rotate_left; unfold x; rotate_right)
      | (intro x; clear_value x)
      | apply State_setFld_keeps
      | apply State_physTrigger_keeps
      | apply keeps_ite)

/-- `State.marginSeen` keeps them. -/
theorem State_marginSeen_keeps (s : State) (d p m : Nat) {s_ : State} (hks : Keeps s_ s) :
    Keeps s_ (State.marginSeen s d p m) := by
  unfold State.marginSeen
  with_reducible
    repeat' (first
      | assumption
      | lift_lets
      | (intro x; refine (fun (hx : Keeps s_ x) => ?_) ?_; clear_value x; rotate_left; unfold x; rotate_right)
      | (intro x; clear_value x)
      | apply State_setFld_keeps
      | apply State_raise_keeps
      | apply State_freqRequest_keeps
      | apply State_fmaxFall_keeps
      | apply keeps_ite)

/-- `execMarginWarn` keeps them. -/
theorem execMarginWarn_keeps (d p m : Nat) (s : State) {s_ : State} (hks : Keeps s_ s) :
    KeepsO s_ (execMarginWarn d p m s) := by
  unfold execMarginWarn
  with_reducible
    repeat' (first
      | assumption
      | apply State_marginSeen_keeps
      | apply keepsO_ite
      | apply keepsO_next
      | apply keeps_ite)

/-- `State.oscFallback` keeps them. -/
theorem State_oscFallback_keeps (s : State) (d p : Nat) {s_ : State} (hks : Keeps s_ s) :
    Keeps s_ (State.oscFallback s d p) := by
  unfold State.oscFallback
  with_reducible
    repeat' (first
      | assumption
      | lift_lets
      | (intro x; refine (fun (hx : Keeps s_ x) => ?_) ?_; clear_value x; rotate_left; unfold x; rotate_right)
      | (intro x; clear_value x)
      | apply State_updPh_keeps
      | apply State_setFld_keeps
      | apply State_raise_keeps
      | apply State_codeFor_keeps
      | (apply keeps_mk; assumption)
      | (intro _))

/-- `execOscFallback` keeps them. -/
theorem execOscFallback_keeps (d p : Nat) (s : State) {s_ : State} (hks : Keeps s_ s) :
    KeepsO s_ (execOscFallback d p s) := by
  unfold execOscFallback
  with_reducible
    repeat' (first
      | assumption
      | apply State_oscFallback_keeps
      | apply keepsO_ite
      | apply keepsO_next
      | apply keeps_ite)

/-- `State.pllUnlock` keeps them. -/
theorem State_pllUnlock_keeps (s : State) (d : Nat) {s_ : State} (hks : Keeps s_ s) :
    Keeps s_ (State.pllUnlock s d) := by
  unfold State.pllUnlock
  with_reducible
    repeat' (first
      | assumption
      | apply State_setFld_keeps
      | apply State_raise_keeps
      | apply keeps_ite)

/-- `execPllUnlock` keeps them. -/
theorem execPllUnlock_keeps (d : Nat) (s : State) {s_ : State} (hks : Keeps s_ s) :
    KeepsO s_ (execPllUnlock d s) := by
  unfold execPllUnlock
  with_reducible
    repeat' (first
      | assumption
      | apply State_pllUnlock_keeps
      | apply keepsO_next)

/-- `State.refLost` keeps them. -/
theorem State_refLost_keeps (s : State) {s_ : State} (hks : Keeps s_ s) :
    Keeps s_ (State.refLost s) := by
  unfold State.refLost
  with_reducible
    repeat' (first
      | assumption
      | apply forEach_keeps
      | apply State_raise_keeps
      | apply State_updMod_keeps
      | apply keeps_ite
      | (apply keeps_mk; assumption)
      | (intro _))

/-- `execRefLost` keeps them. -/
theorem execRefLost_keeps (s : State) {s_ : State} (hks : Keeps s_ s) :
    KeepsO s_ (execRefLost s) := by
  unfold execRefLost
  with_reducible
    repeat' (first
      | assumption
      | apply State_refLost_keeps
      | apply keepsO_next)

/-- `State.serdesUnlock` keeps them. -/
theorem State_serdesUnlock_keeps (s : State) (d ports : Nat) (agl : Bool) {s_ : State} (hks : Keeps s_ s) :
    Keeps s_ (State.serdesUnlock s d ports agl) := by
  unfold State.serdesUnlock
  with_reducible
    repeat' (first
      | assumption
      | (intro x; refine (fun (hx : Keeps s_ x) => ?_) ?_; clear_value x; rotate_left; unfold x; rotate_right)
      | (intro x; refine (fun (hx : Keeps s_ x.1) => ?_) ?_; clear_value x; rotate_left; unfold x; rotate_right)
      | (intro x; refine (fun (hx : ∀ y, Keeps s_ (x y)) => ?_) ?_; clear_value x; rotate_left; unfold x; rotate_right)
      | (intro x; clear_value x)
      | split
      | apply forEach_keeps
      | apply State_portDown_keeps
      | apply State_linkLost_keeps
      | apply keeps_ite
      | apply keeps_ite1
      | (apply keeps_mk; first | assumption | apply forEach_keeps | apply State_portDown_keeps | apply State_linkLost_keeps)
      | (intro _)
      | lift_lets
      | (refine keeps_fst_eq (by assumption) ?_))

/-- `execSerdesPllUnlock` keeps them. -/
theorem execSerdesPllUnlock_keeps (d ports : Nat) (agl : Bool) (s : State) {s_ : State} (hks : Keeps s_ s) :
    KeepsO s_ (execSerdesPllUnlock d ports agl s) := by
  unfold execSerdesPllUnlock
  with_reducible
    repeat' (first
      | assumption
      | apply State_serdesUnlock_keeps
      | apply keepsO_next)

/-- `State.powerOn` keeps them. -/
theorem State_powerOn_keeps (s : State) (d p : Nat) {s_ : State} (hks : Keeps s_ s) :
    Keeps s_ (State.powerOn s d p) := by
  unfold State.powerOn
  with_reducible
    repeat' (first
      | assumption
      | apply State_updDie_keeps
      | apply keeps_ite
      | (apply keeps_mk; assumption)
      | (intro _))

/-- `State.countWake` keeps them. -/
theorem State_countWake_keeps (s : State) (d : Nat) {s_ : State} (hks : Keeps s_ s) :
    Keeps s_ (State.countWake s d) := by
  unfold State.countWake
  with_reducible
    repeat' (first
      | assumption
      | apply State_addRg_keeps)

/-- `State.startClock` keeps them. -/
theorem State_startClock_keeps (s : State) (d p : Nat) {s_ : State} (hks : Keeps s_ s) :
    Keeps s_ (State.startClock s d p) := by
  unfold State.startClock
  with_reducible
    repeat' (first
      | assumption
      | apply State_setFld_keeps)

/-- `State.crossingWake` keeps them. -/
theorem State_crossingWake_keeps (s : State) (d p : Nat) {s_ : State} (hks : Keeps s_ s) :
    Keeps s_ (State.crossingWake s d p) := by
  unfold State.crossingWake
  with_reducible
    repeat' (first
      | assumption
      | apply State_updDie_keeps
      | apply State_powerOn_keeps
      | apply State_countWake_keeps
      | apply State_startClock_keeps
      | apply keeps_ite
      | (apply keeps_mk; assumption)
      | (intro _))

/-- `execCrossingWake` keeps them. -/
theorem execCrossingWake_keeps (d p : Nat) (s : State) {s_ : State} (hks : Keeps s_ s) :
    KeepsO s_ (execCrossingWake d p s) := by
  unfold execCrossingWake
  with_reducible
    repeat' (first
      | assumption
      | apply State_crossingWake_keeps
      | apply keepsO_next)

/-- `State.heldScan` keeps them. -/
theorem State_heldScan_keeps (s : State) (d : Nat) {s_ : State} (hks : Keeps s_ s) :
    Keeps s_ (State.heldScan s d) := by
  unfold State.heldScan
  with_reducible
    repeat' (first
      | assumption
      | lift_lets
      | (intro x; refine (fun (hx : Keeps s_ x) => ?_) ?_; clear_value x; rotate_left; unfold x; rotate_right)
      | (intro x; clear_value x)
      | apply forEach_keeps
      | apply State_updDie_keeps
      | apply State_powerOn_keeps
      | apply State_countWake_keeps
      | apply State_startClock_keeps
      | apply keeps_ite
      | (apply keeps_mk; assumption)
      | (intro _))

/-- `execHeldCrossingScan` keeps them. -/
theorem execHeldCrossingScan_keeps (d : Nat) (s : State) {s_ : State} (hks : Keeps s_ s) :
    KeepsO s_ (execHeldCrossingScan d s) := by
  unfold execHeldCrossingScan
  with_reducible
    repeat' (first
      | assumption
      | apply State_heldScan_keeps
      | apply keepsO_next)

/-- `execDomainTimeCorrect` keeps them. -/
theorem execDomainTimeCorrect_keeps (d : Nat) (s : State) {s_ : State} (hks : Keeps s_ s) :
    KeepsO s_ (execDomainTimeCorrect d s) := by
  unfold execDomainTimeCorrect
  with_reducible
    repeat' (first
      | assumption
      | apply State_doSwap_keeps
      | apply keepsO_ite
      | apply keepsO_next
      | apply keeps_ite)

/-- `State.timeCorrect` keeps them. -/
theorem State_timeCorrect_keeps (s : State) (d : Nat) (c : Int) {s_ : State} (hks : Keeps s_ s) :
    Keeps s_ (State.timeCorrect s d c) := by
  unfold State.timeCorrect
  with_reducible
    repeat' (first
      | assumption
      | lift_lets
      | (intro x; refine (fun (hx : Keeps s_ x) => ?_) ?_; clear_value x; rotate_left; unfold x; rotate_right)
      | (intro x; clear_value x)
      | apply State_updDie_keeps
      | apply keeps_ite
      | (apply keeps_mk; assumption)
      | (intro _))

/-- `State.pkgSync` keeps them. -/
theorem State_pkgSync_keeps (s : State) (d : Nat) {s_ : State} (hks : Keeps s_ s) :
    Keeps s_ (State.pkgSync s d) := by
  unfold State.pkgSync
  with_reducible
    repeat' (first
      | assumption
      | lift_lets
      | (intro x; refine (fun (hx : Keeps s_ x) => ?_) ?_; clear_value x; rotate_left; unfold x; rotate_right)
      | (intro x; clear_value x)
      | apply State_updDie_keeps
      | apply State_setRg_keeps
      | apply State_raise_keeps
      | apply foldl_keeps
      | apply foldl_keeps1
      | apply keeps_ite
      | (apply keeps_mk; assumption)
      | (intro _))

/-- `execPkgSync` keeps them. -/
theorem execPkgSync_keeps (d : Nat) (s : State) {s_ : State} (hks : Keeps s_ s) :
    KeepsO s_ (execPkgSync d s) := by
  unfold execPkgSync
  with_reducible
    repeat' (first
      | assumption
      | apply State_pkgSync_keeps
      | apply keepsO_next)

/-- `State.timOffset` keeps them. -/
theorem State_timOffset_keeps (s : State) (d : Nat) (v : Word) {s_ : State} (hks : Keeps s_ s) :
    Keeps s_ (State.timOffset s d v).1 := by
  unfold State.timOffset
  with_reducible
    repeat' (first
      | assumption
      | apply State_configBusy_keeps
      | apply State_timeCorrect_keeps
      | apply keeps_ite1
      | apply keeps_ite)

/-- `execTimOffset` keeps them. -/
theorem execTimOffset_keeps (d : Nat) (v : Word) (s : State) {s_ : State} (hks : Keeps s_ s) :
    KeepsO s_ (execTimOffset d v s) := by
  unfold execTimOffset
  with_reducible
    repeat' (first
      | assumption
      | apply State_timOffset_keeps
      | apply keepsO_ite
      | apply keepsO_next
      | apply keeps_ite)

/-- `State.timErr` keeps them. -/
theorem State_timErr_keeps (s : State) (e : Int) {s_ : State} (hks : Keeps s_ s) :
    Keeps s_ (State.timErr s e) := by
  unfold State.timErr
  with_reducible
    repeat' (first
      | assumption
      | lift_lets
      | (intro x; refine (fun (hx : Keeps s_ x) => ?_) ?_; clear_value x; rotate_left; unfold x; rotate_right)
      | (intro x; clear_value x)
      | apply State_updDie_keeps
      | apply State_setRg_keeps
      | apply State_setFld_keeps
      | apply State_timeCorrect_keeps
      | apply keeps_ite
      | (apply keeps_mk; assumption)
      | (intro _))

/-- `State.ppsEdge` keeps them. -/
theorem State_ppsEdge_keeps (s : State) {s_ : State} (hks : Keeps s_ s) :
    Keeps s_ (State.ppsEdge s) := by
  unfold State.ppsEdge
  with_reducible
    repeat' (first
      | assumption
      | lift_lets
      | (intro x; refine (fun (hx : Keeps s_ x) => ?_) ?_; clear_value x; rotate_left; unfold x; rotate_right)
      | (intro x; clear_value x)
      | apply State_setFld_keeps
      | apply State_timErr_keeps
      | apply keeps_ite)

/-- `execPpsEdge` keeps them. -/
theorem execPpsEdge_keeps (s : State) {s_ : State} (hks : Keeps s_ s) :
    KeepsO s_ (execPpsEdge s) := by
  unfold execPpsEdge
  with_reducible
    repeat' (first
      | assumption
      | apply State_ppsEdge_keeps
      | apply keepsO_next)

/-- `State.ptpSend` keeps them. -/
theorem State_ptpSend_keeps (s : State) (skip : Option (Nat × Nat)) (ms : List Ptp) {s_ : State} (hks : Keeps s_ s) :
    Keeps s_ (State.ptpSend s skip ms) := by
  unfold State.ptpSend
  with_reducible
    repeat' (first
      | assumption
      | apply forEach_keeps
      | apply State_emit_keeps
      | (intro _))

/-- `State.syncInterval` keeps them. -/
theorem State_syncInterval_keeps (s : State) {s_ : State} (hks : Keeps s_ s) :
    Keeps s_ (State.syncInterval s) := by
  unfold State.syncInterval
  with_reducible
    repeat' (first
      | assumption
      | lift_lets
      | (intro x; refine (fun (hx : Keeps s_ x) => ?_) ?_; clear_value x; rotate_left; unfold x; rotate_right)
      | (intro x; refine (fun (hx : Keeps s_ x.1) => ?_) ?_; clear_value x; rotate_left; unfold x; rotate_right)
      | (intro x; clear_value x)
      | apply State_updDie_keeps
      | apply State_setRg_keeps
      | apply State_setFld_keeps
      | apply State_ptpSend_keeps
      | apply keeps_ite
      | (apply keeps_mk; assumption)
      | (intro _))

/-- `execSyncInterval` keeps them. -/
theorem execSyncInterval_keeps (s : State) {s_ : State} (hks : Keeps s_ s) :
    KeepsO s_ (execSyncInterval s) := by
  unfold execSyncInterval
  with_reducible
    repeat' (first
      | assumption
      | apply State_syncInterval_keeps
      | apply keepsO_next)

/-- `State.followUp` keeps them. -/
theorem State_followUp_keeps (s : State) (d p origin : Nat) {s_ : State} (hks : Keeps s_ s) :
    Keeps s_ (State.followUp s d p origin) := by
  unfold State.followUp
  with_reducible
    repeat' (first
      | assumption
      | lift_lets
      | (intro x; refine (fun (hx : Keeps s_ x) => ?_) ?_; clear_value x; rotate_left; unfold x; rotate_right)
      | (intro x; refine (fun (hx : Keeps s_ x.1) => ?_) ?_; clear_value x; rotate_left; unfold x; rotate_right)
      | (intro x; clear_value x)
      | apply State_updDie_keeps
      | apply State_timErr_keeps
      | apply State_ptpSend_keeps
      | apply keeps_ite
      | (apply keeps_mk; assumption)
      | (intro _)
      | split
      | (refine keeps_fst_eq (by assumption) ?_))

/-- `State.ptpMessage` keeps them. -/
theorem State_ptpMessage_keeps (s : State) (d p : Nat) (m : Ptp) {s_ : State} (hks : Keeps s_ s) :
    Keeps s_ (State.ptpMessage s d p m) := by
  unfold State.ptpMessage
  with_reducible
    repeat' (first
      | assumption
      | lift_lets
      | (intro x; refine (fun (hx : Keeps s_ x) => ?_) ?_; clear_value x; rotate_left; unfold x; rotate_right)
      | (intro x; refine (fun (hx : Keeps s_ x.1) => ?_) ?_; clear_value x; rotate_left; unfold x; rotate_right)
      | (intro x; clear_value x)
      | apply State_updDie_keeps
      | apply State_emit_keeps
      | apply State_updMod_keeps
      | apply State_ptpSend_keeps
      | apply State_followUp_keeps
      | apply keeps_ite
      | (apply keeps_mk; assumption)
      | (intro _)
      | split
      | (refine keeps_fst_eq (by assumption) ?_))

/-- `execPtpMessage` keeps them. -/
theorem execPtpMessage_keeps (d p : Nat) (msg : Ptp) (s : State) {s_ : State} (hks : Keeps s_ s) :
    KeepsO s_ (execPtpMessage d p msg s) := by
  unfold execPtpMessage
  with_reducible
    repeat' (first
      | assumption
      | apply State_ptpMessage_keeps
      | apply keepsO_next)

/-- `State.syncLost` keeps them. -/
theorem State_syncLost_keeps (s : State) {s_ : State} (hks : Keeps s_ s) :
    Keeps s_ (State.syncLost s) := by
  unfold State.syncLost
  with_reducible
    repeat' (first
      | assumption
      | apply State_updDie_keeps
      | apply State_raise_keeps
      | apply keeps_ite
      | (apply keeps_mk; assumption)
      | (intro _))

/-- `execSyncLost` keeps them. -/
theorem execSyncLost_keeps (s : State) {s_ : State} (hks : Keeps s_ s) :
    KeepsO s_ (execSyncLost s) := by
  unfold execSyncLost
  with_reducible
    repeat' (first
      | assumption
      | apply State_syncLost_keeps
      | apply keepsO_next)

end Sys2Proof.Machine
end

