-- ==== Sys2Proof/Laws/KeepsPower.lean ====
section
/-! SUPPORT. What power, thermal and faults keep: the part, the queue and the canonical form of what is stored. -/

set_option Elab.async false

namespace Sys2Proof.Machine

/-- `State.vinStop` keeps them. -/
theorem State_vinStop_keeps (s : State) (v : Nat) {s_ : State} (hks : Keeps s_ s) :
    Keeps s_ (State.vinStop s v) := by
  unfold State.vinStop
  with_reducible
    repeat' (first
      | assumption
      | apply State_setFld_keeps
      | apply State_updMod_keeps
      | apply State_modRaise_keeps
      | apply keeps_ite
      | (apply keeps_mk; assumption)
      | (intro _))

/-- `execVinStop` keeps them. -/
theorem execVinStop_keeps (v : Nat) (s : State) {s_ : State} (hks : Keeps s_ s) :
    KeepsO s_ (execVinStop v s) := by
  unfold execVinStop
  with_reducible
    repeat' (first
      | assumption
      | apply State_vinStop_keeps
      | apply keepsO_next)

/-- `State.ibcFail` keeps them. -/
theorem State_ibcFail_keeps (s : State) (i : Nat) {s_ : State} (hks : Keeps s_ s) :
    Keeps s_ (State.ibcFail s i) := by
  unfold State.ibcFail
  with_reducible
    repeat' (first
      | assumption
      | lift_lets
      | (intro x; refine (fun (hx : Keeps s_ x) => ?_) ?_; clear_value x; rotate_left; unfold x; rotate_right)
      | (intro x; clear_value x)
      | apply State_setFld_keeps
      | apply State_modRaise_keeps
      | apply State_moduleStop_keeps
      | apply keeps_ite)

/-- `execIbcFail` keeps them. -/
theorem execIbcFail_keeps (i : Nat) (s : State) {s_ : State} (hks : Keeps s_ s) :
    KeepsO s_ (execIbcFail i s) := by
  unfold execIbcFail
  with_reducible
    repeat' (first
      | assumption
      | apply State_ibcFail_keeps
      | apply keepsO_next)

/-- `State.railFault` keeps them. -/
theorem State_railFault_keeps (s : State) (d rail : Nat) {s_ : State} (hks : Keeps s_ s) :
    Keeps s_ (State.railFault s d rail) := by
  unfold State.railFault
  with_reducible
    repeat' (first
      | assumption
      | apply State_raise_keeps
      | apply keeps_ite)

/-- `execRailFault` keeps them. -/
theorem execRailFault_keeps (d rail : Nat) (s : State) {s_ : State} (hks : Keeps s_ s) :
    KeepsO s_ (execRailFault d rail s) := by
  unfold execRailFault
  with_reducible
    repeat' (first
      | assumption
      | apply State_railFault_keeps
      | apply keepsO_next)

/-- `State.phaseFail` keeps them. -/
theorem State_phaseFail_keeps (s : State) (d p ph : Nat) {s_ : State} (hks : Keeps s_ s) :
    Keeps s_ (State.phaseFail s d p ph) := by
  unfold State.phaseFail
  with_reducible
    repeat' (first
      | assumption
      | lift_lets
      | (intro x; refine (fun (hx : Keeps s_ x) => ?_) ?_; clear_value x; rotate_left; unfold x; rotate_right)
      | (intro x; clear_value x)
      | apply State_setFld_keeps
      | apply State_raise_keeps
      | apply State_repairDue_keeps
      | apply State_noSpare_keeps
      | apply State_physTrigger_keeps
      | apply State_spareFailed_keeps
      | apply State_railLost_keeps
      | apply keeps_ite)

/-- `execPhaseFail` keeps them. -/
theorem execPhaseFail_keeps (d p ph : Nat) (s : State) {s_ : State} (hks : Keeps s_ s) :
    KeepsO s_ (execPhaseFail d p ph s) := by
  unfold execPhaseFail
  with_reducible
    repeat' (first
      | assumption
      | apply State_phaseFail_keeps
      | apply keepsO_next)

/-- `State.retain` keeps them. -/
theorem State_retain_keeps (s : State) (d p : Nat) {s_ : State} (hks : Keeps s_ s) :
    Keeps s_ (State.retain s d p) := by
  unfold State.retain
  with_reducible
    repeat' (first
      | assumption
      | lift_lets
      | (intro x; refine (fun (hx : Keeps s_ x) => ?_) ?_; clear_value x; rotate_left; unfold x; rotate_right)
      | (intro x; clear_value x)
      | apply State_setFld_keeps
      | apply State_addRg_keeps
      | apply State_setRailSt_keeps
      | apply keeps_ite)

/-- `execRetentionEnter` keeps them. -/
theorem execRetentionEnter_keeps (d p : Nat) (s : State) {s_ : State} (hks : Keeps s_ s) :
    KeepsO s_ (execRetentionEnter d p s) := by
  unfold execRetentionEnter
  with_reducible
    repeat' (first
      | assumption
      | apply State_retain_keeps
      | apply keepsO_next)

/-- `execPowerOnRequest` keeps them. -/
theorem execPowerOnRequest_keeps (d p : Nat) (s : State) {s_ : State} (hks : Keeps s_ s) :
    KeepsO s_ (execPowerOnRequest d p s) := by
  unfold execPowerOnRequest
  with_reducible
    repeat' (first
      | assumption
      | apply State_powerOn_keeps
      | apply keepsO_next)

/-- `State.rampStart` keeps them. -/
theorem State_rampStart_keeps (s : State) (d p : Nat) (slow : Bool) {s_ : State} (hks : Keeps s_ s) :
    Keeps s_ (State.rampStart s d p slow) := by
  unfold State.rampStart
  with_reducible
    repeat' (first
      | assumption
      | lift_lets
      | (intro x; refine (fun (hx : Keeps s_ x) => ?_) ?_; clear_value x; rotate_left; unfold x; rotate_right)
      | (intro x; refine (fun (hx : Keeps s_ x.1) => ?_) ?_; clear_value x; rotate_left; unfold x; rotate_right)
      | (intro x; clear_value x)
      | apply State_updDie_keeps
      | apply State_updPh_keeps
      | apply State_setStat_keeps
      | apply State_setRailSt_keeps
      | apply keeps_ite
      | (apply keeps_mk; assumption)
      | (intro _))

/-- `State.admission` keeps them. -/
theorem State_admission_keeps (s : State) (d quad amps : Nat) {s_ : State} (hks : Keeps s_ s) :
    Keeps s_ (State.admission s d quad amps) := by
  unfold State.admission
  with_reducible
    repeat' (first
      | assumption
      | lift_lets
      | (intro x; refine (fun (hx : Keeps s_ x) => ?_) ?_; clear_value x; rotate_left; unfold x; rotate_right)
      | (intro x; refine (fun (hx : Keeps s_ x.1) => ?_) ?_; clear_value x; rotate_left; unfold x; rotate_right)
      | (intro x; clear_value x)
      | apply State_updDie_keeps
      | apply State_addRg_keeps
      | apply State_rampStart_keeps
      | apply keeps_ite
      | (apply keeps_mk; assumption)
      | (intro _)
      | split
      | (refine keeps_fst_eq (by assumption) ?_))

/-- `execAdmissionEval` keeps them. -/
theorem execAdmissionEval_keeps (d quad amps : Nat) (s : State) {s_ : State} (hks : Keeps s_ s) :
    KeepsO s_ (execAdmissionEval d quad amps s) := by
  unfold execAdmissionEval
  with_reducible
    repeat' (first
      | assumption
      | apply State_admission_keeps
      | apply keepsO_next)

/-- `State.darkTrap` keeps them. -/
theorem State_darkTrap_keeps (s : State) (d l : Nat) (o : Option Nat) {s_ : State} (hks : Keeps s_ s) :
    Keeps s_ (State.darkTrap s d l o) := by
  unfold State.darkTrap
  with_reducible
    repeat' (first
      | assumption
      | lift_lets
      | (intro x; refine (fun (hx : Keeps s_ x) => ?_) ?_; clear_value x; rotate_left; unfold x; rotate_right)
      | (intro x; refine (fun (hx : Keeps s_ x.1) => ?_) ?_; clear_value x; rotate_left; unfold x; rotate_right)
      | (intro x; clear_value x)
      | apply State_fresh_keeps
      | apply State_cause_keeps
      | apply State_trap_keeps
      | apply keeps_ite
      | split
      | (refine keeps_fst_eq (by assumption) ?_))

/-- `State.rampDone` keeps them. -/
theorem State_rampDone_keeps (s : State) (d p : Nat) (held : Bool) {s_ : State} (hks : Keeps s_ s) :
    Keeps s_ (State.rampDone s d p held) := by
  unfold State.rampDone
  with_reducible
    repeat' (first
      | assumption
      | lift_lets
      | (intro x; refine (fun (hx : Keeps s_ x) => ?_) ?_; clear_value x; rotate_left; unfold x; rotate_right)
      | (intro x; clear_value x)
      | apply State_updPh_keeps
      | apply State_raise_keeps
      | apply State_setRailSt_keeps
      | apply State_startClock_keeps
      | apply State_darkTrap_keeps
      | apply keeps_ite
      | (apply keeps_mk; assumption)
      | (intro _))

/-- `execRampDone` keeps them. -/
theorem execRampDone_keeps (d p : Nat) (held : Bool) (s : State) {s_ : State} (hks : Keeps s_ s) :
    KeepsO s_ (execRampDone d p held s) := by
  unfold execRampDone
  with_reducible
    repeat' (first
      | assumption
      | apply State_rampDone_keeps
      | apply keepsO_next)

/-- `State.lowWaterRec` keeps them. -/
theorem State_lowWaterRec_keeps (s : State) (d rail mv tm : Nat) {s_ : State} (hks : Keeps s_ s) :
    Keeps s_ (State.lowWaterRec s d rail mv tm) := by
  unfold State.lowWaterRec
  with_reducible
    repeat' (first
      | assumption
      | lift_lets
      | (intro x; refine (fun (hx : Keeps s_ x) => ?_) ?_; clear_value x; rotate_left; unfold x; rotate_right)
      | (intro x; clear_value x)
      | apply State_updDie_keeps
      | apply State_updCel_keeps
      | apply keeps_ite
      | (apply keeps_mk; assumption)
      | (intro _))

/-- `execLowWaterRecord` keeps them. -/
theorem execLowWaterRecord_keeps (d rail mv tm : Nat) (s : State) {s_ : State} (hks : Keeps s_ s) :
    KeepsO s_ (execLowWaterRecord d rail mv tm s) := by
  unfold execLowWaterRecord
  with_reducible
    repeat' (first
      | assumption
      | apply State_lowWaterRec_keeps
      | apply keepsO_next)

/-- `State.lpPlace` keeps them. -/
theorem State_lpPlace_keeps (s : State) (a : Nat) (o : Option RegLoc) {s_ : State} (hks : Keeps s_ s) :
    Keeps s_ (State.lpPlace s a o) := by
  unfold State.lpPlace
  with_reducible
    repeat' (first
      | assumption
      | apply State_setReg_keeps
      | split
      | (refine keeps_fst_eq (by assumption) ?_))

/-- `State.lpReg` keeps them. -/
theorem State_lpReg_keeps (s : State) (a : Nat) {s_ : State} (hks : Keeps s_ s) :
    Keeps s_ (State.lpReg s a) := by
  unfold State.lpReg
  with_reducible
    repeat' (first
      | assumption
      | apply State_lpPlace_keeps)

/-- `State.dieLp` keeps them. -/
theorem State_dieLp_keeps (s : State) (d : Nat) {s_ : State} (hks : Keeps s_ s) :
    Keeps s_ (State.dieLp s d) := by
  unfold State.dieLp
  with_reducible
    repeat' (first
      | assumption
      | lift_lets
      | (intro x; refine (fun (hx : Keeps s_ x) => ?_) ?_; clear_value x; rotate_left; unfold x; rotate_right)
      | (intro x; clear_value x)
      | apply forEach_keeps
      | apply State_updDie_keeps
      | apply State_putCl_keeps
      | apply State_updPh_keeps
      | apply State_updMod_keeps
      | apply State_setRailSt_keeps
      | apply State_celRetain_keeps
      | apply State_hbmSleep_keeps
      | apply State_stopPorts_keeps
      | (apply keeps_mk; assumption)
      | (intro _))

/-- `State.enterLp` keeps them. -/
theorem State_enterLp_keeps (s : State) {s_ : State} (hks : Keeps s_ s) :
    Keeps s_ (State.enterLp s).1 := by
  unfold State.enterLp
  with_reducible
    repeat' (first
      | assumption
      | lift_lets
      | (intro x; refine (fun (hx : Keeps s_ x) => ?_) ?_; clear_value x; rotate_left; unfold x; rotate_right)
      | (intro x; clear_value x)
      | apply forEach_keeps
      | apply State_setFld_keeps
      | apply State_setStat_keeps
      | apply State_configBusy_keeps
      | apply State_updMod_keeps
      | apply State_lpReg_keeps
      | apply State_dieLp_keeps
      | apply keeps_ite1
      | apply keeps_ite
      | (apply keeps_mk; assumption)
      | (intro _))

/-- `execEnterLp` keeps them. -/
theorem execEnterLp_keeps (s : State) {s_ : State} (hks : Keeps s_ s) :
    KeepsO s_ (execEnterLp s) := by
  unfold execEnterLp
  with_reducible
    repeat' (first
      | assumption
      | apply State_enterLp_keeps
      | apply keepsO_next)

/-- `State.dieExitLp` keeps them. -/
theorem State_dieExitLp_keeps (s : State) (d : Nat) {s_ : State} (hks : Keeps s_ s) :
    Keeps s_ (State.dieExitLp s d) := by
  unfold State.dieExitLp
  with_reducible
    repeat' (first
      | assumption
      | lift_lets
      | (intro x; refine (fun (hx : Keeps s_ x) => ?_) ?_; clear_value x; rotate_left; unfold x; rotate_right)
      | (intro x; clear_value x)
      | apply forEach_keeps
      | apply State_setRailSt_keeps
      | apply State_celWake_keeps
      | apply State_hbmWake_keeps
      | apply State_codeFor_keeps
      | apply State_startClock_keeps
      | (intro _))

/-- `State.exitLp` keeps them. -/
theorem State_exitLp_keeps (s : State) {s_ : State} (hks : Keeps s_ s) :
    Keeps s_ (State.exitLp s).1 := by
  unfold State.exitLp
  with_reducible
    repeat' (first
      | assumption
      | lift_lets
      | (intro x; refine (fun (hx : Keeps s_ x) => ?_) ?_; clear_value x; rotate_left; unfold x; rotate_right)
      | (intro x; clear_value x)
      | apply forEach_keeps
      | apply State_setFld_keeps
      | apply State_updMod_keeps
      | apply State_dieExitLp_keeps
      | apply keeps_ite1
      | apply keeps_ite
      | (apply keeps_mk; assumption)
      | (intro _))

/-- `execExitLp` keeps them. -/
theorem execExitLp_keeps (s : State) {s_ : State} (hks : Keeps s_ s) :
    KeepsO s_ (execExitLp s) := by
  unfold execExitLp
  with_reducible
    repeat' (first
      | assumption
      | apply State_exitLp_keeps
      | apply keepsO_next)

/-- `State.ceilFall` keeps them. -/
theorem State_ceilFall_keeps (s : State) (d p n why : Nat) {s_ : State} (hks : Keeps s_ s) :
    Keeps s_ (State.ceilFall s d p n why) := by
  unfold State.ceilFall
  with_reducible
    repeat' (first
      | assumption
      | lift_lets
      | (intro x; refine (fun (hx : Keeps s_ x) => ?_) ?_; clear_value x; rotate_left; unfold x; rotate_right)
      | (intro x; clear_value x)
      | apply State_updPh_keeps
      | apply State_addRg_keeps
      | apply State_setStat_keeps
      | apply keeps_ite
      | (apply keeps_mk; assumption)
      | (intro _))

/-- `State.limitCl` keeps them. -/
theorem State_limitCl_keeps (s : State) (d p : Nat) {s_ : State} (hks : Keeps s_ s) :
    Keeps s_ (State.limitCl s d p) := by
  unfold State.limitCl
  with_reducible
    repeat' (first
      | assumption
      | lift_lets
      | (intro x; refine (fun (hx : Keeps s_ x) => ?_) ?_; clear_value x; rotate_left; unfold x; rotate_right)
      | (intro x; clear_value x)
      | apply State_ceilFall_keeps
      | apply keeps_ite)

/-- `State.limitMany` keeps them. -/
theorem State_limitMany_keeps (s : State) (d : Nat) (ps : List Nat) (why : Nat) {s_ : State} (hks : Keeps s_ s) :
    Keeps s_ (State.limitMany s d ps why) := by
  unfold State.limitMany
  with_reducible
    repeat' (first
      | assumption
      | apply State_ceilFall_keeps
      | (intro _)
      | split
      | (refine keeps_fst_eq (by assumption) ?_))

/-- `State.limits` keeps them. -/
theorem State_limits_keeps (s : State) (d : Nat) {s_ : State} (hks : Keeps s_ s) :
    Keeps s_ (State.limits s d) := by
  unfold State.limits
  with_reducible
    repeat' (first
      | assumption
      | (intro x; refine (fun (hx : Keeps s_ x) => ?_) ?_; clear_value x; rotate_left; unfold x; rotate_right)
      | (intro x; refine (fun (hx : Keeps s_ x.1) => ?_) ?_; clear_value x; rotate_left; unfold x; rotate_right)
      | (intro x; refine (fun (hx : ∀ y, Keeps s_ (x y)) => ?_) ?_; clear_value x; rotate_left; unfold x; rotate_right)
      | (intro x; clear_value x)
      | split
      | apply forEach_keeps
      | apply State_limitCl_keeps
      | apply State_limitMany_keeps
      | apply keeps_ite
      | apply keeps_ite1
      | (apply keeps_mk; first | assumption | apply forEach_keeps | apply State_limitCl_keeps | apply State_limitMany_keeps)
      | (intro _)
      | lift_lets
      | (refine keeps_fst_eq (by assumption) ?_))

/-- `State.ceilRise` keeps them. -/
theorem State_ceilRise_keeps (s : State) (d p : Nat) {s_ : State} (hks : Keeps s_ s) :
    Keeps s_ (State.ceilRise s d p) := by
  unfold State.ceilRise
  with_reducible
    repeat' (first
      | assumption
      | lift_lets
      | (intro x; refine (fun (hx : Keeps s_ x) => ?_) ?_; clear_value x; rotate_left; unfold x; rotate_right)
      | (intro x; clear_value x)
      | apply State_updPh_keeps
      | apply keeps_ite
      | (apply keeps_mk; assumption)
      | (intro _))

/-- `State.overCur` keeps them. -/
theorem State_overCur_keeps (s : State) (d p : Nat) {s_ : State} (hks : Keeps s_ s) :
    Keeps s_ (State.overCur s d p) := by
  unfold State.overCur
  with_reducible
    repeat' (first
      | assumption
      | lift_lets
      | (intro x; refine (fun (hx : Keeps s_ x) => ?_) ?_; clear_value x; rotate_left; unfold x; rotate_right)
      | (intro x; clear_value x)
      | apply State_updPh_keeps
      | apply State_raise_keeps
      | apply State_railLost_keeps
      | apply keeps_ite
      | (apply keeps_mk; assumption)
      | (intro _))

/-- `State.applyTarget` keeps them. -/
theorem State_applyTarget_keeps (s : State) (d p : Nat) {s_ : State} (hks : Keeps s_ s) :
    Keeps s_ (State.applyTarget s d p) := by
  unfold State.applyTarget
  with_reducible
    repeat' (first
      | assumption
      | lift_lets
      | (intro x; refine (fun (hx : Keeps s_ x) => ?_) ?_; clear_value x; rotate_left; unfold x; rotate_right)
      | (intro x; clear_value x)
      | apply State_updPh_keeps
      | apply State_codeFor_keeps
      | apply State_freqRequest_keeps
      | apply keeps_ite
      | (apply keeps_mk; assumption)
      | (intro _))

/-- `State.capHeld` keeps them. -/
theorem State_capHeld_keeps (s : State) (d : Nat) {s_ : State} (hks : Keeps s_ s) :
    Keeps s_ (State.capHeld s d) := by
  unfold State.capHeld
  with_reducible
    repeat' (first
      | assumption
      | apply State_setStat_keeps
      | apply keeps_ite
      | (intro _))

/-- `State.tagUse` keeps them. -/
theorem State_tagUse_keeps (s : State) (d p : Nat) {s_ : State} (hks : Keeps s_ s) :
    Keeps s_ (State.tagUse s d p) := by
  unfold State.tagUse
  with_reducible
    repeat' (first
      | assumption
      | lift_lets
      | (intro x; refine (fun (hx : Keeps s_ x) => ?_) ?_; clear_value x; rotate_left; unfold x; rotate_right)
      | (intro x; refine (fun (hx : Keeps s_ x.1) => ?_) ?_; clear_value x; rotate_left; unfold x; rotate_right)
      | (intro x; clear_value x)
      | apply State_updPh_keeps
      | apply foldl_keeps
      | apply foldl_keeps1
      | apply keeps_ite
      | (apply keeps_mk; assumption)
      | (intro _))

/-- `State.droopBack` keeps them. -/
theorem State_droopBack_keeps (s : State) (d p : Nat) {s_ : State} (hks : Keeps s_ s) :
    Keeps s_ (State.droopBack s d p) := by
  unfold State.droopBack
  with_reducible
    repeat' (first
      | assumption
      | lift_lets
      | (intro x; refine (fun (hx : Keeps s_ x) => ?_) ?_; clear_value x; rotate_left; unfold x; rotate_right)
      | (intro x; clear_value x)
      | apply State_updPh_keeps
      | apply keeps_ite
      | (apply keeps_mk; assumption)
      | (intro _))

/-- `State.railEnergy` keeps them. -/
theorem State_railEnergy_keeps (s : State) (d : Nat) (sm : PowerSample) {s_ : State} (hks : Keeps s_ s) :
    Keeps s_ (State.railEnergy s d sm) := by
  unfold State.railEnergy
  with_reducible
    repeat' (first
      | assumption
      | lift_lets
      | (intro x; refine (fun (hx : Keeps s_ x) => ?_) ?_; clear_value x; rotate_left; unfold x; rotate_right)
      | (intro x; clear_value x)
      | apply State_updDie_keeps
      | apply foldl_keeps
      | apply foldl_keeps1
      | (apply keeps_mk; assumption)
      | (intro _))

/-- `State.takeSample` keeps them. -/
theorem State_takeSample_keeps (s : State) (d : Nat) (sm : PowerSample) {s_ : State} (hks : Keeps s_ s) :
    Keeps s_ (State.takeSample s d sm) := by
  unfold State.takeSample
  with_reducible
    repeat' (first
      | assumption
      | lift_lets
      | (intro x; refine (fun (hx : Keeps s_ x) => ?_) ?_; clear_value x; rotate_left; unfold x; rotate_right)
      | (intro x; clear_value x)
      | apply forEach_keeps
      | apply State_updDie_keeps
      | apply State_updPh_keeps
      | apply State_setFld_keeps
      | apply State_marginSeen_keeps
      | apply foldl_keeps
      | apply foldl_keeps1
      | (apply keeps_mk; assumption)
      | (intro _))

/-- `State.powerEval` keeps them. -/
theorem State_powerEval_keeps (s : State) (d : Nat) (sm : PowerSample) {s_ : State} (hks : Keeps s_ s) :
    Keeps s_ (State.powerEval s d sm) := by
  unfold State.powerEval
  with_reducible
    repeat' (first
      | assumption
      | lift_lets
      | (intro x; refine (fun (hx : Keeps s_ x) => ?_) ?_; clear_value x; rotate_left; unfold x; rotate_right)
      | (intro x; clear_value x)
      | apply forEach_keeps
      | apply State_doSwap_keeps
      | apply State_limits_keeps
      | apply State_ceilRise_keeps
      | apply State_overCur_keeps
      | apply State_applyTarget_keeps
      | apply State_capHeld_keeps
      | apply State_tagUse_keeps
      | apply State_droopBack_keeps
      | apply State_railEnergy_keeps
      | apply State_takeSample_keeps
      | apply keeps_ite
      | (intro _))

/-- `execPowerEval` keeps them. -/
theorem execPowerEval_keeps (d : Nat) (sm : PowerSample) (s : State) {s_ : State} (hks : Keeps s_ s) :
    KeepsO s_ (execPowerEval d sm s) := by
  unfold execPowerEval
  with_reducible
    repeat' (first
      | assumption
      | apply State_powerEval_keeps
      | apply keepsO_next)

/-- `State.droopTrip` keeps them. -/
theorem State_droopTrip_keeps (s : State) (d p : Nat) {s_ : State} (hks : Keeps s_ s) :
    Keeps s_ (State.droopTrip s d p) := by
  unfold State.droopTrip
  with_reducible
    repeat' (first
      | assumption
      | lift_lets
      | (intro x; refine (fun (hx : Keeps s_ x) => ?_) ?_; clear_value x; rotate_left; unfold x; rotate_right)
      | (intro x; clear_value x)
      | apply State_updPh_keeps
      | apply State_addRg_keeps
      | apply keeps_ite
      | (apply keeps_mk; assumption)
      | (intro _))

/-- `execDroopTrip` keeps them. -/
theorem execDroopTrip_keeps (d p : Nat) (s : State) {s_ : State} (hks : Keeps s_ s) :
    KeepsO s_ (execDroopTrip d p s) := by
  unfold execDroopTrip
  with_reducible
    repeat' (first
      | assumption
      | apply State_droopTrip_keeps
      | apply keepsO_next)

/-- `State.stretchEnd` keeps them. -/
theorem State_stretchEnd_keeps (s : State) (d p cycles : Nat) {s_ : State} (hks : Keeps s_ s) :
    Keeps s_ (State.stretchEnd s d p cycles) := by
  unfold State.stretchEnd
  with_reducible
    repeat' (first
      | assumption
      | lift_lets
      | (intro x; refine (fun (hx : Keeps s_ x) => ?_) ?_; clear_value x; rotate_left; unfold x; rotate_right)
      | (intro x; refine (fun (hx : Keeps s_ x.1) => ?_) ?_; clear_value x; rotate_left; unfold x; rotate_right)
      | (intro x; clear_value x)
      | apply State_updPh_keeps
      | apply State_addRg_keeps
      | apply State_setStat_keeps
      | apply foldl_keeps
      | apply foldl_keeps1
      | apply keeps_ite
      | (apply keeps_mk; assumption)
      | (intro _))

/-- `execStretchHoldEnd` keeps them. -/
theorem execStretchHoldEnd_keeps (d p cycles : Nat) (s : State) {s_ : State} (hks : Keeps s_ s) :
    KeepsO s_ (execStretchHoldEnd d p cycles s) := by
  unfold execStretchHoldEnd
  with_reducible
    repeat' (first
      | assumption
      | apply State_stretchEnd_keeps
      | apply keepsO_next)

/-- `State.llExpiry` keeps them. -/
theorem State_llExpiry_keeps (s : State) (d p e : Nat) {s_ : State} (hks : Keeps s_ s) :
    Keeps s_ (State.llExpiry s d p e) := by
  unfold State.llExpiry
  with_reducible
    repeat' (first
      | assumption
      | lift_lets
      | (intro x; refine (fun (hx : Keeps s_ x) => ?_) ?_; clear_value x; rotate_left; unfold x; rotate_right)
      | (intro x; refine (fun (hx : Keeps s_ x.1) => ?_) ?_; clear_value x; rotate_left; unfold x; rotate_right)
      | (intro x; clear_value x)
      | apply State_updPh_keeps
      | apply State_raise_keeps
      | apply State_physTrigger_keeps
      | apply keeps_ite
      | (apply keeps_mk; assumption)
      | (intro _))

/-- `execLlExpiry` keeps them. -/
theorem execLlExpiry_keeps (d p e : Nat) (s : State) {s_ : State} (hks : Keeps s_ s) :
    KeepsO s_ (execLlExpiry d p e s) := by
  unfold execLlExpiry
  with_reducible
    repeat' (first
      | assumption
      | apply State_llExpiry_keeps
      | apply keepsO_next)

/-- `State.vfRecord` keeps them. -/
theorem State_vfRecord_keeps (s : State) (d : Nat) (wr : Bool) {s_ : State} (hks : Keeps s_ s) :
    Keeps s_ (State.vfRecord s d wr) := by
  unfold State.vfRecord
  with_reducible
    repeat' (first
      | assumption
      | apply State_fieldWrite_keeps
      | apply keeps_ite)

/-- `execVfRecordWrite` keeps them. -/
theorem execVfRecordWrite_keeps (d : Nat) (wr : Bool) (s : State) {s_ : State} (hks : Keeps s_ s) :
    KeepsO s_ (execVfRecordWrite d wr s) := by
  unfold execVfRecordWrite
  with_reducible
    repeat' (first
      | assumption
      | apply State_vfRecord_keeps
      | apply keepsO_next)

/-- `State.inputSample` keeps them. -/
theorem State_inputSample_keeps (s : State) (v i : Nat) {s_ : State} (hks : Keeps s_ s) :
    Keeps s_ (State.inputSample s v i) := by
  unfold State.inputSample
  with_reducible
    repeat' (first
      | assumption
      | apply State_setFld_keeps
      | apply State_updMod_keeps
      | apply keeps_ite
      | (apply keeps_mk; assumption)
      | (intro _))

/-- `execInputSample` keeps them. -/
theorem execInputSample_keeps (v i : Nat) (s : State) {s_ : State} (hks : Keeps s_ s) :
    KeepsO s_ (execInputSample v i s) := by
  unfold execInputSample
  with_reducible
    repeat' (first
      | assumption
      | apply State_inputSample_keeps
      | apply keepsO_next)

/-- `State.setBudgets` keeps them. -/
theorem State_setBudgets_keeps (s : State) (cap : Nat) (sm : CapSample) {s_ : State} (hks : Keeps s_ s) :
    Keeps s_ (State.setBudgets s cap sm) := by
  unfold State.setBudgets
  with_reducible
    repeat' (first
      | assumption
      | lift_lets
      | (intro x; refine (fun (hx : Keeps s_ x) => ?_) ?_; clear_value x; rotate_left; unfold x; rotate_right)
      | (intro x; clear_value x)
      | apply forEach_keeps
      | apply State_setFld_keeps
      | apply foldl_keeps
      | apply foldl_keeps1
      | apply keeps_ite
      | (intro _))

/-- `State.charge` keeps them. -/
theorem State_charge_keeps (s : State) (key a pj : Nat) {s_ : State} (hks : Keeps s_ s) :
    Keeps s_ (State.charge s key a pj) := by
  unfold State.charge
  with_reducible
    repeat' (first
      | assumption
      | lift_lets
      | (intro x; refine (fun (hx : Keeps s_ x) => ?_) ?_; clear_value x; rotate_left; unfold x; rotate_right)
      | (intro x; clear_value x)
      | apply State_setReg_keeps
      | apply State_updMod_keeps
      | (apply keeps_mk; assumption)
      | (intro _))

/-- `State.chargeAll` keeps them. -/
theorem State_chargeAll_keeps (s : State) {s_ : State} (hks : Keeps s_ s) :
    Keeps s_ (State.chargeAll s) := by
  unfold State.chargeAll
  with_reducible
    repeat' (first
      | assumption
      | lift_lets
      | (intro x; refine (fun (hx : Keeps s_ x) => ?_) ?_; clear_value x; rotate_left; unfold x; rotate_right)
      | (intro x; clear_value x)
      | apply forEach_keeps
      | apply State_updDie_keeps
      | apply State_setRg_keeps
      | apply State_updMod_keeps
      | apply State_charge_keeps
      | apply foldl_keeps
      | apply foldl_keeps1
      | (apply keeps_mk; assumption)
      | (intro _))

/-- `State.capEval` keeps them. -/
theorem State_capEval_keeps (s : State) (sm : CapSample) {s_ : State} (hks : Keeps s_ s) :
    Keeps s_ (State.capEval s sm) := by
  unfold State.capEval
  with_reducible
    repeat' (first
      | assumption
      | lift_lets
      | (intro x; refine (fun (hx : Keeps s_ x) => ?_) ?_; clear_value x; rotate_left; unfold x; rotate_right)
      | (intro x; refine (fun (hx : Keeps s_ x.1) => ?_) ?_; clear_value x; rotate_left; unfold x; rotate_right)
      | (intro x; clear_value x)
      | apply State_setRg_keeps
      | apply State_setStat_keeps
      | apply State_setBudgets_keeps
      | apply State_chargeAll_keeps
      | apply keeps_ite)

/-- `execCapEval` keeps them. -/
theorem execCapEval_keeps (sm : CapSample) (s : State) {s_ : State} (hks : Keeps s_ s) :
    KeepsO s_ (execCapEval sm s) := by
  unfold execCapEval
  with_reducible
    repeat' (first
      | assumption
      | apply State_capEval_keeps
      | apply keepsO_next)

/-- `State.dieBudget` keeps them. -/
theorem State_dieBudget_keeps (s : State) (d watts : Nat) {s_ : State} (hks : Keeps s_ s) :
    Keeps s_ (State.dieBudget s d watts) := by
  unfold State.dieBudget
  with_reducible
    repeat' (first
      | assumption
      | lift_lets
      | (intro x; refine (fun (hx : Keeps s_ x) => ?_) ?_; clear_value x; rotate_left; unfold x; rotate_right)
      | (intro x; clear_value x)
      | apply State_setFld_keeps
      | apply State_capHeld_keeps
      | apply keeps_ite)

/-- `execDieBudgetEval` keeps them. -/
theorem execDieBudgetEval_keeps (d watts : Nat) (s : State) {s_ : State} (hks : Keeps s_ s) :
    KeepsO s_ (execDieBudgetEval d watts s) := by
  unfold execDieBudgetEval
  with_reducible
    repeat' (first
      | assumption
      | apply State_dieBudget_keeps
      | apply keepsO_next)

/-- `State.throttle` keeps them. -/
theorem State_throttle_keeps (s : State) (d p : Nat) {s_ : State} (hks : Keeps s_ s) :
    Keeps s_ (State.throttle s d p) := by
  unfold State.throttle
  with_reducible
    repeat' (first
      | assumption
      | apply State_setFld_keeps
      | apply State_setStat_keeps)

/-- `State.clusterHeat` keeps them. -/
theorem State_clusterHeat_keeps (s : State) (d p : Nat) {s_ : State} (hks : Keeps s_ s) :
    Keeps s_ (State.clusterHeat s d p) := by
  unfold State.clusterHeat
  with_reducible
    repeat' (first
      | assumption
      | lift_lets
      | (intro x; refine (fun (hx : Keeps s_ x) => ?_) ?_; clear_value x; rotate_left; unfold x; rotate_right)
      | (intro x; clear_value x)
      | apply State_setFld_keeps
      | apply State_raise_keeps
      | apply State_throttle_keeps
      | apply keeps_ite)

/-- `State.unitHeat` keeps them. -/
theorem State_unitHeat_keeps (s : State) (d i old : Nat) {s_ : State} (hks : Keeps s_ s) :
    Keeps s_ (State.unitHeat s d i old) := by
  unfold State.unitHeat
  with_reducible
    repeat' (first
      | assumption
      | lift_lets
      | (intro x; refine (fun (hx : Keeps s_ x) => ?_) ?_; clear_value x; rotate_left; unfold x; rotate_right)
      | (intro x; clear_value x)
      | apply State_updDie_keeps
      | apply State_raise_keeps
      | apply keeps_ite
      | (apply keeps_mk; assumption)
      | (intro _))

/-- `State.convert` keeps them. -/
theorem State_convert_keeps (s : State) (d i t : Nat) {s_ : State} (hks : Keeps s_ s) :
    Keeps s_ (State.convert s d i t) := by
  unfold State.convert
  with_reducible
    repeat' (first
      | assumption
      | lift_lets
      | (intro x; refine (fun (hx : Keeps s_ x) => ?_) ?_; clear_value x; rotate_left; unfold x; rotate_right)
      | (intro x; clear_value x)
      | apply State_updDie_keeps
      | apply State_setFld_keeps
      | apply foldl_keeps
      | apply foldl_keeps1
      | (apply keeps_mk; assumption)
      | (intro _))

/-- `State.pairWatch` keeps them. -/
theorem State_pairWatch_keeps (s : State) (d p : Nat) {s_ : State} (hks : Keeps s_ s) :
    Keeps s_ (State.pairWatch s d p) := by
  unfold State.pairWatch
  with_reducible
    repeat' (first
      | assumption
      | lift_lets
      | (intro x; refine (fun (hx : Keeps s_ x) => ?_) ?_; clear_value x; rotate_left; unfold x; rotate_right)
      | (intro x; clear_value x)
      | apply State_updPh_keeps
      | apply State_raise_keeps
      | apply keeps_ite
      | (apply keeps_mk; assumption)
      | (intro _))

/-- `State.sensor` keeps them. -/
theorem State_sensor_keeps (s : State) (d i t : Nat) {s_ : State} (hks : Keeps s_ s) :
    Keeps s_ (State.sensor s d i t) := by
  unfold State.sensor
  with_reducible
    repeat' (first
      | assumption
      | lift_lets
      | (intro x; refine (fun (hx : Keeps s_ x) => ?_) ?_; clear_value x; rotate_left; unfold x; rotate_right)
      | (intro x; clear_value x)
      | apply forEach_keeps
      | apply State_clusterHeat_keeps
      | apply State_unitHeat_keeps
      | apply State_convert_keeps
      | apply State_pairWatch_keeps
      | apply keeps_ite
      | (intro _))

/-- `execSensorConversion` keeps them. -/
theorem execSensorConversion_keeps (d i t : Nat) (s : State) {s_ : State} (hks : Keeps s_ s) :
    KeepsO s_ (execSensorConversion d i t s) := by
  unfold execSensorConversion
  with_reducible
    repeat' (first
      | assumption
      | apply State_sensor_keeps
      | apply keepsO_next)

/-- `State.pairFault` keeps them. -/
theorem State_pairFault_keeps (s : State) (d p : Nat) {s_ : State} (hks : Keeps s_ s) :
    Keeps s_ (State.pairFault s d p) := by
  unfold State.pairFault
  with_reducible
    repeat' (first
      | assumption
      | lift_lets
      | (intro x; refine (fun (hx : Keeps s_ x) => ?_) ?_; clear_value x; rotate_left; unfold x; rotate_right)
      | (intro x; clear_value x)
      | apply State_setFld_keeps
      | apply State_raise_keeps
      | apply State_physTrigger_keeps
      | apply State_clusterHeat_keeps
      | apply keeps_ite)

/-- `execPairFault` keeps them. -/
theorem execPairFault_keeps (d p : Nat) (s : State) {s_ : State} (hks : Keeps s_ s) :
    KeepsO s_ (execPairFault d p s) := by
  unfold execPairFault
  with_reducible
    repeat' (first
      | assumption
      | apply State_pairFault_keeps
      | apply keepsO_next)

/-- `execThrottleStep` keeps them. -/
theorem execThrottleStep_keeps (d p : Nat) (s : State) {s_ : State} (hks : Keeps s_ s) :
    KeepsO s_ (execThrottleStep d p s) := by
  unfold execThrottleStep
  with_reducible
    repeat' (first
      | assumption
      | apply State_throttle_keeps
      | apply keepsO_ite
      | apply keepsO_next
      | apply keeps_ite)

/-- `State.thermalUndo` keeps them. -/
theorem State_thermalUndo_keeps (s : State) (d i : Nat) {s_ : State} (hks : Keeps s_ s) :
    Keeps s_ (State.thermalUndo s d i) := by
  unfold State.thermalUndo
  with_reducible
    repeat' (first
      | assumption
      | lift_lets
      | (intro x; refine (fun (hx : Keeps s_ x) => ?_) ?_; clear_value x; rotate_left; unfold x; rotate_right)
      | (intro x; clear_value x)
      | apply State_updDie_keeps
      | apply State_setFld_keeps
      | apply keeps_ite
      | (apply keeps_mk; assumption)
      | (intro _))

/-- `execThermalUndo` keeps them. -/
theorem execThermalUndo_keeps (d i : Nat) (s : State) {s_ : State} (hks : Keeps s_ s) :
    KeepsO s_ (execThermalUndo d i s) := by
  unfold execThermalUndo
  with_reducible
    repeat' (first
      | assumption
      | apply State_thermalUndo_keeps
      | apply keepsO_next)

/-- `State.hbmTemp` keeps them. -/
theorem State_hbmTemp_keeps (s : State) (d k t : Nat) {s_ : State} (hks : Keeps s_ s) :
    Keeps s_ (State.hbmTemp s d k t) := by
  unfold State.hbmTemp
  with_reducible
    repeat' (first
      | assumption
      | lift_lets
      | (intro x; refine (fun (hx : Keeps s_ x) => ?_) ?_; clear_value x; rotate_left; unfold x; rotate_right)
      | (intro x; clear_value x)
      | apply State_setFld_keeps
      | apply State_raise_keeps
      | apply State_hbmSleep_keeps
      | apply keeps_ite)

/-- `execHbmTempRead` keeps them. -/
theorem execHbmTempRead_keeps (d k t : Nat) (s : State) {s_ : State} (hks : Keeps s_ s) :
    KeepsO s_ (execHbmTempRead d k t s) := by
  unfold execHbmTempRead
  with_reducible
    repeat' (first
      | assumption
      | apply State_hbmTemp_keeps
      | apply keepsO_next)

/-- `State.trayMiss` keeps them. -/
theorem State_trayMiss_keeps (s : State) (k n : Nat) {s_ : State} (hks : Keeps s_ s) :
    Keeps s_ (State.trayMiss s k n) := by
  unfold State.trayMiss
  with_reducible
    repeat' (first
      | assumption
      | apply State_setFld_keeps
      | apply State_modRaise_keeps
      | apply keeps_ite)

/-- `State.trayTemp` keeps them. -/
theorem State_trayTemp_keeps (s : State) (k n : Nat) (v : Option Int) {s_ : State} (hks : Keeps s_ s) :
    Keeps s_ (State.trayTemp s k n v) := by
  unfold State.trayTemp
  with_reducible
    repeat' (first
      | assumption
      | apply State_setFld_keeps
      | apply State_trayMiss_keeps
      | split
      | (refine keeps_fst_eq (by assumption) ?_))

/-- `State.trayFlow` keeps them. -/
theorem State_trayFlow_keeps (s : State) (n : Nat) (v : Option Nat) {s_ : State} (hks : Keeps s_ s) :
    Keeps s_ (State.trayFlow s n v) := by
  unfold State.trayFlow
  with_reducible
    repeat' (first
      | assumption
      | lift_lets
      | (intro x; refine (fun (hx : Keeps s_ x) => ?_) ?_; clear_value x; rotate_left; unfold x; rotate_right)
      | (intro x; clear_value x)
      | apply State_setFld_keeps
      | apply State_updMod_keeps
      | apply State_trayMiss_keeps
      | (apply keeps_mk; assumption)
      | (intro _)
      | split
      | (refine keeps_fst_eq (by assumption) ?_))

/-- `State.flowWatch` keeps them. -/
theorem State_flowWatch_keeps (s : State) {s_ : State} (hks : Keeps s_ s) :
    Keeps s_ (State.flowWatch s) := by
  unfold State.flowWatch
  with_reducible
    repeat' (first
      | assumption
      | lift_lets
      | (intro x; refine (fun (hx : Keeps s_ x) => ?_) ?_; clear_value x; rotate_left; unfold x; rotate_right)
      | (intro x; refine (fun (hx : Keeps s_ x.1) => ?_) ?_; clear_value x; rotate_left; unfold x; rotate_right)
      | (intro x; clear_value x)
      | apply State_updMod_keeps
      | apply State_modRaise_keeps
      | apply keeps_ite
      | (apply keeps_mk; assumption)
      | (intro _))

/-- `State.coolWatch` keeps them. -/
theorem State_coolWatch_keeps (s : State) (flow : Option Nat) {s_ : State} (hks : Keeps s_ s) :
    Keeps s_ (State.coolWatch s flow) := by
  unfold State.coolWatch
  with_reducible
    repeat' (first
      | assumption
      | lift_lets
      | (intro x; refine (fun (hx : Keeps s_ x) => ?_) ?_; clear_value x; rotate_left; unfold x; rotate_right)
      | (intro x; clear_value x)
      | apply State_setFld_keeps
      | apply State_updMod_keeps
      | apply State_modRaise_keeps
      | apply keeps_ite
      | (apply keeps_mk; assumption)
      | (intro _)
      | split
      | (refine keeps_fst_eq (by assumption) ?_))

/-- `State.trayRead` keeps them. -/
theorem State_trayRead_keeps (s : State) (tin tout : Option Int) (flow : Option Nat) {s_ : State} (hks : Keeps s_ s) :
    Keeps s_ (State.trayRead s tin tout flow) := by
  unfold State.trayRead
  with_reducible
    repeat' (first
      | assumption
      | lift_lets
      | (intro x; refine (fun (hx : Keeps s_ x) => ?_) ?_; clear_value x; rotate_left; unfold x; rotate_right)
      | (intro x; refine (fun (hx : Keeps s_ x.1) => ?_) ?_; clear_value x; rotate_left; unfold x; rotate_right)
      | (intro x; clear_value x)
      | apply State_updMod_keeps
      | apply State_doSwap_keeps
      | apply State_trayTemp_keeps
      | apply State_trayFlow_keeps
      | apply State_flowWatch_keeps
      | apply State_coolWatch_keeps
      | apply keeps_ite
      | (apply keeps_mk; assumption)
      | (intro _)
      | split
      | (refine keeps_fst_eq (by assumption) ?_))

/-- `execTrayRead` keeps them. -/
theorem execTrayRead_keeps (tin tout : Option Int) (flow : Option Nat) (s : State) {s_ : State} (hks : Keeps s_ s) :
    KeepsO s_ (execTrayRead tin tout flow s) := by
  unfold execTrayRead
  with_reducible
    repeat' (first
      | assumption
      | apply State_trayRead_keeps
      | apply keepsO_next)

/-- `State.coolShutdown` keeps them. -/
theorem State_coolShutdown_keeps (s : State) {s_ : State} (hks : Keeps s_ s) :
    Keeps s_ (State.coolShutdown s) := by
  unfold State.coolShutdown
  with_reducible
    repeat' (first
      | assumption
      | apply State_modRaise_keeps
      | apply keeps_ite
      | split)

/-- `execCoolantShutdown` keeps them. -/
theorem execCoolantShutdown_keeps (s : State) {s_ : State} (hks : Keeps s_ s) :
    KeepsO s_ (execCoolantShutdown s) := by
  unfold execCoolantShutdown
  with_reducible
    repeat' (first
      | assumption
      | apply State_coolShutdown_keeps
      | apply keepsO_next)

/-- `State.errnStuckSeen` keeps them. -/
theorem State_errnStuckSeen_keeps (s : State) {s_ : State} (hks : Keeps s_ s) :
    Keeps s_ (State.errnStuckSeen s) := by
  unfold State.errnStuckSeen
  with_reducible
    repeat' (first
      | assumption
      | lift_lets
      | (intro x; refine (fun (hx : Keeps s_ x) => ?_) ?_; clear_value x; rotate_left; unfold x; rotate_right)
      | (intro x; refine (fun (hx : Keeps s_ x.1) => ?_) ?_; clear_value x; rotate_left; unfold x; rotate_right)
      | (intro x; refine (fun (hx : ∀ y, Keeps s_ (x y)) => ?_) ?_; clear_value x; rotate_left; unfold x; rotate_right)
      | (intro x; clear_value x)
      | apply State_modRaise_keeps
      | apply keeps_ite
      | apply keeps_ite1
      | (apply keeps_mk; first | assumption | apply State_modRaise_keeps)
      | (intro _)
      | split
      | (dsimp only; split)
      | (refine keeps_fst_eq (by assumption) ?_))

/-- `execErrnStuck` keeps them. -/
theorem execErrnStuck_keeps (s : State) {s_ : State} (hks : Keeps s_ s) :
    KeepsO s_ (execErrnStuck s) := by
  unfold execErrnStuck
  with_reducible
    repeat' (first
      | assumption
      | apply State_errnStuckSeen_keeps
      | apply keepsO_next)

/-- `execDieStop` keeps them. -/
theorem execDieStop_keeps (d : Nat) (b : Blk) (bit : Nat) (s : State) {s_ : State} (hks : Keeps s_ s) :
    KeepsO s_ (execDieStop d b bit s) := by
  unfold execDieStop
  with_reducible
    repeat' (first
      | assumption
      | apply State_dieStop_keeps
      | apply keepsO_ite
      | apply keepsO_next
      | apply keeps_ite)

/-- `execModuleStop` keeps them. -/
theorem execModuleStop_keeps (s : State) {s_ : State} (hks : Keeps s_ s) :
    KeepsO s_ (execModuleStop s) := by
  unfold execModuleStop
  with_reducible
    repeat' (first
      | assumption
      | apply State_moduleStop_keeps
      | apply keepsO_ite
      | apply keepsO_next
      | apply keeps_ite
      | split
      | (refine keeps_fst_eq (by assumption) ?_))

/-- `State.bridgeReject` keeps them. -/
theorem State_bridgeReject_keeps (s : State) (d peer n : Nat) {s_ : State} (hks : Keeps s_ s) :
    Keeps s_ (State.bridgeReject s d peer n) := by
  unfold State.bridgeReject
  with_reducible
    repeat' (first
      | assumption
      | apply State_addRg_keeps
      | apply State_emit_keeps
      | apply State_raise_keeps
      | apply keeps_ite)

/-- `execBridgeFlitReject` keeps them. -/
theorem execBridgeFlitReject_keeps (d peer n : Nat) (s : State) {s_ : State} (hks : Keeps s_ s) :
    KeepsO s_ (execBridgeFlitReject d peer n s) := by
  unfold execBridgeFlitReject
  with_reducible
    repeat' (first
      | assumption
      | apply State_bridgeReject_keeps
      | apply keepsO_next)

/-- `execStatusClear` keeps them. -/
theorem execStatusClear_keeps (d : Nat) (b : Blk) (i : Nat) (v : Word) (s : State) {s_ : State} (hks : Keeps s_ s) :
    KeepsO s_ (execStatusClear d b i v s) := by
  unfold execStatusClear
  with_reducible
    repeat' (first
      | assumption
      | apply State_clearStat_keeps
      | apply keepsO_ite
      | apply keepsO_next
      | apply keeps_ite)

/-- `State.spareCmd` keeps them. -/
theorem State_spareCmd_keeps (s : State) (f : State → State) {s_ : State} (hks : Keeps s_ s) (hff : ∀ z0, Keeps s_ z0 → Keeps s_ (f z0)) :
    Keeps s_ (State.spareCmd s f).1 := by
  unfold State.spareCmd
  with_reducible
    repeat' (first
      | assumption
      | apply State_configBusy_keeps
      | apply hff
      | apply keeps_ite1
      | apply keeps_ite)

/-- `State.clusterIn` keeps them. -/
theorem State_clusterIn_keeps (s : State) (d l : Nat) (test : Bool) {s_ : State} (hks : Keeps s_ s) :
    Keeps s_ (State.clusterIn s d l test) := by
  unfold State.clusterIn
  with_reducible
    repeat' (first
      | assumption
      | apply State_startSwitch_keeps
      | apply State_spareEnd_keeps
      | apply keeps_ite
      | split
      | (refine keeps_fst_eq (by assumption) ?_))

/-- `State.bankIn` keeps them. -/
theorem State_bankIn_keeps (s : State) (d bank : Nat) {s_ : State} (hks : Keeps s_ s) :
    Keeps s_ (State.bankIn s d bank) := by
  unfold State.bankIn
  with_reducible
    repeat' (first
      | assumption
      | lift_lets
      | (intro x; refine (fun (hx : Keeps s_ x) => ?_) ?_; clear_value x; rotate_left; unfold x; rotate_right)
      | (intro x; refine (fun (hx : Keeps s_ x.1) => ?_) ?_; clear_value x; rotate_left; unfold x; rotate_right)
      | (intro x; clear_value x)
      | apply State_spareDue_keeps
      | apply State_spareEnd_keeps
      | apply State_celSpareIn_keeps
      | apply keeps_ite
      | (intro _)
      | split
      | (refine keeps_fst_eq (by assumption) ?_))

/-- `State.laneIn` keeps them. -/
theorem State_laneIn_keeps (s : State) (d p lane : Nat) {s_ : State} (hks : Keeps s_ s) :
    Keeps s_ (State.laneIn s d p lane) := by
  unfold State.laneIn
  with_reducible
    repeat' (first
      | assumption
      | lift_lets
      | (intro x; refine (fun (hx : Keeps s_ x) => ?_) ?_; clear_value x; rotate_left; unfold x; rotate_right)
      | (intro x; refine (fun (hx : Keeps s_ x.1) => ?_) ?_; clear_value x; rotate_left; unfold x; rotate_right)
      | (intro x; clear_value x)
      | apply State_spareEnd_keeps
      | apply State_macSpareIn_keeps
      | apply keeps_ite)

/-- `State.retireIn` keeps them. -/
theorem State_retireIn_keeps (s : State) (d k pc unit : Nat) {s_ : State} (hks : Keeps s_ s) :
    Keeps s_ (State.retireIn s d k pc unit) := by
  unfold State.retireIn
  with_reducible
    repeat' (first
      | assumption
      | lift_lets
      | (intro x; refine (fun (hx : Keeps s_ x) => ?_) ?_; clear_value x; rotate_left; unfold x; rotate_right)
      | (intro x; refine (fun (hx : Keeps s_ x.1) => ?_) ?_; clear_value x; rotate_left; unfold x; rotate_right)
      | (intro x; clear_value x)
      | apply State_spareEnd_keeps
      | apply State_hbmRetire_keeps
      | apply keeps_ite)

/-- `State.spareWrite` keeps them. -/
theorem State_spareWrite_keeps (s : State) (v : Word) {s_ : State} (hks : Keeps s_ s) :
    Keeps s_ (State.spareWrite s v).1 := by
  unfold State.spareWrite
  with_reducible
    repeat' (first
      | assumption
      | lift_lets
      | (intro x; refine (fun (hx : Keeps s_ x) => ?_) ?_; clear_value x; rotate_left; unfold x; rotate_right)
      | (intro x; clear_value x)
      | apply State_spareEnd_keeps
      | apply State_spareCmd_keeps
      | apply State_clusterIn_keeps
      | apply State_bankIn_keeps
      | apply State_laneIn_keeps
      | apply State_retireIn_keeps
      | (intro _)
      | split
      | (refine keeps_fst_eq (by assumption) ?_))

/-- `execClIn` keeps them. -/
theorem execClIn_keeps (d l : Nat) (s : State) {s_ : State} (hks : Keeps s_ s) :
    KeepsO s_ (execClIn d l s) := by
  unfold execClIn
  with_reducible
    repeat' (first
      | assumption
      | apply State_spareCmd_keeps
      | apply State_clusterIn_keeps
      | apply keepsO_ite
      | apply keepsO_next
      | apply keeps_ite
      | (intro _))

/-- `execBankIn` keeps them. -/
theorem execBankIn_keeps (d bank : Nat) (s : State) {s_ : State} (hks : Keeps s_ s) :
    KeepsO s_ (execBankIn d bank s) := by
  unfold execBankIn
  with_reducible
    repeat' (first
      | assumption
      | apply State_spareCmd_keeps
      | apply State_bankIn_keeps
      | apply keepsO_ite
      | apply keepsO_next
      | apply keeps_ite
      | (intro _))

/-- `execLaneIn` keeps them. -/
theorem execLaneIn_keeps (d p lane : Nat) (s : State) {s_ : State} (hks : Keeps s_ s) :
    KeepsO s_ (execLaneIn d p lane s) := by
  unfold execLaneIn
  with_reducible
    repeat' (first
      | assumption
      | apply State_spareCmd_keeps
      | apply State_laneIn_keeps
      | apply keepsO_ite
      | apply keepsO_next
      | apply keeps_ite
      | (intro _))

/-- `execSpareRetire` keeps them. -/
theorem execSpareRetire_keeps (d k pc unit : Nat) (s : State) {s_ : State} (hks : Keeps s_ s) :
    KeepsO s_ (execSpareRetire d k pc unit s) := by
  unfold execSpareRetire
  with_reducible
    repeat' (first
      | assumption
      | apply State_spareCmd_keeps
      | apply State_retireIn_keeps
      | apply keepsO_ite
      | apply keepsO_next
      | apply keeps_ite
      | (intro _))

/-- `execTestCl` keeps them. -/
theorem execTestCl_keeps (d l : Nat) (s : State) {s_ : State} (hks : Keeps s_ s) :
    KeepsO s_ (execTestCl d l s) := by
  unfold execTestCl
  with_reducible
    repeat' (first
      | assumption
      | apply State_spareCmd_keeps
      | apply State_clusterIn_keeps
      | apply keepsO_ite
      | apply keepsO_next
      | apply keeps_ite
      | (intro _))

/-- `State.switchHold` keeps them. -/
theorem State_switchHold_keeps (s : State) (bad : Bool) {s_ : State} (hks : Keeps s_ s) :
    Keeps s_ (State.switchHold s bad) := by
  unfold State.switchHold
  with_reducible
    repeat' (first
      | assumption
      | apply State_updCl_keeps
      | apply State_raise_keeps
      | apply State_updMod_keeps
      | apply State_spareFailed_keeps
      | apply keeps_ite
      | (apply keeps_mk; assumption)
      | (intro _)
      | split
      | (refine keeps_fst_eq (by assumption) ?_))

/-- `execClusterSwitchHold` keeps them. -/
theorem execClusterSwitchHold_keeps (bad : Bool) (s : State) {s_ : State} (hks : Keeps s_ s) :
    KeepsO s_ (execClusterSwitchHold bad s) := by
  unfold execClusterSwitchHold
  with_reducible
    repeat' (first
      | assumption
      | apply State_switchHold_keeps
      | apply keepsO_next)

/-- `State.switchMove` keeps them. -/
theorem State_switchMove_keeps (s : State) (d l p k : Nat) (test : Bool) {s_ : State} (hks : Keeps s_ s) :
    Keeps s_ (State.switchMove s d l p k test) := by
  unfold State.switchMove
  with_reducible
    repeat' (first
      | assumption
      | lift_lets
      | (intro x; refine (fun (hx : Keeps s_ x) => ?_) ?_; clear_value x; rotate_left; unfold x; rotate_right)
      | (intro x; clear_value x)
      | apply State_updCl_keeps
      | apply State_updPh_keeps
      | apply State_updMod_keeps
      | apply State_setRailSt_keeps
      | apply State_setLogical_keeps
      | apply State_modRaise_keeps
      | apply State_repairDue_keeps
      | apply State_spareEnd_keeps
      | apply keeps_ite
      | (apply keeps_mk; assumption)
      | (intro _))

/-- `State.switchCopy` keeps them. -/
theorem State_switchCopy_keeps (s : State) {s_ : State} (hks : Keeps s_ s) :
    Keeps s_ (State.switchCopy s) := by
  unfold State.switchCopy
  with_reducible
    repeat' (first
      | assumption
      | apply State_freshCluster_keeps
      | apply State_switchMove_keeps
      | apply keeps_ite
      | split
      | (refine keeps_fst_eq (by assumption) ?_))

/-- `execClusterSwitchCopy` keeps them. -/
theorem execClusterSwitchCopy_keeps (s : State) {s_ : State} (hks : Keeps s_ s) :
    KeepsO s_ (execClusterSwitchCopy s) := by
  unfold execClusterSwitchCopy
  with_reducible
    repeat' (first
      | assumption
      | apply State_switchCopy_keeps
      | apply keepsO_next)

/-- `State.patternEnd` keeps them. -/
theorem State_patternEnd_keeps (s : State) (bad : Bool) {s_ : State} (hks : Keeps s_ s) :
    Keeps s_ (State.patternEnd s bad) := by
  unfold State.patternEnd
  with_reducible
    repeat' (first
      | assumption
      | apply State_updPh_keeps
      | apply State_repairDue_keeps
      | apply State_spareEnd_keeps
      | apply keeps_ite
      | (apply keeps_mk; assumption)
      | (intro _)
      | split
      | (refine keeps_fst_eq (by assumption) ?_))

/-- `execPatternTestEnd` keeps them. -/
theorem execPatternTestEnd_keeps (bad : Bool) (s : State) {s_ : State} (hks : Keeps s_ s) :
    KeepsO s_ (execPatternTestEnd bad s) := by
  unfold execPatternTestEnd
  with_reducible
    repeat' (first
      | assumption
      | apply State_patternEnd_keeps
      | apply keepsO_next)

/-- `State.repairWrite` keeps them. -/
theorem State_repairWrite_keeps (s : State) (d : Nat) (wr late : Bool) {s_ : State} (hks : Keeps s_ s) :
    Keeps s_ (State.repairWrite s d wr late) := by
  unfold State.repairWrite
  with_reducible
    repeat' (first
      | assumption
      | lift_lets
      | (intro x; refine (fun (hx : Keeps s_ x) => ?_) ?_; clear_value x; rotate_left; unfold x; rotate_right)
      | (intro x; clear_value x)
      | apply State_updMod_keeps
      | apply State_modRaise_keeps
      | apply State_fieldWrite_keeps
      | apply keeps_ite
      | (apply keeps_mk; assumption)
      | (intro _))

/-- `execRepairRecordWrite` keeps them. -/
theorem execRepairRecordWrite_keeps (d : Nat) (wr : Bool) (s : State) {s_ : State} (hks : Keeps s_ s) :
    KeepsO s_ (execRepairRecordWrite d wr s) := by
  unfold execRepairRecordWrite
  with_reducible
    repeat' (first
      | assumption
      | apply State_repairWrite_keeps
      | apply keepsO_ite
      | apply keepsO_next
      | apply keeps_ite)

/-- `execRepairRetry` keeps them. -/
theorem execRepairRetry_keeps (d : Nat) (wr : Bool) (s : State) {s_ : State} (hks : Keeps s_ s) :
    KeepsO s_ (execRepairRetry d wr s) := by
  unfold execRepairRetry
  with_reducible
    repeat' (first
      | assumption
      | apply State_repairWrite_keeps
      | apply keepsO_ite
      | apply keepsO_next
      | apply keeps_ite)

end Sys2Proof.Machine
end

