-- ==== Sys2Proof/Laws/KeepsHost.lean ====
section
/-! SUPPORT. What registers, the host and the step keep: the part, the queue and the canonical form of what is stored. -/

set_option Elab.async false

namespace Sys2Proof.Machine

/-- `andThen` keeps them. -/
theorem andThen_keeps (x : State × Bool) (on : Bool) (f : State → State × Bool) {s_ : State} (hkx : Keeps s_ x.1) (hff : ∀ z0, Keeps s_ z0 → Keeps
    s_ (f z0).1) :
    Keeps s_ (andThen x on f).1 := by
  unfold andThen
  with_reducible
    repeat' (first
      | assumption
      | lift_lets
      | (intro x; refine (fun (hx : Keeps s_ x) => ?_) ?_; clear_value x; rotate_left; unfold x; rotate_right)
      | (intro x; refine (fun (hx : Keeps s_ x.1) => ?_) ?_; clear_value x; rotate_left; unfold x; rotate_right)
      | (intro x; clear_value x)
      | apply hff
      | apply keeps_ite1
      | apply keeps_ite)

/-- `always` keeps them. -/
theorem always_keeps (f : State → State) (s : State) {s_ : State} (hff : ∀ z0, Keeps s_ z0 → Keeps s_ (f z0)) (hks : Keeps s_ s) :
    Keeps s_ (always f s).1 := by
  unfold always
  with_reducible
    repeat' (first
      | assumption
      | apply hff)

/-- `State.plainWrite` keeps them. -/
theorem State_plainWrite_keeps (s : State) (l : RegLoc) (r : RegDef) (v : Word) {s_ : State} (hks : Keeps s_ s) :
    Keeps s_ (State.plainWrite s l r v).1 := by
  unfold State.plainWrite
  with_reducible
    repeat' (first
      | assumption
      | lift_lets
      | (intro x; refine (fun (hx : Keeps s_ x) => ?_) ?_; clear_value x; rotate_left; unfold x; rotate_right)
      | (intro x; clear_value x)
      | apply State_setReg_keeps
      | apply State_setShad_keeps
      | apply State_configBusy_keeps
      | apply keeps_ite1
      | apply keeps_ite)

/-- `State.ctlWrite` keeps them. -/
theorem State_ctlWrite_keeps (s : State) (c : Nat) (v : Word) {s_ : State} (hks : Keeps s_ s) :
    Keeps s_ (State.ctlWrite s c v) := by
  unfold State.ctlWrite
  with_reducible
    repeat' (first
      | assumption
      | lift_lets
      | (intro x; refine (fun (hx : Keeps s_ x) => ?_) ?_; clear_value x; rotate_left; unfold x; rotate_right)
      | (intro x; clear_value x)
      | apply State_doStop_keeps
      | apply State_doResume_keeps
      | apply State_doClear_keeps
      | apply keeps_ite)

/-- `State.seqWrite` keeps them. -/
theorem State_seqWrite_keeps (s : State) (l : RegLoc) (r : RegDef) (v : Word) {s_ : State} (hks : Keeps s_ s) :
    Keeps s_ (State.seqWrite s l r v).1 := by
  unfold State.seqWrite
  with_reducible
    repeat' (first
      | assumption
      | lift_lets
      | (intro x; refine (fun (hx : Keeps s_ x) => ?_) ?_; clear_value x; rotate_left; unfold x; rotate_right)
      | (intro x; refine (fun (hx : Keeps s_ x.1) => ?_) ?_; clear_value x; rotate_left; unfold x; rotate_right)
      | (intro x; clear_value x)
      | apply State_configBusy_keeps
      | apply State_cntWrite_keeps
      | apply State_doorbell_keeps
      | apply State_ringReset_keeps
      | apply State_plainWrite_keeps
      | apply State_ctlWrite_keeps
      | apply keeps_ite1
      | apply keeps_ite)

/-- `State.celCmd` keeps them. -/
theorem State_celCmd_keeps (s : State) (d : Nat) (v : Word) {s_ : State} (hks : Keeps s_ s) :
    Keeps s_ (State.celCmd s d v).1 := by
  unfold State.celCmd
  with_reducible
    repeat' (first
      | assumption
      | lift_lets
      | (intro x; refine (fun (hx : Keeps s_ x) => ?_) ?_; clear_value x; rotate_left; unfold x; rotate_right)
      | (intro x; refine (fun (hx : Keeps s_ x.1) => ?_) ?_; clear_value x; rotate_left; unfold x; rotate_right)
      | (intro x; refine (fun (hx : ∀ y, Keeps s_ (x y)) => ?_) ?_; clear_value x; rotate_left; unfold x; rotate_right)
      | (intro x; clear_value x)
      | apply State_doFlush_keeps
      | apply State_doPurge_keeps
      | apply State_celSpareIn_keeps
      | apply andThen_keeps
      | apply keeps_ite1
      | apply keeps_ite
      | (apply keeps_mk; first | assumption | apply State_doFlush_keeps | apply State_doPurge_keeps | apply State_celSpareIn_keeps | apply andThen_keeps)
      | (intro _)
      | split
      | (dsimp only; split)
      | (refine keeps_fst_eq (by assumption) ?_))

/-- `State.injectRes` keeps them. -/
theorem State_injectRes_keeps (s : State) (d l a : Nat) {s_ : State} (hks : Keeps s_ s) :
    Keeps s_ (State.injectRes s d l a) := by
  unfold State.injectRes
  with_reducible
    repeat' (first
      | assumption
      | apply State_updCl_keeps
      | (apply keeps_mk; assumption)
      | (intro _))

/-- `State.hbmCmdWrite` keeps them. -/
theorem State_hbmCmdWrite_keeps (s : State) (d k : Nat) (v : Word) {s_ : State} (hks : Keeps s_ s) :
    Keeps s_ (State.hbmCmdWrite s d k v).1 := by
  unfold State.hbmCmdWrite
  with_reducible
    repeat' (first
      | assumption
      | lift_lets
      | (intro x; refine (fun (hx : Keeps s_ x) => ?_) ?_; clear_value x; rotate_left; unfold x; rotate_right)
      | (intro x; refine (fun (hx : Keeps s_ x.1) => ?_) ?_; clear_value x; rotate_left; unfold x; rotate_right)
      | (intro x; refine (fun (hx : ∀ y, Keeps s_ (x y)) => ?_) ?_; clear_value x; rotate_left; unfold x; rotate_right)
      | (intro x; clear_value x)
      | apply State_flushSb_keeps
      | apply State_hbmRetire_keeps
      | apply State_maintEnter_keeps
      | apply State_maintExit_keeps
      | apply State_doMbist_keeps
      | apply andThen_keeps
      | apply always_keeps
      | apply keeps_ite1
      | apply keeps_ite
      | (apply keeps_mk; first | assumption | apply State_flushSb_keeps | apply State_hbmRetire_keeps | apply State_maintEnter_keeps | apply State_maintExit_keeps | apply State_doMbist_keeps | apply andThen_keeps | apply always_keeps)
      | (intro _)
      | split
      | (dsimp only; split)
      | (refine keeps_fst_eq (by assumption) ?_))

/-- `State.hbmWriteReg` keeps them. -/
theorem State_hbmWriteReg_keeps (s : State) (l : RegLoc) (r : RegDef) (v : Word) {s_ : State} (hks : Keeps s_ s) :
    Keeps s_ (State.hbmWriteReg s l r v).1 := by
  unfold State.hbmWriteReg
  with_reducible
    repeat' (first
      | assumption
      | apply State_configBusy_keeps
      | apply State_shiftGo_keeps
      | apply State_plainWrite_keeps
      | apply State_hbmCmdWrite_keeps
      | apply keeps_ite1
      | apply keeps_ite)

/-- `State.fabWriteReg` keeps them. -/
theorem State_fabWriteReg_keeps (s : State) (l : RegLoc) (r : RegDef) (v : Word) {s_ : State} (hks : Keeps s_ s) :
    Keeps s_ (State.fabWriteReg s l r v).1 := by
  unfold State.fabWriteReg
  with_reducible
    repeat' (first
      | assumption
      | lift_lets
      | (intro x; refine (fun (hx : Keeps s_ x) => ?_) ?_; clear_value x; rotate_left; unfold x; rotate_right)
      | (intro x; clear_value x)
      | apply State_setFld_keeps
      | apply State_configBusy_keeps
      | apply State_plainWrite_keeps
      | apply keeps_ite1
      | apply keeps_ite)

/-- `State.macWriteReg` keeps them. -/
theorem State_macWriteReg_keeps (s : State) (l : RegLoc) (r : RegDef) (v : Word) {s_ : State} (hks : Keeps s_ s) :
    Keeps s_ (State.macWriteReg s l r v).1 := by
  unfold State.macWriteReg
  with_reducible
    repeat' (first
      | assumption
      | lift_lets
      | (intro x; refine (fun (hx : Keeps s_ x) => ?_) ?_; clear_value x; rotate_left; unfold x; rotate_right)
      | (intro x; refine (fun (hx : Keeps s_ x.1) => ?_) ?_; clear_value x; rotate_left; unfold x; rotate_right)
      | (intro x; refine (fun (hx : ∀ y, Keeps s_ (x y)) => ?_) ?_; clear_value x; rotate_left; unfold x; rotate_right)
      | (intro x; clear_value x)
      | apply State_macRetrain_keeps
      | apply State_macSpareIn_keeps
      | apply State_hqRxCons_keeps
      | apply State_hqTxProd_keeps
      | apply andThen_keeps
      | apply always_keeps
      | apply State_plainWrite_keeps
      | apply keeps_ite1
      | apply keeps_ite
      | (apply keeps_mk; first | assumption | apply State_macRetrain_keeps | apply State_macSpareIn_keeps | apply State_hqRxCons_keeps | apply State_hqTxProd_keeps | apply andThen_keeps | apply always_keeps | apply State_plainWrite_keeps)
      | (intro _)
      | split
      | (dsimp only; split)
      | (refine keeps_fst_eq (by assumption) ?_))

/-- `State.injectExit` keeps them. -/
theorem State_injectExit_keeps (s : State) (d u : Nat) {s_ : State} (hks : Keeps s_ s) :
    Keeps s_ (State.injectExit s d u) := by
  unfold State.injectExit
  with_reducible
    repeat' (first
      | assumption
      | apply State_updDie_keeps
      | apply keeps_ite
      | (apply keeps_mk; assumption)
      | (intro _))

/-- `State.modWriteReg` keeps them. -/
theorem State_modWriteReg_keeps (s : State) (l : RegLoc) (r : RegDef) (v : Word) {s_ : State} (hks : Keeps s_ s) :
    Keeps s_ (State.modWriteReg s l r v).1 := by
  unfold State.modWriteReg
  with_reducible
    repeat' (first
      | assumption
      | lift_lets
      | (intro x; refine (fun (hx : Keeps s_ x) => ?_) ?_; clear_value x; rotate_left; unfold x; rotate_right)
      | (intro x; refine (fun (hx : Keeps s_ x.1) => ?_) ?_; clear_value x; rotate_left; unfold x; rotate_right)
      | (intro x; refine (fun (hx : ∀ y, Keeps s_ (x y)) => ?_) ?_; clear_value x; rotate_left; unfold x; rotate_right)
      | (intro x; clear_value x)
      | apply State_setFld_keeps
      | apply State_enterLp_keeps
      | apply State_exitLp_keeps
      | apply State_spareWrite_keeps
      | apply andThen_keeps
      | apply State_plainWrite_keeps
      | apply keeps_ite1
      | apply keeps_ite
      | (apply keeps_mk; first | assumption | apply State_setFld_keeps | apply State_enterLp_keeps | apply State_exitLp_keeps | apply State_spareWrite_keeps | apply andThen_keeps | apply State_plainWrite_keeps)
      | (intro _)
      | split
      | (dsimp only; split)
      | (refine keeps_fst_eq (by assumption) ?_))

/-- `State.blockWrite` keeps them. -/
theorem State_blockWrite_keeps (s : State) (l : RegLoc) (r : RegDef) (v : Word) {s_ : State} (hks : Keeps s_ s) :
    Keeps s_ (State.blockWrite s l r v).1 := by
  unfold State.blockWrite
  with_reducible
    repeat' (first
      | assumption
      | lift_lets
      | (intro x; refine (fun (hx : Keeps s_ x) => ?_) ?_; clear_value x; rotate_left; unfold x; rotate_right)
      | (intro x; clear_value x)
      | apply State_aglRetrain_keeps
      | apply State_aglDown_keeps
      | apply State_secCmd_keeps
      | apply State_timOffset_keeps
      | apply State_plainWrite_keeps
      | apply State_seqWrite_keeps
      | apply State_celCmd_keeps
      | apply State_injectRes_keeps
      | apply State_hbmWriteReg_keeps
      | apply State_fabWriteReg_keeps
      | apply State_macWriteReg_keeps
      | apply State_injectExit_keeps
      | apply State_modWriteReg_keeps
      | apply keeps_ite1
      | apply keeps_ite
      | split
      | (refine keeps_fst_eq (by assumption) ?_))

/-- `State.clearLog` keeps them. -/
theorem State_clearLog_keeps (s : State) (l : RegLoc) (v : Word) {s_ : State} (hks : Keeps s_ s) :
    Keeps s_ (State.clearLog s l v) := by
  unfold State.clearLog
  with_reducible
    repeat' (first
      | assumption
      | apply State_setFld_keeps
      | apply keeps_ite)

/-- `State.liveWrite` keeps them. -/
theorem State_liveWrite_keeps (s : State) (l : RegLoc) (r : RegDef) (v : Word) {s_ : State} (hks : Keeps s_ s) :
    Keeps s_ (State.liveWrite s l r v).1 := by
  unfold State.liveWrite
  with_reducible
    repeat' (first
      | assumption
      | apply State_clearStat_keeps
      | apply State_writeMask_keeps
      | apply State_requestSwap_keeps
      | apply State_blockWrite_keeps
      | apply State_clearLog_keeps
      | apply keeps_ite1
      | apply keeps_ite)

/-- `State.writePlace` keeps them. -/
theorem State_writePlace_keeps (s : State) (v : Word) (x : RegAt) {s_ : State} (hks : Keeps s_ s) :
    Keeps s_ (State.writePlace s v x).1 := by
  unfold State.writePlace
  with_reducible
    repeat' (first
      | assumption
      | lift_lets
      | (intro x; refine (fun (hx : Keeps s_ x) => ?_) ?_; clear_value x; rotate_left; unfold x; rotate_right)
      | (intro x; refine (fun (hx : Keeps s_ x.1) => ?_) ?_; clear_value x; rotate_left; unfold x; rotate_right)
      | (intro x; clear_value x)
      | apply State_clearStat_keeps
      | apply State_clearLog_keeps
      | apply State_liveWrite_keeps
      | apply keeps_ite1
      | apply keeps_ite
      | split
      | (refine keeps_fst_eq (by assumption) ?_))

/-- `State.regWrite` keeps them. -/
theorem State_regWrite_keeps (s : State) (a : Nat) (v : Word) {s_ : State} (hks : Keeps s_ s) :
    Keeps s_ (State.regWrite s a v).1 := by
  unfold State.regWrite
  with_reducible
    repeat' (first
      | assumption
      | lift_lets
      | (intro x; refine (fun (hx : Keeps s_ x) => ?_) ?_; clear_value x; rotate_left; unfold x; rotate_right)
      | (intro x; refine (fun (hx : Keeps s_ x.1) => ?_) ?_; clear_value x; rotate_left; unfold x; rotate_right)
      | (intro x; refine (fun (hx : ∀ y, Keeps s_ (x y)) => ?_) ?_; clear_value x; rotate_left; unfold x; rotate_right)
      | (intro x; clear_value x)
      | apply State_writePlace_keeps
      | apply keeps_ite1
      | apply keeps_ite
      | (apply keeps_mk; first | assumption | apply State_writePlace_keeps)
      | (intro _)
      | split
      | (dsimp only; split)
      | (refine keeps_fst_eq (by assumption) ?_))

/-- `State.writeTo` keeps them. -/
theorem State_writeTo_keeps (s : State) (d : Nat) (b : Blk) (i f : Nat) (v : Word) {s_ : State} (hks : Keeps s_ s) :
    Keeps s_ (State.writeTo s d b i f v) := by
  unfold State.writeTo
  with_reducible
    repeat' (first
      | assumption
      | apply State_regWrite_keeps
      | apply keeps_ite)

/-- `State.lineOut` keeps them. -/
theorem State_lineOut_keeps (s : State) (d a : Nat) {s_ : State} (hks : Keeps s_ s) :
    Keeps s_ (State.lineOut s d a).1 := by
  unfold State.lineOut
  with_reducible
    repeat' (first
      | assumption
      | apply State_touchRead_keeps
      | apply State_exitLine_keeps)

/-- `State.grant` keeps them. -/
theorem State_grant_keeps (s : State) (d ln : Nat) (own : Bool) {s_ : State} (hks : Keeps s_ s) :
    Keeps s_ (State.grant s d ln own) := by
  unfold State.grant
  with_reducible
    repeat' (first
      | assumption
      | lift_lets
      | (intro x; refine (fun (hx : Keeps s_ x) => ?_) ?_; clear_value x; rotate_left; unfold x; rotate_right)
      | (intro x; refine (fun (hx : Keeps s_ x.1) => ?_) ?_; clear_value x; rotate_left; unfold x; rotate_right)
      | (intro x; clear_value x)
      | apply State_updLink_keeps
      | (apply keeps_mk; assumption)
      | (intro _))

/-- `State.dropEntry` keeps them. -/
theorem State_dropEntry_keeps (s : State) (d ln : Nat) {s_ : State} (hks : Keeps s_ s) :
    Keeps s_ (State.dropEntry s d ln) := by
  unfold State.dropEntry
  with_reducible
    repeat' (first
      | assumption
      | apply State_updLink_keeps
      | (apply keeps_mk; assumption)
      | (intro _))

/-- `State.hostGrant` keeps them. -/
theorem State_hostGrant_keeps (s : State) (d : Nat) (m : LMsg) {s_ : State} (hks : Keeps s_ s) :
    Keeps s_ (State.hostGrant s d m) := by
  unfold State.hostGrant
  with_reducible
    repeat' (first
      | assumption
      | lift_lets
      | (intro x; refine (fun (hx : Keeps s_ x) => ?_) ?_; clear_value x; rotate_left; unfold x; rotate_right)
      | (intro x; refine (fun (hx : Keeps s_ x.1) => ?_) ?_; clear_value x; rotate_left; unfold x; rotate_right)
      | (intro x; clear_value x)
      | apply State_respond_keeps
      | apply State_lineOut_keeps
      | apply State_grant_keeps
      | apply keeps_ite)

/-- `State.hostBack` keeps them. -/
theorem State_hostBack_keeps (s : State) (d : Nat) (m : LMsg) {s_ : State} (hks : Keeps s_ s) :
    Keeps s_ (State.hostBack s d m) := by
  unfold State.hostBack
  with_reducible
    repeat' (first
      | assumption
      | lift_lets
      | (intro x; refine (fun (hx : Keeps s_ x) => ?_) ?_; clear_value x; rotate_left; unfold x; rotate_right)
      | (intro x; clear_value x)
      | apply State_writeAt_keeps
      | apply State_respond_keeps
      | apply State_dropEntry_keeps
      | apply keeps_ite)

/-- `State.hostWord` keeps them. -/
theorem State_hostWord_keeps (s : State) (a : Nat) (v : List Byte) {s_ : State} (hks : Keeps s_ s) :
    Keeps s_ (State.hostWord s a v) := by
  unfold State.hostWord
  with_reducible
    repeat' (first
      | assumption
      | lift_lets
      | (intro x; refine (fun (hx : Keeps s_ x) => ?_) ?_; clear_value x; rotate_left; unfold x; rotate_right)
      | (intro x; refine (fun (hx : Keeps s_ x.1) => ?_) ?_; clear_value x; rotate_left; unfold x; rotate_right)
      | (intro x; refine (fun (hx : ∀ y, Keeps s_ (x y)) => ?_) ?_; clear_value x; rotate_left; unfold x; rotate_right)
      | (intro x; clear_value x)
      | apply State_mergeBare_keeps
      | apply State_touchWrite_keeps
      | apply keeps_ite
      | apply keeps_ite1
      | (apply keeps_mk; first | assumption | apply State_mergeBare_keeps | apply State_touchWrite_keeps)
      | (intro _)
      | split
      | (dsimp only; split)
      | (refine keeps_fst_eq (by assumption) ?_))

/-- `State.hostRmw` keeps them. -/
theorem State_hostRmw_keeps (s : State) (d : Nat) (m : LMsg) (alu : Bool) {s_ : State} (hks : Keeps s_ s) :
    Keeps s_ (State.hostRmw s d m alu) := by
  unfold State.hostRmw
  with_reducible
    repeat' (first
      | assumption
      | lift_lets
      | (intro x; refine (fun (hx : Keeps s_ x) => ?_) ?_; clear_value x; rotate_left; unfold x; rotate_right)
      | (intro x; refine (fun (hx : Keeps s_ x.1) => ?_) ?_; clear_value x; rotate_left; unfold x; rotate_right)
      | (intro x; clear_value x)
      | apply State_respond_keeps
      | apply State_atomicAt_keeps
      | apply State_ctrlUe_keeps
      | apply keeps_ite)

/-- `State.hostMem` keeps them. -/
theorem State_hostMem_keeps (s : State) (d : Nat) (m : LMsg) (alu : Bool) {s_ : State} (hks : Keeps s_ s) :
    Keeps s_ (State.hostMem s d m alu) := by
  unfold State.hostMem
  with_reducible
    repeat' (first
      | assumption
      | lift_lets
      | (intro x; refine (fun (hx : Keeps s_ x) => ?_) ?_; clear_value x; rotate_left; unfold x; rotate_right)
      | (intro x; refine (fun (hx : Keeps s_ x.1) => ?_) ?_; clear_value x; rotate_left; unfold x; rotate_right)
      | (intro x; clear_value x)
      | apply State_writeAt_keeps
      | apply State_mergeAt_keeps
      | apply State_respond_keeps
      | apply State_lineOut_keeps
      | apply State_dropEntry_keeps
      | apply State_hostGrant_keeps
      | apply State_hostBack_keeps
      | apply State_hostWord_keeps
      | apply State_hostRmw_keeps
      | apply keeps_ite
      | split
      | (refine keeps_fst_eq (by assumption) ?_))

/-- `State.hostReg` keeps them. -/
theorem State_hostReg_keeps (s : State) (d : Nat) (m : LMsg) {s_ : State} (hks : Keeps s_ s) :
    Keeps s_ (State.hostReg s d m) := by
  unfold State.hostReg
  with_reducible
    repeat' (first
      | assumption
      | (intro x; refine (fun (hx : Keeps s_ x) => ?_) ?_; clear_value x; rotate_left; unfold x; rotate_right)
      | (intro x; refine (fun (hx : Keeps s_ x.1) => ?_) ?_; clear_value x; rotate_left; unfold x; rotate_right)
      | (intro x; clear_value x)
      | apply State_respond_keeps
      | apply State_regWrite_keeps
      | apply keeps_ite
      | lift_lets)

/-- `State.hostProxy` keeps them. -/
theorem State_hostProxy_keeps (s : State) (d : Nat) (m : LMsg) (pd n off : Nat) {s_ : State} (hks : Keeps s_ s) :
    Keeps s_ (State.hostProxy s d m pd n off) := by
  unfold State.hostProxy
  with_reducible
    repeat' (first
      | assumption
      | lift_lets
      | (intro x; refine (fun (hx : Keeps s_ x) => ?_) ?_; clear_value x; rotate_left; unfold x; rotate_right)
      | (intro x; refine (fun (hx : Keeps s_ x.1) => ?_) ?_; clear_value x; rotate_left; unfold x; rotate_right)
      | (intro x; clear_value x)
      | apply State_respond_keeps
      | apply State_issue_keeps
      | apply keeps_ite)

/-- `State.hostGo` keeps them. -/
theorem State_hostGo_keeps (s : State) (d : Nat) (m : LMsg) (alu : Bool) {s_ : State} (hks : Keeps s_ s) :
    Keeps s_ (State.hostGo s d m alu) := by
  unfold State.hostGo
  with_reducible
    repeat' (first
      | assumption
      | lift_lets
      | (intro x; refine (fun (hx : Keeps s_ x) => ?_) ?_; clear_value x; rotate_left; unfold x; rotate_right)
      | (intro x; clear_value x)
      | apply State_respond_keeps
      | apply State_hostMem_keeps
      | apply State_hostReg_keeps
      | apply State_hostProxy_keeps
      | apply keeps_ite
      | split
      | (refine keeps_fst_eq (by assumption) ?_))

/-- `State.evictOne` keeps them. -/
theorem State_evictOne_keeps (s : State) (d : Nat) {s_ : State} (hks : Keeps s_ s) :
    Keeps s_ (State.evictOne s d) := by
  unfold State.evictOne
  with_reducible
    repeat' (first
      | assumption
      | apply State_aglCnt_keeps
      | apply State_sendSnoop_keeps
      | apply keeps_ite
      | split
      | (refine keeps_fst_eq (by assumption) ?_))

/-- `State.hostPrompt` keeps them. -/
theorem State_hostPrompt_keeps (s : State) (d : Nat) (m : LMsg) {s_ : State} (hks : Keeps s_ s) :
    Keeps s_ (State.hostPrompt s d m) := by
  unfold State.hostPrompt
  with_reducible
    repeat' (first
      | assumption
      | apply State_sendSnoop_keeps
      | apply State_powerOn_keeps
      | apply State_evictOne_keeps
      | apply keeps_ite
      | split
      | (refine keeps_fst_eq (by assumption) ?_))

/-- `State.hostAnswer` keeps them. -/
theorem State_hostAnswer_keeps (s : State) (d : Nat) (m : LMsg) {s_ : State} (hks : Keeps s_ s) :
    Keeps s_ (State.hostAnswer s d m).1 := by
  unfold State.hostAnswer
  with_reducible
    repeat' (first
      | assumption
      | lift_lets
      | (intro x; refine (fun (hx : Keeps s_ x) => ?_) ?_; clear_value x; rotate_left; unfold x; rotate_right)
      | (intro x; clear_value x)
      | apply State_aglCnt_keeps
      | apply State_answerReq_keeps
      | apply State_snoopAnswer_keeps
      | apply keeps_ite1
      | apply keeps_ite
      | (intro _)
      | split
      | (refine keeps_fst_eq (by assumption) ?_))

/-- `State.takeUp` keeps them. -/
theorem State_takeUp_keeps (d : Nat) (y0 : List (LMsg × Bool)) (y1 : List (LMsg × Bool)) (y2 : State) {s_ : State} (hk_ : Keeps s_ y2) :
    Keeps s_ (State.takeUp d y0 y1 y2) := by
  induction y1 generalizing y0 y2 with
  | nil =>
    unfold State.takeUp
    with_reducible
      repeat' (first
        | assumption
        | lift_lets
        | (intro x; refine (fun (hx : Keeps s_ x) => ?_) ?_; clear_value x; rotate_left; unfold x; rotate_right)
        | (intro x; refine (fun (hx : Keeps s_ x.1) => ?_) ?_; clear_value x; rotate_left; unfold x; rotate_right)
        | (intro x; clear_value x)
        | apply State_updLink_keeps
        | apply State_hostGo_keeps
        | apply State_hostPrompt_keeps
        | apply State_hostAnswer_keeps
        | apply keeps_ite
        | (apply keeps_mk; assumption)
        | (intro _)
        | split
        | (refine keeps_fst_eq (by assumption) ?_))
  | cons _ _ ih =>
    unfold State.takeUp
    with_reducible
      repeat' (first
        | assumption
        | apply ih
        | lift_lets
        | (intro x; refine (fun (hx : Keeps s_ x) => ?_) ?_; clear_value x; rotate_left; unfold x; rotate_right)
        | (intro x; refine (fun (hx : Keeps s_ x.1) => ?_) ?_; clear_value x; rotate_left; unfold x; rotate_right)
        | (intro x; clear_value x)
        | apply State_updLink_keeps
        | apply State_hostGo_keeps
        | apply State_hostPrompt_keeps
        | apply State_hostAnswer_keeps
        | apply keeps_ite
        | (apply keeps_mk; assumption)
        | (intro _)
        | split
        | (refine keeps_fst_eq (by assumption) ?_))

/-- `State.retryPort` keeps them. -/
theorem State_retryPort_keeps (s : State) (d : Nat) {s_ : State} (hks : Keeps s_ s) :
    Keeps s_ (State.retryPort s d) := by
  unfold State.retryPort
  with_reducible
    repeat' (first
      | assumption
      | apply State_takeUp_keeps
      | apply keeps_ite)

/-- `State.retryHost` keeps them. -/
theorem State_retryHost_keeps (s : State) {s_ : State} (hks : Keeps s_ s) :
    Keeps s_ (State.retryHost s) := by
  unfold State.retryHost
  with_reducible
    repeat' (first
      | assumption
      | apply forEach_keeps
      | apply State_retryPort_keeps
      | (intro _))

/-- `State.hostArrive` keeps them. -/
theorem State_hostArrive_keeps (s : State) (d : Nat) (m : LMsg) (alu : Bool) {s_ : State} (hks : Keeps s_ s) :
    Keeps s_ (State.hostArrive s d m alu) := by
  unfold State.hostArrive
  with_reducible
    repeat' (first
      | assumption
      | apply State_takeUp_keeps
      | apply State_retryHost_keeps)

/-- `State.hostRow` keeps them. -/
theorem State_hostRow_keeps (s : State) (d : Nat) (m : LMsg) (alu : Bool) {s_ : State} (hks : Keeps s_ s) :
    Keeps s_ (State.hostRow s d m alu) := by
  unfold State.hostRow
  with_reducible
    repeat' (first
      | assumption
      | apply State_hostArrive_keeps
      | apply keeps_ite)

/-- `execRdOnce` keeps them. -/
theorem execRdOnce_keeps (d tag a : Nat) (s : State) {s_ : State} (hks : Keeps s_ s) :
    KeepsO s_ (execRdOnce d tag a s) := by
  unfold execRdOnce
  with_reducible
    repeat' (first
      | assumption
      | apply State_hostRow_keeps
      | apply keepsO_next)

/-- `execRdShared` keeps them. -/
theorem execRdShared_keeps (d tag a : Nat) (s : State) {s_ : State} (hks : Keeps s_ s) :
    KeepsO s_ (execRdShared d tag a s) := by
  unfold execRdShared
  with_reducible
    repeat' (first
      | assumption
      | apply State_hostRow_keeps
      | apply keepsO_next)

/-- `execRdOwn` keeps them. -/
theorem execRdOwn_keeps (d tag a : Nat) (s : State) {s_ : State} (hks : Keeps s_ s) :
    KeepsO s_ (execRdOwn d tag a s) := by
  unfold execRdOwn
  with_reducible
    repeat' (first
      | assumption
      | apply State_hostRow_keeps
      | apply keepsO_next)

/-- `execRd8` keeps them. -/
theorem execRd8_keeps (d tag a : Nat) (s : State) {s_ : State} (hks : Keeps s_ s) :
    KeepsO s_ (execRd8 d tag a s) := by
  unfold execRd8
  with_reducible
    repeat' (first
      | assumption
      | apply State_hostRow_keeps
      | apply keepsO_next)

/-- `execWrLine` keeps them. -/
theorem execWrLine_keeps (d tag a : Nat) (bs : List Byte) (sb : Word) (s : State) {s_ : State} (hks : Keeps s_ s) :
    KeepsO s_ (execWrLine d tag a bs sb s) := by
  unfold execWrLine
  with_reducible
    repeat' (first
      | assumption
      | apply State_hostRow_keeps
      | apply keepsO_next)

/-- `execWrPart` keeps them. -/
theorem execWrPart_keeps (d tag a : Nat) (bs : List Byte) (sb : Word) (mask : Nat) (s : State) {s_ : State} (hks : Keeps s_ s) :
    KeepsO s_ (execWrPart d tag a bs sb mask s) := by
  unfold execWrPart
  with_reducible
    repeat' (first
      | assumption
      | apply State_hostRow_keeps
      | apply keepsO_next)

/-- `execWr8` keeps them. -/
theorem execWr8_keeps (d tag a : Nat) (v : Word) (s : State) {s_ : State} (hks : Keeps s_ s) :
    KeepsO s_ (execWr8 d tag a v s) := by
  unfold execWr8
  with_reducible
    repeat' (first
      | assumption
      | apply State_hostRow_keeps
      | apply keepsO_next)

/-- `execWrBack` keeps them. -/
theorem execWrBack_keeps (d tag a : Nat) (bs : List Byte) (sb : Word) (s : State) {s_ : State} (hks : Keeps s_ s) :
    KeepsO s_ (execWrBack d tag a bs sb s) := by
  unfold execWrBack
  with_reducible
    repeat' (first
      | assumption
      | apply State_hostRow_keeps
      | apply keepsO_next)

/-- `execEvict` keeps them. -/
theorem execEvict_keeps (d tag a : Nat) (s : State) {s_ : State} (hks : Keeps s_ s) :
    KeepsO s_ (execEvict d tag a s) := by
  unfold execEvict
  with_reducible
    repeat' (first
      | assumption
      | apply State_hostRow_keeps
      | apply keepsO_next)

/-- `execHostAtomic` keeps them. -/
theorem execHostAtomic_keeps (d tag a kind : Nat) (x y : Word) (_env : Env) (alu : Bool) (s : State) {s_ : State} (hks : Keeps s_ s) :
    KeepsO s_ (execHostAtomic d tag a kind x y _env alu s) := by
  unfold execHostAtomic
  with_reducible
    repeat' (first
      | assumption
      | apply State_hostRow_keeps
      | apply keepsO_next)

/-- `execRsp` keeps them. -/
theorem execRsp_keeps (d tag st : Nat) (s : State) {s_ : State} (hks : Keeps s_ s) :
    KeepsO s_ (execRsp d tag st s) := by
  unfold execRsp
  with_reducible
    repeat' (first
      | assumption
      | apply State_hostRow_keeps
      | apply keepsO_next)

/-- `execRsp8` keeps them. -/
theorem execRsp8_keeps (d tag st : Nat) (v : Word) (s : State) {s_ : State} (hks : Keeps s_ s) :
    KeepsO s_ (execRsp8 d tag st v s) := by
  unfold execRsp8
  with_reducible
    repeat' (first
      | assumption
      | apply State_hostRow_keeps
      | apply keepsO_next)

/-- `execRspData` keeps them. -/
theorem execRspData_keeps (d tag st : Nat) (bs : List Byte) (sb : Word) (s : State) {s_ : State} (hks : Keeps s_ s) :
    KeepsO s_ (execRspData d tag st bs sb s) := by
  unfold execRspData
  with_reducible
    repeat' (first
      | assumption
      | apply State_hostRow_keeps
      | apply keepsO_next)

/-- `execSnpTimeout` keeps them. -/
theorem execSnpTimeout_keeps (d tag : Nat) (s : State) {s_ : State} (hks : Keeps s_ s) :
    KeepsO s_ (execSnpTimeout d tag s) := by
  unfold execSnpTimeout
  with_reducible
    repeat' (first
      | assumption
      | apply State_snoopLate_keeps
      | apply State_retryHost_keeps
      | apply keepsO_ite
      | apply keepsO_next
      | apply keeps_ite
      | split
      | (refine keeps_fst_eq (by assumption) ?_))

/-- `execRspTimeout` keeps them. -/
theorem execRspTimeout_keeps (d tag : Nat) (s : State) {s_ : State} (hks : Keeps s_ s) :
    KeepsO s_ (execRspTimeout d tag s) := by
  unfold execRspTimeout
  with_reducible
    repeat' (first
      | assumption
      | apply State_reqLate_keeps
      | apply State_retryHost_keeps
      | apply keepsO_ite
      | apply keepsO_next
      | apply keeps_ite)

/-- `execAglLinkTrain` keeps them. -/
theorem execAglLinkTrain_keeps (d : Nat) (s : State) {s_ : State} (hks : Keeps s_ s) :
    KeepsO s_ (execAglLinkTrain d s) := by
  unfold execAglLinkTrain
  with_reducible
    repeat' (first
      | assumption
      | apply State_linkTrain_keeps
      | apply keepsO_next)

/-- `execAglLanesTrained` keeps them. -/
theorem execAglLanesTrained_keeps (d lanes : Nat) (s : State) {s_ : State} (hks : Keeps s_ s) :
    KeepsO s_ (execAglLanesTrained d lanes s) := by
  unfold execAglLanesTrained
  with_reducible
    repeat' (first
      | assumption
      | apply State_lanesTrained_keeps
      | apply State_retryHost_keeps
      | apply keepsO_next)

/-- `execAglInit` keeps them. -/
theorem execAglInit_keeps (d proto side cr cs cp : Nat) (s : State) {s_ : State} (hks : Keeps s_ s) :
    KeepsO s_ (execAglInit d proto side cr cs cp s) := by
  unfold execAglInit
  with_reducible
    repeat' (first
      | assumption
      | apply State_linkInit_keeps
      | apply keepsO_next)

/-- `execAglRetrain` keeps them. -/
theorem execAglRetrain_keeps (d : Nat) (s : State) {s_ : State} (hks : Keeps s_ s) :
    KeepsO s_ (execAglRetrain d s) := by
  unfold execAglRetrain
  with_reducible
    repeat' (first
      | assumption
      | apply State_aglRetrain_keeps
      | apply keepsO_next)

/-- `execAglDown` keeps them. -/
theorem execAglDown_keeps (d : Nat) (s : State) {s_ : State} (hks : Keeps s_ s) :
    KeepsO s_ (execAglDown d s) := by
  unfold execAglDown
  with_reducible
    repeat' (first
      | assumption
      | apply State_aglDown_keeps
      | apply State_retryHost_keeps
      | apply keepsO_next)

/-- `execAglAutoRetrain` keeps them. -/
theorem execAglAutoRetrain_keeps (d : Nat) (s : State) {s_ : State} (hks : Keeps s_ s) :
    KeepsO s_ (execAglAutoRetrain d s) := by
  unfold execAglAutoRetrain
  with_reducible
    repeat' (first
      | assumption
      | apply State_linkTrain_keeps
      | apply keepsO_ite
      | apply keepsO_next
      | apply keeps_ite)

/-- `execFlitReplayTimeout` keeps them. -/
theorem execFlitReplayTimeout_keeps (d : Nat) (s : State) {s_ : State} (hks : Keeps s_ s) :
    KeepsO s_ (execFlitReplayTimeout d s) := by
  unfold execFlitReplayTimeout
  with_reducible
    repeat' (first
      | assumption
      | apply State_replay_keeps
      | apply keepsO_ite
      | apply keepsO_next
      | apply keeps_ite)

/-- `execAglNak` keeps them. -/
theorem execAglNak_keeps (d fack : Nat) (s : State) {s_ : State} (hks : Keeps s_ s) :
    KeepsO s_ (execAglNak d fack s) := by
  unfold execAglNak
  with_reducible
    repeat' (first
      | assumption
      | apply State_linkNak_keeps
      | apply keepsO_next)

/-- `State.linkAckNow` keeps them. -/
theorem State_linkAckNow_keeps (s : State) (d : Nat) {s_ : State} (hks : Keeps s_ s) :
    Keeps s_ (State.linkAckNow s d) := by
  unfold State.linkAckNow
  with_reducible
    repeat' (first
      | assumption
      | lift_lets
      | (intro x; refine (fun (hx : Keeps s_ x) => ?_) ?_; clear_value x; rotate_left; unfold x; rotate_right)
      | (intro x; clear_value x)
      | apply State_emitFlit_keeps
      | apply State_sendFlit_keeps
      | apply keeps_ite)

/-- `State.sendNak` keeps them. -/
theorem State_sendNak_keeps (s : State) (d : Nat) {s_ : State} (hks : Keeps s_ s) :
    Keeps s_ (State.sendNak s d) := by
  unfold State.sendNak
  with_reducible
    repeat' (first
      | assumption
      | apply State_emitFlit_keeps)

/-- `State.takeMsgs` keeps them. -/
theorem State_takeMsgs_keeps (s : State) (d : Nat) (ms : List LMsg) {s_ : State} (hks : Keeps s_ s) :
    Keeps s_ (State.takeMsgs s d ms) := by
  unfold State.takeMsgs
  with_reducible
    repeat' (first
      | assumption
      | apply forEach_keeps
      | apply State_updLink_keeps
      | apply State_hostArrive_keeps
      | (apply keeps_mk; assumption)
      | (intro _))

/-- `State.acceptFlit` keeps them. -/
theorem State_acceptFlit_keeps (s : State) (d : Nat) (bs : List Byte) {s_ : State} (hks : Keeps s_ s) :
    Keeps s_ (State.acceptFlit s d bs) := by
  unfold State.acceptFlit
  with_reducible
    repeat' (first
      | assumption
      | lift_lets
      | (intro x; refine (fun (hx : Keeps s_ x) => ?_) ?_; clear_value x; rotate_left; unfold x; rotate_right)
      | (intro x; refine (fun (hx : Keeps s_ x.1) => ?_) ?_; clear_value x; rotate_left; unfold x; rotate_right)
      | (intro x; clear_value x)
      | apply State_putLink_keeps
      | apply State_pumpLink_keeps
      | apply State_linkProtocol_keeps
      | apply State_linkAckNow_keeps
      | apply State_takeMsgs_keeps
      | apply keeps_ite
      | (apply keeps_mk; assumption)
      | split
      | (refine keeps_fst_eq (by assumption) ?_))

/-- `State.flitReceive` keeps them. -/
theorem State_flitReceive_keeps (s : State) (d : Nat) (bs : List Byte) {s_ : State} (hks : Keeps s_ s) :
    Keeps s_ (State.flitReceive s d bs) := by
  unfold State.flitReceive
  with_reducible
    repeat' (first
      | assumption
      | lift_lets
      | (intro x; refine (fun (hx : Keeps s_ x) => ?_) ?_; clear_value x; rotate_left; unfold x; rotate_right)
      | (intro x; clear_value x)
      | apply State_aglCnt_keeps
      | apply State_replay_keeps
      | apply State_linkAck_keeps
      | apply State_linkInit_keeps
      | apply State_sendNak_keeps
      | apply State_acceptFlit_keeps
      | apply keeps_ite)

/-- `execFlitReceive` keeps them. -/
theorem execFlitReceive_keeps (d : Nat) (bs : List Byte) (s : State) {s_ : State} (hks : Keeps s_ s) :
    KeepsO s_ (execFlitReceive d bs s) := by
  unfold execFlitReceive
  with_reducible
    repeat' (first
      | assumption
      | apply State_flitReceive_keeps
      | apply keepsO_next)

/-- `State.intrSend` keeps them. -/
theorem State_intrSend_keeps (s : State) (d : Nat) {s_ : State} (hks : Keeps s_ s) :
    Keeps s_ (State.intrSend s d) := by
  unfold State.intrSend
  with_reducible
    repeat' (first
      | assumption
      | lift_lets
      | (intro x; refine (fun (hx : Keeps s_ x) => ?_) ?_; clear_value x; rotate_left; unfold x; rotate_right)
      | (intro x; clear_value x)
      | apply State_updLink_keeps
      | apply State_aglCnt_keeps
      | apply State_sendMsg_keeps
      | apply keeps_ite
      | (apply keeps_mk; assumption)
      | (intro _)
      | split
      | (refine keeps_fst_eq (by assumption) ?_))

/-- `execIntr` keeps them. -/
theorem execIntr_keeps (d : Nat) (s : State) {s_ : State} (hks : Keeps s_ s) :
    KeepsO s_ (execIntr d s) := by
  unfold execIntr
  with_reducible
    repeat' (first
      | assumption
      | apply State_intrSend_keeps
      | apply keepsO_ite
      | apply keepsO_next
      | apply keeps_ite)

/-- `execInjectResidue` keeps them. -/
theorem execInjectResidue_keeps (d l arr : Nat) (s : State) {s_ : State} (hks : Keeps s_ s) :
    KeepsO s_ (execInjectResidue d l arr s) := by
  unfold execInjectResidue
  with_reducible
    repeat' (first
      | assumption
      | lift_lets
      | (intro x; refine (fun (hx : Keeps s_ x) => ?_) ?_; clear_value x; rotate_left; unfold x; rotate_right)
      | (intro x; refine (fun (hx : Keeps s_ x.1) => ?_) ?_; clear_value x; rotate_left; unfold x; rotate_right)
      | (intro x; refine (fun (hx : ∀ y, Keeps s_ (x y)) => ?_) ?_; clear_value x; rotate_left; unfold x; rotate_right)
      | (intro x; clear_value x)
      | apply State_writeTo_keeps
      | apply keepsO_ite
      | apply keepsO_next
      | exact keepsO_fault
      | apply keeps_ite
      | apply keeps_ite1
      | (apply keeps_mk; first | assumption | apply State_writeTo_keeps)
      | (intro _)
      | split
      | (dsimp only; split)
      | (refine keeps_fst_eq (by assumption) ?_))

/-- `execInjectExitCrc` keeps them. -/
theorem execInjectExitCrc_keeps (d u : Nat) (s : State) {s_ : State} (hks : Keeps s_ s) :
    KeepsO s_ (execInjectExitCrc d u s) := by
  unfold execInjectExitCrc
  with_reducible
    repeat' (first
      | assumption
      | lift_lets
      | (intro x; refine (fun (hx : Keeps s_ x) => ?_) ?_; clear_value x; rotate_left; unfold x; rotate_right)
      | (intro x; refine (fun (hx : Keeps s_ x.1) => ?_) ?_; clear_value x; rotate_left; unfold x; rotate_right)
      | (intro x; refine (fun (hx : ∀ y, Keeps s_ (x y)) => ?_) ?_; clear_value x; rotate_left; unfold x; rotate_right)
      | (intro x; clear_value x)
      | apply State_writeTo_keeps
      | apply keepsO_ite
      | apply keepsO_next
      | exact keepsO_fault
      | apply keeps_ite
      | apply keeps_ite1
      | (apply keeps_mk; first | assumption | apply State_writeTo_keeps)
      | (intro _)
      | split
      | (dsimp only; split)
      | (refine keeps_fst_eq (by assumption) ?_))

/-- `execSwapRequest` keeps them. -/
theorem execSwapRequest_keeps (d : Nat) (b : Blk) (i : Nat) (s : State) {s_ : State} (hks : Keeps s_ s) :
    KeepsO s_ (execSwapRequest d b i s) := by
  unfold execSwapRequest
  with_reducible
    repeat' (first
      | assumption
      | lift_lets
      | (intro x; refine (fun (hx : Keeps s_ x) => ?_) ?_; clear_value x; rotate_left; unfold x; rotate_right)
      | (intro x; refine (fun (hx : Keeps s_ x.1) => ?_) ?_; clear_value x; rotate_left; unfold x; rotate_right)
      | (intro x; refine (fun (hx : ∀ y, Keeps s_ (x y)) => ?_) ?_; clear_value x; rotate_left; unfold x; rotate_right)
      | (intro x; clear_value x)
      | apply State_writeTo_keeps
      | apply keepsO_ite
      | apply keepsO_next
      | exact keepsO_fault
      | apply keeps_ite
      | apply keeps_ite1
      | (apply keeps_mk; first | assumption | apply State_writeTo_keeps)
      | (intro _)
      | split
      | (dsimp only; split)
      | (refine keeps_fst_eq (by assumption) ?_))

/-- `execInterruptMaskWrite` keeps them. -/
theorem execInterruptMaskWrite_keeps (d : Nat) (b : Blk) (i : Nat) (v : Word) (s : State) {s_ : State} (hks : Keeps s_ s) :
    KeepsO s_ (execInterruptMaskWrite d b i v s) := by
  unfold execInterruptMaskWrite
  with_reducible
    repeat' (first
      | assumption
      | lift_lets
      | (intro x; refine (fun (hx : Keeps s_ x) => ?_) ?_; clear_value x; rotate_left; unfold x; rotate_right)
      | (intro x; refine (fun (hx : Keeps s_ x.1) => ?_) ?_; clear_value x; rotate_left; unfold x; rotate_right)
      | (intro x; refine (fun (hx : ∀ y, Keeps s_ (x y)) => ?_) ?_; clear_value x; rotate_left; unfold x; rotate_right)
      | (intro x; clear_value x)
      | apply State_writeTo_keeps
      | apply keepsO_ite
      | apply keepsO_next
      | exact keepsO_fault
      | apply keeps_ite
      | apply keeps_ite1
      | (apply keeps_mk; first | assumption | apply State_writeTo_keeps)
      | (intro _)
      | split
      | (dsimp only; split)
      | (refine keeps_fst_eq (by assumption) ?_))

/-- `execRegisterWrite` keeps them. -/
theorem execRegisterWrite_keeps (a : Nat) (v : Word) (s : State) {s_ : State} (hks : Keeps s_ s) :
    KeepsO s_ (execRegisterWrite a v s) := by
  unfold execRegisterWrite
  with_reducible
    repeat' (first
      | assumption
      | apply State_regWrite_keeps
      | apply keepsO_ite
      | apply keepsO_next
      | apply keeps_ite)

/-- `State.blockSwap` keeps them. -/
theorem State_blockSwap_keeps (s : State) (d : Nat) (b : Blk) (i : Nat) {s_ : State} (hks : Keeps s_ s) :
    Keeps s_ (State.blockSwap s d b i) := by
  unfold State.blockSwap
  with_reducible
    repeat' (first
      | assumption
      | lift_lets
      | (intro x; refine (fun (hx : Keeps s_ x) => ?_) ?_; clear_value x; rotate_left; unfold x; rotate_right)
      | (intro x; clear_value x)
      | apply State_doSwap_keeps
      | apply State_retrainPort_keeps
      | apply State_linkDown_keeps
      | apply State_retryHost_keeps
      | apply keeps_ite
      | split
      | (refine keeps_fst_eq (by assumption) ?_))

/-- `execBlockSwap` keeps them. -/
theorem execBlockSwap_keeps (d : Nat) (b : Blk) (i : Nat) (s : State) {s_ : State} (hks : Keeps s_ s) :
    KeepsO s_ (execBlockSwap d b i s) := by
  unfold execBlockSwap
  with_reducible
    repeat' (first
      | assumption
      | apply State_blockSwap_keeps
      | apply keepsO_next)

/-- `State.promptCluster` keeps them. -/
theorem State_promptCluster_keeps (s : State) (o : Option (Nat × Nat)) {s_ : State} (hks : Keeps s_ s) :
    Keeps s_ (State.promptCluster s o) := by
  unfold State.promptCluster
  with_reducible
    repeat' (first
      | assumption
      | apply State_powerOn_keeps
      | split)

/-- `State.regPrompt` keeps them. -/
theorem State_regPrompt_keeps (s : State) (a : Nat) {s_ : State} (hks : Keeps s_ s) :
    Keeps s_ (State.regPrompt s a) := by
  unfold State.regPrompt
  with_reducible
    repeat' (first
      | assumption
      | apply State_promptCluster_keeps)

/-- `State.i3cPut` keeps them. -/
theorem State_i3cPut_keeps (s : State) (st : Nat) (v : Word) {s_ : State} (hks : Keeps s_ s) :
    Keeps s_ (State.i3cPut s st v) := by
  unfold State.i3cPut
  with_reducible
    repeat' (first
      | assumption
      | apply State_updMod_keeps
      | (apply keeps_mk; assumption)
      | (intro _))

/-- `State.i3cStatus` keeps them. -/
theorem State_i3cStatus_keeps (s : State) (st : Nat) {s_ : State} (hks : Keeps s_ s) :
    Keeps s_ (State.i3cStatus s st) := by
  unfold State.i3cStatus
  with_reducible
    repeat' (first
      | assumption
      | apply State_fresh_keeps
      | apply State_i3cPut_keeps)

/-- `State.i3cTake` keeps them. -/
theorem State_i3cTake_keeps (s : State) (bs : List Byte) {s_ : State} (hks : Keeps s_ s) :
    Keeps s_ (State.i3cTake s bs) := by
  unfold State.i3cTake
  with_reducible
    repeat' (first
      | assumption
      | (intro x; refine (fun (hx : Keeps s_ x) => ?_) ?_; clear_value x; rotate_left; unfold x; rotate_right)
      | (intro x; refine (fun (hx : Keeps s_ x.1) => ?_) ?_; clear_value x; rotate_left; unfold x; rotate_right)
      | (intro x; clear_value x)
      | apply State_regWrite_keeps
      | apply State_regPrompt_keeps
      | apply State_i3cPut_keeps
      | apply State_i3cStatus_keeps
      | apply keeps_ite
      | lift_lets)

/-- `State.i3cReply` keeps them. -/
theorem State_i3cReply_keeps (s : State) (len : Nat) {s_ : State} (hks : Keeps s_ s) :
    Keeps s_ (State.i3cReply s len) := by
  unfold State.i3cReply
  with_reducible
    repeat' (first
      | assumption
      | lift_lets
      | (intro x; refine (fun (hx : Keeps s_ x) => ?_) ?_; clear_value x; rotate_left; unfold x; rotate_right)
      | (intro x; refine (fun (hx : Keeps s_ x.1) => ?_) ?_; clear_value x; rotate_left; unfold x; rotate_right)
      | (intro x; clear_value x)
      | apply State_emit_keeps
      | apply State_fresh_keeps
      | apply State_updMod_keeps
      | apply keeps_ite
      | (apply keeps_mk; assumption)
      | (intro _)
      | split
      | (refine keeps_fst_eq (by assumption) ?_))

/-- `execI3cWrite` keeps them. -/
theorem execI3cWrite_keeps (bs : List Byte) (s : State) {s_ : State} (hks : Keeps s_ s) :
    KeepsO s_ (execI3cWrite bs s) := by
  unfold execI3cWrite
  with_reducible
    repeat' (first
      | assumption
      | apply State_i3cTake_keeps
      | apply keepsO_ite
      | apply keepsO_next
      | apply keeps_ite)

/-- `execI3cRead` keeps them. -/
theorem execI3cRead_keeps (bs : List Byte) (len : Nat) (s : State) {s_ : State} (hks : Keeps s_ s) :
    KeepsO s_ (execI3cRead bs len s) := by
  unfold execI3cRead
  with_reducible
    repeat' (first
      | assumption
      | apply State_i3cTake_keeps
      | apply State_i3cReply_keeps
      | apply keepsO_ite
      | apply keepsO_next
      | apply keeps_ite)

/-- `State.common` keeps them. -/
theorem State_common_keeps (s : State) (y0 : Ccc) {s_ : State} (hks : Keeps s_ s) :
    Keeps s_ (State.common s y0) := by
  unfold State.common
  with_reducible
    repeat' (first
      | assumption
      | apply State_emit_keeps
      | apply State_fresh_keeps
      | apply State_updMod_keeps
      | apply State_i3cStatus_keeps
      | apply keeps_ite
      | (apply keeps_mk; assumption)
      | (intro _)
      | split
      | (refine keeps_fst_eq (by assumption) ?_))

/-- `execCommonCommand` keeps them. -/
theorem execCommonCommand_keeps (cmd : Ccc) (s : State) {s_ : State} (hks : Keeps s_ s) :
    KeepsO s_ (execCommonCommand cmd s) := by
  unfold execCommonCommand
  with_reducible
    repeat' (first
      | assumption
      | apply State_common_keeps
      | apply keepsO_ite
      | apply keepsO_next
      | apply keeps_ite)

/-- `State.idleClock` keeps them. -/
theorem State_idleClock_keeps (s : State) (d c : Nat) {s_ : State} (hks : Keeps s_ s) :
    Keeps s_ (State.idleClock s d c) := by
  unfold State.idleClock
  with_reducible
    repeat' (first
      | assumption
      | apply State_addRg_keeps
      | apply keeps_ite)

/-- `State.tickDie` keeps them. -/
theorem State_tickDie_keeps (s : State) (d : Nat) {s_ : State} (hks : Keeps s_ s) :
    Keeps s_ (State.tickDie s d) := by
  unfold State.tickDie
  with_reducible
    repeat' (first
      | assumption
      | lift_lets
      | (intro x; refine (fun (hx : Keeps s_ x) => ?_) ?_; clear_value x; rotate_left; unfold x; rotate_right)
      | (intro x; clear_value x)
      | apply forEach_keeps
      | apply State_updDie_keeps
      | apply State_advance_keeps
      | apply State_idleClock_keeps
      | apply keeps_ite
      | (intro _))

/-- `State.clockTick` keeps them. -/
theorem State_clockTick_keeps (s : State) {s_ : State} (hks : Keeps s_ s) :
    Keeps s_ (State.clockTick s) := by
  unfold State.clockTick
  with_reducible
    repeat' (first
      | assumption
      | apply forEach_keeps
      | apply State_retryHost_keeps
      | apply State_tickDie_keeps
      | (apply keeps_mk; assumption)
      | (intro _))

end Sys2Proof.Machine
end

