-- ==== Sys2Proof/Laws/PerInstr.lean ====
section
/-! SUPPORT. A fact about every command as syntax, one lemma per constructor: a well-formed command names a die of the largest part. -/

namespace Sys2Proof.Laws.WfShape

/-- A well-formed command names a die 0–7 (R13). -/
def Statement (i : Instr) : Prop := i.wf = true → i.dieOf < 8

/-- The first of two checks that both hold. -/
theorem left {a b : Bool} (h : (a && b) = true) : a = true := (Bool.and_eq_true_iff.mp h).1

theorem nop (d : Nat) (c : Nat) (q : Bool) : Statement (.nop d c q) :=
  fun h => of_decide_eq_true (left (h))

theorem wait (d : Nat) (c : Nat) (q : Bool) : Statement (.wait d c q) :=
  fun h => of_decide_eq_true (left (h))

theorem sig (d : Nat) (c : Nat) (q : Bool) : Statement (.sig d c q) :=
  fun h => of_decide_eq_true (left (h))

theorem swap (d : Nat) (c : Nat) (q : Bool) : Statement (.swap d c q) :=
  fun h => of_decide_eq_true (left (h))

theorem fence (d : Nat) (c : Nat) (q : Bool) : Statement (.fence d c q) :=
  fun h => of_decide_eq_true (left (h))

theorem trap (d : Nat) (c : Nat) (q : Bool) : Statement (.trap d c q) :=
  fun h => of_decide_eq_true (left (h))

theorem mma (d : Nat) (c : Nat) (q : Bool) (env : Env) : Statement (.mma d c q env) :=
  fun h => of_decide_eq_true (left (h))

theorem conv (d : Nat) (c : Nat) (q : Bool) (env : Env) : Statement (.conv d c q env) :=
  fun h => of_decide_eq_true (left (h))

theorem elem (d : Nat) (c : Nat) (q : Bool) (env : Env) : Statement (.elem d c q env) :=
  fun h => of_decide_eq_true (left (h))

theorem stat (d : Nat) (c : Nat) (q : Bool) (env : Env) : Statement (.stat d c q env) :=
  fun h => of_decide_eq_true (left (h))

theorem opt (d : Nat) (c : Nat) (q : Bool) (env : Env) : Statement (.opt d c q env) :=
  fun h => of_decide_eq_true (left (h))

theorem rack (d : Nat) (c : Nat) (q : Bool) (env : Env) : Statement (.rack d c q env) :=
  fun h => of_decide_eq_true (left (h))

theorem decant (d : Nat) (c : Nat) (q : Bool) (env : Env) : Statement (.decant d c q env) :=
  fun h => of_decide_eq_true (left (h))

theorem gather (d : Nat) (c : Nat) (q : Bool) (env : Env) : Statement (.gather d c q env) :=
  fun h => of_decide_eq_true (left (h))

theorem scatter (d : Nat) (c : Nat) (q : Bool) (env : Env) : Statement (.scatter d c q env) :=
  fun h => of_decide_eq_true (left (h))

theorem dispatch (d : Nat) (c : Nat) (q : Bool) (env : Env) : Statement (.dispatch d c q env) :=
  fun h => of_decide_eq_true (left (h))

theorem combine (d : Nat) (c : Nat) (q : Bool) (env : Env) : Statement (.combine d c q env) :=
  fun h => of_decide_eq_true (left (h))

theorem mcast (d : Nat) (c : Nat) (q : Bool) (env : Env) : Statement (.mcast d c q env) :=
  fun h => of_decide_eq_true (left (h))

theorem replica (d : Nat) (c : Nat) (q : Bool) (env : Env) : Statement (.replica d c q env) :=
  fun h => of_decide_eq_true (left (h))

theorem red (d : Nat) (c : Nat) (q : Bool) : Statement (.red d c q) :=
  fun h => of_decide_eq_true (left (h))

theorem layout (d : Nat) (c : Nat) (q : Bool) : Statement (.layout d c q) :=
  fun h => of_decide_eq_true (left (h))

theorem snap (d : Nat) (c : Nat) (q : Bool) (env : Env) : Statement (.snap d c q env) :=
  fun h => of_decide_eq_true (left (h))

theorem statRingUpdate (d : Nat) (fid : Nat) (env : Env) : Statement (.statRingUpdate d fid env) :=
  fun h => of_decide_eq_true (h)

theorem tableFetch (d : Nat) (c : Nat) (q : Bool) (env : Env) : Statement (.tableFetch d c q env) :=
  fun h => of_decide_eq_true (left (h))

theorem unitComplete (d : Nat) (fid : Nat) (u : Nat) : Statement (.unitComplete d fid u) :=
  fun h => of_decide_eq_true (h)

theorem waitTimeout (d : Nat) (c : Nat) (q : Bool) : Statement (.waitTimeout d c q) :=
  fun h => of_decide_eq_true (left (h))

theorem trapRecord (c : Nat) : Statement (.trapRecord c) :=
  fun _ => Nat.zero_lt_succ 7

theorem stop (c : Nat) : Statement (.stop c) :=
  fun _ => Nat.zero_lt_succ 7

theorem resume (c : Nat) : Statement (.resume c) :=
  fun _ => Nat.zero_lt_succ 7

theorem clear (c : Nat) : Statement (.clear c) :=
  fun _ => Nat.zero_lt_succ 7

theorem seqCntWrite (d : Nat) (c : Nat) (i : Nat) (v : Word) : Statement (.seqCntWrite d c i v) :=
  fun h => of_decide_eq_true (left (left (h)))

theorem quantumExpiry (d : Nat) (l : Nat) : Statement (.quantumExpiry d l) :=
  fun h => of_decide_eq_true (left (h))

theorem contextPreload (d : Nat) (l : Nat) (env : Env) : Statement (.contextPreload d l env) :=
  fun h => of_decide_eq_true (left (h))

theorem contextSwitch (d : Nat) (l : Nat) (env : Env) : Statement (.contextSwitch d l env) :=
  fun h => of_decide_eq_true (left (h))

theorem doorbell (c : Nat) (p : BitVec 32) : Statement (.doorbell c p) :=
  fun _ => Nat.zero_lt_succ 7

theorem descriptorFetch (c : Nat) : Statement (.descriptorFetch c) :=
  fun _ => Nat.zero_lt_succ 7

theorem descriptorArrive (c : Nat) (ok : Bool) (ws : List Word) : Statement (.descriptorArrive c ok ws) :=
  fun _ => Nat.zero_lt_succ 7

theorem directoryArrive (c : Nat) (env : Env) : Statement (.directoryArrive c env) :=
  fun _ => Nat.zero_lt_succ 7

theorem descriptorComplete (c : Nat) : Statement (.descriptorComplete c) :=
  fun _ => Nat.zero_lt_succ 7

theorem descriptorPost (c : Nat) : Statement (.descriptorPost c) :=
  fun _ => Nat.zero_lt_succ 7

theorem completionEntryWrite (c : Nat) : Statement (.completionEntryWrite c) :=
  fun _ => Nat.zero_lt_succ 7

theorem consWriteBack (c : Nat) : Statement (.consWriteBack c) :=
  fun _ => Nat.zero_lt_succ 7

theorem completionVector (c : Nat) : Statement (.completionVector c) :=
  fun _ => Nat.zero_lt_succ 7

theorem seqRingReset (c : Nat) : Statement (.seqRingReset c) :=
  fun _ => Nat.zero_lt_succ 7

theorem cellarRead (a : Nat) (ecc : List (Nat × Bool)) : Statement (.cellarRead a ecc) :=
  fun _ => Nat.zero_lt_succ 7

theorem cellarWrite (a : Nat) (bs : List Byte) (sb : Word) : Statement (.cellarWrite a bs sb) :=
  fun _ => Nat.zero_lt_succ 7

theorem cellarMaskedWrite (a : Nat) (bs : List Byte) (mask : Nat) (sb : Option Word) (crc : Nat) : Statement (.cellarMaskedWrite a bs mask sb crc) :=
  fun _ => Nat.zero_lt_succ 7

theorem scrub (a : Nat) (ecc : List (Nat × Bool)) : Statement (.scrub a ecc) :=
  fun _ => Nat.zero_lt_succ 7

theorem celPartitionChange (d : Nat) : Statement (.celPartitionChange d) :=
  fun h => of_decide_eq_true (h)

theorem flush (d : Nat) : Statement (.flush d) :=
  fun h => of_decide_eq_true (h)

theorem purge (d : Nat) : Statement (.purge d) :=
  fun h => of_decide_eq_true (h)

theorem flushComplete (d : Nat) : Statement (.flushComplete d) :=
  fun h => of_decide_eq_true (h)

theorem celSpareIn (d : Nat) (bank : Nat) (spare : Nat) : Statement (.celSpareIn d bank spare) :=
  fun h => of_decide_eq_true (left (left (h)))

theorem celSpareDone (d : Nat) : Statement (.celSpareDone d) :=
  fun h => of_decide_eq_true (h)

theorem hbmRead (a : Nat) (ev : HbmEvent) : Statement (.hbmRead a ev) :=
  fun _ => Nat.zero_lt_succ 7

theorem hbmWrite (a : Nat) (bs : List Byte) (sb : Word) (ev : HbmEvent) : Statement (.hbmWrite a bs sb ev) :=
  fun _ => Nat.zero_lt_succ 7

theorem refreshRateEval (d : Nat) (k : Nat) (below : Bool) : Statement (.refreshRateEval d k below) :=
  fun h => of_decide_eq_true (left (h))

theorem perBankRefresh (d : Nat) (k : Nat) (pc : Nat) : Statement (.perBankRefresh d k pc) :=
  fun h => of_decide_eq_true (left (left (h)))

theorem flushSb (d : Nat) (k : Nat) : Statement (.flushSb d k) :=
  fun h => of_decide_eq_true (left (h))

theorem hbmRetire (d : Nat) (k : Nat) (pc : Nat) (unit : Nat) : Statement (.hbmRetire d k pc unit) :=
  fun h => of_decide_eq_true (left (left (left (h))))

theorem retireDone (d : Nat) (k : Nat) (bad : List Nat) : Statement (.retireDone d k bad) :=
  fun h => of_decide_eq_true (left (h))

theorem maintEnter (d : Nat) (k : Nat) : Statement (.maintEnter d k) :=
  fun h => of_decide_eq_true (left (h))

theorem maintExit (d : Nat) (k : Nat) : Statement (.maintExit d k) :=
  fun h => of_decide_eq_true (left (h))

theorem mbist (d : Nat) (k : Nat) (pat : Nat) : Statement (.mbist d k pat) :=
  fun h => of_decide_eq_true (left (left (h)))

theorem mbistDone (d : Nat) (k : Nat) (fail : Option (Nat × Nat)) : Statement (.mbistDone d k fail) :=
  fun h => of_decide_eq_true (left (h))

theorem hbm1500Go (d : Nat) (k : Nat) (wir : Nat) (len : Nat) : Statement (.hbm1500Go d k wir len) :=
  fun h => of_decide_eq_true (left (left (left (h))))

theorem hbm1500Done (d : Nat) (k : Nat) (out : Nat) : Statement (.hbm1500Done d k out) :=
  fun h => of_decide_eq_true (left (h))

theorem hbmBringup (d : Nat) (k : Nat) (fails : Nat) : Statement (.hbmBringup d k fails) :=
  fun h => of_decide_eq_true (left (h))

theorem read (d : Nat) (r : FRec) : Statement (.read d r) :=
  fun h => of_decide_eq_true (left (h))

theorem write (d : Nat) (r : FRec) : Statement (.write d r) :=
  fun h => of_decide_eq_true (left (h))

theorem redstore (d : Nat) (r : FRec) (alu : Bool) : Statement (.redstore d r alu) :=
  fun h => of_decide_eq_true (left (h))

theorem atomic (d : Nat) (r : FRec) (env : Env) (alu : Bool) : Statement (.atomic d r env alu) :=
  fun h => of_decide_eq_true (left (h))

theorem signal (d : Nat) (r : FRec) (alu : Bool) : Statement (.signal d r alu) :=
  fun h => of_decide_eq_true (left (h))

theorem fabricResponse (d : Nat) (tag : Nat) (st : Nat) (bs : List Byte) (sb : Word) : Statement (.fabricResponse d tag st bs sb) :=
  fun h => of_decide_eq_true (left (left (left (h))))

theorem hotLineWindow (d : Nat) (i : Nat) (alu : Bool) : Statement (.hotLineWindow d i alu) :=
  fun h => of_decide_eq_true (h)

theorem hotLineFree (d : Nat) (i : Nat) : Statement (.hotLineFree d i) :=
  fun h => of_decide_eq_true (h)

theorem hopAckTimeout (d : Nat) (p : Nat) : Statement (.hopAckTimeout d p) :=
  fun h => of_decide_eq_true (left (h))

theorem nak (d : Nat) (p : Nat) (hseq : Nat) : Statement (.nak d p hseq) :=
  fun h => of_decide_eq_true (left (left (h)))

theorem e2eTimeout (d : Nat) (tag : Nat) : Statement (.e2eTimeout d tag) :=
  fun h => of_decide_eq_true (left (h))

theorem bulkEscape (d : Nat) (p : Nat) (i : Nat) : Statement (.bulkEscape d p i) :=
  fun h => of_decide_eq_true (left (h))

theorem ctrlHoldRelease (d : Nat) : Statement (.ctrlHoldRelease d) :=
  fun h => of_decide_eq_true (h)

theorem frameReceive (d : Nat) (p : Nat) (bs : List Byte) (fcs : Bool) : Statement (.frameReceive d p bs fcs) :=
  fun h => of_decide_eq_true (left (h))

theorem frameTransmit (d : Nat) (p : Nat) : Statement (.frameTransmit d p) :=
  fun h => of_decide_eq_true (left (h))

theorem frameTxEnd (d : Nat) (p : Nat) : Statement (.frameTxEnd d p) :=
  fun h => of_decide_eq_true (left (h))

theorem pfcReceive (d : Nat) (p : Nat) (cls : Nat) (quanta : Nat) : Statement (.pfcReceive d p cls quanta) :=
  fun h => of_decide_eq_true (left (left (left (h))))

theorem pfcRepeat (d : Nat) (p : Nat) : Statement (.pfcRepeat d p) :=
  fun h => of_decide_eq_true (left (h))

theorem pauseExpiry (d : Nat) (p : Nat) (cls : Nat) : Statement (.pauseExpiry d p cls) :=
  fun h => of_decide_eq_true (left (left (h)))

theorem ackOnlyFrame (d : Nat) (p : Nat) : Statement (.ackOnlyFrame d p) :=
  fun h => of_decide_eq_true (left (h))

theorem portBringUp (d : Nat) (p : Nat) (locks : Nat) : Statement (.portBringUp d p locks) :=
  fun h => of_decide_eq_true (left (left (h)))

theorem hello (d : Nat) (p : Nat) (peer : Nat) (port : Nat) : Statement (.hello d p peer port) :=
  fun h => of_decide_eq_true (left (left (left (h))))

theorem portRetrainTimer (d : Nat) (p : Nat) : Statement (.portRetrainTimer d p) :=
  fun h => of_decide_eq_true (left (h))

theorem macRetrain (d : Nat) (p : Nat) : Statement (.macRetrain d p) :=
  fun h => of_decide_eq_true (left (h))

theorem laneLockLoss (d : Nat) (p : Nat) (lane : Nat) : Statement (.laneLockLoss d p lane) :=
  fun h => of_decide_eq_true (left (left (h)))

theorem macSpareIn (d : Nat) (p : Nat) (lane : Nat) : Statement (.macSpareIn d p lane) :=
  fun h => of_decide_eq_true (left (left (h)))

theorem spareReq (d : Nat) (p : Nat) (lane : Nat) : Statement (.spareReq d p lane) :=
  fun h => of_decide_eq_true (left (left (h)))

theorem pcsRealigned (d : Nat) (p : Nat) : Statement (.pcsRealigned d p) :=
  fun h => of_decide_eq_true (left (h))

theorem spareDone (d : Nat) (p : Nat) : Statement (.spareDone d p) :=
  fun h => of_decide_eq_true (left (h))

theorem laneSerWindow (d : Nat) (p : Nat) (lane : Nat) (errs : Nat) : Statement (.laneSerWindow d p lane errs) :=
  fun h => of_decide_eq_true (left (left (h)))

theorem gateEntry (d : Nat) (p : Nat) : Statement (.gateEntry d p) :=
  fun h => of_decide_eq_true (left (h))

theorem ptpMessage (d : Nat) (p : Nat) (msg : Ptp) : Statement (.ptpMessage d p msg) :=
  fun h => of_decide_eq_true (left (h))

theorem hqRxCons (d : Nat) (p : Nat) (v : Nat) : Statement (.hqRxCons d p v) :=
  fun h => of_decide_eq_true (left (left (h)))

theorem hqTxProd (d : Nat) (p : Nat) (v : Nat) : Statement (.hqTxProd d p v) :=
  fun h => of_decide_eq_true (left (left (h)))

theorem bucketStart (d : Nat) (c : Nat) (h : Nat) : Statement (.bucketStart d c h) :=
  fun h => of_decide_eq_true (left (left (h)))

theorem chunkLoaded (d : Nat) (c : Nat) (h : Nat) (env : Env) : Statement (.chunkLoaded d c h env) :=
  fun h => of_decide_eq_true (left (left (h)))

theorem channelHeaderUpdate (d : Nat) (c : Nat) (h : Nat) (env : Env) (alu : Bool) : Statement (.channelHeaderUpdate d c h env alu) :=
  fun h => of_decide_eq_true (left (left (h)))

theorem bucketComplete (d : Nat) (c : Nat) (h : Nat) : Statement (.bucketComplete d c h) :=
  fun h => of_decide_eq_true (left (left (h)))

theorem redTimeout (d : Nat) (c : Nat) (h : Nat) (w : Nat) : Statement (.redTimeout d c h w) :=
  fun h => of_decide_eq_true (left (left (h)))

theorem aglLinkTrain (d : Nat) : Statement (.aglLinkTrain d) :=
  fun h => of_decide_eq_true (h)

theorem aglLanesTrained (d : Nat) (lanes : Nat) : Statement (.aglLanesTrained d lanes) :=
  fun h => of_decide_eq_true (left (h))

theorem aglInit (d : Nat) (proto : Nat) (side : Nat) (cr : Nat) (cs : Nat) (cp : Nat) : Statement (.aglInit d proto side cr cs cp) :=
  fun h => of_decide_eq_true (left (left (left (left (left (h))))))

theorem flitReceive (d : Nat) (bs : List Byte) : Statement (.flitReceive d bs) :=
  fun h => of_decide_eq_true (left (h))

theorem aglNak (d : Nat) (fack : Nat) : Statement (.aglNak d fack) :=
  fun h => of_decide_eq_true (left (h))

theorem flitReplayTimeout (d : Nat) : Statement (.flitReplayTimeout d) :=
  fun h => of_decide_eq_true (h)

theorem aglRetrain (d : Nat) : Statement (.aglRetrain d) :=
  fun h => of_decide_eq_true (h)

theorem aglDown (d : Nat) : Statement (.aglDown d) :=
  fun h => of_decide_eq_true (h)

theorem aglAutoRetrain (d : Nat) : Statement (.aglAutoRetrain d) :=
  fun h => of_decide_eq_true (h)

theorem rdOnce (d : Nat) (tag : Nat) (a : Nat) : Statement (.rdOnce d tag a) :=
  fun h => of_decide_eq_true (left (left (h)))

theorem rdShared (d : Nat) (tag : Nat) (a : Nat) : Statement (.rdShared d tag a) :=
  fun h => of_decide_eq_true (left (left (h)))

theorem rdOwn (d : Nat) (tag : Nat) (a : Nat) : Statement (.rdOwn d tag a) :=
  fun h => of_decide_eq_true (left (left (h)))

theorem rd8 (d : Nat) (tag : Nat) (a : Nat) : Statement (.rd8 d tag a) :=
  fun h => of_decide_eq_true (left (left (h)))

theorem wrLine (d : Nat) (tag : Nat) (a : Nat) (bs : List Byte) (sb : Word) : Statement (.wrLine d tag a bs sb) :=
  fun h => of_decide_eq_true (left (left (left (h))))

theorem wrPart (d : Nat) (tag : Nat) (a : Nat) (bs : List Byte) (sb : Word) (mask : Nat) : Statement (.wrPart d tag a bs sb mask) :=
  fun h => of_decide_eq_true (left (left (left (left (h)))))

theorem wr8 (d : Nat) (tag : Nat) (a : Nat) (v : Word) : Statement (.wr8 d tag a v) :=
  fun h => of_decide_eq_true (left (left (h)))

theorem wrBack (d : Nat) (tag : Nat) (a : Nat) (bs : List Byte) (sb : Word) : Statement (.wrBack d tag a bs sb) :=
  fun h => of_decide_eq_true (left (left (left (h))))

theorem evict (d : Nat) (tag : Nat) (a : Nat) : Statement (.evict d tag a) :=
  fun h => of_decide_eq_true (left (left (h)))

theorem hostAtomic (d : Nat) (tag : Nat) (a : Nat) (kind : Nat) (x : Word) (y : Word) (env : Env) (alu : Bool) : Statement (.hostAtomic d tag a kind x y env alu) :=
  fun h => of_decide_eq_true (left (left (left (h))))

theorem rsp (d : Nat) (tag : Nat) (st : Nat) : Statement (.rsp d tag st) :=
  fun h => of_decide_eq_true (left (left (h)))

theorem rsp8 (d : Nat) (tag : Nat) (st : Nat) (v : Word) : Statement (.rsp8 d tag st v) :=
  fun h => of_decide_eq_true (left (left (h)))

theorem rspData (d : Nat) (tag : Nat) (st : Nat) (bs : List Byte) (sb : Word) : Statement (.rspData d tag st bs sb) :=
  fun h => of_decide_eq_true (left (left (left (h))))

theorem snpTimeout (d : Nat) (tag : Nat) : Statement (.snpTimeout d tag) :=
  fun h => of_decide_eq_true (left (h))

theorem rspTimeout (d : Nat) (tag : Nat) : Statement (.rspTimeout d tag) :=
  fun h => of_decide_eq_true (left (h))

theorem intr (d : Nat) : Statement (.intr d) :=
  fun h => of_decide_eq_true (h)

theorem startUp (slot : Nat) (recs : List FlashRec) (mcBad : Bool) : Statement (.startUp slot recs mcBad) :=
  fun _ => Nat.zero_lt_succ 7

theorem rstNFall : Statement (.rstNFall) :=
  fun _ => Nat.zero_lt_succ 7

theorem bootStageTimeout : Statement (.bootStageTimeout) :=
  fun _ => Nat.zero_lt_succ 7

theorem dieRelease (d : Nat) (clk : Bool) (bad : List Nat) (dieBad : Bool) : Statement (.dieRelease d clk bad dieBad) :=
  fun h => of_decide_eq_true (h)

theorem moduleReady : Statement (.moduleReady) :=
  fun _ => Nat.zero_lt_succ 7

theorem update (rec : Option FlashRec) (wr : Bool) : Statement (.update rec wr) :=
  fun _ => Nat.zero_lt_succ 7

theorem commit (wr : Bool) : Statement (.commit wr) :=
  fun _ => Nat.zero_lt_succ 7

theorem attest (nonce : Option (List Byte)) (sig : List Byte) (wr : Bool) : Statement (.attest nonce sig wr) :=
  fun _ => Nat.zero_lt_succ 7

theorem ownerInstall (rec : Option FlashRec) (wr : Bool) : Statement (.ownerInstall rec wr) :=
  fun _ => Nat.zero_lt_succ 7

theorem secCommandEnd : Statement (.secCommandEnd) :=
  fun _ => Nat.zero_lt_succ 7

theorem freqChangeRequest (d : Nat) (p : Nat) (n : Nat) : Statement (.freqChangeRequest d p n) :=
  fun h => of_decide_eq_true (left (left (h)))

theorem freqChangeRestart (d : Nat) (p : Nat) : Statement (.freqChangeRestart d p) :=
  fun h => of_decide_eq_true (left (h))

theorem deferredIncrease (d : Nat) (p : Nat) : Statement (.deferredIncrease d p) :=
  fun h => of_decide_eq_true (left (h))

theorem marginWarn (d : Nat) (p : Nat) (m : Nat) : Statement (.marginWarn d p m) :=
  fun h => of_decide_eq_true (left (h))

theorem oscFallback (d : Nat) (p : Nat) : Statement (.oscFallback d p) :=
  fun h => of_decide_eq_true (left (h))

theorem pllUnlock (d : Nat) : Statement (.pllUnlock d) :=
  fun h => of_decide_eq_true (h)

theorem refLost : Statement (.refLost) :=
  fun _ => Nat.zero_lt_succ 7

theorem serdesPllUnlock (d : Nat) (ports : Nat) (agl : Bool) : Statement (.serdesPllUnlock d ports agl) :=
  fun h => of_decide_eq_true (left (h))

theorem crossingWake (d : Nat) (p : Nat) : Statement (.crossingWake d p) :=
  fun h => of_decide_eq_true (left (h))

theorem heldCrossingScan (d : Nat) : Statement (.heldCrossingScan d) :=
  fun h => of_decide_eq_true (h)

theorem domainTimeCorrect (d : Nat) : Statement (.domainTimeCorrect d) :=
  fun h => of_decide_eq_true (h)

theorem pkgSync (d : Nat) : Statement (.pkgSync d) :=
  fun h => of_decide_eq_true (h)

theorem syncInterval : Statement (.syncInterval) :=
  fun _ => Nat.zero_lt_succ 7

theorem ppsEdge : Statement (.ppsEdge) :=
  fun _ => Nat.zero_lt_succ 7

theorem syncLost : Statement (.syncLost) :=
  fun _ => Nat.zero_lt_succ 7

theorem timOffset (d : Nat) (v : Word) : Statement (.timOffset d v) :=
  fun h => of_decide_eq_true (h)

theorem vinStop (v : Nat) : Statement (.vinStop v) :=
  fun _ => Nat.zero_lt_succ 7

theorem ibcFail (i : Nat) : Statement (.ibcFail i) :=
  fun _ => Nat.zero_lt_succ 7

theorem railFault (d : Nat) (rail : Nat) : Statement (.railFault d rail) :=
  fun h => of_decide_eq_true (left (h))

theorem phaseFail (d : Nat) (p : Nat) (ph : Nat) : Statement (.phaseFail d p ph) :=
  fun h => of_decide_eq_true (left (left (h)))

theorem retentionEnter (d : Nat) (p : Nat) : Statement (.retentionEnter d p) :=
  fun h => of_decide_eq_true (left (h))

theorem powerOnRequest (d : Nat) (p : Nat) : Statement (.powerOnRequest d p) :=
  fun h => of_decide_eq_true (left (h))

theorem admissionEval (d : Nat) (quad : Nat) (amps : Nat) : Statement (.admissionEval d quad amps) :=
  fun h => of_decide_eq_true (left (h))

theorem rampDone (d : Nat) (p : Nat) (held : Bool) : Statement (.rampDone d p held) :=
  fun h => of_decide_eq_true (left (h))

theorem lowWaterRecord (d : Nat) (rail : Nat) (mv : Nat) (tm : Nat) : Statement (.lowWaterRecord d rail mv tm) :=
  fun h => of_decide_eq_true (left (h))

theorem enterLp : Statement (.enterLp) :=
  fun _ => Nat.zero_lt_succ 7

theorem exitLp : Statement (.exitLp) :=
  fun _ => Nat.zero_lt_succ 7

theorem powerEval (d : Nat) (sm : PowerSample) : Statement (.powerEval d sm) :=
  fun h => of_decide_eq_true (h)

theorem droopTrip (d : Nat) (p : Nat) : Statement (.droopTrip d p) :=
  fun h => of_decide_eq_true (left (h))

theorem stretchHoldEnd (d : Nat) (p : Nat) (cycles : Nat) : Statement (.stretchHoldEnd d p cycles) :=
  fun h => of_decide_eq_true (left (h))

theorem llExpiry (d : Nat) (p : Nat) (e : Nat) : Statement (.llExpiry d p e) :=
  fun h => of_decide_eq_true (left (left (h)))

theorem vfRecordWrite (d : Nat) (wr : Bool) : Statement (.vfRecordWrite d wr) :=
  fun h => of_decide_eq_true (h)

theorem inputSample (v : Nat) (i : Nat) : Statement (.inputSample v i) :=
  fun _ => Nat.zero_lt_succ 7

theorem capEval (sm : CapSample) : Statement (.capEval sm) :=
  fun _ => Nat.zero_lt_succ 7

theorem dieBudgetEval (d : Nat) (watts : Nat) : Statement (.dieBudgetEval d watts) :=
  fun h => of_decide_eq_true (h)

theorem sensorConversion (d : Nat) (i : Nat) (t : Nat) : Statement (.sensorConversion d i t) :=
  fun h => of_decide_eq_true (left (h))

theorem pairFault (d : Nat) (p : Nat) : Statement (.pairFault d p) :=
  fun h => of_decide_eq_true (left (h))

theorem throttleStep (d : Nat) (p : Nat) : Statement (.throttleStep d p) :=
  fun h => of_decide_eq_true (left (h))

theorem thermalUndo (d : Nat) (i : Nat) : Statement (.thermalUndo d i) :=
  fun h => of_decide_eq_true (left (h))

theorem hbmTempRead (d : Nat) (k : Nat) (t : Nat) : Statement (.hbmTempRead d k t) :=
  fun h => of_decide_eq_true (left (h))

theorem trayRead (tin : Option Int) (tout : Option Int) (flow : Option Nat) : Statement (.trayRead tin tout flow) :=
  fun _ => Nat.zero_lt_succ 7

theorem coolantShutdown : Statement (.coolantShutdown) :=
  fun _ => Nat.zero_lt_succ 7

theorem errnStuck : Statement (.errnStuck) :=
  fun _ => Nat.zero_lt_succ 7

theorem dieStop (d : Nat) (b : Blk) (bit : Nat) : Statement (.dieStop d b bit) :=
  fun h => of_decide_eq_true (left (h))

theorem moduleStop : Statement (.moduleStop) :=
  fun _ => Nat.zero_lt_succ 7

theorem bridgeFlitReject (d : Nat) (peer : Nat) (n : Nat) : Statement (.bridgeFlitReject d peer n) :=
  fun h => of_decide_eq_true (left (h))

theorem statusClear (d : Nat) (b : Blk) (i : Nat) (v : Word) : Statement (.statusClear d b i v) :=
  fun h => of_decide_eq_true (left (h))

theorem clIn (d : Nat) (l : Nat) : Statement (.clIn d l) :=
  fun h => of_decide_eq_true (left (h))

theorem clusterSwitchHold (bad : Bool) : Statement (.clusterSwitchHold bad) :=
  fun _ => Nat.zero_lt_succ 7

theorem clusterSwitchCopy : Statement (.clusterSwitchCopy) :=
  fun _ => Nat.zero_lt_succ 7

theorem bankIn (d : Nat) (bank : Nat) : Statement (.bankIn d bank) :=
  fun h => of_decide_eq_true (left (h))

theorem laneIn (d : Nat) (p : Nat) (lane : Nat) : Statement (.laneIn d p lane) :=
  fun h => of_decide_eq_true (left (left (h)))

theorem spareRetire (d : Nat) (k : Nat) (pc : Nat) (unit : Nat) : Statement (.spareRetire d k pc unit) :=
  fun h => of_decide_eq_true (left (left (left (h))))

theorem testCl (d : Nat) (l : Nat) : Statement (.testCl d l) :=
  fun h => of_decide_eq_true (left (h))

theorem repairRecordWrite (d : Nat) (wr : Bool) : Statement (.repairRecordWrite d wr) :=
  fun h => of_decide_eq_true (h)

theorem repairRetry (d : Nat) (wr : Bool) : Statement (.repairRetry d wr) :=
  fun h => of_decide_eq_true (h)

theorem injectResidue (d : Nat) (l : Nat) (arr : Nat) : Statement (.injectResidue d l arr) :=
  fun h => of_decide_eq_true (left (left (h)))

theorem injectExitCrc (d : Nat) (u : Nat) : Statement (.injectExitCrc d u) :=
  fun h => of_decide_eq_true (left (h))

theorem swapRequest (d : Nat) (b : Blk) (i : Nat) : Statement (.swapRequest d b i) :=
  fun h => of_decide_eq_true (left (h))

theorem blockSwap (d : Nat) (b : Blk) (i : Nat) : Statement (.blockSwap d b i) :=
  fun h => of_decide_eq_true (left (h))

theorem interruptMaskWrite (d : Nat) (b : Blk) (i : Nat) (v : Word) : Statement (.interruptMaskWrite d b i v) :=
  fun h => of_decide_eq_true (left (h))

theorem registerWrite (a : Nat) (v : Word) : Statement (.registerWrite a v) :=
  fun _ => Nat.zero_lt_succ 7

theorem i3cWrite (bs : List Byte) : Statement (.i3cWrite bs) :=
  fun _ => Nat.zero_lt_succ 7

theorem i3cRead (bs : List Byte) (len : Nat) : Statement (.i3cRead bs len) :=
  fun _ => Nat.zero_lt_succ 7

theorem commonCommand (cmd : Ccc) : Statement (.commonCommand cmd) :=
  fun _ => Nat.zero_lt_succ 7

theorem patternTestEnd (bad : Bool) : Statement (.patternTestEnd bad) :=
  fun _ => Nat.zero_lt_succ 7

end Sys2Proof.Laws.WfShape
end

