-- ==== Sys2Proof/Tests/Slice0.lean ====
section
/-! SUPPORT. Tests: ill-formed commands that WellFormed refuses, worked examples of the manual, and for every statement states and operands that
meet what it asks. -/

namespace Sys2Proof.Tests

open Sys2Proof Sys2Proof.Machine

set_option Elab.async false

/-! ### States the tests start from -/

def base (p : Part) : State :=
  let s : State := { State.resetOf p with dies := (List.range p.dies).map (fun d => (d, { up := true })) }
  let s := { s with modc := { s.modc with good := true, plane := true, refclk := true } }
  (s.setFld 0 .mod 0 0x20 0 4 6).setFld 0 .mod 0 0x28 32 4 15

def ex (i : Instr) (s : State) : State := match exec i s with | .next t => t | _ => s

def b8 : State := base .t8l

def b4 : State := base .t4l

def b2 : State := base .t2l

def ba : State := base .t2a

def stp (k : Nat) (fl : List Nat) (fs : List (Nat × Nat × Nat)) : List Word :=
  (List.range 8).map (fun i => wordOf ((if i = 0 then k + (fl.foldl (fun n b => n + 2^b) 0) else 0) + fs.foldl (fun n f => if f.1 = i then n + f.2.2 * 2^f.2.1 else n) 0))

def tb : Nat := 2^20 * 16

def putStep (base idx : Nat) (ws : List Word) (s : State) : State :=
  let a := base + 64 * idx
  let bs := ws.flatMap (fun w => leBytes 8 w.toNat)
  let l := s.line (a / 128)
  s.putLine (a / 128) (mkLine (spliceAt (padTo 128 l.bytes) (a % 128) bs) 0 0 0)

def load (d c : Nat) (q : Bool) (base idx : Nat) (ws : List Word) (s : State) : State :=
  let s := putStep base idx ws s
  let s := s.updCtx d c (fun x => { x with st := .running })
  s.updQueue d c q (fun y => { y with atEnd := false, base := base, head := idx, win := [(idx, ws)] })

def res (d l c : Nat) (s : State) : State := s.updCl d l (fun x => { x with resident := some c })

def sMMA : List Word := stp 0x10 [8] [(2,32,2),(2,40,2),(3,0,100),(3,50,1),(4,0,200),(4,50,1),(6,0,128),(6,32,1),(6,48,1),(7,0,2),(7,48,8),(2,62,1),(5,0,900)]

def sRACK : List Word := stp 0x20 [] [(3,0,128*100),(4,0,128*120),(5,0,1),(5,32,1)]

def sRACKv : List Word := stp 0x20 [13] [(0,48,3),(3,0,128*100),(4,0,128*120),(5,0,1),(5,32,1),(0,24,7)]

def sNOP : List Word := stp 0 [12] []

def b0 : State := ((res 0 1 0 (res 0 2 0 b8)).setLk 0 lkUp).setFld 0 .agl 0 0x28 40 6 40

def rt (s : State) : State := s.updQueue 0 0 false (fun y => {y with ret := some 9})

def flt (l : List (Nat × Bool)) : State → State := fun s => s.updLink 0 (fun k => {k with filter := l})

def stops (c : Nat) (z : CtxSt) (s : State) : State := s.allDies.foldl (fun t d => t.updCtx d c (fun x => {x with st := z})) s

def up (s : State) : State := s.setLk 0 lkUp

def p (d k m : Nat) (s : State) : State := (s.setFld d .mac k 0x20 0 2 m).setFld d .mac k 0 16 1 1

def ph (p : HPhase) (s : State) : State := s.updHc 0 (fun x => {x with phase := p})

def A : Nat := 128*100

def B : Nat := cloAddr 70

def U : Nat := 2^43

def mk1 (d : Nat) (b : Blk) (i f : Nat) (v : Nat) : State → State := fun s => (s.setShad (regAddr d b i f) (wordOf v)).updDie d (fun x => {x with swapReq := x.swapReq.filter (· ≠ swapMark d b i) ++ [swapMark d b i]})

def pl (bs : List Byte) (fmt fl : Nat) : List Byte := let l := mkLine (padTo 128 bs) 0 fmt fl; padTo 128 l.bytes ++ leBytes 8 l.sb.toNat

def acc (s : State) : State := s.allDies.foldl (fun t d => t.setFld d .fab 0 0x20 7 1 1) s

def own1 : Owner := .sig 5 false 3 4096

def own2 : Owner := .eng 7 2 (.line A)

def sr : FRec := { op := opSignal, srcMod := 0, dstMod := 3, tag := 5, seq := 0, die := 0, ctx := 2, addr := 0x103 + 2^32 }

def e1 : TagEnt := { r := sr, own := own1 }

def e2 : TagEnt := { r := { sr with op := opRead, addr := 2^20*64 }, own := own2 }

def setT (es : List (Nat × TagEnt)) (s : State) : State := s.updRouter 0 (fun k => { k with tags := es })

def run (c : Nat) (s : State) : State := s.updCtx 0 c (fun x => { x with st := .running })
theorem dummy : True := trivial

def rr : FRec := { op := opSignal, dstMod := 3, tag := 5 }

def p1 (s : State) : State := (s.setFld 0 .mac 1 0x20 0 2 1).setFld 0 .mac 1 0 16 1 1

def be (n v : Nat) : List Byte := (leBytes n v).reverse

def vl (dst pcp etype : Nat) (pay : List Byte) : List Byte := be 6 dst ++ be 6 5 ++ be 2 0x8100 ++ be 2 (pcp * 8192) ++ be 2 etype ++ pay

def rec (op tag seq : Nat) (pay : List Byte) (dst : Nat) : List Byte := leBytes 1 (op * 16) ++ leBytes 1 0 ++ leBytes 2 0 ++ leBytes 2 dst ++ leBytes 2 tag ++ leBytes 4 seq ++ leBytes 2 0 ++ leBytes 2 pay.length ++ leBytes 8 256 ++ pay

def frs : Array FRec := #[(parseRecs 1 (rec opRead 3 0 [] 0)).getD [] |>.headD {}, (parseRecs 1 (rec opWrite 3 0 (List.replicate 152 7) 0)).getD [] |>.headD {}]

/-- What every listed value has, and the value of an unlisted key has, every value of a table has. -/
theorem smGet_of_all {α : Type} {d : α} {P : α → Prop} (hd : P d) : ∀ {l : List (Nat × α)}, (∀ e ∈ l, P e.2) → ∀ k, P (smGet d l k)
  | [], _, _ => hd
  | (j, v) :: r, h, k => by
    simp only [smGet]
    split
    · exact h (j, v) (List.mem_cons_self ..)
    · exact smGet_of_all hd (fun e he => h e (List.mem_cons_of_mem _ he)) k

theorem noneStalled_of {s : State} (h : ∀ e ∈ s.links, e.2.stalled = []) : s.NoneStalled := fun d =>
  smGet_of_all (d := ({} : Link)) (P := fun x : Link => x.stalled = []) rfl h d

theorem hostReady_of {s : State} {d : Nat}
    (h : s.aglLive d = true ∧ s.lkState d = lkUp ∧ (∀ e ∈ s.links, e.2.stalled = []) ∧ (s.die d).exitInj.contains 4 = false) :
    s.HostReady d := ⟨h.1, h.2.1, noneStalled_of h.2.2.1, h.2.2.2⟩

theorem noneMerged_of {s : State} {k : Nat} (h : ∀ e ∈ s.routers, e.2.merged = []) : ∀ e, smGet [] (s.router e).merged k = [] := fun e =>
  smGet_of_all (d := ({} : Router)) (P := fun x : Router => smGet [] x.merged k = []) rfl (fun x hx => by rw [h x hx]; rfl) e

theorem homeReady_of {s : State} {d : Nat} {r : FRec}
    (h : s.forHome d r = true ∧ s.applied? (s.homeClass d r) r = none ∧ s.outOfOrder (s.homeClass d r) r = false ∧
      bitOf (s.rg d .fab 0 0x20) 7 = true ∧ s.waits (FRec.access r) = [] ∧ ∀ e ∈ s.routers, e.2.merged = []) : s.HomeReady d r :=
  ⟨h.1, h.2.1, h.2.2.1, h.2.2.2.1, h.2.2.2.2.1, noneMerged_of h.2.2.2.2.2⟩

/-! ### Well-formedness: a term outside the range of one field is refused -/

namespace Forms

def z128 : List Byte := List.replicate 128 0

def z256 : List Byte := List.replicate 256 0

def w8 : List Word := List.replicate 8 0

def good1 : List Instr :=
  [.nop 0 0 true, .wait 0 0 true, .sig 0 0 true, .swap 0 0 true, .fence 0 0 true, .trap 0 0 true, .mma 0 0 true {}, .conv 0 0 true {},
   .elem 0 0 true {}, .stat 0 0 true {}, .opt 0 0 true {}, .rack 0 0 true {}, .decant 0 0 true {}, .gather 0 0 true {},
   .scatter 0 0 true {}, .dispatch 0 0 true {}, .combine 0 0 true {}, .mcast 0 0 true {}, .replica 0 0 true {}, .red 0 0 true,
   .layout 0 0 true, .snap 0 0 true {}, .statRingUpdate 0 0 {}, .tableFetch 0 0 true {}, .unitComplete 0 0 0, .waitTimeout 0 0 true,
   .trapRecord 0, .stop 0, .resume 0, .clear 0, .seqCntWrite 0 0 0 0, .quantumExpiry 0 0, .contextPreload 0 0 {}, .contextSwitch 0 0 {},
   .doorbell 0 0, .descriptorFetch 0, .descriptorArrive 0 true w8, .directoryArrive 0 {}, .descriptorComplete 0, .descriptorPost 0,
   .completionEntryWrite 0, .consWriteBack 0, .completionVector 0, .seqRingReset 0, .cellarRead 0 [], .cellarWrite 0 z128 0,
   .cellarMaskedWrite 0 z128 0 none 0, .scrub 0 [], .celPartitionChange 0, .flush 0, .purge 0, .flushComplete 0, .celSpareIn 0 0 0,
   .celSpareDone 0, .hbmRead 0 .none, .hbmWrite 0 z128 0 .none, .refreshRateEval 0 0 true, .perBankRefresh 0 0 0, .flushSb 0 0,
   .hbmRetire 0 0 0 0]

def good2 : List Instr :=
  [.retireDone 0 0 [], .maintEnter 0 0, .maintExit 0 0, .mbist 0 0 0, .mbistDone 0 0 none, .hbm1500Go 0 0 0 0, .hbm1500Done 0 0 0,
   .hbmBringup 0 0 0, .read 0 {}, .write 0 {}, .redstore 0 {} true, .atomic 0 {} {} true, .signal 0 {} true, .fabricResponse 0 0 0 z128 0,
   .hotLineWindow 0 0 true, .hotLineFree 0 0, .hopAckTimeout 0 0, .nak 0 0 0, .e2eTimeout 0 0, .bulkEscape 0 0 0, .ctrlHoldRelease 0,
   .frameReceive 0 0 [] true, .frameTransmit 0 0, .frameTxEnd 0 0, .pfcReceive 0 0 0 0, .pfcRepeat 0 0, .pauseExpiry 0 0 0,
   .ackOnlyFrame 0 0, .portBringUp 0 0 0, .hello 0 0 0 0, .portRetrainTimer 0 0, .macRetrain 0 0, .laneLockLoss 0 0 0, .macSpareIn 0 0 0,
   .spareReq 0 0 0, .pcsRealigned 0 0, .spareDone 0 0, .laneSerWindow 0 0 0 0, .gateEntry 0 0, .ptpMessage 0 0 .sync, .hqRxCons 0 0 0,
   .hqTxProd 0 0 0, .bucketStart 0 0 0, .chunkLoaded 0 0 0 {}, .channelHeaderUpdate 0 0 0 {} true, .bucketComplete 0 0 0,
   .redTimeout 0 0 0 0, .aglLinkTrain 0, .aglLanesTrained 0 0, .aglInit 0 0 0 0 0 0, .flitReceive 0 z256, .aglNak 0 0,
   .flitReplayTimeout 0, .aglRetrain 0, .aglDown 0, .aglAutoRetrain 0, .rdOnce 0 0 0, .rdShared 0 0 0, .rdOwn 0 0 0, .rd8 0 0 0]

def good3 : List Instr :=
  [.wrLine 0 0 0 z128 0, .wrPart 0 0 0 z128 0 0, .wr8 0 0 0 0, .wrBack 0 0 0 z128 0, .evict 0 0 0, .hostAtomic 0 0 0 0 0 0 {} true,
   .rsp 0 0 0, .rsp8 0 0 0 0, .rspData 0 0 0 z128 0, .snpTimeout 0 0, .rspTimeout 0 0, .intr 0, .startUp 0 [] true, .rstNFall,
   .bootStageTimeout, .dieRelease 0 true [] true, .moduleReady, .update none true, .commit true, .attest none [] true,
   .ownerInstall none true, .secCommandEnd, .freqChangeRequest 0 0 0, .freqChangeRestart 0 0, .deferredIncrease 0 0, .marginWarn 0 0 0,
   .oscFallback 0 0, .pllUnlock 0, .refLost, .serdesPllUnlock 0 0 true, .crossingWake 0 0, .heldCrossingScan 0, .domainTimeCorrect 0,
   .pkgSync 0, .syncInterval, .ppsEdge, .syncLost, .timOffset 0 0, .vinStop 0, .ibcFail 0, .railFault 0 0, .phaseFail 0 0 0,
   .retentionEnter 0 0, .powerOnRequest 0 0, .admissionEval 0 0 0, .rampDone 0 0 true, .lowWaterRecord 0 0 0 0, .enterLp, .exitLp,
   .powerEval 0 {}, .droopTrip 0 0, .stretchHoldEnd 0 0 0, .llExpiry 0 0 0, .vfRecordWrite 0 true, .inputSample 0 0, .capEval {},
   .dieBudgetEval 0 0, .sensorConversion 0 0 0, .pairFault 0 0, .throttleStep 0 0]

def good4 : List Instr :=
  [.thermalUndo 0 0, .hbmTempRead 0 0 0, .trayRead none none none, .coolantShutdown, .errnStuck, .dieStop 0 .fab 0, .moduleStop,
   .bridgeFlitReject 0 0 0, .statusClear 0 .fab 0 0, .clIn 0 0, .clusterSwitchHold true, .clusterSwitchCopy, .bankIn 0 0, .laneIn 0 0 0,
   .spareRetire 0 0 0 0, .testCl 0 0, .repairRecordWrite 0 true, .repairRetry 0 true, .injectResidue 0 0 0, .injectExitCrc 0 0,
   .swapRequest 0 .fab 0, .blockSwap 0 .fab 0, .interruptMaskWrite 0 .fab 0 0, .registerWrite 0 0, .i3cWrite [], .i3cRead [] 0,
   .commonCommand .getpid, .patternTestEnd true]

def ill1 : List Instr :=
  [.nop 8 0 true, .nop 0 8 true, .wait 8 0 true, .wait 0 8 true, .sig 8 0 true, .sig 0 8 true, .swap 8 0 true, .swap 0 8 true,
   .fence 8 0 true, .fence 0 8 true, .trap 8 0 true, .trap 0 8 true, .mma 8 0 true {}, .mma 0 8 true {}, .conv 8 0 true {},
   .conv 0 8 true {}, .elem 8 0 true {}, .elem 0 8 true {}, .stat 8 0 true {}, .stat 0 8 true {}, .opt 8 0 true {}, .opt 0 8 true {},
   .rack 8 0 true {}, .rack 0 8 true {}, .decant 8 0 true {}, .decant 0 8 true {}, .gather 8 0 true {}, .gather 0 8 true {},
   .scatter 8 0 true {}, .scatter 0 8 true {}, .dispatch 8 0 true {}, .dispatch 0 8 true {}, .combine 8 0 true {}, .combine 0 8 true {},
   .mcast 8 0 true {}, .mcast 0 8 true {}, .replica 8 0 true {}, .replica 0 8 true {}, .red 8 0 true, .red 0 8 true, .layout 8 0 true,
   .layout 0 8 true, .snap 8 0 true {}, .snap 0 8 true {}, .statRingUpdate 8 0 {}, .tableFetch 8 0 true {}, .tableFetch 0 8 true {},
   .unitComplete 8 0 0, .waitTimeout 8 0 true, .waitTimeout 0 8 true, .trapRecord 8, .stop 8, .resume 8, .clear 8, .seqCntWrite 8 0 0 0,
   .seqCntWrite 0 8 0 0, .seqCntWrite 0 0 256 0, .quantumExpiry 8 0, .quantumExpiry 0 48, .contextPreload 8 0 {}]

def ill2 : List Instr :=
  [.contextPreload 0 48 {}, .contextSwitch 8 0 {}, .contextSwitch 0 48 {}, .doorbell 8 0, .descriptorFetch 8, .descriptorArrive 8 true w8,
   .descriptorArrive 0 true [], .directoryArrive 8 {}, .descriptorComplete 8, .descriptorPost 8, .completionEntryWrite 8, .consWriteBack 8,
   .completionVector 8, .seqRingReset 8, .cellarRead (2 ^ 48) [], .cellarWrite (2 ^ 48) z128 0, .cellarWrite 0 [] 0,
   .cellarMaskedWrite (2 ^ 48) z128 0 none 0, .cellarMaskedWrite 0 [] 0 none 0, .cellarMaskedWrite 0 z128 (2 ^ 128) none 0,
   .cellarMaskedWrite 0 z128 0 none (2 ^ 32), .scrub (2 ^ 48) [], .celPartitionChange 8, .flush 8, .purge 8, .flushComplete 8,
   .celSpareIn 8 0 0, .celSpareIn 0 1024 0, .celSpareIn 0 0 32, .celSpareDone 8, .hbmRead (2 ^ 48) .none, .hbmWrite (2 ^ 48) z128 0 .none,
   .hbmWrite 0 [] 0 .none, .refreshRateEval 8 0 true, .refreshRateEval 0 2 true, .perBankRefresh 8 0 0, .perBankRefresh 0 2 0,
   .perBankRefresh 0 0 64, .flushSb 8 0, .flushSb 0 2, .hbmRetire 8 0 0 0, .hbmRetire 0 2 0 0, .hbmRetire 0 0 64 0, .hbmRetire 0 0 0 16384,
   .retireDone 8 0 [], .retireDone 0 2 [], .maintEnter 8 0, .maintEnter 0 2, .maintExit 8 0, .maintExit 0 2, .mbist 8 0 0, .mbist 0 2 0,
   .mbist 0 0 8, .mbistDone 8 0 none, .mbistDone 0 2 none, .hbm1500Go 8 0 0 0, .hbm1500Go 0 2 0 0, .hbm1500Go 0 0 65536 0,
   .hbm1500Go 0 0 0 4096, .hbm1500Done 8 0 0]

def ill3 : List Instr :=
  [.hbm1500Done 0 2 0, .hbmBringup 8 0 0, .hbmBringup 0 2 0, .read 8 {}, .read 0 { kind := 4 }, .read 0 { op := 16 }, .read 0 { ctx := 8 },
   .read 0 { die := 8 }, .read 0 { word := 16 }, .read 0 { srcMod := 4096 }, .read 0 { dstMod := 4096 }, .read 0 { tag := 32768 },
   .read 0 { seq := 2 ^ 32 }, .read 0 { stat := 256 }, .read 0 { addr := 2 ^ 64 }, .write 8 {}, .write 0 { stat := 256 },
   .write 0 { addr := 2 ^ 64 }, .redstore 8 {} true, .redstore 0 { stat := 256 } true, .redstore 0 { addr := 2 ^ 64 } true,
   .atomic 8 {} {} true, .atomic 0 { stat := 256 } {} true, .atomic 0 { addr := 2 ^ 64 } {} true, .signal 8 {} true,
   .signal 0 { stat := 256 } true, .signal 0 { addr := 2 ^ 64 } true, .fabricResponse 8 0 0 z128 0, .fabricResponse 0 32768 0 z128 0,
   .fabricResponse 0 0 256 z128 0, .fabricResponse 0 0 0 [] 0, .hotLineWindow 8 0 true, .hotLineFree 8 0, .hopAckTimeout 8 0,
   .hopAckTimeout 0 8, .nak 8 0 0, .nak 0 8 0, .nak 0 0 2048, .e2eTimeout 8 0, .e2eTimeout 0 32768, .bulkEscape 8 0 0, .bulkEscape 0 8 0,
   .ctrlHoldRelease 8, .frameReceive 8 0 [] true, .frameReceive 0 8 [] true, .frameTransmit 8 0, .frameTransmit 0 8, .frameTxEnd 8 0,
   .frameTxEnd 0 8, .pfcReceive 8 0 0 0, .pfcReceive 0 8 0 0, .pfcReceive 0 0 8 0, .pfcReceive 0 0 0 65536, .pfcRepeat 8 0, .pfcRepeat 0 8,
   .pauseExpiry 8 0 0, .pauseExpiry 0 8 0, .pauseExpiry 0 0 8, .ackOnlyFrame 8 0, .ackOnlyFrame 0 8]

def ill4 : List Instr :=
  [.portBringUp 8 0 0, .portBringUp 0 8 0, .portBringUp 0 0 512, .hello 8 0 0 0, .hello 0 8 0 0, .hello 0 0 4096 0, .hello 0 0 0 32,
   .portRetrainTimer 8 0, .portRetrainTimer 0 8, .macRetrain 8 0, .macRetrain 0 8, .laneLockLoss 8 0 0, .laneLockLoss 0 8 0,
   .laneLockLoss 0 0 9, .macSpareIn 8 0 0, .macSpareIn 0 8 0, .macSpareIn 0 0 8, .spareReq 8 0 0, .spareReq 0 8 0, .spareReq 0 0 8,
   .pcsRealigned 8 0, .pcsRealigned 0 8, .spareDone 8 0, .spareDone 0 8, .laneSerWindow 8 0 0 0, .laneSerWindow 0 8 0 0,
   .laneSerWindow 0 0 9 0, .gateEntry 8 0, .gateEntry 0 8, .ptpMessage 8 0 .sync, .ptpMessage 0 8 .sync, .hqRxCons 8 0 0, .hqRxCons 0 8 0,
   .hqRxCons 0 0 65536, .hqTxProd 8 0 0, .hqTxProd 0 8 0, .hqTxProd 0 0 65536, .bucketStart 8 0 0, .bucketStart 0 8 0, .bucketStart 0 0 16,
   .chunkLoaded 8 0 0 {}, .chunkLoaded 0 8 0 {}, .chunkLoaded 0 0 16 {}, .channelHeaderUpdate 8 0 0 {} true,
   .channelHeaderUpdate 0 8 0 {} true, .channelHeaderUpdate 0 0 16 {} true, .bucketComplete 8 0 0, .bucketComplete 0 8 0,
   .bucketComplete 0 0 16, .redTimeout 8 0 0 0, .redTimeout 0 8 0 0, .redTimeout 0 0 16 0, .aglLinkTrain 8, .aglLanesTrained 8 0,
   .aglLanesTrained 0 65536, .aglInit 8 0 0 0 0 0, .aglInit 0 256 0 0 0 0, .aglInit 0 0 256 0 0 0, .aglInit 0 0 0 65536 0 0,
   .aglInit 0 0 0 0 65536 0]

def ill5 : List Instr :=
  [.aglInit 0 0 0 0 0 65536, .flitReceive 8 z256, .flitReceive 0 [], .aglNak 8 0, .aglNak 0 4096, .flitReplayTimeout 8, .aglRetrain 8,
   .aglDown 8, .aglAutoRetrain 8, .rdOnce 8 0 0, .rdOnce 0 65536 0, .rdOnce 0 0 (2 ^ 64), .rdShared 8 0 0, .rdShared 0 65536 0,
   .rdShared 0 0 (2 ^ 64), .rdOwn 8 0 0, .rdOwn 0 65536 0, .rdOwn 0 0 (2 ^ 64), .rd8 8 0 0, .rd8 0 65536 0, .rd8 0 0 (2 ^ 64),
   .wrLine 8 0 0 z128 0, .wrLine 0 65536 0 z128 0, .wrLine 0 0 (2 ^ 64) z128 0, .wrLine 0 0 0 [] 0, .wrPart 8 0 0 z128 0 0,
   .wrPart 0 65536 0 z128 0 0, .wrPart 0 0 (2 ^ 64) z128 0 0, .wrPart 0 0 0 [] 0 0, .wrPart 0 0 0 z128 0 (2 ^ 128), .wr8 8 0 0 0,
   .wr8 0 65536 0 0, .wr8 0 0 (2 ^ 64) 0, .wrBack 8 0 0 z128 0, .wrBack 0 65536 0 z128 0, .wrBack 0 0 (2 ^ 64) z128 0, .wrBack 0 0 0 [] 0,
   .evict 8 0 0, .evict 0 65536 0, .evict 0 0 (2 ^ 64), .hostAtomic 8 0 0 0 0 0 {} true, .hostAtomic 0 65536 0 0 0 0 {} true,
   .hostAtomic 0 0 (2 ^ 64) 0 0 0 {} true, .hostAtomic 0 0 0 256 0 0 {} true, .rsp 8 0 0, .rsp 0 65536 0, .rsp 0 0 256, .rsp8 8 0 0 0,
   .rsp8 0 65536 0 0, .rsp8 0 0 256 0, .rspData 8 0 0 z128 0, .rspData 0 65536 0 z128 0, .rspData 0 0 256 z128 0, .rspData 0 0 0 [] 0,
   .snpTimeout 8 0, .snpTimeout 0 65536, .rspTimeout 8 0, .rspTimeout 0 65536, .intr 8, .startUp 32 [] true]

def ill6 : List Instr :=
  [.dieRelease 8 true [] true, .freqChangeRequest 8 0 0, .freqChangeRequest 0 52 0, .freqChangeRequest 0 0 32, .freqChangeRestart 8 0,
   .freqChangeRestart 0 52, .deferredIncrease 8 0, .deferredIncrease 0 52, .marginWarn 8 0 0, .marginWarn 0 52 0, .oscFallback 8 0,
   .oscFallback 0 52, .pllUnlock 8, .serdesPllUnlock 8 0 true, .serdesPllUnlock 0 16 true, .crossingWake 8 0, .crossingWake 0 52,
   .heldCrossingScan 8, .domainTimeCorrect 8, .pkgSync 8, .timOffset 8 0, .ibcFail 4, .railFault 8 0, .railFault 0 60, .phaseFail 8 0 0,
   .phaseFail 0 52 0, .phaseFail 0 0 5, .retentionEnter 8 0, .retentionEnter 0 52, .powerOnRequest 8 0, .powerOnRequest 0 52,
   .admissionEval 8 0 0, .admissionEval 0 4 0, .rampDone 8 0 true, .rampDone 0 52 true, .lowWaterRecord 8 0 0 0, .lowWaterRecord 0 60 0 0,
   .powerEval 8 {}, .droopTrip 8 0, .droopTrip 0 52, .stretchHoldEnd 8 0 0, .stretchHoldEnd 0 52 0, .llExpiry 8 0 0, .llExpiry 0 52 0,
   .llExpiry 0 0 24, .vfRecordWrite 8 true, .dieBudgetEval 8 0, .sensorConversion 8 0 0, .sensorConversion 0 116 0, .pairFault 8 0,
   .pairFault 0 52, .throttleStep 8 0, .throttleStep 0 52, .thermalUndo 8 0, .thermalUndo 0 116, .hbmTempRead 8 0 0, .hbmTempRead 0 2 0,
   .dieStop 8 .fab 0, .dieStop 0 .fab 64, .bridgeFlitReject 8 0 0]

def ill7 : List Instr :=
  [.bridgeFlitReject 0 8 0, .statusClear 8 .fab 0 0, .statusClear 0 .fab 100 0, .clIn 8 0, .clIn 0 48, .bankIn 8 0, .bankIn 0 1024,
   .laneIn 8 0 0, .laneIn 0 8 0, .laneIn 0 0 8, .spareRetire 8 0 0 0, .spareRetire 0 2 0 0, .spareRetire 0 0 64 0,
   .spareRetire 0 0 0 16384, .testCl 8 0, .testCl 0 48, .repairRecordWrite 8 true, .repairRetry 8 true, .injectResidue 8 0 0,
   .injectResidue 0 48 0, .injectResidue 0 0 4, .injectExitCrc 8 0, .injectExitCrc 0 8, .swapRequest 8 .fab 0, .swapRequest 0 .fab 100,
   .blockSwap 8 .fab 0, .blockSwap 0 .fab 100, .interruptMaskWrite 8 .fab 0 0, .interruptMaskWrite 0 .fab 100 0, .registerWrite (2 ^ 48) 0]

/-- One term of every constructor is well formed. -/
theorem test_wellFormed : (good1 ++ good2 ++ good3 ++ good4).all Instr.wf = true := by decide +kernel

/-- A term whose one field lies past its range is ill formed: one for each check of each constructor. -/
theorem test_illFormed : (ill1 ++ ill2 ++ ill3 ++ ill4 ++ ill5 ++ ill6 ++ ill7).all (fun i => !i.wf) = true := by decide +kernel

end Forms

/-! ### The manual's worked examples -/

namespace Examples

/-- Decoding one MXFP4 weight block, and the E2M3 codes beside it (chapter 2). -/
theorem test_decode : [0x3, 0xB, 0x7, 0x0, 0xE, 0x5, 0x9, 0x6].map (decodeElem true fMXFP4) = [3, -3, 12, 0, -8, 6, -1, 8] ∧
    [0x1D, 0x23, 0x12].map (decodeElem true fE2M3) = [52, -3, 20] := by decide +kernel

/-- One element, one depth tile (chapter 3): MAIN 1,059, COMP 0x6F6E, one INEXACT and one ZEROED. -/
theorem test_depthTile :
    let x := blockAccum false { main := 1000, comp := 0x9000, shadow := mod7 (1000 * 65536 + 0x9000) } [(7536, 7), (0, 0), (-4660, 21), (311, 50)]
    x.1.main = 1059 ∧ x.1.comp = 0x6F6E ∧ x.1.shadow = mod7 69431150 ∧ x.2 = { inexact := 1, zeroed := 1 } := by decide +kernel

/-- One element of the tracking projection (chapter 4): block scale 118, and 42 from the draw 40,358 on. -/
theorem test_conv : selectScale fMXINT8 (-32) [5424308, 9100000] = 118 ∧ quantElem fMXINT8 true (-32) 118 5424308 40357 = (41, false) ∧
    quantElem fMXINT8 true (-32) 118 5424308 40358 = (42, false) ∧ quantElem fMXINT8 false (-32) 118 5424308 0 = (41, false) ∧
    encodeElem fMXINT8 42 = 0x2A := by decide +kernel

/-- Locating a scratchpad line (chapter 9): die 3, line 0x14_1A2B, bank 557. -/
theorem test_scratchpadLine : cloAddr 0x0D41A2B = 0x01006A0D1580 ∧ celDie 0x01006A0D1580 = 3 ∧ celLine 0x01006A0D1580 = 0x141A2B ∧
    bankOf 0x01006A0D1580 = 557 := by decide +kernel

/-- Locating an HBM line (chapter 10): die 1, controller 0, pseudo-channel 60, offset 131,144. -/
theorem test_hbmLine : homeDie 0x1E00123A80 = 1 ∧ hbmPlace 0x1E00123A80 = (0, 60, 131144) ∧ hbmAddr 1 0 60 131144 = 0x1E00123A80 := by
  decide +kernel

/-- Locating registers (chapter 24): MMA_STAT of cluster 17 of die 5, PWR_RAIL_20 of die 6 and MOD_ERR_SUM. -/
theorem test_registers : regAddr 5 .mma 17 0 = 0x02000A311000 ∧ regAddr 6 .pwr 0 (clPage 20) = 0x02000CA101A0 ∧
    regAddr 0 .mod 0 0x70 = 0x020000E00070 := by decide +kernel

/-- A T8L at 39.0 V may draw 2,500 W, at 38.0 V a quarter of 4,000 W, at 40.0 V all of it (R353, chapter 20). -/
theorem test_supplyCap : [3900, 3799, 3800, 4000].map (fun v => { b8 with modc := { b8.modc with vins := [4200, v] } }.supplyCap) =
    [2500, 1000, 1000, 4000] := by decide +kernel

/-- The encoded MMA of the query projection (Table 7.5). -/
def mmaStep : List Word :=
  [0x0000FFFFFF831C10, 0x000000600000000C, 0x42EC13130000000D, 0x240020C000100000, 0x0010215800106400, 0x00001FFF80110000,
   0x000C000C00000600, 0x00600000FFFFFFFF]

/-- Table 7.5: kind MMA, counter 13 signalled, and 128 units, by which counter 13 rises. -/
theorem test_mmaStep : stKind mmaStep = kMMA ∧ stSigEn mmaStep = true ∧ stSigCref mmaStep = 13 ∧ (stUnits mmaStep).length = 128 := by
  decide +kernel

/-- Adds of 1, 2 and 4 merged over a word of 100 answer 100, 101 and 103 (R219). -/
theorem test_mergedAdds :
    (memberResps { op := opAtomic } 100 [{ pay := leBytes 8 1 }, { pay := leBytes 8 2 }, { pay := leBytes 8 4 }]).map (fun r => leAt r.pay 0 8) =
      [100, 101, 103] := by decide +kernel

/-- The CRC-32C of "123456789" is 0xE306_9283 (R282, R375). -/
theorem test_crc : crc32c [0x31, 0x32, 0x33, 0x34, 0x35, 0x36, 0x37, 0x38, 0x39] = 0xE3069283#32 ∧
    crc32c (List.replicate 128 0) = zeroLineCrc := by decide +kernel

end Examples

/-! ### The machine as a whole: states that meet what the statements ask -/

namespace StepRunsFront

/-- A command waits at the front of the queue. -/
theorem test_met : ({ b8 with pending := [.bucketStart 0 0 0, .flush 0] } : State).pending = .bucketStart 0 0 0 :: [.flush 0] := rfl

end StepRunsFront

namespace IdleStepIsAClock

/-- No command waits, and no link holds a message. -/
theorem test_met : b8.pending = [] ∧ ∀ d, d < b8.nd → (b8.link d).stalled = [] :=
  ⟨rfl, fun d _ => noneStalled_of (by decide +kernel) d⟩

end IdleStepIsAClock

namespace StepKeepsCanonical

def s0 : State := { load 0 0 true tb 2 sRACK b0 with pending := [.stop 0] }

/-- A canonical state steps: a context with a step at its head is stopped. -/
theorem test_met : s0.Canonical ∧ s0.mem ≠ [] ∧ ∃ t, step s0 = .next t :=
  ⟨by unfold State.Canonical; decide +kernel, by decide +kernel, _, rfl⟩

end StepKeepsCanonical

namespace CommandsLeaveAlone

/-- A command that stores nothing answers a next state. -/
theorem test_met : Instr.storesNothing (.stop 0) = true ∧ ∃ t, exec (.stop 0) b8 = .next t := ⟨rfl, _, rfl⟩

end CommandsLeaveAlone

namespace StepKeepsFlightNumbers

def s0 : State := { b8 with flights := [{ id := 19 }], nextId := 20, pending := [.unitComplete 0 19 0] }

/-- A step in flight has the highest number, and its state steps. -/
theorem test_met : s0.Numbered ∧ ∃ t, step s0 = .next t := ⟨by unfold State.Numbered; decide +kernel, _, rfl⟩

end StepKeepsFlightNumbers

namespace StopsOnlyAtRewrittenTables

def s0 : State := (load 0 0 true tb 2 sNOP b0).updQueue 0 0 true (fun y => { y with win := [(2, sRACK)] })

/-- The table's words of the head step differ from those its queue fetched. -/
theorem test_met : (kRACK, Instr.rack 0 0 true {}) ∈ stepRows 0 0 true {} ∧ s0.live 0 = true ∧ (s0.ctx 0 0).st = .running ∧
    s0.head 0 0 true = some (2, sRACK) ∧ stKind sRACK = kRACK ∧ s0.stepWords ((s0.ctx 0 0).queue true).base 2 ≠ sRACK := by decide +kernel

end StopsOnlyAtRewrittenTables

namespace ClockNeverTurnsTimeBack

def d0 : DieSt := { now := 2 ^ 64 - 2, frac := 2 ^ 32 - 1, rate := 2 ^ 31, slew := -(2 ^ 40) }

/-- The largest count, fraction and rate word, with a correction that takes the clock back. -/
theorem test_met : d0.frac < 2 ^ 32 ∧ d0.now < 2 ^ 64 - 1 ∧ d0.rate ≤ 2 ^ 31 := by decide +kernel

end ClockNeverTurnsTimeBack

namespace ArraysAccumulate

def line1 : State := b0.putLine 100 (mkLine (leBytes 1 1 ++ List.replicate 127 0) 0 fINT8 0)

def op : Opnd := { fmt := fINT8, base := 100, rstr := 1 }

def total (e : Elem) : Int := e.main.toInt + ((List.range (1 - 0)).map (fun i => line1.arrInt op 0 (0 + i) * line1.arrInt op 0 (0 + i))).sum

/-- One product of 1: a total that fits, at the top of the range and one past it. -/
theorem test_met_sum : total { main := 0x7FFFFFFE } = 2 ^ 31 - 1 ∧ total { main := 0x7FFFFFFF } = 2 ^ 31 := by decide +kernel

/-- Two tiles with one MAIN and different compensation words. -/
theorem test_met_drain : ∀ r c, (({ elems := [(5, { main := 3, comp := 1 })] } : Tile).get r c).main =
    (({ elems := [(5, { main := 3, comp := 2 })] } : Tile).get r c).main := by
  intro r c; simp only [Tile.get, smGet]; split <;> rfl

/-- An element whose shadow agrees, in an integer mode and in a block mode. -/
theorem test_met_shadow : ({ main := 0xFFFFFFFF, shadow := 6 } : Elem).shadow = mod7 ({ main := 0xFFFFFFFF, shadow := 6 } : Elem).main.toInt ∧
    ({ main := 1, comp := 3, shadow := 5 } : Elem).shadow = mod7 ({ main := 1, comp := 3, shadow := 5 } : Elem).acc := by decide +kernel

end ArraysAccumulate

namespace SoundTilesDrainClean

/-- A tile of one element that agrees with its shadow. -/
theorem test_met : smWf (fun _ => ({} : Elem)) [(97, { main := 8, shadow := 1 })] = true ∧
    ({ elems := [(97, { main := 8, shadow := 1 })] } : Tile).mismatches 0 256 = [] ∧ 256 ≤ 256 := by decide +kernel

end SoundTilesDrainClean

namespace ScaleCodeNeverFF

/-- A block whose scale is the largest, 254. -/
theorem test_met : 254 ∈ (quantRow fMXINT8 false 200 0 (List.replicate 32 { w := 2 ^ 40 }) (List.replicate 32 0)).scales := by decide +kernel

end ScaleCodeNeverFF

namespace StepIssuesWhenFree

def s0 : State := load 0 0 true tb 2 sMMA b0

def s1 : State := (load 0 0 true tb 2 sRACKv b0).putSide 100 0x0004000300000000

def s2 : State := { load 0 0 false tb 2 (stp 4 [] []) b0 with flights := [{id := 3, d := 0, c := 0, ws := sNOP, defer := true}], nextId := 9 }

/-- States and operands that meet what `StepIssuesWhenFree` asks, clause by clause. -/
theorem test_met :
    (s0.gate 0 0 true 16 = Gate.go 2 sMMA ∧ 1 < 48 ∧ nbit (useMask sMMA) 1 = true) ∧ (s0.gate 0 0 true 16 = Gate.go 2 sMMA ∧ 0 < 8 ∧
    s0.issuable 0 0 true = true) ∧ (s0.live 0 = true ∧ 0 < 8 ∧ s0.head 0 0 true = some (2, sMMA) ∧ stKind sMMA = 16 ∧
    s0.stepWords ((s0.ctx 0 0).queue true).base 2 = sMMA ∧ s0.issuable 0 0 true = true ∧
    (∀ (c' : Nat), c' < 8 → ∀ (q' : Bool), s0.issuable 0 c' q' = true → c' = 0 ∧ q' = true) ∧ stVchk sMMA = false) ∧
    (s1.gate 0 0 true kRACK = Gate.go 2 sRACKv ∧ stVchk sRACKv = true) ∧ (s2.gate 0 0 false kFENCE = Gate.go 2 (stp 4 [] []) ∧
    (∃ f ∈ s2.flights, (f.d = 0) ∧ (f.c = 0))) := by
  decide +kernel

end StepIssuesWhenFree

namespace ControlStepsIssue

def sLAY : List Word := stp 0x31 [11,12] [(2,0,5)]

def sSIG : List Word := stp 2 [11] [(2,0,5 + 4096 + 1*256 + 3 * 2^28),(2,32,77)]

def sWAIT : List Word := stp 1 [10,8] [(1,0,5),(1,32,0),(0,24,0xFFFFFF)]

def sFEN : List Word := stp 4 [] [(2,32,1)]

def s0 : State := load 0 0 true tb 2 sNOP b0

def s1 : State := load 0 0 true tb 2 sWAIT b0

def s2 : State := load 0 0 true tb 2 sFEN b0

def s3 : State := load 0 0 true tb 2 sSIG b0

def s4 : State := load 0 0 true tb 2 sLAY b0

/-- States and operands that meet what `ControlStepsIssue` asks, clause by clause. -/
theorem test_met :
    s0.Canonical ∧ s1.Canonical ∧ s2.Canonical ∧ s3.Canonical ∧ s4.Canonical ∧ s0.gate 0 0 true kNOP = Gate.go 2 sNOP ∧
    s1.gate 0 0 true kWAIT = Gate.go 2 sWAIT ∧ s2.gate 0 0 true kFENCE = Gate.go 2 sFEN ∧ s3.gate 0 0 true kSIG = Gate.go 2 sSIG ∧
    s4.gate 0 0 true kLAYOUT = Gate.go 2 sLAY := by
  unfold State.Canonical; decide +kernel

end ControlStepsIssue

namespace SwapTrapAndRedSteps

def sRED : List Word := stp 0x30 [] [(2,32,2),(3,0,2^20*64),(4,0,2^20*80),(5,0,5)]

def sSWAP : List Word := stp 3 [] [(2,32,1 + 8 + 2^5),(7,0,2)]

def sTRAP : List Word := stp 5 [] [(2,32,99)]

def s0 : State := load 0 0 true tb 2 sSWAP b0

def s1 : State := load 0 0 true tb 2 sTRAP b0

def s2 : State := load 0 0 true tb 2 sRED b0

/-- States and operands that meet what `SwapTrapAndRedSteps` asks, clause by clause. -/
theorem test_met :
    s0.Canonical ∧ s1.Canonical ∧ s2.Canonical ∧ s0.gate 0 0 true kSWAP = Gate.go 2 sSWAP ∧ s1.gate 0 0 true kTRAP = Gate.go 2 sTRAP ∧
    s2.gate 0 0 true kRED = Gate.go 2 sRED := by
  unfold State.Canonical; decide +kernel

end SwapTrapAndRedSteps

namespace ComputeStepsIssue

def sMMAr : List Word := stp 0x10 [8] [(2,32,2),(2,40,2),(3,0,100),(3,50,1),(4,0,200),(4,50,1),(6,0,128),(6,32,1),(6,48,1),(7,0,2),(7,48,8),(2,62,1),(5,0,900),(3,59,1),(5,25,70)]

def sCONV : List Word := stp 0x11 [11] [(2,0,5),(2,32,4),(2,40,3),(3,0,100),(4,0,300),(5,25,32),(5,42,1),(6,32,1),(6,48,1),(7,0,2),(7,48,1)]

def sELEM : List Word := stp 0x12 [] [(2,32,4),(2,40,3),(3,0,100),(4,0,300),(5,25,32),(5,42,1),(6,32,1),(6,48,1),(7,0,2),(7,48,1)]

def sSTAT : List Word := stp 0x13 [] [(2,32,4),(3,0,100),(4,0,70),(5,25,32),(5,42,1),(6,48,1),(7,0,6),(6,0,9)]

def sOPT : List Word := stp 0x14 [] [(7,48,1),(7,0,2),(3,0,400),(4,0,410),(5,0,420),(6,0,430),(3,25,500),(4,25,501),(5,25,502),(6,25,503),(2,32,600)]

def ln (v : Nat) : Line := mkLine ((List.range 128).map (fun i => BitVec.ofNat 8 (v * i + 3))) 0 4 0

def x1 : Env := {}

def x0 : Instr := (Instr.mma 0 0 false {})

def x2 : Instr := (Instr.conv 0 0 false {})

def x3 : Instr := (Instr.elem 0 0 true {})

def x4 : Instr := (Instr.stat 0 0 true {})

def x5 : Instr := (Instr.opt 0 0 true {})

def x6 : Instr := Instr.mma 0 0 true {}

def x7 : Env := {}

def s0 : State := load 0 0 false tb 2 sMMA b0

def s1 : State := load 0 0 false tb 2 sMMAr b0

def s2 : State := load 0 0 false tb 2 sCONV b0

def s3 : State := (load 0 0 true tb 2 sELEM b0).setFld 0 .seq 0 0x100 0 2 1

def s4 : State := load 0 0 true tb 2 sSTAT b0

def s5 : State := load 0 0 true tb 2 sOPT b0

def s6 : State := { ((flt [(cloLine 100,true)] ((let s : State := rt (load 0 0 false tb 2 sMMAr b0); s.updQueue 0 0 false (fun y => {y with back := some 2}))))) with flights := [{id := 3, d := 0, c := 0, ws := sNOP}], nextId := 9}

def s7 : State := ((flt [(cloLine 100,true)] (rt (load 0 0 false tb 2 sCONV b0)))).setFld 0 .seq 0 0x130 0 16 65535

def s8 : State := (load 0 0 true tb 2 sSTAT b0).putLine (cloLine 100) (ln 7)

def s9 : State := (load 0 0 true tb 2 sMMAr b0).putSide (cloLine 70) 5

/-- States and operands that meet what `ComputeStepsIssue` asks, clause by clause (part 1). -/
theorem test_met_1 :
    s0.Canonical ∧ s1.Canonical ∧
    ((16, x0) ∈ [(kMMA, Instr.mma 0 0 false x1), (kCONV, Instr.conv 0 0 false x1), (kELEM, Instr.elem 0 0 false x1), (kSTAT, Instr.stat 0 0 false x1), (kOPT, Instr.opt 0 0 false x1)] ∧
    s0.gate 0 0 false 16 = Gate.go 2 sMMA ∧ s0.waits (s0.stepAccess 0 0 false 16 sMMA) = [] ∧ (16 = kMMA → s0.ringSound sMMA)) ∧
    ((16, x0) ∈ [(kMMA, Instr.mma 0 0 false x1), (kCONV, Instr.conv 0 0 false x1), (kELEM, Instr.elem 0 0 false x1), (kSTAT, Instr.stat 0 0 false x1), (kOPT, Instr.opt 0 0 false x1)] ∧
    s1.gate 0 0 false 16 = Gate.go 2 sMMAr ∧ s1.waits (s1.stepAccess 0 0 false 16 sMMAr) = [] ∧ (16 = kMMA → s1.ringSound sMMAr)) := by
  unfold State.Canonical State.ringSound; decide +kernel

/-- States and operands that meet what `ComputeStepsIssue` asks, clause by clause (part 2). -/
theorem test_met_2 :
    s2.Canonical ∧ s3.Canonical ∧
    ((17, x2) ∈ [(kMMA, Instr.mma 0 0 false x1), (kCONV, Instr.conv 0 0 false x1), (kELEM, Instr.elem 0 0 false x1), (kSTAT, Instr.stat 0 0 false x1), (kOPT, Instr.opt 0 0 false x1)] ∧
    s2.gate 0 0 false 17 = Gate.go 2 sCONV ∧ s2.waits (s2.stepAccess 0 0 false 17 sCONV) = [] ∧ (17 = kMMA → s2.ringSound sCONV)) ∧
    ((18, x3) ∈ [(kMMA, Instr.mma 0 0 true x1), (kCONV, Instr.conv 0 0 true x1), (kELEM, Instr.elem 0 0 true x1), (kSTAT, Instr.stat 0 0 true x1), (kOPT, Instr.opt 0 0 true x1)] ∧
    s3.gate 0 0 true 18 = Gate.go 2 sELEM ∧ s3.waits (s3.stepAccess 0 0 true 18 sELEM) = [] ∧ (18 = kMMA → s3.ringSound sELEM)) := by
  unfold State.Canonical State.ringSound; decide +kernel

/-- States and operands that meet what `ComputeStepsIssue` asks, clause by clause (part 3). -/
theorem test_met_3 :
    s4.Canonical ∧ s5.Canonical ∧
    ((19, x4) ∈ [(kMMA, Instr.mma 0 0 true x1), (kCONV, Instr.conv 0 0 true x1), (kELEM, Instr.elem 0 0 true x1), (kSTAT, Instr.stat 0 0 true x1), (kOPT, Instr.opt 0 0 true x1)] ∧
    s4.gate 0 0 true 19 = Gate.go 2 sSTAT ∧ s4.waits (s4.stepAccess 0 0 true 19 sSTAT) = [] ∧ (19 = kMMA → s4.ringSound sSTAT)) ∧
    ((20, x5) ∈ [(kMMA, Instr.mma 0 0 true x1), (kCONV, Instr.conv 0 0 true x1), (kELEM, Instr.elem 0 0 true x1), (kSTAT, Instr.stat 0 0 true x1), (kOPT, Instr.opt 0 0 true x1)] ∧
    s5.gate 0 0 true 20 = Gate.go 2 sOPT ∧ s5.waits (s5.stepAccess 0 0 true 20 sOPT) = [] ∧ (20 = kMMA → s5.ringSound sOPT)) := by
  unfold State.Canonical State.ringSound; decide +kernel

/-- States and operands that meet what `ComputeStepsIssue` asks, clause by clause (part 4). -/
theorem test_met_4 :
    s6.Canonical ∧ s7.Canonical ∧ s8.Canonical ∧
    ((16, x0) ∈ [(kMMA, Instr.mma 0 0 false x1), (kCONV, Instr.conv 0 0 false x1), (kELEM, Instr.elem 0 0 false x1), (kSTAT, Instr.stat 0 0 false x1), (kOPT, Instr.opt 0 0 false x1)] ∧
    s6.gate 0 0 false 16 = Gate.go 2 sMMAr ∧ s6.waits (s6.stepAccess 0 0 false 16 sMMAr) ≠ []) ∧
    ((17, x2) ∈ [(kMMA, Instr.mma 0 0 false x1), (kCONV, Instr.conv 0 0 false x1), (kELEM, Instr.elem 0 0 false x1), (kSTAT, Instr.stat 0 0 false x1), (kOPT, Instr.opt 0 0 false x1)] ∧
    s7.gate 0 0 false 17 = Gate.go 2 sCONV ∧ s7.waits (s7.stepAccess 0 0 false 17 sCONV) ≠ []) ∧ (s8.gate 0 0 true kSTAT = Gate.go 2 sSTAT ∧
    s8.waits (s8.stepAccess 0 0 true kSTAT sSTAT) = [] ∧ x1.residue = [] ∧
    (∀ (x : Nat × Nat), x ∈ ranked sSTAT → (s8.statReads sSTAT (stClusters sSTAT).length x.fst).fst = [])) := by
  unfold State.Canonical; decide +kernel

/-- States and operands that meet what `ComputeStepsIssue` asks, clause by clause (part 5). -/
theorem test_met_5 :
    s9.Canonical ∧
    ((kMMA, x6) ∈ [(kMMA, Instr.mma 0 0 true x7), (kCONV, Instr.conv 0 0 true x7), (kELEM, Instr.elem 0 0 true x7), (kSTAT, Instr.stat 0 0 true x7), (kOPT, Instr.opt 0 0 true x7)] ∧
    s9.gate 0 0 true kMMA = Gate.go 2 sMMAr ∧ s9.waits (s9.stepAccess 0 0 true kMMA sMMAr) = [] ∧ kMMA = kMMA ∧ ¬s9.ringSound sMMAr) := by
  unfold State.Canonical State.ringSound; decide +kernel

end ComputeStepsIssue

namespace EngineStepsIssue

def hst : Nat := hostBase

def sRACKr : List Word := stp 0x20 [] [(3,0,128*100),(4,0,128*120+2^48*3),(5,0,2),(5,32,1)]

def sRACKs : List Word := stp 0x20 [14] [(0,48,9),(3,0,128*100),(4,0,cloAddr 70),(5,0,1),(5,32,1)]

def sDEC : List Word := stp 0x21 [] [(3,0,128*100),(4,0,hst),(5,0,1),(5,32,1)]

def sGAT : List Word := stp 0x22 [] [(3,0,128*100),(4,0,300),(5,0,2),(5,20,1)]

def sSCA : List Word := stp 0x23 [] [(3,0,128*100),(4,0,300),(5,0,2),(5,20,1)]

def sDIS : List Word := stp 0x24 [] [(2,40,2),(2,48,1),(2,56,1),(3,0,100),(4,0,300),(4,25,310),(5,0,320),(5,25,2),(6,0,1),(6,16,1)]

def sCOM : List Word := stp 0x25 [] [(2,40,2),(2,48,1),(2,56,1),(3,0,100),(4,0,300),(4,25,310),(5,0,320),(5,25,2),(6,0,1),(6,16,1)]

def sMC : List Word := stp 0x26 [] [(3,0,128*100),(4,0,128*120),(5,0,1),(5,32,1)]

def sREP : List Word := stp 0x27 [] [(3,0,128*100+2^48*3),(4,0,128*100),(5,0,1),(5,32,1)]

def sSNAP : List Word := stp 0x32 [] [(3,0,hst)]

def x1 : Env := {}

def x0 : Instr := (Instr.rack 0 0 true {})

def x2 : Instr := (Instr.snap 0 0 false {})

def x3 : Instr := (Instr.decant 0 0 true {})

def x4 : Instr := (Instr.gather 0 0 true {})

def x5 : Instr := (Instr.scatter 0 0 true {})

def x6 : Instr := (Instr.dispatch 0 0 true {})

def x7 : Instr := (Instr.combine 0 0 true {})

def x8 : Instr := (Instr.mcast 0 0 true {})

def x9 : Instr := (Instr.replica 0 0 true {})

def x10 : Instr := (Instr.decant 0 0 false {})

def x11 : Instr := (Instr.gather 0 0 false {})

def x12 : Instr := (Instr.scatter 0 0 false {})

def x13 : Instr := (Instr.dispatch 0 0 false {})

def x14 : Instr := (Instr.combine 0 0 false {})

def s0 : State := load 0 0 true tb 2 sRACK b0

def s1 : State := load 0 0 true tb 2 sRACKr b0

def s2 : State := rt (load 0 0 false tb 2 sSNAP b0)

def s3 : State := load 0 0 true tb 2 sRACKs b0

def s4 : State := load 0 0 true tb 2 sDEC b0

def s5 : State := load 0 0 true tb 2 sGAT b0

def s6 : State := load 0 0 true tb 2 sSCA b0

def s7 : State := load 0 0 true tb 2 sDIS b0

def s8 : State := load 0 0 true tb 2 sCOM b0

def s9 : State := load 0 0 true tb 2 sMC b0

def s10 : State := load 0 0 true tb 2 sREP b0

def s11 : State := (flt [(100,true),(120,true)] ((flt [(cloLine 100,true)] (load 0 0 true tb 2 sRACKr b0))))

def s12 : State := (flt [(100,true),(120,true)] (load 0 0 true tb 2 sRACKs b0))

def s13 : State := ((flt [(100,true),(120,true)] (rt (load 0 0 false tb 2 sDEC b0)))).updQueue 0 0 false (fun y => { y with back := some 2})

def s14 : State := (flt [(100,true),(120,true)] (rt (load 0 0 false tb 2 sGAT b0)))

def s15 : State := (flt [(cloLine 300,true)] ((let s : State := load 0 0 false tb 2 sSCA b0; s.setFld 0 .seq 0 0x130 0 16 65535)))

def s16 : State := (flt [(cloLine 100,true)] ((let s : State := rt (load 0 0 false tb 2 sDIS b0); s.putSide 100 8)))

def s17 : State := ((flt [(cloLine 100,true)] ((let s : State := load 0 0 false tb 2 sCOM b0; s.putSide 100 0x0004000300000000)))).putSide (cloLine 70) 8

def s18 : State := (flt [(100,true),(120,true)] ((let s : State := load 0 0 true tb 2 sREP b0; s.putSide 100 0x0004000300000000)))

/-- States and operands that meet what `EngineStepsIssue` asks, clause by clause (part 1). -/
theorem test_met_1 :
    s0.Canonical ∧
    ((32, x0) ∈ [(kRACK, Instr.rack 0 0 true x1), (kDECANT, Instr.decant 0 0 true x1), (kGATHER, Instr.gather 0 0 true x1), (kSCATTER, Instr.scatter 0 0 true x1), (kDISPATCH, Instr.dispatch 0 0 true x1), (kCOMBINE, Instr.combine 0 0 true x1), (kMCAST, Instr.mcast 0 0 true x1), (kREPLICA, Instr.replica 0 0 true x1), (kSNAP, Instr.snap 0 0 true x1)] ∧
    s0.gate 0 0 true 32 = Gate.go 2 sRACK ∧ s0.waits (s0.stepAccess 0 0 true 32 sRACK) = []) := by
  unfold State.Canonical; decide +kernel

/-- States and operands that meet what `EngineStepsIssue` asks, clause by clause (part 2). -/
theorem test_met_2 :
    s1.Canonical ∧
    ((32, x0) ∈ [(kRACK, Instr.rack 0 0 true x1), (kDECANT, Instr.decant 0 0 true x1), (kGATHER, Instr.gather 0 0 true x1), (kSCATTER, Instr.scatter 0 0 true x1), (kDISPATCH, Instr.dispatch 0 0 true x1), (kCOMBINE, Instr.combine 0 0 true x1), (kMCAST, Instr.mcast 0 0 true x1), (kREPLICA, Instr.replica 0 0 true x1), (kSNAP, Instr.snap 0 0 true x1)] ∧
    s1.gate 0 0 true 32 = Gate.go 2 sRACKr ∧ s1.waits (s1.stepAccess 0 0 true 32 sRACKr) = []) := by
  unfold State.Canonical; decide +kernel

/-- States and operands that meet what `EngineStepsIssue` asks, clause by clause (part 3). -/
theorem test_met_3 :
    s2.Canonical ∧
    ((50, x2) ∈ [(kRACK, Instr.rack 0 0 false x1), (kDECANT, Instr.decant 0 0 false x1), (kGATHER, Instr.gather 0 0 false x1), (kSCATTER, Instr.scatter 0 0 false x1), (kDISPATCH, Instr.dispatch 0 0 false x1), (kCOMBINE, Instr.combine 0 0 false x1), (kMCAST, Instr.mcast 0 0 false x1), (kREPLICA, Instr.replica 0 0 false x1), (kSNAP, Instr.snap 0 0 false x1)] ∧
    s2.gate 0 0 false 50 = Gate.go 2 sSNAP ∧ s2.waits (s2.stepAccess 0 0 false 50 sSNAP) = []) := by
  unfold State.Canonical; decide +kernel

/-- States and operands that meet what `EngineStepsIssue` asks, clause by clause (part 4). -/
theorem test_met_4 :
    s3.Canonical ∧
    ((32, x0) ∈ [(kRACK, Instr.rack 0 0 true x1), (kDECANT, Instr.decant 0 0 true x1), (kGATHER, Instr.gather 0 0 true x1), (kSCATTER, Instr.scatter 0 0 true x1), (kDISPATCH, Instr.dispatch 0 0 true x1), (kCOMBINE, Instr.combine 0 0 true x1), (kMCAST, Instr.mcast 0 0 true x1), (kREPLICA, Instr.replica 0 0 true x1), (kSNAP, Instr.snap 0 0 true x1)] ∧
    s3.gate 0 0 true 32 = Gate.go 2 sRACKs ∧ s3.waits (s3.stepAccess 0 0 true 32 sRACKs) = []) := by
  unfold State.Canonical; decide +kernel

/-- States and operands that meet what `EngineStepsIssue` asks, clause by clause (part 5). -/
theorem test_met_5 :
    s4.Canonical ∧
    ((33, x3) ∈ [(kRACK, Instr.rack 0 0 true x1), (kDECANT, Instr.decant 0 0 true x1), (kGATHER, Instr.gather 0 0 true x1), (kSCATTER, Instr.scatter 0 0 true x1), (kDISPATCH, Instr.dispatch 0 0 true x1), (kCOMBINE, Instr.combine 0 0 true x1), (kMCAST, Instr.mcast 0 0 true x1), (kREPLICA, Instr.replica 0 0 true x1), (kSNAP, Instr.snap 0 0 true x1)] ∧
    s4.gate 0 0 true 33 = Gate.go 2 sDEC ∧ s4.waits (s4.stepAccess 0 0 true 33 sDEC) = []) := by
  unfold State.Canonical; decide +kernel

/-- States and operands that meet what `EngineStepsIssue` asks, clause by clause (part 6). -/
theorem test_met_6 :
    s5.Canonical ∧
    ((34, x4) ∈ [(kRACK, Instr.rack 0 0 true x1), (kDECANT, Instr.decant 0 0 true x1), (kGATHER, Instr.gather 0 0 true x1), (kSCATTER, Instr.scatter 0 0 true x1), (kDISPATCH, Instr.dispatch 0 0 true x1), (kCOMBINE, Instr.combine 0 0 true x1), (kMCAST, Instr.mcast 0 0 true x1), (kREPLICA, Instr.replica 0 0 true x1), (kSNAP, Instr.snap 0 0 true x1)] ∧
    s5.gate 0 0 true 34 = Gate.go 2 sGAT ∧ s5.waits (s5.stepAccess 0 0 true 34 sGAT) = []) := by
  unfold State.Canonical; decide +kernel

/-- States and operands that meet what `EngineStepsIssue` asks, clause by clause (part 7). -/
theorem test_met_7 :
    s6.Canonical ∧
    ((35, x5) ∈ [(kRACK, Instr.rack 0 0 true x1), (kDECANT, Instr.decant 0 0 true x1), (kGATHER, Instr.gather 0 0 true x1), (kSCATTER, Instr.scatter 0 0 true x1), (kDISPATCH, Instr.dispatch 0 0 true x1), (kCOMBINE, Instr.combine 0 0 true x1), (kMCAST, Instr.mcast 0 0 true x1), (kREPLICA, Instr.replica 0 0 true x1), (kSNAP, Instr.snap 0 0 true x1)] ∧
    s6.gate 0 0 true 35 = Gate.go 2 sSCA ∧ s6.waits (s6.stepAccess 0 0 true 35 sSCA) = []) := by
  unfold State.Canonical; decide +kernel

/-- States and operands that meet what `EngineStepsIssue` asks, clause by clause (part 8). -/
theorem test_met_8 :
    s7.Canonical ∧
    ((36, x6) ∈ [(kRACK, Instr.rack 0 0 true x1), (kDECANT, Instr.decant 0 0 true x1), (kGATHER, Instr.gather 0 0 true x1), (kSCATTER, Instr.scatter 0 0 true x1), (kDISPATCH, Instr.dispatch 0 0 true x1), (kCOMBINE, Instr.combine 0 0 true x1), (kMCAST, Instr.mcast 0 0 true x1), (kREPLICA, Instr.replica 0 0 true x1), (kSNAP, Instr.snap 0 0 true x1)] ∧
    s7.gate 0 0 true 36 = Gate.go 2 sDIS ∧ s7.waits (s7.stepAccess 0 0 true 36 sDIS) = []) := by
  unfold State.Canonical; decide +kernel

/-- States and operands that meet what `EngineStepsIssue` asks, clause by clause (part 9). -/
theorem test_met_9 :
    s8.Canonical ∧
    ((37, x7) ∈ [(kRACK, Instr.rack 0 0 true x1), (kDECANT, Instr.decant 0 0 true x1), (kGATHER, Instr.gather 0 0 true x1), (kSCATTER, Instr.scatter 0 0 true x1), (kDISPATCH, Instr.dispatch 0 0 true x1), (kCOMBINE, Instr.combine 0 0 true x1), (kMCAST, Instr.mcast 0 0 true x1), (kREPLICA, Instr.replica 0 0 true x1), (kSNAP, Instr.snap 0 0 true x1)] ∧
    s8.gate 0 0 true 37 = Gate.go 2 sCOM ∧ s8.waits (s8.stepAccess 0 0 true 37 sCOM) = []) := by
  unfold State.Canonical; decide +kernel

/-- States and operands that meet what `EngineStepsIssue` asks, clause by clause (part 10). -/
theorem test_met_10 :
    s9.Canonical ∧
    ((38, x8) ∈ [(kRACK, Instr.rack 0 0 true x1), (kDECANT, Instr.decant 0 0 true x1), (kGATHER, Instr.gather 0 0 true x1), (kSCATTER, Instr.scatter 0 0 true x1), (kDISPATCH, Instr.dispatch 0 0 true x1), (kCOMBINE, Instr.combine 0 0 true x1), (kMCAST, Instr.mcast 0 0 true x1), (kREPLICA, Instr.replica 0 0 true x1), (kSNAP, Instr.snap 0 0 true x1)] ∧
    s9.gate 0 0 true 38 = Gate.go 2 sMC ∧ s9.waits (s9.stepAccess 0 0 true 38 sMC) = []) := by
  unfold State.Canonical; decide +kernel

/-- States and operands that meet what `EngineStepsIssue` asks, clause by clause (part 11). -/
theorem test_met_11 :
    s10.Canonical ∧
    ((39, x9) ∈ [(kRACK, Instr.rack 0 0 true x1), (kDECANT, Instr.decant 0 0 true x1), (kGATHER, Instr.gather 0 0 true x1), (kSCATTER, Instr.scatter 0 0 true x1), (kDISPATCH, Instr.dispatch 0 0 true x1), (kCOMBINE, Instr.combine 0 0 true x1), (kMCAST, Instr.mcast 0 0 true x1), (kREPLICA, Instr.replica 0 0 true x1), (kSNAP, Instr.snap 0 0 true x1)] ∧
    s10.gate 0 0 true 39 = Gate.go 2 sREP ∧ s10.waits (s10.stepAccess 0 0 true 39 sREP) = []) := by
  unfold State.Canonical; decide +kernel

/-- States and operands that meet what `EngineStepsIssue` asks, clause by clause (part 12). -/
theorem test_met_12 :
    s11.Canonical ∧
    ((32, x0) ∈ [(kRACK, Instr.rack 0 0 true x1), (kDECANT, Instr.decant 0 0 true x1), (kGATHER, Instr.gather 0 0 true x1), (kSCATTER, Instr.scatter 0 0 true x1), (kDISPATCH, Instr.dispatch 0 0 true x1), (kCOMBINE, Instr.combine 0 0 true x1), (kMCAST, Instr.mcast 0 0 true x1), (kREPLICA, Instr.replica 0 0 true x1), (kSNAP, Instr.snap 0 0 true x1)] ∧
    s11.gate 0 0 true 32 = Gate.go 2 sRACKr ∧ s11.waits (s11.stepAccess 0 0 true 32 sRACKr) ≠ []) := by
  unfold State.Canonical; decide +kernel

/-- States and operands that meet what `EngineStepsIssue` asks, clause by clause (part 13). -/
theorem test_met_13 :
    s12.Canonical ∧
    ((32, x0) ∈ [(kRACK, Instr.rack 0 0 true x1), (kDECANT, Instr.decant 0 0 true x1), (kGATHER, Instr.gather 0 0 true x1), (kSCATTER, Instr.scatter 0 0 true x1), (kDISPATCH, Instr.dispatch 0 0 true x1), (kCOMBINE, Instr.combine 0 0 true x1), (kMCAST, Instr.mcast 0 0 true x1), (kREPLICA, Instr.replica 0 0 true x1), (kSNAP, Instr.snap 0 0 true x1)] ∧
    s12.gate 0 0 true 32 = Gate.go 2 sRACKs ∧ s12.waits (s12.stepAccess 0 0 true 32 sRACKs) ≠ []) := by
  unfold State.Canonical; decide +kernel

/-- States and operands that meet what `EngineStepsIssue` asks, clause by clause (part 14). -/
theorem test_met_14 :
    s13.Canonical ∧
    ((33, x10) ∈ [(kRACK, Instr.rack 0 0 false x1), (kDECANT, Instr.decant 0 0 false x1), (kGATHER, Instr.gather 0 0 false x1), (kSCATTER, Instr.scatter 0 0 false x1), (kDISPATCH, Instr.dispatch 0 0 false x1), (kCOMBINE, Instr.combine 0 0 false x1), (kMCAST, Instr.mcast 0 0 false x1), (kREPLICA, Instr.replica 0 0 false x1), (kSNAP, Instr.snap 0 0 false x1)] ∧
    s13.gate 0 0 false 33 = Gate.go 2 sDEC ∧ s13.waits (s13.stepAccess 0 0 false 33 sDEC) ≠ []) := by
  unfold State.Canonical; decide +kernel

/-- States and operands that meet what `EngineStepsIssue` asks, clause by clause (part 15). -/
theorem test_met_15 :
    s14.Canonical ∧
    ((34, x11) ∈ [(kRACK, Instr.rack 0 0 false x1), (kDECANT, Instr.decant 0 0 false x1), (kGATHER, Instr.gather 0 0 false x1), (kSCATTER, Instr.scatter 0 0 false x1), (kDISPATCH, Instr.dispatch 0 0 false x1), (kCOMBINE, Instr.combine 0 0 false x1), (kMCAST, Instr.mcast 0 0 false x1), (kREPLICA, Instr.replica 0 0 false x1), (kSNAP, Instr.snap 0 0 false x1)] ∧
    s14.gate 0 0 false 34 = Gate.go 2 sGAT ∧ s14.waits (s14.stepAccess 0 0 false 34 sGAT) ≠ []) := by
  unfold State.Canonical; decide +kernel

/-- States and operands that meet what `EngineStepsIssue` asks, clause by clause (part 16). -/
theorem test_met_16 :
    s15.Canonical ∧
    ((35, x12) ∈ [(kRACK, Instr.rack 0 0 false x1), (kDECANT, Instr.decant 0 0 false x1), (kGATHER, Instr.gather 0 0 false x1), (kSCATTER, Instr.scatter 0 0 false x1), (kDISPATCH, Instr.dispatch 0 0 false x1), (kCOMBINE, Instr.combine 0 0 false x1), (kMCAST, Instr.mcast 0 0 false x1), (kREPLICA, Instr.replica 0 0 false x1), (kSNAP, Instr.snap 0 0 false x1)] ∧
    s15.gate 0 0 false 35 = Gate.go 2 sSCA ∧ s15.waits (s15.stepAccess 0 0 false 35 sSCA) ≠ []) := by
  unfold State.Canonical; decide +kernel

/-- States and operands that meet what `EngineStepsIssue` asks, clause by clause (part 17). -/
theorem test_met_17 :
    s16.Canonical ∧
    ((36, x13) ∈ [(kRACK, Instr.rack 0 0 false x1), (kDECANT, Instr.decant 0 0 false x1), (kGATHER, Instr.gather 0 0 false x1), (kSCATTER, Instr.scatter 0 0 false x1), (kDISPATCH, Instr.dispatch 0 0 false x1), (kCOMBINE, Instr.combine 0 0 false x1), (kMCAST, Instr.mcast 0 0 false x1), (kREPLICA, Instr.replica 0 0 false x1), (kSNAP, Instr.snap 0 0 false x1)] ∧
    s16.gate 0 0 false 36 = Gate.go 2 sDIS ∧ s16.waits (s16.stepAccess 0 0 false 36 sDIS) ≠ []) := by
  unfold State.Canonical; decide +kernel

/-- States and operands that meet what `EngineStepsIssue` asks, clause by clause (part 18). -/
theorem test_met_18 :
    s17.Canonical ∧
    ((37, x14) ∈ [(kRACK, Instr.rack 0 0 false x1), (kDECANT, Instr.decant 0 0 false x1), (kGATHER, Instr.gather 0 0 false x1), (kSCATTER, Instr.scatter 0 0 false x1), (kDISPATCH, Instr.dispatch 0 0 false x1), (kCOMBINE, Instr.combine 0 0 false x1), (kMCAST, Instr.mcast 0 0 false x1), (kREPLICA, Instr.replica 0 0 false x1), (kSNAP, Instr.snap 0 0 false x1)] ∧
    s17.gate 0 0 false 37 = Gate.go 2 sCOM ∧ s17.waits (s17.stepAccess 0 0 false 37 sCOM) ≠ []) := by
  unfold State.Canonical; decide +kernel

/-- States and operands that meet what `EngineStepsIssue` asks, clause by clause (part 19). -/
theorem test_met_19 :
    s18.Canonical ∧
    ((39, x9) ∈ [(kRACK, Instr.rack 0 0 true x1), (kDECANT, Instr.decant 0 0 true x1), (kGATHER, Instr.gather 0 0 true x1), (kSCATTER, Instr.scatter 0 0 true x1), (kDISPATCH, Instr.dispatch 0 0 true x1), (kCOMBINE, Instr.combine 0 0 true x1), (kMCAST, Instr.mcast 0 0 true x1), (kREPLICA, Instr.replica 0 0 true x1), (kSNAP, Instr.snap 0 0 true x1)] ∧
    s18.gate 0 0 true 39 = Gate.go 2 sREP ∧ s18.waits (s18.stepAccess 0 0 true 39 sREP) ≠ []) := by
  unfold State.Canonical; decide +kernel

end EngineStepsIssue

namespace RackCopiesTheLine

def s0 : State := load 0 0 true tb 2 sRACK b0

/-- States and operands that meet what `RackCopiesTheLine` asks, clause by clause. -/
theorem test_met :
    s0.Canonical ∧ (s0.gate 0 0 true kRACK = Gate.go 2 sRACK ∧ s0.waits (s0.stepAccess 0 0 true kRACK sRACK) = [] ∧ s0.Numbered ∧
    stVchk sRACK = false ∧ sw sRACK 5 0 20 = 1 ∧ sw sRACK 5 32 16 = 1 ∧ gaMod (sw sRACK 3 0 64) = s0.ownId 0 ∧
    gaMod (sw sRACK 4 0 64) = s0.ownId 0 ∧ s0.served (gaLocal (sw sRACK 3 0 64)) = true ∧ s0.served (gaLocal (sw sRACK 4 0 64)) = true ∧
    (sbPoison (s0.sideOf (gaLocal (sw sRACK 3 0 64) / 128)) = true ∨ (s0.line (gaLocal (sw sRACK 3 0 64) / 128)).crcOk = true)) := by
  unfold State.Canonical State.Numbered; decide +kernel

end RackCopiesTheLine

namespace HeadStepsTurnedAway

def sSIG2 : List Word := stp 2 [11,12,9] [(2,0,5 + 2048 + 1*256 ),(2,32,77)]

def x0 : Env := {glitch := [cloAddr 100]}

def s0 : State := load 0 0 true tb 2 sSIG2 b0

def s1 : State := load 0 0 true tb 2 sRACKv b0

def s2 : State := rt (load 0 0 false tb 2 sRACKv b0)

/-- States and operands that meet what `HeadStepsTurnedAway` asks, clause by clause. -/
theorem test_met :
    (∃ p ∈ stepRows 0 0 true x0, (s0.gate 0 0 true p.fst = Gate.refused 2 15)) ∧
    (∃ p ∈ stepRows 0 0 true x0, (s1.gate 0 0 true p.fst = Gate.stale 2 100 0 sRACKv)) ∧
    (∃ p ∈ stepRows 0 0 false x0, (s2.gate 0 0 false p.fst = Gate.stale 2 100 0 sRACKv) ∧
    (stLink sRACKv = 16777215 ∨ ((s2.ctx 0 0).queue false).ret ≠ none ∨ ((s2.ctx 0 0).queue false).back = some 2)) ∧
    (∃ p ∈ stepRows 0 0 true x0, (s1.gate 0 0 true p.fst = Gate.stale 2 100 0 sRACKv) ∧
    (¬(stLink sRACKv = 16777215 ∨ ((s1.ctx 0 0).queue true).ret ≠ none ∨ ((s1.ctx 0 0).queue true).back = some 2))) := by
  decide +kernel

end HeadStepsTurnedAway

namespace StopResumeClear

def s0 : State := b2

def s1 : State := b2.updHc 0 (fun x => { x with clearing := true})

def s2 : State := (stops 0 .stopped (b2))

def s3 : State := { ((stops 0 .stopped (b8))) with flights := [{id := 3, c := 0}]}

/-- States and operands that meet what `StopResumeClear` asks, clause by clause. -/
theorem test_met :
    s0.Canonical ∧ s1.Canonical ∧ s2.Canonical ∧ s3.Canonical ∧ (0 < 8 ∧ (s0.hc 0).clearing = false) ∧ (0 < 8 ∧ (s1.hc 0).clearing = true) ∧
    (0 < 8 ∧ (∀ (d : Nat), d < s0.nd → (s0.ctx d 0).st ≠ CtxSt.stopped ∧ (s0.ctx d 0).st ≠ CtxSt.trapped)) ∧ (0 < 8 ∧ (∃ d, d < s2.nd ∧
    ((s2.ctx d 0).st = CtxSt.stopped ∨ (s2.ctx d 0).st = CtxSt.trapped)) ∧ (∀ (f : Flight), f ∈ s2.flights → f.c ≠ 0) ∧
    s2.trapSettled 0 = true) ∧ (0 < 8 ∧ (∃ d, d < s3.nd ∧ ((s3.ctx d 0).st = CtxSt.stopped ∨ (s3.ctx d 0).st = CtxSt.trapped)) ∧
    (∃ f, f ∈ s3.flights ∧ f.c = 0)) := by
  unfold State.Canonical; decide +kernel

end StopResumeClear

namespace CountersAndTimeouts

def W (link tmo val : Nat) (fl : List Nat) : List Word := stp 1 ([10] ++ fl) [(0,24,link), (1,0,5), (1,32,val), (2,32,tmo)]

def s0 : State := b2

def s1 : State := (load 0 0 true tb 2 (W 7 10 0 []) (b2))

def s2 : State := (load 0 0 true tb 2 (W 0xFFFFFF 10 3 []) (b2))

def s3 : State := (load 0 0 true tb 2 (W 7 10 3 []) (b8))

/-- States and operands that meet what `CountersAndTimeouts` asks, clause by clause (part 1). -/
theorem test_met_1 :
    s0.Canonical ∧ s1.Canonical ∧ s2.Canonical ∧ (s0.live 1 = true ∧ 2 < 8 ∧ 5 < 256 ∧ (s0.ctx 1 2).st ≠ CtxSt.running) ∧ (s1.live 0 = true ∧
    0 < 8 ∧ 0 < 256 ∧ (s1.ctx 0 0).st = CtxSt.running) ∧ (s2.live 0 = true ∧ (s2.ctx 0 0).st = CtxSt.running ∧
    s2.head 0 0 true = some (2, W 16777215 10 3 []) ∧ stKind (W 16777215 10 3 []) = kWAIT ∧ sw (W 16777215 10 3 []) 2 32 20 ≠ 0 ∧
    s2.waitMet 0 0 (W 16777215 10 3 []) = false ∧ s2.refusals 0 0 ((s2.ctx 0 0).queue true).ret.isSome (W 16777215 10 3 []) = [] ∧
    (stLink (W 16777215 10 3 []) = 16777215 ∨ ((s2.ctx 0 0).queue true).ret ≠ none)) := by
  unfold State.Canonical; decide +kernel

/-- States and operands that meet what `CountersAndTimeouts` asks, clause by clause (part 2). -/
theorem test_met_2 :
    s3.Canonical ∧ (s3.live 0 = true ∧ (s3.ctx 0 0).st = CtxSt.running ∧ s3.head 0 0 true = some (2, W 7 10 3 []) ∧
    stKind (W 7 10 3 []) = kWAIT ∧ sw (W 7 10 3 []) 2 32 20 ≠ 0 ∧ s3.waitMet 0 0 (W 7 10 3 []) = false ∧
    s3.refusals 0 0 ((s3.ctx 0 0).queue true).ret.isSome (W 7 10 3 []) = [] ∧
    (¬(stLink (W 7 10 3 []) = 16777215 ∨ ((s3.ctx 0 0).queue true).ret ≠ none))) := by
  unfold State.Canonical; decide +kernel

end CountersAndTimeouts

namespace UnitsComplete

def rl : Line := mkLine ((List.range 128).map (fun i => BitVec.ofNat 8 (if i % 8 = 1 then 1 else if i % 8 = 0 then 200 + i else if i % 8 = 2 then i / 8 else 0))) 0 0 0

def x0 : Flight := ({ id := 0, ws := stp 0x10 [11] [(2,0,5), (7,0,6)], units := stUnits (stp 0x10 [11] [(2,0,5), (7,0,6)]), aexp := some 5, c := 0 } : Flight)

def x1 : Flight := ({ id := 7, ws := stp 0x13 [] [(4,0,9), (6,0,21)], units := stUnits (stp 0x13 [] [(4,0,9), (6,0,21)]), aexp := some 5, c := 1 } : Flight)

def s0 : State := (let f := (({ id := 0, ws := stp 0x10 [11] [(2,0,5), (7,0,6)], units := stUnits (stp 0x10 [11] [(2,0,5), (7,0,6)]), aexp := some 5, c := 0 } : Flight)); { b2 with flights := b2.flights ++ [f] })

def s1 : State := (let f := (({ id := 7, ws := stp 0x13 [] [(4,0,9), (6,0,21)], units := stUnits (stp 0x13 [] [(4,0,9), (6,0,21)]), aexp := some 5, c := 1 } : Flight)); { b8 with flights := b8.flights ++ [f] })

/-- States and operands that meet what `UnitsComplete` asks, clause by clause (part 1). -/
theorem test_met_1 :
    s0.Canonical ∧ (s0.flight x0.id = some x0 ∧ x0.d = 0 ∧ s0.live 0 = true ∧ s0.unitMayEnd x0 8 = true ∧ (s0.hc x0.c).clearing = false ∧
    (stSigEn x0.ws = true → (nbits (stSigCref x0.ws) 11 2 < 2 ∨ nbits (stSigCref x0.ws) 16 12 = s0.ownId 0) ∧
    s0.crefBad 0 (stSigCref x0.ws) false = false)) ∧ ((List.replicate 128 3).length = 128 ∧ 5 < 2 ^ 48 ∧ -128 ≤ 5 ∧ 5 ≤ 127) ∧
    (rl.bytes.length = 128 ∧ 2 < 2 ^ 48 ∧ -128 ≤ 5 ∧ 5 ≤ 127 ∧ 8 / 8 ≠ 2 % 16) := by
  unfold State.Canonical; decide +kernel

/-- States and operands that meet what `UnitsComplete` asks, clause by clause (part 2). -/
theorem test_met_2 :
    s1.Canonical ∧ (s1.flight x1.id = some x1 ∧ x1.d = 0 ∧ stKind x1.ws = kSTAT ∧ s1.live 0 = true ∧ x1.failed = false ∧ x1.aexp = some 5 ∧
    stSigEn x1.ws = false ∧ (s1.hc x1.c).clearing = false ∧ s1.served (128 * cloLine (sw x1.ws 4 0 25)) = true ∧
    s1.mustWait 2 (cloLine (sw x1.ws 4 0 25)) = false ∧ (s1.line (cloLine (sw x1.ws 4 0 25))).crcOk = true) := by
  unfold State.Canonical; decide +kernel

end UnitsComplete

namespace TableFetchFillsWindow

def s0 : State := (load 0 0 true tb 3 (stp 0 [] []) (b2))

def s1 : State := ((load 0 0 false tb 2 (stp 0 [] []) (b8))).putSide (tb/128+1) (mkSide 0 0 0 1)

/-- States and operands that meet what `TableFetchFillsWindow` asks, clause by clause. -/
theorem test_met :
    s0.Canonical ∧ s1.Canonical ∧ (s0.live 0 = true ∧ 0 < 8 ∧ (s0.ctx 0 0).st = CtxSt.running ∧ ((s0.ctx 0 0).queue true).nextFetch = some 4 ∧
    s0.served (128 * ((((s0.ctx 0 0).queue true).base + 64 * 4) / 128)) = true ∧
    s0.mustWait 0 ((((s0.ctx 0 0).queue true).base + 64 * 4) / 128) = false ∧
    sbPoison (s0.sideOf ((((s0.ctx 0 0).queue true).base + 64 * 4) / 128)) = false ∧
    (s0.line ((((s0.ctx 0 0).queue true).base + 64 * 4) / 128)).crcOk = true) ∧ (s1.live 0 = true ∧ 0 < 8 ∧ (s1.ctx 0 0).st = CtxSt.running ∧
    ((s1.ctx 0 0).queue false).nextFetch = some 3 ∧
    (s1.served (128 * ((((s1.ctx 0 0).queue false).base + 64 * 3) / 128)) = false ∨ s1.mustWait 0 ((((s1.ctx 0 0).queue false).base + 64 * 3) / 128) = false ∧
    (sbPoison (s1.sideOf ((((s1.ctx 0 0).queue false).base + 64 * 3) / 128)) = true ∨ (s1.line ((((s1.ctx 0 0).queue false).base + 64 * 3) / 128)).crcOk = false))) := by
  unfold State.Canonical; decide +kernel

end TableFetchFillsWindow

namespace TrapRecordWritten

def tr : TrapRec := { cause := 9, d := 0, idx := 3, w2 := 5, w3 := 7, tbase := 4096, operand := 2 }

def s0 : State := b8.updHc 0 (fun x => { x with trap := some tr, more := 200})

/-- States and operands that meet what `TrapRecordWritten` asks, clause by clause. -/
theorem test_met :
    s0.Canonical ∧ (s0.live 0 = true ∧ s0.halted = false ∧ (s0.hc 0).trap = some tr ∧ (s0.hc 0).trapDone = false ∧
    (∀ (f : Flight), f ∈ s0.flights → f.c ≠ 0) ∧ s0.served (128 * s0.fld 0 Blk.seq 0 (280 + 64 * 0) 7 41) = true ∧
    s0.mustWait 2 (128 * s0.fld 0 Blk.seq 0 (280 + 64 * 0) 7 41 / 128) = false) := by
  unfold State.Canonical; decide +kernel

end TrapRecordWritten

namespace ContextsShareClusters

def part (d c m : Nat) (s : State) : State := s.setFld d .seq 0 (0x108 + 0x40 * c) 0 48 m

def opt2 : List Word := stp 0x11 [] [(7,0,2)]

def img (c : Nat) (a : Nat) (s : State) : State := s.setFld 0 .seq 0 (0x120 + 0x40 * c) 7 41 (a/128)

def fillI (s : State) : State := s

def b0 : State := img 0 (cloAddr 112) (img 1 (cloAddr 100) (b8.setFld 0 .seq 0 0x100 8 12 0))

def full : State := fillI (part 0 0 15 (part 0 1 3 (res 0 1 0 (load 0 1 false tb 2 opt2 b0))))

def un : State := (List.range 8).foldl (fun t c => part 0 c (if c = 1 then 3 else 8) t) full

def s0 : State := un.setFld 0 .seq 0 0x100 8 12 5

def s1 : State := un

def s2 : State := (part 0 0 15 (un))

def s3 : State := (res 0 1 1 (un))

def s4 : State := full.updCl 0 1 (fun x => {x with preload := some 1, expired := true})

/-- States and operands that meet what `ContextsShareClusters` asks, clause by clause (part 1). -/
theorem test_met_1 :
    s0.Canonical ∧ s1.Canonical ∧ s2.Canonical ∧ s3.Canonical ∧ ((s0.cl 0 1).resident = some 0 ∧ s0.live 0 = true ∧
    s0.fld 0 Blk.seq 0 (256 + 64 * 0) 8 12 ≠ 0) ∧ ((s1.cl 0 1).resident = some 0 ∧ s1.live 0 = true ∧
    s1.fld 0 Blk.seq 0 (256 + 64 * 0) 8 12 = 0) ∧ (s2.live 0 = true ∧ 1 < 48 ∧ (s2.cl 0 1).preload = none ∧ s2.sharedCl 0 1 = true ∧
    s2.incoming 0 1 = some 1 ∧ s2.waits (List.map (fun n => (0, n)) (s2.imageLines 0 1 1)) = [] ∧ s2.imageBad 0 1 1 = none) ∧ (s3.live 0 = true ∧
    1 < 48 ∧ s3.maySwitch 0 1 = false) := by
  unfold State.Canonical; decide +kernel

/-- States and operands that meet what `ContextsShareClusters` asks, clause by clause (part 2). -/
theorem test_met_2 :
    s4.Canonical ∧ (s1.live 0 = true ∧ 1 < 48 ∧ s1.maySwitch 0 1 = true ∧ s1.sharedCl 0 1 = false ∧ (s1.cl 0 1).preload = none ∧
    s1.incoming 0 1 = some 1) ∧ (s4.live 0 = true ∧ 1 < 48 ∧ s4.maySwitch 0 1 = true ∧ s4.sharedCl 0 1 = true ∧ (s4.cl 0 1).preload = some 1 ∧
    s4.wants 0 1 1 = true ∧ (((s4.cl 0 1).resident).any (fun o => decide ((∀ (n : Nat), n ∈ s4.imageLines 0 o 1 → s4.isCel (128 * n) = true ∧
    s4.served (128 * n) = true) ∧ (s4.waits (List.map (fun n => (1, n)) (s4.imageLines 0 o 1)) = []))) = true)) := by
  unfold State.Canonical; decide +kernel

end ContextsShareClusters

namespace DoorbellMovesProd

def s0 : State := b2

def s1 : State := b2.setFld 0 .seq 0 0x618 0 32 5

/-- States and operands that meet what `DoorbellMovesProd` asks, clause by clause. -/
theorem test_met :
    s0.Canonical ∧ s1.Canonical ∧ (s0.live 0 = true ∧ 0 < 8 ∧
    (((0#32).toNat + 2 ^ 32 - s0.prod 0) % 2 ^ 32 ≤ 2 ^ s0.fld 0 Blk.seq 0 (1536 + 64 * 0) 0 5 ∧
    ((0#32).toNat + 2 ^ 32 - s0.cons 0) % 2 ^ 32 ≤ 2 ^ s0.fld 0 Blk.seq 0 (1536 + 64 * 0) 0 5)) ∧ (s0.live 0 = true ∧ 0 < 8 ∧
    (¬(((4294967294#32).toNat + 2 ^ 32 - s0.prod 0) % 2 ^ 32 ≤ 2 ^ s0.fld 0 Blk.seq 0 (1536 + 64 * 0) 0 5 ∧
    ((4294967294#32).toNat + 2 ^ 32 - s0.cons 0) % 2 ^ 32 ≤ 2 ^ s0.fld 0 Blk.seq 0 (1536 + 64 * 0) 0 5))) ∧ (s0.live 0 = true ∧ 0 < 8 ∧
    s0.allIdle 0 = true ∧ s0.prod 0 = s0.cons 0) ∧ (s1.live 0 = true ∧ 0 < 8 ∧ (s1.allIdle 0 = false ∨ s1.prod 0 ≠ s1.cons 0)) := by
  unfold State.Canonical; decide +kernel

end DoorbellMovesProd

namespace DescriptorStarts

def hA : Nat := hostBase

def DD (rep dir n clr : Nat) : List Word := stp 7 [32] [(1,0,dir),(2,0,rep),(2,48,n),(3,0,3),(3,8,clr)]

def dirA : Nat := 2^20*32

def dln (f : Nat → Nat) : Line := mkLine ((List.range 16).flatMap (fun i => leBytes 8 (f i))) 0 0 0

def s0 : State := (((up b8).setFld 0 .agl 0 0x28 40 6 40).setFld 0 .seq 0 0x618 0 32 5).setFld 0 .seq 0 0x600 12 36 (hA/4096)

def s1 : State := b2.setFld 0 .seq 0 0x618 0 32 5

def s2 : State := (ph .descRead (b2))

def s3 : State := (ph .dirWait (b8))

def s4 : State := (((ph .dirWait ((up b8).setFld 0 .agl 0 0x28 40 6 40))).putLine (dirA/128) (dln (fun i => tb + i))).updHc 0 (fun x => { x with dir := dirA, clrBase := 3, clrCount := 5})

def s5 : State := (ph .dirWait ((let s : State := b8; s.updHc 0 (fun x => {x with dir := 2^43}))))

/-- States and operands that meet what `DescriptorStarts` asks, clause by clause (part 1). -/
theorem test_met_1 :
    s0.Canonical ∧ s1.Canonical ∧ s2.Canonical ∧ (s0.live 0 = true ∧ 0 < 8 ∧ s0.allIdle 0 = true ∧ (s0.hc 0).phase = HPhase.none ∧
    s0.prod 0 ≠ s0.cons 0 ∧ s0.inWindow (s0.portDie 0) (s0.workSlot 0 (s0.cons 0) / 128 * 128) = true ∧ s0.lkState (s0.portDie 0) ≠ lkDown) ∧
    (s1.live 0 = true ∧ 0 < 8 ∧ s1.allIdle 0 = true ∧ (s1.hc 0).phase = HPhase.none ∧ s1.prod 0 ≠ s1.cons 0 ∧
    (s1.inWindow (s1.portDie 0) (s1.workSlot 0 (s1.cons 0) / 128 * 128) = false ∨ s1.lkState (s1.portDie 0) = lkDown)) ∧ (s2.live 0 = true ∧
    0 < 8 ∧ (DD hA dirA 2 5).length = 8 ∧ (s2.hc 0).phase = HPhase.descRead ∧ s2.descReasons (DD hA dirA 2 5) = []) := by
  unfold State.Canonical; decide +kernel

/-- States and operands that meet what `DescriptorStarts` asks, clause by clause (part 2). -/
theorem test_met_2 :
    s3.Canonical ∧ (s2.live 0 = true ∧ 0 < 8 ∧ (DD 0 (2 ^ 43) 0 5).length = 8 ∧ (s2.hc 0).phase = HPhase.descRead ∧
    (∃ r ∈ s2.descReasons (DD 0 (2 ^ 43) 0 5), (∀ (x : Nat), x ∈ s2.descReasons (DD 0 (2 ^ 43) 0 5) → r ≤ x))) ∧ (s3.live 0 = true ∧ 0 < 8 ∧
    (s3.hc 0).phase = HPhase.dirWait ∧ s3.allIdle 0 = true ∧ s3.served (s3.hc 0).dir = true ∧ s3.mustWait 0 ((s3.hc 0).dir / 128) = false ∧
    sbPoison (s3.line ((s3.hc 0).dir / 128)).sb = false ∧ (s3.line ((s3.hc 0).dir / 128)).crcOk = true ∧
    s3.dirReasons (s3.line ((s3.hc 0).dir / 128)).bytes = []) := by
  unfold State.Canonical; decide +kernel

/-- States and operands that meet what `DescriptorStarts` asks, clause by clause (part 3). -/
theorem test_met_3 :
    s4.Canonical ∧ s5.Canonical ∧ (s4.live 0 = true ∧ 0 < 8 ∧ (s4.hc 0).phase = HPhase.dirWait ∧ s4.allIdle 0 = true ∧
    s4.served (s4.hc 0).dir = true ∧ s4.mustWait 0 ((s4.hc 0).dir / 128) = false ∧ sbPoison (s4.line ((s4.hc 0).dir / 128)).sb = false ∧
    (s4.line ((s4.hc 0).dir / 128)).crcOk = true ∧
    (∃ r ∈ s4.dirReasons (s4.line ((s4.hc 0).dir / 128)).bytes, (∀ (x : Nat), x ∈ s4.dirReasons (s4.line ((s4.hc 0).dir / 128)).bytes → r ≤ x))) ∧
    (s5.live 0 = true ∧ 0 < 8 ∧ (s5.hc 0).phase = HPhase.dirWait ∧ s5.allIdle 0 = true ∧ s5.mustWait 0 ((s5.hc 0).dir / 128) = false ∧
    (s5.served (s5.hc 0).dir = false ∨ sbPoison (s5.line ((s5.hc 0).dir / 128)).sb = true ∨ (s5.line ((s5.hc 0).dir / 128)).crcOk = false)) := by
  unfold State.Canonical; decide +kernel

end DescriptorStarts

namespace DescriptorEnds

def s0 : State := (stops 0 .running ((ph .running (b8))))

def s1 : State := (ph .ended (b8))

def s2 : State := (ph .report (b8))

def s3 : State := (ph .entry ((up b8).setFld 0 .agl 0 0x28 40 6 40))

def s4 : State := (ph .cons ((up b8).setFld 0 .agl 0 0x28 40 6 40))

/-- States and operands that meet what `DescriptorEnds` asks, clause by clause (part 1). -/
theorem test_met_1 :
    s0.Canonical ∧ s1.Canonical ∧ s2.Canonical ∧ s3.Canonical ∧ (s0.live 0 = true ∧ 0 < 8 ∧ (s0.hc 0).phase = HPhase.running ∧
    (s0.hc 0).trap = none ∧ s0.descDone 0 = true) ∧ (s1.live 0 = true ∧ 0 < 8 ∧ (s1.hc 0).phase = HPhase.ended) ∧ (s2.live 0 = true ∧ 0 < 8 ∧
    (s2.hc 0).phase = HPhase.report ∧ (s2.hc 0).acks = 0) ∧ (s3.live 0 = true ∧ 0 < 8 ∧ (s3.hc 0).phase = HPhase.entry ∧ (s3.hc 0).acks = 0) := by
  unfold State.Canonical; decide +kernel

/-- States and operands that meet what `DescriptorEnds` asks, clause by clause (part 2). -/
theorem test_met_2 :
    s4.Canonical ∧ (s4.live 0 = true ∧ 0 < 8 ∧ (s4.hc 0).phase = HPhase.cons ∧ (s4.hc 0).acks = 0 ∧ (s4.hc 0).clearing = false) := by
  unfold State.Canonical; decide +kernel

end DescriptorEnds

namespace CellarLines

def s0 : State := b2

def s1 : State := b8

def s2 : State := b2.updLink 0 (fun k => { k with filter := [(A/128, true), (B/128,false)]})

def s3 : State := b8.updLink 0 (fun k => { k with filter := [(A/128, true), (B/128,false)]})

/-- States and operands that meet what `CellarLines` asks, clause by clause (part 1). -/
theorem test_met_1 :
    s0.Canonical ∧ s1.Canonical ∧ s2.Canonical ∧ s3.Canonical ∧ s0.served 8796093022208 = false ∧ (s1.served 1099511636736 = true ∧
    s1.mustWait 0 (1099511636736 / 128) = false ∧ inCelWindow 1099511636736 = true) ∧ (s1.served 3 = true ∧ s1.mustWait 0 (3 / 128) = false ∧
    inCelWindow 3 = false) ∧ (s0.served 0 = true ∧ s0.mustWait 0 (0 / 128) = false ∧ 0 ≤ 16) ∧ (s1.served 3 = true ∧
    s1.mustWait 0 (3 / 128) = false ∧ 0 ≤ 16) ∧ (s2.served 12800 = true ∧ s2.mustWait 0 (12800 / 128) = true) ∧ (s0.served 3 = true ∧
    s0.mustWait 1 (3 / 128) = false) ∧ (s3.served 12805 = true ∧ s3.mustWait 1 (12805 / 128) = true) := by
  unfold State.Canonical; decide +kernel

/-- States and operands that meet what `CellarLines` asks, clause by clause (part 2). -/
theorem test_met_2 :
    (s1.served 0 = true ∧ s1.mustWait 2 (0 / 128) = false ∧ (sbPoison 0#64 = true ∨ (crc32c (padTo 128 [])).toNat = 136799451)) ∧
    (s0.served 0 = true ∧ s0.mustWait 2 (0 / 128) = false ∧ (crc32c (padTo 128 [])).toNat = 136799451) ∧ (s0.served 3 = true ∧
    s0.mustWait 2 (3 / 128) = false ∧ sbPoison 0#64 = false ∧ (crc32c (padTo 128 [])).toNat ≠ 0) ∧ (s1.served 1099511636736 = true ∧
    inCelWindow 1099511636736 = true ∧ s1.fld (homeDie 1099511636736) Blk.cel 0 32 8 8 ≠ 0 ∧ (s1.cel (homeDie 1099511636736)).retained = false ∧
    0 ≤ 16) := by
  decide +kernel

end CellarLines

namespace CellarCommands

def s0 : State := b2

def s1 : State := (mk1 0 .cel 0 0x20 3 (b8))

def s2 : State := (mk1 0 .cel 0 0x28 5 (b8))

def s3 : State := b8.updCel 0 (fun x => { x with flush := some true})

def s4 : State := b8.updCtx 0 0 (fun x => { x with st := .running})

def s5 : State := b2.updCel 0 (fun x => { x with flush := some true})

def s6 : State := b8.updCel 0 (fun x => { x with spare := some (9,0)})

/-- States and operands that meet what `CellarCommands` asks, clause by clause (part 1). -/
theorem test_met_1 :
    s0.Canonical ∧ s1.Canonical ∧ s2.Canonical ∧ s3.Canonical ∧ s4.Canonical ∧ (s0.live 0 = true ∧
    (¬swapMark 0 Blk.cel 0 ∈ (s0.die 0).swapReq ∨ s0.quiescent 0 Blk.cel 0 = false)) ∧ (s1.live 0 = true ∧
    swapMark 0 Blk.cel 0 ∈ (s1.die 0).swapReq ∧ s1.quiescent 0 Blk.cel 0 = true ∧ s1.unswappable 0 Blk.cel 0 = true) ∧ (s2.live 0 = true ∧
    swapMark 0 Blk.cel 0 ∈ (s2.die 0).swapReq ∧ s2.quiescent 0 Blk.cel 0 = true ∧ s2.unswappable 0 Blk.cel 0 = false) ∧ (s3.live 0 = true ∧
    s3.celBusy 0 = true) ∧ (s0.live 0 = true ∧ s0.celBusy 0 = false ∧ s0.quiescent 0 Blk.cel 0 = true) ∧ (s4.live 0 = true ∧
    s4.celBusy 0 = false ∧ s4.quiescent 0 Blk.cel 0 = false) := by
  unfold State.Canonical; decide +kernel

/-- States and operands that meet what `CellarCommands` asks, clause by clause (part 2). -/
theorem test_met_2 :
    s5.Canonical ∧ s6.Canonical ∧ (s0.live 0 = true ∧ s0.celBusy 0 = false ∧ 5 < 1024 ∧ 5 < 32 ∧ s0.fld 0 Blk.cel 0 (256 + 8 * 5) 0 1 = 0 ∧
    (∀ (j : Nat), j < 32 → s0.fld 0 Blk.cel 0 (256 + 8 * j) 0 1 = 1 → s0.fld 0 Blk.cel 0 (256 + 8 * j) 1 10 ≠ 5)) ∧ (s5.live 0 = true ∧
    (s5.cel 0).flush ≠ none ∧ (s5.cel 0).purgeWait = false) ∧ (s6.live 0 = true ∧ (s6.cel 0).spare = some (9, 0) ∧ 0 < 32 ∧
    s6.quiescent 0 Blk.cel 0 = true) := by
  unfold State.Canonical; decide +kernel

end CellarCommands

namespace HbmLinesAndRefresh

def opn (s : State) : State := s.allDies.foldl (fun t d => (t.setFld d .hbm 0 0 24 1 1).setFld d .hbm 1 0 24 1 1) s

def s0 : State := b8

def s1 : State := (opn (b2))

def s2 : State := ((opn (b2))).putSide (A/128) 7

def s3 : State := (opn (b8))

/-- States and operands that meet what `HbmLinesAndRefresh` asks, clause by clause. -/
theorem test_met :
    s0.Canonical ∧ s1.Canonical ∧ s2.Canonical ∧ s3.Canonical ∧ s0.stackOpen 1 = false ∧ (s1.stackOpen 0 = true ∧
    (sbPoison (s1.sideOf (0 / 128)) = true ∨ (s1.line (0 / 128)).crcOk = true)) ∧ (s2.stackOpen 12805 = true ∧
    sbPoison (s2.sideOf (12805 / 128)) = false ∧ (s2.line (12805 / 128)).crcOk = false) ∧ s3.stackOpen 0 = true ∧ (s1.live 0 = true ∧ 0 < 2 ∧
    3 < 64 ∧ bitOf (s1.rg 0 Blk.hbm 0 0) 24 = true ∧ bitOf (s1.rg 0 Blk.hbm 0 0) 26 = false) ∧ (s0.live 0 = true ∧ 0 < 2) ∧ (s0.live 0 = true ∧
    1 < 2) := by
  unfold State.Canonical; decide +kernel

end HbmLinesAndRefresh

namespace HbmCommands

def mnt (s : State) : State := s.setFld 0 .hbm 0 0 25 1 1

def cmd (c : Option HbmCmd) : State → State := fun s => s.updHbm 0 0 (fun h => {h with cmd := c})

def lod (r : FlashRec) : State → State := fun s => {s with modc := {s.modc with loaded := [r]}}

def ok : FlashRec := { typ := 0x22, die := 0, hdrOk := true, hashOk := true, sigOk := true }

def s0 : State := cmd (some (.retire 1 5 3)) b8

def s1 : State := (cmd (some (.mbist 1)) (cmd (some (.retire 1 5 3)) b8))

def s2 : State := (cmd (some .shift) (cmd (some (.retire 1 5 3)) b8))

def s3 : State := (lod ok (cmd (some (.retire 1 5 3)) b8))

def s4 : State := b8.updHbm 0 0 (fun h => {h with bad := List.range 256})

def s5 : State := mnt b8

/-- States and operands that meet what `HbmCommands` asks, clause by clause (part 1). -/
theorem test_met_1 :
    s0.Canonical ∧ s1.Canonical ∧ (s0.live 0 = true ∧ 0 < 2 ∧ (s0.hbm 0 0).cmd ≠ none) ∧ (s0.live 1 = true ∧ 1 < 2 ∧ (s0.hbm 1 1).cmd = none ∧
    0 < 64 ∧ 1 ≤ 15103 ∧ 0 < 256 ∧ (s0.hbm 1 1).poolFree 0 0 = true ∧ (∀ (m : Nat), m < 0 → (s0.hbm 1 1).poolFree 0 m = false)) ∧
    (s0.live 0 = true ∧ 0 < 2 ∧ (s0.hbm 0 0).cmd = some (HbmCmd.retire 1 5 3)) ∧ (s0.live 1 = true ∧ 1 < 2 ∧ s0.maint 1 1 = false) ∧
    (s1.live 0 = true ∧ 0 < 2 ∧ (s1.hbm 0 0).cmd = some (HbmCmd.mbist 1)) := by
  unfold State.Canonical; decide +kernel

/-- States and operands that meet what `HbmCommands` asks, clause by clause (part 2). -/
theorem test_met_2 :
    s2.Canonical ∧ s3.Canonical ∧ (s2.live 0 = true ∧ 0 < 2 ∧ (s2.hbm 0 0).cmd = some HbmCmd.shift) ∧ (s3.live 0 = true ∧ 0 < 2 ∧
    bitOf (s3.rg 0 Blk.hbm 0 0) 24 = false ∧ 0 < 2 ∧ (∃ r, r ∈ s3.modc.loaded ∧ r.typ = 34 ∧ r.die = 0 ∧ r.hdrOk = true ∧ r.hashOk = true ∧
    r.sigOk = true)) ∧ (s0.live 1 = true ∧ 1 < 2 ∧ bitOf (s0.rg 1 Blk.hbm 1 0) 24 = false ∧
    (2 ≤ 5 ∨ ∀ (r : FlashRec), r ∈ s0.modc.loaded → ¬(r.typ = 34 ∧ r.die = 1 ∧ r.hdrOk = true ∧ r.hashOk = true ∧ r.sigOk = true))) := by
  unfold State.Canonical; decide +kernel

/-- States and operands that meet what `HbmCommands` asks, clause by clause (part 3). -/
theorem test_met_3 :
    s4.Canonical ∧ s5.Canonical ∧ (s4.live 0 = true ∧ 0 < 2 ∧ (s4.hbm 0 0).cmd = none ∧ 0 < 64 ∧ 15103 ≤ 15103 ∧
    (∀ (n : Nat), n < 256 → (s4.hbm 0 0).poolFree 0 n = false)) ∧ (s5.live 0 = true ∧ 0 < 2 ∧ s5.maint 0 0 = true ∧ (s5.hbm 0 0).cmd = none ∧
    2 ≤ 2) ∧ (s5.live 0 = true ∧ 0 < 2 ∧ s5.maint 0 0 = true ∧ (s5.hbm 0 0).cmd = none ∧ 65535 < 65536 ∧ 1 ≤ 2048 ∧ 2048 ≤ 2048) := by
  unfold State.Canonical; decide +kernel

end HbmCommands

namespace FabricRequestsAtHome

def x0 : FRec := { op := opRead, srcMod := 3, tag := 5, die := 1, addr := A, pay := [] }

def x1 : FRec := { op := opRead, srcMod := 3, tag := 5, die := 1, addr := U, pay := [] }

def x2 : FRec := { op := opMcast, srcMod := 3, tag := 5, die := 1, addr := U, pay := padTo 136 [1] ++ leBytes 16 7 }

def x3 : FRec := { op := opWrite, srcMod := 3, tag := 5, die := 1, addr := A, pay := pl [1,2,3] 4 0 ++ leBytes 16 (2^128-1) }

def x4 : FRec := { op := opWrite, srcMod := 3, tag := 5, die := 1, addr := A, pay := pl [1,2,3] 4 0 ++ leBytes 16 0xF0F }

def x5 : FRec := { op := opMcast, srcMod := 3, tag := 5, die := 1, addr := A, pay := padTo 136 [1] ++ leBytes 16 7 }

def x6 : FRec := { op := opAtomic, srcMod := 3, tag := 5, die := 1, addr := U, pay := leBytes 8 3 ++ leBytes 8 9 }

def x7 : FRec := { op := opAtomic, srcMod := 3, tag := 5, die := 1, addr := A, pay := leBytes 8 3 ++ leBytes 8 9 }

def x8 : FRec := { op := opAtomic, akind := 1, word := 1, srcMod := 3, tag := 5, die := 1, addr := A, pay := leBytes 8 3 ++ leBytes 8 9 }

def x9 : FRec := { op := opSignal, srcMod := 3, tag := 5, die := 1, addr := 1 + 2^32 * 7 }

def x10 : FRec := { op := opSignal, srcMod := 3, tag := 5, die := 1, addr := 0x700 + 2^28*3 + 2^32 * 7 }

def s0 : State := acc b2

def s1 : State := acc b8

def s2 : State := (acc b8).putLine (A/128) (mkLine (leBytes 8 3) 3 4 1)

/-- States and operands that meet what `FabricRequestsAtHome` asks, clause by clause (part 1). -/
theorem test_met_1 :
    s0.Canonical ∧ s1.Canonical ∧ (x0.op = opRead ∧ s0.served (gaLocal x0.addr / 128 * 128) = true) ∧ (x1.op = opRead ∧
    s1.served (gaLocal x1.addr / 128 * 128) = false) ∧ ((x2.op = opWrite ∨ x2.op = opMcast) ∧ s1.served (gaLocal x2.addr / 128 * 128) = false) ∧
    ((x3.op = opWrite ∨ x3.op = opMcast) ∧ s1.served (gaLocal x3.addr / 128 * 128) = true ∧ leAt x3.pay 136 16 = 2 ^ 128 - 1 ∧
    ctrlClass (s1.homeClass 1 x3) = false) ∧ ((x4.op = opWrite ∨ x4.op = opMcast) ∧ s1.served (gaLocal x4.addr / 128 * 128) = true ∧
    (¬(leAt x4.pay 136 16 = 2 ^ 128 - 1 ∧ ctrlClass (s1.homeClass 0 x4) = false)) ∧
    (sbPoison (payLine (List.take 136 x4.pay) 1 0).sb = true ∨ (payLine (List.take 136 x4.pay) 1 0).crcOk = true)) := by
  unfold State.Canonical; decide +kernel

/-- States and operands that meet what `FabricRequestsAtHome` asks, clause by clause (part 2). -/
theorem test_met_2 :
    s2.Canonical ∧ ((x5.op = opWrite ∨ x5.op = opMcast) ∧ s1.served (gaLocal x5.addr / 128 * 128) = true ∧ (¬(leAt x5.pay 136 16 = 2 ^ 128 - 1 ∧
    ctrlClass (s1.homeClass 0 x5) = false)) ∧ sbPoison (payLine (List.take 136 x5.pay) 1 0).sb = false ∧
    (payLine (List.take 136 x5.pay) 1 0).crcOk = false) ∧ (x6.op = opAtomic ∧ s1.served (gaLocal x6.addr / 128 * 128) = false) ∧
    (x7.op = opAtomic ∧ s2.served (gaLocal x7.addr / 128 * 128) = true ∧ sbPoison (s2.sideOf (gaLocal x7.addr / 128)) = true) ∧
    (x8.op = opAtomic ∧ s1.served (gaLocal x8.addr / 128 * 128) = true ∧ sbPoison (s1.sideOf (gaLocal x8.addr / 128)) = false ∧
    (s1.line (gaLocal x8.addr / 128)).crcOk = true ∧ x8.word < 16) ∧ (x9.op = opSignal ∧ s0.live (nbits (x9.addr % 2 ^ 32) 8 3) = true) ∧
    (x10.op = opSignal ∧ s0.live (nbits (x10.addr % 2 ^ 32) 8 3) = false) := by
  unfold State.Canonical; decide +kernel

/-- What `FabricRequestsAtHome` asks of the queues of these states. -/
theorem test_ready :
    s0.HomeReady 0 x0 ∧ s1.HomeReady 0 x1 ∧ s1.HomeReady 0 x2 ∧ s1.HomeReady 1 x3 ∧ s1.HomeReady 0 x4 ∧
    s1.HomeReady 0 x5 ∧ s1.HomeReady 0 x6 ∧ s2.HomeReady 1 x7 ∧ s1.HomeReady 1 x8 ∧ s0.HomeReady 0 x9 ∧
    s0.HomeReady 0 x10 :=
  ⟨homeReady_of (by decide +kernel), homeReady_of (by decide +kernel), homeReady_of (by decide +kernel), homeReady_of (by decide +kernel),
   homeReady_of (by decide +kernel), homeReady_of (by decide +kernel), homeReady_of (by decide +kernel), homeReady_of (by decide +kernel),
   homeReady_of (by decide +kernel), homeReady_of (by decide +kernel), homeReady_of (by decide +kernel)⟩

end FabricRequestsAtHome

namespace RedstoreAddsLines

def x0 : FRec := { op := opRedstore, srcMod := 3, tag := 5, die := 1, stat := 4, addr := U, pay := padTo 136 [1,2] }

def x1 : FRec := { op := opRedstore, srcMod := 3, tag := 5, die := 1, stat := 4, addr := B, pay := padTo 136 [1,2] }

def x2 : FRec := { op := opRedstore, srcMod := 3, tag := 5, die := 1, stat := 4, addr := B, pay := pl [1,2,3] 3 0 }

def x3 : FRec := { op := opRedstore, srcMod := 3, tag := 5, die := 1, stat := 4, addr := A, pay := pl [1,2,3] 4 0 }

def s0 : State := acc b8

def s1 : State := acc b2

def s2 : State := (acc b2).putLine (A/128) (mkLine (leBytes 8 3) 3 4 1)

/-- States and operands that meet what `RedstoreAddsLines` asks, clause by clause. -/
theorem test_met :
    s0.Canonical ∧ s1.Canonical ∧ s2.Canonical ∧ (x0.op = opRedstore ∧ x0.stat = fINT32 ∧ s0.served (128 * (gaLocal x0.addr / 128)) = false) ∧
    (x1.op = opRedstore ∧ x1.stat = fINT32 ∧ s1.served (128 * (gaLocal x1.addr / 128)) = true ∧ sbPoison (payLine x1.pay 1 0).sb = false ∧
    (payLine x1.pay 1 0).crcOk = false) ∧ (x2.op = opRedstore ∧ x2.stat = fINT32 ∧ s1.served (128 * (gaLocal x2.addr / 128)) = true ∧
    (sbPoison (payLine x2.pay 1 0).sb = true ∨ (payLine x2.pay 1 0).crcOk = true) ∧ sbFmt (payLine x2.pay 1 0).sb ≠ fINT32) ∧
    (x3.op = opRedstore ∧ x3.stat = fINT32 ∧ s2.served (128 * (gaLocal x3.addr / 128)) = true ∧
    (sbPoison (payLine x3.pay 1 0).sb = true ∨ (payLine x3.pay 1 0).crcOk = true) ∧ sbFmt (payLine x3.pay 1 0).sb = fINT32 ∧
    sbFmt (s2.sideOf (gaLocal x3.addr / 128)) = fINT32) := by
  unfold State.Canonical; decide +kernel

/-- What `RedstoreAddsLines` asks of the queues of these states. -/
theorem test_ready :
    s0.HomeReady 1 x0 ∧ s1.HomeReady 1 x1 ∧ s1.HomeReady 0 x2 ∧ s2.HomeReady 0 x3 :=
  ⟨homeReady_of (by decide +kernel), homeReady_of (by decide +kernel), homeReady_of (by decide +kernel), homeReady_of (by decide +kernel)⟩

end RedstoreAddsLines

namespace FabricRequestsTurnedAway

def okI (r : FRec) : Instr := if r.op = opRead then .read 0 r else if r.op = opRedstore then .redstore 0 r false else if r.op = opAtomic then .atomic 0 r {} false else if r.op = opSignal then .signal 0 r false else .write 0 r

def wReq : FRec := { op := opWrite, srcMod := 3, tag := 5, die := 1, addr := A, pay := pl [1,2,3] 4 0 ++ leBytes 16 (2^128-1) }

def atReq : FRec := {wReq with op := opAtomic}

def wIns : Instr := .write 0 wReq

def aIns : Instr := .atomic 0 atReq {} false

def x0 : FRec := (let r := ({ op := opSignal, srcMod := 3, tag := 5, die := 1, addr := 0x1103 + 2^28 + 2^32 * 7 } : FRec); { r with seq := 5})

def x2 : Env := {}

def x1 : Instr := okI ((let r := ({ op := opSignal, srcMod := 3, tag := 5, die := 1, addr := 0x1103 + 2^28 + 2^32 * 7 } : FRec); { r with seq := 5}))

def x3 : FRec := { op := opRead, srcMod := 3, tag := 5, die := 1, addr := A, pay := [] }

def x4 : Instr := okI ({ op := opRead, srcMod := 3, tag := 5, die := 1, addr := A, pay := [] } : FRec)

def x5 : FRec := { op := opSignal, srcMod := 3, tag := 5, die := 1, addr := 1 + 2^32 * 7 }

def x6 : Instr := okI ({ op := opSignal, srcMod := 3, tag := 5, die := 1, addr := 1 + 2^32 * 7 } : FRec)

def s0 : State := acc b2

def s1 : State := (acc b2).updLink 0 (fun k => { k with filter := [(A/128, true), (B/128,true)]})

def s2 : State := acc b8

def s3 : State := ex (.write 0 wReq) (acc b8)

def s5 : State := acc b8

def s4 : State := b8

/-- States and operands that meet what `FabricRequestsTurnedAway` asks, clause by clause (part 1). -/
theorem test_met_1 :
    s0.Canonical ∧ (s0.forHome 0 x0 = true ∧ (x1 = Instr.read 0 x0 ∧ x0.op = opRead ∨ x1 = Instr.write 0 x0 ∧
    (x0.op = opWrite ∨ x0.op = opMcast) ∨ x1 = Instr.redstore 0 x0 false ∧ x0.op = opRedstore ∨ x1 = Instr.atomic 0 x0 x2 false ∧
    x0.op = opAtomic ∨ x1 = Instr.signal 0 x0 false ∧ x0.op = opSignal) ∧ s0.applied? (s0.homeClass 0 x0) x0 = none ∧
    s0.outOfOrder (s0.homeClass 0 x0) x0 = true) := by
  unfold State.Canonical; decide +kernel

/-- States and operands that meet what `FabricRequestsTurnedAway` asks, clause by clause (part 2). -/
theorem test_met_2 :
    s1.Canonical ∧ s2.Canonical ∧ (s1.forHome 0 x3 = true ∧ (x4 = Instr.read 0 x3 ∧ x3.op = opRead ∨ x4 = Instr.write 0 x3 ∧
    (x3.op = opWrite ∨ x3.op = opMcast) ∨ x4 = Instr.redstore 0 x3 false ∧ x3.op = opRedstore ∨ x4 = Instr.atomic 0 x3 x2 false ∧
    x3.op = opAtomic ∨ x4 = Instr.signal 0 x3 false ∧ x3.op = opSignal) ∧ s1.applied? (s1.homeClass 0 x3) x3 = none ∧
    s1.outOfOrder (s1.homeClass 0 x3) x3 = false ∧ bitOf (s1.rg 0 Blk.fab 0 32) 7 = true ∧ s1.waits (FRec.access x3) ≠ []) ∧
    (s2.forHome 0 x5 = true ∧ (x6 = Instr.read 0 x5 ∧ x5.op = opRead ∨ x6 = Instr.write 0 x5 ∧
    (x5.op = opWrite ∨ x5.op = opMcast) ∨ x6 = Instr.redstore 0 x5 false ∧ x5.op = opRedstore ∨ x6 = Instr.atomic 0 x5 x2 false ∧
    x5.op = opAtomic ∨ x6 = Instr.signal 0 x5 false ∧ x5.op = opSignal) ∧ x5.op = opSignal) := by
  unfold State.Canonical; decide +kernel

/-- States and operands that meet what `FabricRequestsTurnedAway` asks, clause by clause (part 3). -/
theorem test_met_3 :
    s3.Canonical ∧ s4.Canonical ∧ (s3.forHome 0 wReq = true ∧ (wIns = Instr.read 0 wReq ∧ wReq.op = opRead ∨ wIns = Instr.write 0 wReq ∧
    (wReq.op = opWrite ∨ wReq.op = opMcast) ∨ wIns = Instr.redstore 0 wReq false ∧ wReq.op = opRedstore ∨ wIns = Instr.atomic 0 wReq { } false ∧
    wReq.op = opAtomic ∨ wIns = Instr.signal 0 wReq false ∧ wReq.op = opSignal) ∧ s3.applied? (s3.homeClass 0 wReq) wReq ≠ none) ∧
    (s4.forHome 0 wReq = true ∧ (wIns = Instr.read 0 wReq ∧ wReq.op = opRead ∨ wIns = Instr.write 0 wReq ∧
    (wReq.op = opWrite ∨ wReq.op = opMcast) ∨ wIns = Instr.redstore 0 wReq false ∧ wReq.op = opRedstore ∨ wIns = Instr.atomic 0 wReq { } false ∧
    wReq.op = opAtomic ∨ wIns = Instr.signal 0 wReq false ∧ wReq.op = opSignal) ∧ s4.applied? (s4.homeClass 0 wReq) wReq = none ∧
    s4.outOfOrder (s4.homeClass 0 wReq) wReq = false ∧ bitOf (s4.rg 0 Blk.fab 0 32) 7 = false) := by
  unfold State.Canonical; decide +kernel

/-- States and operands that meet what `FabricRequestsTurnedAway` asks, clause by clause (part 4). -/
theorem test_met_4 :
    s5.Canonical ∧ (s5.forHome 0 atReq = true ∧ (aIns = Instr.read 0 atReq ∧ atReq.op = opRead ∨ aIns = Instr.write 0 atReq ∧
    (atReq.op = opWrite ∨ atReq.op = opMcast) ∨ aIns = Instr.redstore 0 atReq false ∧
    atReq.op = opRedstore ∨ aIns = Instr.atomic 0 atReq { } false ∧ atReq.op = opAtomic ∨ aIns = Instr.signal 0 atReq false ∧
    atReq.op = opSignal) ∧ atReq.op = opAtomic ∧ s5.homeOf 0 atReq < s5.nd) := by
  unfold State.Canonical; decide +kernel

/-- What `FabricRequestsTurnedAway` asks of the queues of these states. -/
theorem test_ready :
    (∀ (e : Nat), smGet [] (s4.router e).merged (memberKey wReq) = []) :=
    noneMerged_of (by decide +kernel)

end FabricRequestsTurnedAway

namespace FabricResponses

def fl7 : Flight := { id := 7, d := 0, c := 0, units := [0], ws := List.replicate 8 0 }

def s0 : State := b8

def s1 : State := setT [(1,e1)] b8

def s2 : State := run 2 (setT [(1,e1)] b8)

def s3 : State := {setT [(1,e2)] b8 with flights := [fl7]}

/-- States and operands that meet what `FabricResponses` asks, clause by clause (part 1). -/
theorem test_met_1 :
    s0.Canonical ∧ s1.Canonical ∧ s2.Canonical ∧ (s0.live 5 = true ∧ (∀ (e : Nat × TagEnt), e ∈ (s0.router 5).tags → e.fst ≠ 3)) ∧
    (s1.live 0 = true ∧ List.find? (fun e => decide (e.fst = 1)) (s1.router 0).tags = some (1, e1) ∧ (s1.router 0).waitq = [] ∧
    (∀ (x : Nat × FRec), x ∈ (s1.router 0).inq → x.snd.kind ≠ 1) ∧ e1.own = Owner.sig 5 false 3 4096 ∧ 0 = 0) ∧ (s2.live 0 = true ∧
    List.find? (fun e => decide (e.fst = 1)) (s2.router 0).tags = some (1, e1) ∧ (s2.router 0).waitq = [] ∧
    (∀ (x : Nat × FRec), x ∈ (s2.router 0).inq → x.snd.kind ≠ 1) ∧ e1.own = Owner.sig 5 false 3 4096 ∧ 7 ≠ 0 ∧
    (s2.ctx 0 e1.r.ctx).st = CtxSt.running) := by
  unfold State.Canonical; decide +kernel

/-- States and operands that meet what `FabricResponses` asks, clause by clause (part 2). -/
theorem test_met_2 :
    s3.Canonical ∧ (s3.live 0 = true ∧ List.find? (fun e => decide (e.fst = 1)) (s3.router 0).tags = some (1, e2) ∧ (s3.router 0).waitq = [] ∧
    (∀ (x : Nat × FRec), x ∈ (s3.router 0).inq → x.snd.kind ≠ 1) ∧ e2.own = Owner.eng 7 2 (LineAct.line A) ∧ s3.flight 7 = some fl7 ∧
    fl7.failed = false ∧ fl7.todo = [] ∧ s3.served A = true ∧ s3.mustWait 1 (A / 128) = false ∧ 0 = 0) := by
  unfold State.Canonical; decide +kernel

end FabricResponses

namespace HotLinesAndEscape

def rb : FRec := { op := opWrite, dstMod := 3, tag := 5 }

def q0 : State := ((p 0 0 1 (p 0 1 1 (p 1 0 1 (p 4 0 1 (p 4 1 1 b8))))).setFld 0 .fab 0 0x30 4 4 3).setFld 0 .fab 0 0x30 8 4 3

def bs : Array FRec := #[{rb with dstMod := 3}, {rb with dstMod := 2}, {rb with dstMod := 5}]

def h0 : Hot := {key := (1,2,5), req := some rr, members := [rr]}

def h1 : Hot := {key := (1,2,5), idle := 4}

def x0 : FRec := {rb with dstMod := 3}

def x1 : FRec := {rb with dstMod := 2}

def s0 : State := (q0.updPort 4 0 (fun k => { k with paused := [5, 3]})).updPort 0 0 (fun k => { k with txq := [(3, (bs.getD 0 {})), (5, (bs.getD 0 {}))]})

def s1 : State := q0.updPort 0 0 (fun k => { k with txq := [(5, (bs.getD 1 {})), (3, (bs.getD 2 {}))]})

def s2 : State := q0

def s3 : State := b8.updRouter 0 (fun k => {k with hot := [h0, h1]})

/-- States and operands that meet what `HotLinesAndEscape` asks, clause by clause (part 1). -/
theorem test_met_1 :
    s0.Canonical ∧ s1.Canonical ∧ s2.Canonical ∧ s3.Canonical ∧ (s0.live 0 = true ∧ (s0.port 0 0).txq[0]? = some (3, x0) ∧ (3 = 5 ∨ 3 = 3) ∧
    s0.inTorus 0 x0.dstMod = true ∧ s0.dirHeld 0 x0.dstMod = false ∧ s0.route 0 x0.dstMod true (3 - 1) = some (4, 0) ∧
    (∀ (y : Nat × Nat), y ∈ List.flatMap (fun y => s0.dirPorts y.fst y.snd) (s0.productive 0 x0.dstMod) → s0.portCredit y 3 = 0)) ∧
    (s1.live 0 = true ∧ (s1.port 0 0).txq[0]? = some (5, x1) ∧ (5 = 5 ∨ 5 = 3) ∧ s1.inTorus 0 x1.dstMod = true ∧ s1.dirHeld 0 x1.dstMod = false ∧
    s1.route 0 x1.dstMod true (5 - 1) = some (0, 0) ∧ (∃ y, y ∈ List.flatMap (fun y => s1.dirPorts y.fst y.snd) (s1.productive 0 x1.dstMod) ∧
    s1.portCredit y 5 ≠ 0)) ∧ s2.live 3 = true ∧ (s3.live 0 = true ∧ (s3.router 0).hot[0]? = some h0 ∧ (h0.req).isSome = true) := by
  unfold State.Canonical; decide +kernel

/-- States and operands that meet what `HotLinesAndEscape` asks, clause by clause (part 2). -/
theorem test_met_2 :
    (s3.live 0 = true ∧ (s3.router 0).hot[1]? = some h1 ∧ h1.req = none ∧ 4 ≤ h1.idle) ∧ (s3.live 0 = true ∧ (s3.router 0).hot[0]? = some h0 ∧
    (h0.req ≠ none ∨ h0.idle < 4)) := by
  decide +kernel

end HotLinesAndEscape

namespace FabricRetries

def e3 : TagEnt := { e1 with tries := 4 }

def e4 : TagEnt := { e1 with r := { sr with dstMod := 0 } }

def own3 : Owner := .chan 2 1 7

def e6 : TagEnt := { e1 with own := own3 }

def fr (i : Nat) : Frame := {hseq := i}

def x0 : Frame := {hseq := 3}

def x1 : Instr := .hopAckTimeout 0 0

def x2 : Frame := {hseq := 3, recs := [rr]}

def x3 : Instr := .nak 0 0 3

def s0 : State := (p 0 0 2 ((let s : State := b2; s.updPort 0 0 (fun k => {k with unacked := [{hseq := 3}, {hseq := 4}, {hseq := 5}]}))))

def s1 : State := ((((p 0 0 1 ((setT [(1,e6)] (b8))))).updPort 0 0 (fun k => { k with unacked := [{hseq := 3, recs := [rr]}, {hseq := 4}, {hseq := 5}]})).updPort 0 0 (fun k => { k with tries := 8})).updRouter 0 (fun k => { k with hot := [{key := (1,2,5), req := some rr, members := [rr]}, {key := (1,2,5), idle := 4}]})

def s2 : State := (setT [(1,e4)] (b8))

def s3 : State := (p 0 0 1 ((let s : State := (setT [(1,e2)] (b8)); s.setFld 0 .fab 0 0x30 0 2 1)))

def s4 : State := run 2 (setT [(1,e3)] b8)

/-- States and operands that meet what `FabricRetries` asks, clause by clause (part 1). -/
theorem test_met_1 :
    s0.Canonical ∧ s1.Canonical ∧ s2.Canonical ∧ (s0.portLive 0 0 = true ∧ s0.portUp 0 0 = true ∧ (s0.port 0 0).unacked = [x0, fr 4, fr 5] ∧
    (x1 = Instr.hopAckTimeout 0 0 ∧ (s0.port 0 0).txHold = false ∨ x1 = Instr.nak 0 0 x0.hseq ∧
    ∀ (g : Frame), g ∈ [x0, fr 4, fr 5] → g.hseq ≠ (x0.hseq + 2047) % 2048) ∧ (s0.port 0 0).tries < 8) ∧ (s1.portLive 0 0 = true ∧
    s1.portUp 0 0 = true ∧ (s1.port 0 0).unacked = [x2, fr 4, fr 5] ∧ (x3 = Instr.hopAckTimeout 0 0 ∧
    (s1.port 0 0).txHold = false ∨ x3 = Instr.nak 0 0 x2.hseq ∧ ∀ (g : Frame), g ∈ [x2, fr 4, fr 5] → g.hseq ≠ (x2.hseq + 2047) % 2048) ∧
    8 ≤ (s1.port 0 0).tries ∧ (∀ (g : Frame), g ∈ [x2, fr 4, fr 5] → ∀ (r : FRec), r ∈ g.recs → s1.tagOf r = none) ∧ (s1.port 0 0).txq = []) ∧
    (s2.live 0 = true ∧ List.find? (fun e => decide (e.fst = 1)) (s2.router 0).tags = some (1, e4) ∧ e4.tries < s2.fld 0 Blk.fab 0 56 16 3 ∧
    e4.r.dstMod = s2.ownId 0) := by
  unfold State.Canonical; decide +kernel

/-- States and operands that meet what `FabricRetries` asks, clause by clause (part 2). -/
theorem test_met_2 :
    s3.Canonical ∧ s4.Canonical ∧ (s3.live 0 = true ∧ List.find? (fun e => decide (e.fst = 1)) (s3.router 0).tags = some (1, e2) ∧
    e2.tries < s3.fld 0 Blk.fab 0 56 16 3 ∧ e2.r.dstMod ≠ s3.ownId 0 ∧ s3.dirHeld 0 e2.r.dstMod = false ∧
    ((s3.route 0 e2.r.dstMod (decide (e2.r.op = opSignal ∨ e2.r.op = opAtomic)) 1).isSome = true)) ∧ (s4.live 0 = true ∧
    List.find? (fun e => decide (e.fst = 1)) (s4.router 0).tags = some (1, e3) ∧ s4.fld 0 Blk.fab 0 56 16 3 ≤ e3.tries ∧
    (s4.router 0).waitq = [] ∧ (s4.ctx 0 e3.r.ctx).st = CtxSt.running ∧ e3.own = Owner.sig 5 false 3 4096) := by
  unfold State.Canonical; decide +kernel

end FabricRetries

namespace FramesFromOutside

def eth (dst etype : Nat) (pay : List Byte) : List Byte := be 6 dst ++ be 6 5 ++ be 2 etype ++ pay

def s0 : State := (p1 (ba))

def s1 : State := (p1 (b8))

def s2 : State := ((p1 (b8))).setRg 0 .mac 1 0x60 (wordOf (2^54 + 4 * 2^50 + 2^25 * 0x10000))

/-- States and operands that meet what `FramesFromOutside` asks, clause by clause (part 1). -/
theorem test_met_1 :
    s0.Canonical ∧ s1.Canonical ∧ (s0.portLive 0 1 = true ∧ (s0.port 0 1).rxMove = none ∧ (s0.portUp 0 1 = true ∨ (s0.port 0 1).trained = true) ∧
    (eth 0 2048 [1, 2, 3]).length + 4 < 64) ∧ (s1.portLive 0 1 = true ∧ (s1.port 0 1).rxMove = none ∧
    (s1.portUp 0 1 = true ∨ (s1.port 0 1).trained = true) ∧ 64 ≤ (eth 0 2048 (List.replicate 60 4)).length + 4 ∧ (4 = 6 ∧
    s1.maxFrame 0 1 < (eth 0 2048 (List.replicate 60 4)).length + 4 ∨ 4 = 4 ∧ (eth 0 2048 (List.replicate 60 4)).length + 4 ≤ s1.maxFrame 0 1 ∧
    false = false)) := by
  unfold State.Canonical; decide +kernel

/-- States and operands that meet what `FramesFromOutside` asks, clause by clause (part 2). -/
theorem test_met_2 :
    (s0.portLive 0 1 = true ∧ (s0.port 0 1).rxMove = none ∧ (s0.portUp 0 1 = true ∨ (s0.port 0 1).trained = true) ∧
    64 ≤ (eth 0 34824 (be 2 257 ++ be 2 255 ++ be 2 0 ++ be 2 5 ++ List.replicate 60 0)).length + 4 ∧
    (eth 0 34824 (be 2 257 ++ be 2 255 ++ be 2 0 ++ be 2 5 ++ List.replicate 60 0)).length + 4 ≤ s0.maxFrame 0 1 ∧
    (frameHead (eth 0 34824 (be 2 257 ++ be 2 255 ++ be 2 0 ++ be 2 5 ++ List.replicate 60 0))).snd.fst = 34824 ∧
    beAt (eth 0 34824 (be 2 257 ++ be 2 255 ++ be 2 0 ++ be 2 5 ++ List.replicate 60 0)) (frameHead (eth 0 34824 (be 2 257 ++ be 2 255 ++ be 2 0 ++ be 2 5 ++ List.replicate 60 0))).fst 2 = 257) := by
  decide +kernel

/-- States and operands that meet what `FramesFromOutside` asks, clause by clause (part 3). -/
theorem test_met_3 :
    (s1.portLive 0 1 = true ∧ (s1.port 0 1).rxMove = none ∧ (s1.portUp 0 1 = true ∨ (s1.port 0 1).trained = true) ∧
    64 ≤ (vl 0 3 2048 (List.replicate 60 4)).length + 4 ∧ (vl 0 3 2048 (List.replicate 60 4)).length + 4 ≤ s1.maxFrame 0 1 ∧
    (frameHead (vl 0 3 2048 (List.replicate 60 4))).snd.fst ≠ 34824 ∧ (frameHead (vl 0 3 2048 (List.replicate 60 4))).snd.fst ≠ 35063 ∧
    (frameHead (vl 0 3 2048 (List.replicate 60 4))).snd.fst ≠ s1.fld 0 Blk.mac (1 % 4) 32 24 16 ∧ s1.portUp 0 1 = true ∧
    s1.passes 0 1 (vl 0 3 2048 (List.replicate 60 4)) = true ∧
    ((match (frameHead (vl 0 3 2048 (List.replicate 60 4))).snd.snd with     | none => 0     | some pcp => s1.fld 0 Blk.mac (1 % 4) 64 (3 * pcp) 3) =     0 →   (s1.port 0 1).heldOf 0 + ((vl 0 3 2048 (List.replicate 60 4)).length + 127) / 128 ≤ s1.fld 0 Blk.mac (1 % 4) 40 48 16) ∧
    (bitOf (s1.rg 0 Blk.mac (1 % 4) 96) 54 = false ∨ (s1.fld 0 Blk.mac (1 % 4) 112 0 16 + 65536 - s1.fld 0 Blk.mac (1 % 4) 112 16 16) % 65536 = 2 ^ bits (s1.rg 0 Blk.mac (1 % 4) 96) 50 4)) := by
  decide +kernel

/-- States and operands that meet what `FramesFromOutside` asks, clause by clause (part 4). -/
theorem test_met_4 :
    s2.Canonical ∧ (s2.portLive 0 1 = true ∧ (s2.port 0 1).rxMove = none ∧ (s2.portUp 0 1 = true ∨ (s2.port 0 1).trained = true) ∧
    64 ≤ (vl 0 3 2048 (List.replicate 60 4)).length + 4 ∧ (vl 0 3 2048 (List.replicate 60 4)).length + 4 ≤ s2.maxFrame 0 1 ∧
    (frameHead (vl 0 3 2048 (List.replicate 60 4))).snd.fst ≠ 34824 ∧ (frameHead (vl 0 3 2048 (List.replicate 60 4))).snd.fst ≠ 35063 ∧
    (frameHead (vl 0 3 2048 (List.replicate 60 4))).snd.fst ≠ s2.fld 0 Blk.mac (1 % 4) 32 24 16 ∧ s2.portUp 0 1 = true ∧
    s2.passes 0 1 (vl 0 3 2048 (List.replicate 60 4)) = true ∧
    ((match (frameHead (vl 0 3 2048 (List.replicate 60 4))).snd.snd with     | none => 0     | some pcp => s2.fld 0 Blk.mac (1 % 4) 64 (3 * pcp) 3) =     0 →   (s2.port 0 1).heldOf 0 + ((vl 0 3 2048 (List.replicate 60 4)).length + 127) / 128 ≤ s2.fld 0 Blk.mac (1 % 4) 40 48 16) ∧
    bitOf (s2.rg 0 Blk.mac (1 % 4) 96) 54 = true ∧
    (s2.fld 0 Blk.mac (1 % 4) 112 0 16 + 65536 - s2.fld 0 Blk.mac (1 % 4) 112 16 16) % 65536 ≠ 2 ^ bits (s2.rg 0 Blk.mac (1 % 4) 96) 50 4 ∧
    (∀ (i : Nat), i < (vl 0 3 2048 (List.replicate 60 4)).length → s2.isMem (cloAddr (bits (s2.rg 0 Blk.mac (1 % 4) 96) 0 25 + 72 * (s2.fld 0 Blk.mac (1 % 4) 112 0 16 % 2 ^ bits (s2.rg 0 Blk.mac (1 % 4) 96) 50 4)) + i) = true) ∧
    s2.isMem (cloAddr (bits (s2.rg 0 Blk.mac (1 % 4) 96) 25 25) + 8 * (s2.fld 0 Blk.mac (1 % 4) 112 0 16 % 2 ^ bits (s2.rg 0 Blk.mac (1 % 4) 96) 50 4)) = true ∧
    ((cloAddr (bits (s2.rg 0 Blk.mac (1 % 4) 96) 25 25) + 8 * (s2.fld 0 Blk.mac (1 % 4) 112 0 16 % 2 ^ bits (s2.rg 0 Blk.mac (1 % 4) 96) 50 4)) / 128 < cloAddr (bits (s2.rg 0 Blk.mac (1 % 4) 96) 0 25 + 72 * (s2.fld 0 Blk.mac (1 % 4) 112 0 16 % 2 ^ bits (s2.rg 0 Blk.mac (1 % 4) 96) 50 4)) / 128 ∨ cloAddr (bits (s2.rg 0 Blk.mac (1 % 4) 96) 0 25 + 72 * (s2.fld 0 Blk.mac (1 % 4) 112 0 16 % 2 ^ bits (s2.rg 0 Blk.mac (1 % 4) 96) 50 4)) / 128 + 73 ≤ (cloAddr (bits (s2.rg 0 Blk.mac (1 % 4) 96) 25 25) + 8 * (s2.fld 0 Blk.mac (1 % 4) 112 0 16 % 2 ^ bits (s2.rg 0 Blk.mac (1 % 4) 96) 50 4)) / 128) ∧
    (vl 0 3 2048 (List.replicate 60 4)).length ≤ 73 * 128) := by
  unfold State.Canonical; decide +kernel

end FramesFromOutside

namespace FabricFramesArrive

def fabDst (m : Nat) : Nat := b8.fabAddr 0 1 m

def fab (q cls : Nat) (r : List Byte) : List Byte := vl (fabDst 0) cls 0x88B5 (leBytes 2 q ++ leBytes 2 0 ++ [1] ++ [1] ++ leBytes 2 0 ++ padTo (max 42 r.length) r)

def rd : FRec := (frs.getD 0 {})

def wr : FRec := (frs.getD 1 {})

def s0 : State := (p1 b8).setFld 0 .fab 0 0x20 6 1 0

def s1 : State := s0.setFld 0 .mac 1 0x28 48 16 0

/-- States and operands that meet what `FabricFramesArrive` asks, clause by clause (part 1). -/
theorem test_met_1 :
    s0.Canonical ∧ (s0.portLive 0 1 = true ∧ (s0.port 0 1).rxMove = none ∧ s0.portUp 0 1 = true ∧ s0.direct 0 1 = true ∧
    64 ≤ (fab 2040 6 (rec opRead 3 0 [] 0)).length + 4 ∧ (fab 2040 6 (rec opRead 3 0 [] 0)).length + 4 ≤ s0.maxFrame 0 1 ∧
    frameHead (fab 2040 6 (rec opRead 3 0 [] 0)) = (18, s0.fld 0 Blk.mac (1 % 4) 32 24 16, some 6) ∧ s0.fld 0 Blk.mac (1 % 4) 32 24 16 ≠ 34824 ∧
    s0.fld 0 Blk.mac (1 % 4) 32 24 16 ≠ 35063 ∧ beAt (fab 2040 6 (rec opRead 3 0 [] 0)) 0 6 = s0.fabAddr 0 1 (s0.ownId 0) ∧
    leAt (List.drop 18 (fab 2040 6 (rec opRead 3 0 [] 0))) 4 1 % 16 = 1 ∧ leAt (List.drop 18 (fab 2040 6 (rec opRead 3 0 [] 0))) 5 1 = 1 ∧
    parseRecs 1 (List.drop 26 (fab 2040 6 (rec opRead 3 0 [] 0))) = some [rd] ∧ rd.kind = 0 ∧ rd.dstMod = s0.ownId 0 ∧ s0.combineOn 0 = false ∧
    leAt (List.drop 18 (fab 2040 6 (rec opRead 3 0 [] 0))) 0 2 % 2048 ≠ (s0.port 0 1).rxNext ∧
    ((s0.port 0 1).rxNext + 2048 - leAt (List.drop 18 (fab 2040 6 (rec opRead 3 0 [] 0))) 0 2 % 2048) % 2048 ≤ 1024) := by
  unfold State.Canonical; decide +kernel

/-- States and operands that meet what `FabricFramesArrive` asks, clause by clause (part 2). -/
theorem test_met_2 :
    (s0.portLive 0 1 = true ∧ (s0.port 0 1).rxMove = none ∧ s0.portUp 0 1 = true ∧ s0.direct 0 1 = true ∧
    64 ≤ (fab 3 6 (rec opRead 3 0 [] 0)).length + 4 ∧ (fab 3 6 (rec opRead 3 0 [] 0)).length + 4 ≤ s0.maxFrame 0 1 ∧
    frameHead (fab 3 6 (rec opRead 3 0 [] 0)) = (18, s0.fld 0 Blk.mac (1 % 4) 32 24 16, some 6) ∧ s0.fld 0 Blk.mac (1 % 4) 32 24 16 ≠ 34824 ∧
    s0.fld 0 Blk.mac (1 % 4) 32 24 16 ≠ 35063 ∧ beAt (fab 3 6 (rec opRead 3 0 [] 0)) 0 6 = s0.fabAddr 0 1 (s0.ownId 0) ∧
    leAt (List.drop 18 (fab 3 6 (rec opRead 3 0 [] 0))) 4 1 % 16 = 1 ∧ leAt (List.drop 18 (fab 3 6 (rec opRead 3 0 [] 0))) 5 1 = 1 ∧
    parseRecs 1 (List.drop 26 (fab 3 6 (rec opRead 3 0 [] 0))) = some [rd] ∧ rd.kind = 0 ∧ rd.dstMod = s0.ownId 0 ∧ s0.combineOn 0 = false ∧
    leAt (List.drop 18 (fab 3 6 (rec opRead 3 0 [] 0))) 0 2 % 2048 ≠ (s0.port 0 1).rxNext ∧
    1024 < ((s0.port 0 1).rxNext + 2048 - leAt (List.drop 18 (fab 3 6 (rec opRead 3 0 [] 0))) 0 2 % 2048) % 2048 ∧ (s0.port 0 1).naked = false) := by
  decide +kernel

/-- States and operands that meet what `FabricFramesArrive` asks, clause by clause (part 3). -/
theorem test_met_3 :
    s1.Canonical ∧ (s1.portLive 0 1 = true ∧ (s1.port 0 1).rxMove = none ∧ s1.portUp 0 1 = true ∧ s1.direct 0 1 = true ∧
    64 ≤ (fab 0 0 (rec opWrite 3 0 (List.replicate 152 7) 0)).length + 4 ∧
    (fab 0 0 (rec opWrite 3 0 (List.replicate 152 7) 0)).length + 4 ≤ s1.maxFrame 0 1 ∧
    frameHead (fab 0 0 (rec opWrite 3 0 (List.replicate 152 7) 0)) = (18, s1.fld 0 Blk.mac (1 % 4) 32 24 16, some 0) ∧
    s1.fld 0 Blk.mac (1 % 4) 32 24 16 ≠ 34824 ∧ s1.fld 0 Blk.mac (1 % 4) 32 24 16 ≠ 35063 ∧
    beAt (fab 0 0 (rec opWrite 3 0 (List.replicate 152 7) 0)) 0 6 = s1.fabAddr 0 1 (s1.ownId 0) ∧
    leAt (List.drop 18 (fab 0 0 (rec opWrite 3 0 (List.replicate 152 7) 0))) 4 1 % 16 = 1 ∧
    leAt (List.drop 18 (fab 0 0 (rec opWrite 3 0 (List.replicate 152 7) 0))) 5 1 = 1 ∧
    parseRecs 1 (List.drop 26 (fab 0 0 (rec opWrite 3 0 (List.replicate 152 7) 0))) = some [wr] ∧ wr.kind = 0 ∧ wr.dstMod = s1.ownId 0 ∧
    s1.combineOn 0 = false ∧ leAt (List.drop 18 (fab 0 0 (rec opWrite 3 0 (List.replicate 152 7) 0))) 0 2 % 2048 = (s1.port 0 1).rxNext ∧
    ¬if 0 = 0 then (s1.port 0 1).heldOf 0 + ((fab 0 0 (rec opWrite 3 0 (List.replicate 152 7) 0)).length + 127) / 128 ≤ s1.fld 0 Blk.mac (1 % 4) 40 48 16 else (s1.port 0 1).heldAll + ((fab 0 0 (rec opWrite 3 0 (List.replicate 152 7) 0)).length + 127) / 128 ≤ 1024 * s1.fld 0 Blk.cel 0 48 0 6) := by
  unfold State.Canonical; decide +kernel

/-- States and operands that meet what `FabricFramesArrive` asks, clause by clause (part 4). -/
theorem test_met_4 :
    (s0.portLive 0 1 = true ∧ (s0.port 0 1).rxMove = none ∧ s0.portUp 0 1 = true ∧ s0.direct 0 1 = true ∧
    64 ≤ (fab 0 6 (rec opRead 3 0 [] 0)).length + 4 ∧ (fab 0 6 (rec opRead 3 0 [] 0)).length + 4 ≤ s0.maxFrame 0 1 ∧
    frameHead (fab 0 6 (rec opRead 3 0 [] 0)) = (18, s0.fld 0 Blk.mac (1 % 4) 32 24 16, some 6) ∧ s0.fld 0 Blk.mac (1 % 4) 32 24 16 ≠ 34824 ∧
    s0.fld 0 Blk.mac (1 % 4) 32 24 16 ≠ 35063 ∧ beAt (fab 0 6 (rec opRead 3 0 [] 0)) 0 6 = s0.fabAddr 0 1 (s0.ownId 0) ∧
    leAt (List.drop 18 (fab 0 6 (rec opRead 3 0 [] 0))) 4 1 % 16 = 1 ∧ leAt (List.drop 18 (fab 0 6 (rec opRead 3 0 [] 0))) 5 1 = 1 ∧
    parseRecs 1 (List.drop 26 (fab 0 6 (rec opRead 3 0 [] 0))) = some [rd] ∧ rd.kind = 0 ∧ rd.dstMod = s0.ownId 0 ∧ s0.combineOn 0 = false ∧
    leAt (List.drop 18 (fab 0 6 (rec opRead 3 0 [] 0))) 0 2 % 2048 = (s0.port 0 1).rxNext ∧
    if 6 = 0 then (s0.port 0 1).heldOf 0 + ((fab 0 6 (rec opRead 3 0 [] 0)).length + 127) / 128 ≤ s0.fld 0 Blk.mac (1 % 4) 40 48 16 else (s0.port 0 1).heldAll + ((fab 0 6 (rec opRead 3 0 [] 0)).length + 127) / 128 ≤ 1024 * s0.fld 0 Blk.cel 0 48 0 6) := by
  decide +kernel

end FabricFramesArrive

namespace FramesLeave

def p2 (s : State) : State := (s.setFld 0 .mac 1 0x20 0 2 2).setFld 0 .mac 1 0 16 1 1

def w0 : FRec := (frs.getD 1 {})

def ring (len : Nat) : State := (((p1 b8).setRg 0 .mac 1 0x68 (wordOf (2^54 + 4 * 2^50 + 2^25 * 2))).setFld 0 .mac 1 0x70 32 16 3).putLine ((cloAddr 2)/128) (mkLine (leBytes 8 len) 0 0 0)

def s0 : State := (p1 ((let s : State := ba; s.updPort 0 1 (fun k => {k with ctlq := List.replicate 40 {kind := 2, op := 3, pay := [1]}}))))

def s1 : State := ((p1 (ba))).updPort 0 1 (fun k => { k with txq := [(6, (frs.getD 0 {})), (0, w0)]})

def s2 : State := ((p1 (b8))).updPort 0 1 (fun k => { k with hostTx := true})

def s3 : State := (p2 (ba))

def s4 : State := ((p1 (b8))).updPort 0 1 (fun k => { k with ackDue := true})

def s5 : State := ring (100+2^20)

def s6 : State := ring 100

/-- States and operands that meet what `FramesLeave` asks, clause by clause (part 1). -/
theorem test_met_1 :
    s0.Canonical ∧ s1.Canonical ∧ s2.Canonical ∧ s3.Canonical ∧ s4.Canonical ∧ (s0.portLive 0 1 = true ∧ (s0.port 0 1).ctlq ≠ [] ∧
    (s0.portUp 0 1 = true ∨ (s0.port 0 1).trained = true)) ∧ (s1.portLive 0 1 = true ∧ (s1.port 0 1).ctlq = [] ∧ s1.portUp 0 1 = true ∧
    (s1.port 0 1).txHold = false ∧ s1.pickClass 0 1 = some (6, false)) ∧ (s2.portLive 0 1 = true ∧ (s2.port 0 1).hostTx = true) ∧
    (s3.portLive 0 5 = true ∧ (s3.port 0 5).hostTx = false) ∧ (s4.portLive 0 1 = true ∧ s4.portUp 0 1 = true ∧ s4.direct 0 1 = true ∧
    (s4.port 0 1).ackDue = true) ∧ (s3.portLive 0 5 = true ∧ (s3.port 0 5).ackDue = false) := by
  unfold State.Canonical; decide +kernel

/-- States and operands that meet what `FramesLeave` asks, clause by clause (part 2). -/
theorem test_met_2 :
    s5.Canonical ∧ s6.Canonical ∧ (s5.portLive 0 1 = true ∧ (s5.port 0 1).ctlq = [] ∧ s5.portUp 0 1 = true ∧ (s5.port 0 1).txHold = false ∧
    s5.pickClass 0 1 = some (0, true) ∧ s5.hostSlot 0 1 = some (cloAddr 0, 100, 0, false)) ∧ (s6.portLive 0 1 = true ∧ (s6.port 0 1).ctlq = [] ∧
    s6.portUp 0 1 = true ∧ (s6.port 0 1).txHold = false ∧ s6.pickClass 0 1 = some (0, true) ∧ s6.hostSlot 0 1 = some (cloAddr 0, 100, 0, true)) := by
  unfold State.Canonical; decide +kernel

end FramesLeave

namespace FlowControlAndQueues

def gate (s : State) : State := (((s.setRg 0 .mac 1 0x80 (wordOf (2 + 1000 * 2^32))).setRg 0 .mac 1 0x800 (wordOf (0x0F + 256*100))).setRg 0 .mac 1 0x808 (wordOf (0xF0 + 256*100)))

def s0 : State := (p1 (b8))

def s1 : State := (gate (p1 b8)).updPort 0 1 (fun k => {k with gcl := 1})

def s2 : State := gate (p1 b8)

/-- States and operands that meet what `FlowControlAndQueues` asks, clause by clause. -/
theorem test_met :
    s0.Canonical ∧ s1.Canonical ∧ s2.Canonical ∧ (s0.portLive 0 1 = true ∧ s0.portUp 0 1 = true ∧ 3 < 8) ∧ (s0.portLive 0 1 = true ∧
    s0.gateSegs 0 1 = []) ∧ (s1.portLive 0 1 = true ∧ (s1.port 0 1).gcl ≠ 0 ∧
    (s1.gateSegs 0 1)[(s1.port 0 1).gcl]? = some ((s1.gateSegs 0 1).getD 1 (0, 0))) ∧ (s2.portLive 0 1 = true ∧ (s2.port 0 1).gcl = 0 ∧
    (s2.gateSegs 0 1)[0]? = some ((s2.gateSegs 0 1).getD 0 (0, 0))) := by
  unfold State.Canonical; decide +kernel

end FlowControlAndQueues

namespace PortsComeUp

def p0 (s : State) : State := (s.setFld 0 .mac 1 0x20 0 2 1)

def p2 (s : State) : State := (s.setFld 0 .mac 1 0x20 0 2 2)

def s0 : State := (p2 (ba))

def s1 : State := (p2 ((let s : State := (let s : State := ba; s.updPort 0 1 (fun k => {k with trained := true})); s.setFld 0 .mac 1 0x20 4 1 1)))

def s2 : State := (p0 ((let s : State := (let s : State := b8; s.updPort 0 1 (fun k => {k with trained := true})); s.updPort 0 1 (fun k => {k with trained := true}))))

def s3 : State := (p2 (b8))

def s4 : State := (p1 (b8))

def s5 : State := (p1 ((let s : State := ba; s.setFld 0 .mac 1 0x50 8 9 511)))

def s6 : State := (((p1 (ba))).setFld 0 .mac 1 0x20 3 1 1).setFld 0 .mac 1 0x50 8 9 511

def s7 : State := ((p1 ((p1 ((let s : State := ba; s.updPort 0 1 (fun k => {k with rxMove := some 2}))))))).updPort 0 1 (fun k => { k with trained := true})

def s8 : State := ((p2 (ba))).updPort 0 1 (fun k => { k with txHold := true})

/-- States and operands that meet what `PortsComeUp` asks, clause by clause (part 1). -/
theorem test_met_1 :
    s0.Canonical ∧ s1.Canonical ∧ s2.Canonical ∧ (s0.portLive 0 1 = true ∧ 1 < 4 ∧ s0.portUp 0 1 = false) ∧ (s1.portLive 0 1 = true ∧ 1 < 4 ∧
    s1.portUp 0 1 = false ∧ s1.direct 0 1 = true ∧ (s1.port 0 1).trained = true ∧ 8 < 4096 ∧ 4 < 32 ∧ s1.miscabled 0 1 8 4 = false) ∧
    (s2.portLive 0 1 = true ∧ 1 < 4 ∧ s2.portUp 0 1 = false ∧ s2.direct 0 1 = true ∧ (s2.port 0 1).trained = true ∧ 0 < 4096 ∧ 4 < 32 ∧
    s2.miscabled 0 1 0 4 = true) := by
  unfold State.Canonical; decide +kernel

/-- States and operands that meet what `PortsComeUp` asks, clause by clause (part 2). -/
theorem test_met_2 :
    s3.Canonical ∧ s4.Canonical ∧ s5.Canonical ∧ (s3.portLive 0 1 = true ∧ 1 < 4 ∧ s3.portUp 0 1 = false) ∧ (s4.portLive 0 1 = true ∧ 1 < 4 ∧
    s4.portUp 0 1 = true ∧ (∀ (q : Nat), q ∈ s4.halves 0 1 → (s4.port 0 q).unacked = [] ∧ (s4.port 0 q).txq = [])) ∧ (s5.portLive 0 1 = true ∧
    1 < 4 ∧ 3 < 9 ∧ s5.portUp 0 1 = true ∧ s5.macMode 0 1 = 1 ∧ (s5.lanesUsed 0 1).contains 3 = true ∧ bitOf (s5.rg 0 Blk.mac 1 32) 4 = true ∧
    bitOf (s5.rg 0 Blk.mac 1 80) 16 = true ∧ 3 ≠ 8 ∧ s5.spareFree 0 1 = true ∧ s5.autoSpare 2 = true) := by
  unfold State.Canonical; decide +kernel

/-- States and operands that meet what `PortsComeUp` asks, clause by clause (part 3). -/
theorem test_met_3 :
    s6.Canonical ∧ (s6.portLive 0 1 = true ∧ 1 < 4 ∧ 2 < 9 ∧ s6.portUp 0 1 = true ∧ s6.macMode 0 1 = 1 ∧ (s6.lanesUsed 0 1).contains 2 = true ∧
    bitOf (s6.rg 0 Blk.mac 1 32) 4 = true ∧ bitOf (s6.rg 0 Blk.mac 1 80) 16 = true ∧ 2 ≠ 8 ∧ s6.spareFree 0 1 = false ∧ s6.autoSpare 2 = true ∧
    (s6.port 0 1).unacked = [] ∧ (s6.port 0 1).txq = []) ∧ (s4.portLive 0 1 = true ∧ 1 < 4 ∧ s4.spareFree 0 1 = true ∧ s4.portUp 0 1 = true ∧
    1 < 8) ∧ (s3.portLive 0 1 = true ∧ 1 < 4 ∧ s3.spareFree 0 1 = false) := by
  unfold State.Canonical; decide +kernel

/-- States and operands that meet what `PortsComeUp` asks, clause by clause (part 4). -/
theorem test_met_4 :
    s7.Canonical ∧ s8.Canonical ∧ (s4.portLive 0 1 = true ∧ 1 < 4 ∧ s4.portUp 0 1 = true ∧ s4.direct 0 1 = true ∧ s4.macMode 0 1 = 1 ∧ 1 < 8) ∧
    (s7.portLive 0 1 = true ∧ 1 < 4 ∧ s7.portUp 0 1 = true ∧ (s7.port 0 1).rxMove = some 2 ∧ 2 < 8) ∧ (s8.portLive 0 1 = true ∧ 1 < 4 ∧
    (s8.port 0 1).txHold = true ∧ (s8.port 0 1).unacked = []) ∧ (s3.portLive 0 1 = true ∧ 1 < 4 ∧ (s3.port 0 1).txHold = false) := by
  unfold State.Canonical; decide +kernel

/-- States and operands that meet what `PortsComeUp` asks, clause by clause (part 5). -/
theorem test_met_5 :
    (s3.portLive 0 1 = true ∧ 1 < 4 ∧ 1 < 9) := by
  decide +kernel

end PortsComeUp

namespace ReductionChannels

def wB : Nat := 2^22 * 3

def src : Nat := 2^20 * 64

def dst : Nat := 2^20 * 80

def grp : Nat := 2^20 * 100

def dig : Nat := 2^20 * 101

def bk : Bucket := { fid := 7, size := 0, rgroup := 0, src := src, dst := dst, bseq := 5, gen := 1 }

def bk2 : Bucket := { bk with fid := 8, bseq := 6 }

def w1 : List Word := 2048#64 :: List.replicate 7 0#64

def fl : Flight := { id := 7, d := 0, c := 0, units := [0], ws := (List.replicate 8 0#64) }

def gl (w0 w1 : Nat) : List Byte := leBytes 2 w0 ++ leBytes 2 w1 ++ leBytes 4 0 ++ leBytes 6 (grp + 64) ++ leBytes 2 0 ++ List.replicate 48 0 ++ leBytes 2 0 ++ leBytes 2 1

def hd (vs : List Nat) : Line := mkLine (padTo 128 (vs.flatMap (leBytes 8))) 0 0 0

def r0 : State :=
  let s := b8
  let s := s.setRg 0 .fab 0 (rchOff 0 2) (wordOf (wB + 2))
  let s := s.setFld 0 .fab 0 0x50 7 41 (grp/128)
  let s := s.putLine (grp/128) (mkLine (padTo 128 (gl (2^15 + 1) 0)) 0 0 0)
  let s := s.putLine (src/128) (mkLine (List.replicate 128 0) 0 fINT32 0)
  let s := s.setFld 0 .fab 0 0x58 0 16 9
  let s := s.setFld 0 .fab 0 (rchOff 0 2 + 8) 7 41 (dig/128)
  let s := s.updCtx 0 0 (fun x => { x with st := .running })
  let s := s.updChan 0 0 2 (fun x => { x with accepted := [bk, bk2] })
  { s with flights := [fl] , nextId := 20}

def at1 (k : Nat) (n r : Nat) (s : State) : State := s.updChan 0 0 2 (fun x => { x with phase := k, nranks := n, rank := r, fmt := fINT32, ids := [(0, 3), (1, 1)] })

def hl : Nat := (wB + 7 * 2^20 / 4) / 128

def bad1 : State := r0.putLine (grp/128) (mkLine (padTo 128 (gl 1 0)) 0 0 0)

def rep : State := r0.updChan 0 0 2 (fun x => { x with prev := some (5, 1) })

def wbad : State := r0.setRg 0 .fab 0 (rchOff 0 2) (wordOf (wB + 9))

def two : State := (at1 1 2 1 r0).putLine hl (hd [0])

def twob : State := (at1 1 2 1 r0).putLine hl (hd ((List.replicate 12 0) ++ [2^48*9, 2^48*9]))

def crcb : State := let t := (at1 1 1 0 r0); t.putSide hl 77

def done (f : Nat) (t : State) : State := (at1 1 1 0 t).updChan 0 0 2 (fun x => { x with loaded := 16, res := 16, fwd := f, up := 16 })

def r1 : State := at1 1 1 0 r0

def s0 : State := bad1

def s1 : State := rep

def s2 : State := wbad

def s3 : State := r0

def s4 : State := crcb

def s5 : State := twob

def s6 : State := done 16 r0

def s7 : State := r1

def s8 : State := two

/-- States and operands that meet what `ReductionChannels` asks, clause by clause (part 1). -/
theorem test_met_1 :
    s0.Canonical ∧ (s0.live 0 = true ∧ 0 < 8 ∧ 2 < 16 ∧ (s0.chan 0 0 2).accepted = [bk, bk2] ∧ (s0.ctx 0 0).st = CtxSt.running ∧
    s0.flight bk.fid = some fl ∧ fl.d = 0 ∧ fl.c = 0 ∧ (s0.chan 0 0 2).phase = 0 ∧
    (∀ (n : Nat), n ∈ s0.startLines 0 bk { d := 0, c := 0, h := 2, b := bk, ch := { nranks := (s0.groupAt (s0.groupAddr 0 bk.rgroup)).nranks, rank := (s0.groupAt (s0.groupAddr 0 bk.rgroup)).rank } } (s0.groupAt (s0.groupAddr 0 bk.rgroup)) → s0.served (128 * n) = true) ∧
    s0.waits (List.map (fun n => (0, n)) (s0.startLines 0 bk { d := 0, c := 0, h := 2, b := bk, ch := { nranks := (s0.groupAt (s0.groupAddr 0 bk.rgroup)).nranks, rank := (s0.groupAt (s0.groupAddr 0 bk.rgroup)).rank } } (s0.groupAt (s0.groupAddr 0 bk.rgroup)))) = [] ∧
    (s0.groupCheck (s0.groupAt (s0.groupAddr 0 bk.rgroup)) { d := 0, c := 0, h := 2, b := bk, ch := { nranks := (s0.groupAt (s0.groupAddr 0 bk.rgroup)).nranks, rank := (s0.groupAt (s0.groupAddr 0 bk.rgroup)).rank } }).isSome = true) := by
  unfold State.Canonical; decide +kernel

/-- States and operands that meet what `ReductionChannels` asks, clause by clause (part 2). -/
theorem test_met_2 :
    s1.Canonical ∧ (s1.live 0 = true ∧ 0 < 8 ∧ 2 < 16 ∧ (s1.chan 0 0 2).accepted = [bk, bk2] ∧ (s1.ctx 0 0).st = CtxSt.running ∧
    s1.flight bk.fid = some fl ∧ fl.d = 0 ∧ fl.c = 0 ∧ (s1.chan 0 0 2).phase = 0 ∧
    (∀ (n : Nat), n ∈ s1.startLines 0 bk { d := 0, c := 0, h := 2, b := bk, ch := { nranks := (s1.groupAt (s1.groupAddr 0 bk.rgroup)).nranks, rank := (s1.groupAt (s1.groupAddr 0 bk.rgroup)).rank } } (s1.groupAt (s1.groupAddr 0 bk.rgroup)) → s1.served (128 * n) = true) ∧
    s1.waits (List.map (fun n => (0, n)) (s1.startLines 0 bk { d := 0, c := 0, h := 2, b := bk, ch := { nranks := (s1.groupAt (s1.groupAddr 0 bk.rgroup)).nranks, rank := (s1.groupAt (s1.groupAddr 0 bk.rgroup)).rank } } (s1.groupAt (s1.groupAddr 0 bk.rgroup)))) = [] ∧
    s1.groupCheck (s1.groupAt (s1.groupAddr 0 bk.rgroup)) { d := 0, c := 0, h := 2, b := bk, ch := { nranks := (s1.groupAt (s1.groupAddr 0 bk.rgroup)).nranks, rank := (s1.groupAt (s1.groupAddr 0 bk.rgroup)).rank } } = none ∧
    (s1.chan 0 0 2).prev = some (bk.bseq, bk.gen)) := by
  unfold State.Canonical; decide +kernel

/-- States and operands that meet what `ReductionChannels` asks, clause by clause (part 3). -/
theorem test_met_3 :
    s2.Canonical ∧ (s2.live 0 = true ∧ 0 < 8 ∧ 2 < 16 ∧ (s2.chan 0 0 2).accepted = [bk, bk2] ∧ (s2.ctx 0 0).st = CtxSt.running ∧
    s2.flight bk.fid = some fl ∧ fl.d = 0 ∧ fl.c = 0 ∧ (s2.chan 0 0 2).phase = 0 ∧
    (∀ (n : Nat), n ∈ s2.startLines 0 bk { d := 0, c := 0, h := 2, b := bk, ch := { nranks := (s2.groupAt (s2.groupAddr 0 bk.rgroup)).nranks, rank := (s2.groupAt (s2.groupAddr 0 bk.rgroup)).rank } } (s2.groupAt (s2.groupAddr 0 bk.rgroup)) → s2.served (128 * n) = true) ∧
    s2.waits (List.map (fun n => (0, n)) (s2.startLines 0 bk { d := 0, c := 0, h := 2, b := bk, ch := { nranks := (s2.groupAt (s2.groupAddr 0 bk.rgroup)).nranks, rank := (s2.groupAt (s2.groupAddr 0 bk.rgroup)).rank } } (s2.groupAt (s2.groupAddr 0 bk.rgroup)))) = [] ∧
    s2.groupCheck (s2.groupAt (s2.groupAddr 0 bk.rgroup)) { d := 0, c := 0, h := 2, b := bk, ch := { nranks := (s2.groupAt (s2.groupAddr 0 bk.rgroup)).nranks, rank := (s2.groupAt (s2.groupAddr 0 bk.rgroup)).rank } } = none ∧
    (s2.chan 0 0 2).prev ≠ some (bk.bseq, bk.gen) ∧ s2.workBad 0 0 2 bk.size = true) := by
  unfold State.Canonical; decide +kernel

/-- States and operands that meet what `ReductionChannels` asks, clause by clause (part 4). -/
theorem test_met_4 :
    s3.Canonical ∧ (s3.live 0 = true ∧ 0 < 8 ∧ 2 < 16 ∧ (s3.chan 0 0 2).accepted = [bk, bk2] ∧ (s3.ctx 0 0).st = CtxSt.running ∧
    s3.flight bk.fid = some fl ∧ fl.d = 0 ∧ fl.c = 0 ∧ (s3.chan 0 0 2).phase = 0 ∧
    (∀ (n : Nat), n ∈ s3.startLines 0 bk { d := 0, c := 0, h := 2, b := bk, ch := { nranks := (s3.groupAt (s3.groupAddr 0 bk.rgroup)).nranks, rank := (s3.groupAt (s3.groupAddr 0 bk.rgroup)).rank } } (s3.groupAt (s3.groupAddr 0 bk.rgroup)) → s3.served (128 * n) = true) ∧
    s3.waits (List.map (fun n => (0, n)) (s3.startLines 0 bk { d := 0, c := 0, h := 2, b := bk, ch := { nranks := (s3.groupAt (s3.groupAddr 0 bk.rgroup)).nranks, rank := (s3.groupAt (s3.groupAddr 0 bk.rgroup)).rank } } (s3.groupAt (s3.groupAddr 0 bk.rgroup)))) = [] ∧
    s3.groupCheck (s3.groupAt (s3.groupAddr 0 bk.rgroup)) { d := 0, c := 0, h := 2, b := bk, ch := { nranks := (s3.groupAt (s3.groupAddr 0 bk.rgroup)).nranks, rank := (s3.groupAt (s3.groupAddr 0 bk.rgroup)).rank } } = none ∧
    (s3.chan 0 0 2).prev ≠ some (bk.bseq, bk.gen) ∧ s3.workBad 0 0 2 bk.size = false ∧
    (sbPoison (s3.sideOf (bk.src / 128)) = true ∨ (s3.line (bk.src / 128)).crcOk = true) ∧
    sbFmt (s3.sideOf (bk.src / 128)) ∈ [fBS16, fINT32, fINT16]) := by
  unfold State.Canonical; decide +kernel

/-- States and operands that meet what `ReductionChannels` asks, clause by clause (part 5). -/
theorem test_met_5 :
    s4.Canonical ∧ (s4.live 0 = true ∧ 0 < 8 ∧ 2 < 16 ∧ (s4.chan 0 0 2).accepted = [bk, bk2] ∧ (s4.ctx 0 0).st = CtxSt.running ∧
    s4.flight bk.fid = some fl ∧ fl.d = 0 ∧ fl.c = 0 ∧ ((s4.redJob 0 0 2).any (fun j => decide ((s4.waits (s4.redAccess j) = []) ∧
    (s4.served (128 * s4.hdrLine j) = true) ∧ (sbPoison (s4.sideOf (s4.hdrLine j)) = false) ∧ ((s4.line (s4.hdrLine j)).crcOk = false))) = true)) := by
  unfold State.Canonical; decide +kernel

/-- States and operands that meet what `ReductionChannels` asks, clause by clause (part 6). -/
theorem test_met_6 :
    s5.Canonical ∧ (s5.live 0 = true ∧ 0 < 8 ∧ 2 < 16 ∧ (s5.chan 0 0 2).accepted = [bk, bk2] ∧ (s5.ctx 0 0).st = CtxSt.running ∧
    s5.flight bk.fid = some fl ∧ fl.d = 0 ∧ fl.c = 0 ∧ ((s5.redJob 0 0 2).any (fun j => decide ((s5.waits (s5.redAccess j) = []) ∧
    (s5.served (128 * s5.hdrLine j) = true) ∧ ((s5.line (s5.hdrLine j)).crcOk = true) ∧ ((s5.hdrBad j).isSome = true))) = true)) := by
  unfold State.Canonical; decide +kernel

/-- States and operands that meet what `ReductionChannels` asks, clause by clause (part 7). -/
theorem test_met_7 :
    s6.Canonical ∧ (s6.live 0 = true ∧ 0 < 8 ∧ 2 < 16 ∧ (s6.chan 0 0 2).accepted = [bk, bk2] ∧ (s6.ctx 0 0).st = CtxSt.running ∧
    s6.flight bk.fid = some fl ∧ fl.d = 0 ∧ fl.c = 0 ∧ ((s6.redJob 0 0 2).any (fun j => decide ((j.ch.fwd = j.n) ∧ (j.ch.wait = 0) ∧
    (s6.isMem (s6.fld 0 Blk.fab 0 (rchOff 0 2 + 8) 7 41 * 128 + 128 * (s6.chanOrd 0 0 2 % 64)) = true → s6.mustWait 1 ((s6.fld 0 Blk.fab 0 (rchOff 0 2 + 8) 7 41 * 128 + 128 * (s6.chanOrd 0 0 2 % 64)) / 128) = false) ∧
    (fl.units = [0]) ∧ ((s6.hc 0).clearing = false) ∧
    (stSigEn fl.ws = true → (nbits (stSigCref fl.ws) 11 2 < 2 ∨ nbits (stSigCref fl.ws) 16 12 = s6.ownId 0) ∧
    s6.crefBad 0 (stSigCref fl.ws) false = false))) = true)) := by
  unfold State.Canonical; decide +kernel

/-- States and operands that meet what `ReductionChannels` asks, clause by clause (part 8). -/
theorem test_met_8 :
    s7.Canonical ∧ s8.Canonical ∧ (s7.live 0 = true ∧ 0 < 8 ∧ 2 < 16 ∧ (s7.chan 0 0 2).accepted = [bk, bk2] ∧ (s7.ctx 0 0).st = CtxSt.running ∧
    s7.flight bk.fid = some fl ∧ fl.d = 0 ∧ fl.c = 0 ∧ ((s7.redJob 0 0 2).any (fun j => decide ((j.ch.fwd < j.n ∨ j.ch.wait ≠ 0))) = true)) ∧
    (s8.live 0 = true ∧ 0 < 8 ∧ 2 < 16 ∧ (s8.chan 0 0 2).accepted = [bk, bk2] ∧ (s8.ctx 0 0).st = CtxSt.running ∧ s8.flight bk.fid = some fl ∧
    fl.d = 0 ∧ fl.c = 0 ∧ ((s8.redJob 0 0 2).any (fun j => decide ((s8.fld 0 Blk.fab 0 88 0 16 ≠ 0) ∧ (s8.waitsOn j 0 = true))) = true)) := by
  unfold State.Canonical; decide +kernel

/-- States and operands that meet what `ReductionChannels` asks, clause by clause (part 9). -/
theorem test_met_9 :
    (s7.live 0 = true ∧ 0 < 8 ∧ 2 < 16 ∧ (s7.chan 0 0 2).accepted = [bk, bk2] ∧ (s7.ctx 0 0).st = CtxSt.running ∧ s7.flight bk.fid = some fl ∧
    fl.d = 0 ∧ fl.c = 0 ∧ ((s7.redJob 0 0 2).any (fun j => decide ((s7.fld 0 Blk.fab 0 88 0 16 = 0 ∨ s7.waitsOn j 2 = false))) = true)) := by
  decide +kernel

theorem get_tainted {α : Type} {d v : α} {r : List (Nat × α)} {n k : Nat} : ∀ {l : List Nat}, k ∈ l.map (fun i => n + i) →
    smGet d (l.map (fun i => (n + i, v)) ++ r) k = v
  | i :: l, h => by
    simp only [List.map_cons, List.cons_append, smGet]
    split
    · rfl
    · refine get_tainted ?_
      rcases List.mem_cons.1 h with h | h
      · exact absurd h.symm (by assumption)
      · exact h

def tainted (n f : Nat) : List (Nat × Word) := (List.range 512).map (fun i => (n + i, mkSide 0 0 f flagPoison))

def jb : RedJob := ⟨0, 0, 2, bk, r1.chan 0 0 2⟩

def jl : RedJob := { jb with ch := { jb.ch with loaded := 1 } }

def sRes : State := { r1 with side := tainted (wB / 128) 0 ++ r1.side }.updChan 0 0 2 (fun x => { x with loaded := 1 })

def sLoad : State := { r1 with side := tainted (src / 128) fINT32 ++ r1.side.drop 1 }

theorem res_badLine : sRes.badLine ((List.range 512).map (fun i => wB / 128 + i)) = none := by
  have hs : sRes.side = tainted (wB / 128) 0 ++ r1.side := rfl
  have hv : ∀ n ∈ (List.range 512).map (fun i => wB / 128 + i), sRes.served (128 * n) = true := by decide +kernel
  simp only [State.badLine, Option.map_eq_none_iff, List.find?_eq_none]
  intro n hn
  have : sbPoison (sRes.sideOf n) = true := by
    unfold State.sideOf; rw [hs]; unfold tainted; rw [get_tainted hn]; decide +kernel
  simp [hv n hn, this]

/-- A chunk that resolves to the sum of one rank alone. -/
theorem test_met_res :
    sRes.Canonical ∧ sRes.live 0 = true ∧ (sRes.chan 0 0 2).accepted = [bk, bk2] ∧ (sRes.ctx 0 0).st = CtxSt.running ∧
    sRes.flight bk.fid = some fl ∧ sRes.redJob 0 0 2 = some jl ∧ sRes.waits (sRes.redAccess jl) = [] ∧
    sRes.served (128 * sRes.hdrLine jl) = true ∧ (sRes.line (sRes.hdrLine jl)).crcOk = true ∧ jl.ch.nranks = 1 ∧ jl.ch.rank = 0 ∧
    jl.ch.fmt = fINT32 ∧ jl.ch.fwd = jl.ch.res ∧ jl.ch.loaded = jl.ch.res + 1 ∧
    sRes.badLine (jl.partLines (sRes.workBase 0 0 2) jl.ch.res) = none ∧
    ∀ n ∈ chunkLines fINT32 bk.size bk.dst jl.ch.res, sRes.served (128 * n) = true := by
  refine ⟨by unfold State.Canonical; decide +kernel, by decide +kernel, by decide +kernel, by decide +kernel, by decide +kernel,
    by decide +kernel, by decide +kernel, by decide +kernel, by decide +kernel, by decide +kernel, by decide +kernel, by decide +kernel,
    by decide +kernel, by decide +kernel, ?_, by decide +kernel⟩
  rw [show jl.partLines (sRes.workBase 0 0 2) jl.ch.res = (List.range 512).map (fun i => wB / 128 + i) from by decide +kernel]
  exact res_badLine

theorem if_false_and {α : Type} {p q : Bool} {l : List α} : (if (false && p && q) = true then l else []) = [] := by simp

theorem loadLine_none {s : State} {f b n : Nat} (h1 : s.served (128 * n) = true) (h2 : sbPoison (s.sideOf n) = true) (h3 : sbFmt (s.sideOf n) = f) :
    s.loadLine f b n = none := by
  have hb : s.badLine [n] = none := by simp [State.badLine, h1, h2]
  unfold State.loadLine
  rw [hb, h3]
  exact if_pos rfl

theorem loadBad_none {s : State} {j : RedJob} {f a : Nat} {us : List Nat} (hb : j.blk = false) (hc : j.ch.fmt = f) (hr : j.b.src = a)
    (hu : j.units 0 = us)
    (h : ∀ n ∈ us.map (fun i => a / 128 + i), s.served (128 * n) = true ∧ sbPoison (s.sideOf n) = true ∧ sbFmt (s.sideOf n) = f) :
    s.loadBad j 0 = none := by
  unfold State.loadBad
  rw [hu, hc, hb, List.findSome?_eq_none_iff]
  intro x hx
  rcases List.mem_append.1 hx with hx | hx
  · rw [if_neg Bool.false_ne_true] at hx; exact absurd hx List.not_mem_nil
  · obtain ⟨i, hi, hx⟩ := List.mem_flatMap.1 hx
    obtain ⟨h1, h2, h3⟩ := h _ (List.mem_map.2 ⟨i, hi, rfl⟩)
    rcases List.mem_append.1 hx with hx | hx
    · change x ∈ (if (false && _ && _) = true then _ else []) at hx; rw [if_false_and] at hx; exact absurd hx List.not_mem_nil
    · have hq : j.resUnit j.b.src i = [a / 128 + i] := by unfold RedJob.resUnit; rw [hb, hr]; rfl
      rw [hq] at hx
      rw [id_eq, List.mem_singleton.1 hx]
      exact loadLine_none h1 h2 h3

theorem load_loadBad : sLoad.loadBad jb 0 = none := by
  have hs : sLoad.side = tainted (src / 128) fINT32 ++ r1.side.drop 1 := rfl
  have hv : ∀ n ∈ (List.range 512).map (fun i => src / 128 + i), sLoad.served (128 * n) = true := by decide +kernel
  refine loadBad_none (f := fINT32) (a := src) (by decide +kernel) (by decide +kernel) rfl
    (us := List.range 512) (by decide +kernel) (fun n hn => ⟨hv n hn, ?_⟩)
  have hd : sLoad.sideOf n = mkSide 0 0 fINT32 flagPoison := by
    unfold State.sideOf; rw [hs]; unfold tainted; exact get_tainted hn
  rw [hd]; decide +kernel

/-- A chunk that loads. -/
theorem test_met_load :
    sLoad.Canonical ∧ sLoad.live 0 = true ∧ (sLoad.chan 0 0 2).accepted = [bk, bk2] ∧ (sLoad.ctx 0 0).st = CtxSt.running ∧
    sLoad.flight bk.fid = some fl ∧ sLoad.redJob 0 0 2 = some jb ∧ jb.ch.loaded < jb.n ∧
    sLoad.waits ((chunkLines jb.ch.fmt bk.size bk.src jb.ch.loaded).map (fun n => (0, n)) ++
      (jb.partLines (sLoad.workBase 0 0 2) jb.ch.loaded).map (fun n => (1, n))) = [] ∧
    sLoad.loadBad jb jb.ch.loaded = none ∧ (∀ n ∈ jb.partLines (sLoad.workBase 0 0 2) jb.ch.loaded, sLoad.served (128 * n) = true) ∧
    jb.blk = false ∧ ∀ i ∈ jb.units jb.ch.loaded, sLoad.workBase 0 0 2 / 128 + 512 ≤ bk.src / 128 + i := by
  refine ⟨by unfold State.Canonical; decide +kernel, by decide +kernel, by decide +kernel, by decide +kernel, by decide +kernel,
    by decide +kernel, by decide +kernel, by decide +kernel, ?_, by decide +kernel, by decide +kernel, by decide +kernel⟩
  exact load_loadBad

end ReductionChannels

namespace LinkStates

def s0 : State := b8.setFld 0 .agl 0 0x20 0 3 7

def s1 : State := b8

def s2 : State := b8.setLk 0 lkTrain

def s3 : State := ba.setLk 0 lkTrain

def s4 : State := ba.setLk 0 lkRetrain

def s5 : State := (b8.updLink 0 (fun k => { k with keep := true, fails := 1})).setLk 0 lkTrain

def s6 : State := (b8.setLk 0 lkRetrain).updLink 0 (fun k => { k with keep := true, fails := 2})

def s7 : State := b8.setLk 0 lkAlign

def s8 : State := ba.setLk 0 lkAlign

def s9 : State := b8.setLk 0 lkUp

/-- States and operands that meet what `LinkStates` asks, clause by clause (part 1). -/
theorem test_met_1 :
    s0.Canonical ∧ s1.Canonical ∧ s2.Canonical ∧ s3.Canonical ∧ s4.Canonical ∧ (s0.aglLive 0 = true ∧ s0.lkState 0 = lkDown ∧
    bitOf (s0.rg 0 Blk.agl 0 32) 0 = true) ∧ (s1.aglLive 0 = true ∧ (s1.lkState 0 ≠ lkDown ∨ bitOf (s1.rg 0 Blk.agl 0 32) 0 = false)) ∧
    (s2.aglLive 0 = true ∧ (s2.lkState 0 = lkTrain ∨ s2.lkState 0 = lkRetrain) ∧ 65535 % 65536 = 65535) ∧ (s3.aglLive 0 = true ∧
    (s3.lkState 0 = lkTrain ∨ s3.lkState 0 = lkRetrain) ∧ bitOf (s3.rg 0 Blk.agl 0 32) 2 = true ∧ 1023 % 65536 ≠ 65535 ∧
    (1023 % 256 = 255 ∨ 1023 / 256 % 256 = 255)) ∧ (s4.aglLive 0 = true ∧ (s4.lkState 0 = lkTrain ∨ s4.lkState 0 = lkRetrain) ∧
    4 % 65536 ≠ 65535 ∧ (bitOf (s4.rg 0 Blk.agl 0 32) 2 = false ∨ 4 % 256 ≠ 255 ∧ 4 / 256 % 256 ≠ 255) ∧ (s4.link 0).keep = false) := by
  unfold State.Canonical; decide +kernel

/-- States and operands that meet what `LinkStates` asks, clause by clause (part 2). -/
theorem test_met_2 :
    s5.Canonical ∧ s6.Canonical ∧ s7.Canonical ∧ (s5.aglLive 0 = true ∧ (s5.lkState 0 = lkTrain ∨ s5.lkState 0 = lkRetrain) ∧ 1 % 65536 ≠ 65535 ∧
    (bitOf (s5.rg 0 Blk.agl 0 32) 2 = false ∨ 1 % 256 ≠ 255 ∧ 1 / 256 % 256 ≠ 255) ∧ (s5.link 0).keep = true ∧ (s5.link 0).fails < 2) ∧
    (s6.aglLive 0 = true ∧ (s6.lkState 0 = lkTrain ∨ s6.lkState 0 = lkRetrain) ∧ 1024 % 65536 ≠ 65535 ∧
    (bitOf (s6.rg 0 Blk.agl 0 32) 2 = false ∨ 1024 % 256 ≠ 255 ∧ 1024 / 256 % 256 ≠ 255) ∧ (s6.link 0).keep = true ∧ 2 ≤ (s6.link 0).fails ∧
    (s6.link 0).hreqs = []) ∧ (s7.aglLive 0 = true ∧ s7.lkState 0 = lkAlign ∧ (s7.link 0).sendq = [] ∧ (1 = 0 ∨ 4 < 1024 ∨ 0 < 1024 ∨ 0 < 1024)) := by
  unfold State.Canonical; decide +kernel

/-- States and operands that meet what `LinkStates` asks, clause by clause (part 3). -/
theorem test_met_3 :
    s8.Canonical ∧ s9.Canonical ∧ (s8.aglLive 0 = true ∧ s8.lkState 0 = lkAlign ∧ (s8.link 0).sendq = [] ∧ 1024 ≠ 0 ∧ 1024 ≤ 2048 ∧
    1024 ≤ 65280 ∧ 1024 ≤ 1024 ∧ (s8.link 0).keep = false) ∧ (s9.aglLive 0 = true ∧ s9.lkState 0 = lkUp) ∧ (s1.aglLive 0 = true ∧
    s1.lkState 0 ≠ lkUp) ∧ (s1.aglLive 0 = true ∧ (s1.link 0).hreqs = []) := by
  unfold State.Canonical; decide +kernel

/-- What `LinkStates` asks of the queues of these states. -/
theorem test_ready :
    s0.NoneStalled ∧ s1.NoneStalled ∧ s2.NoneStalled ∧ s3.NoneStalled ∧ s4.NoneStalled ∧ s5.NoneStalled ∧ s6.NoneStalled ∧
    s7.NoneStalled ∧ s8.NoneStalled ∧ s9.NoneStalled :=
  ⟨noneStalled_of (by decide +kernel), noneStalled_of (by decide +kernel), noneStalled_of (by decide +kernel),
   noneStalled_of (by decide +kernel), noneStalled_of (by decide +kernel), noneStalled_of (by decide +kernel),
   noneStalled_of (by decide +kernel), noneStalled_of (by decide +kernel), noneStalled_of (by decide +kernel), noneStalled_of (by decide +kernel)⟩

end LinkStates

namespace FlitsAndInterrupts

def fl (w : Nat) (slots : List Byte) (cr : Nat) (bad : Nat) : List Byte :=
  let b := leBytes 4 w ++ padTo 240 slots ++ leBytes 2 cr ++ leBytes 2 cr ++ leBytes 2 3 ++ leBytes 2 0
  b ++ leBytes 4 ((crc32c b).toNat + bad)

def rd (a : Nat) : List Byte := padTo 16 (leBytes 1 1 ++ leBytes 1 0 ++ leBytes 2 1 ++ leBytes 4 0 ++ leBytes 8 a)

def f8 : Flit := {fseq := 8}

def f9 : Flit := {fseq := 9}

def s0 : State := ba.setLk 0 lkUp

def s1 : State := b8.setLk 0 lkUp

def s2 : State := (b8.setLk 0 lkUp).updLink 0 (fun k => { k with fseq := 10, unacked := [{fseq := 8}, {fseq := 9}]})

def s3 : State := ((ba.updLink 0 (fun k => { k with replays := 8})).setLk 0 lkUp).updLink 0 (fun k => { k with fseq := 10, unacked := [{fseq := 8}, {fseq := 9}]})

def s4 : State := (ba.setLk 0 lkUp).updLink 0 (fun k => { k with intrq := [7,8]})

def s5 : State := ba.updLink 0 (fun k => { k with intrq := [7,8]})

def s6 : State := (b8.setLk 0 lkUp).updLink 0 (fun k => {k with fseq := 10, unacked := [f8, f9]})

/-- States and operands that meet what `FlitsAndInterrupts` asks, clause by clause (part 1). -/
theorem test_met_1 :
    s0.Canonical ∧ s1.Canonical ∧ ((fl 3 [] 5 0).length = 256 ∧
    ((crc32c (List.take 252 (fl 3 [] 5 0))).toNat ≠ leAt (fl 3 [] 5 0) 252 4 ∨ ((crc32c (List.take 252 (fl 3 [] 5 0))).toNat = leAt (fl 3 [] 5 0) 252 4 ∧
    nbits (leAt (fl 3 [] 5 0) 0 4) 28 4 = 0 ∧ leAt (fl 3 [] 5 0) 250 2 = 0) ∧ nbits (leAt (fl 3 [] 5 0) 0 4) 25 3 = 0 ∧
    nbits (leAt (fl 3 [] 5 0) 0 4) 0 12 ≠ (s0.link 0).rxNext)) ∧ ((fl 0 [] 5 0).length = 256 ∧
    ((crc32c (List.take 252 (fl 0 [] 5 0))).toNat = leAt (fl 0 [] 5 0) 252 4 ∧ nbits (leAt (fl 0 [] 5 0) 0 4) 28 4 = 0 ∧
    leAt (fl 0 [] 5 0) 250 2 = 0) ∧ nbits (leAt (fl 0 [] 5 0) 0 4) 25 3 = 0 ∧ nbits (leAt (fl 0 [] 5 0) 0 4) 0 12 = (s1.link 0).rxNext ∧
    nbit (leAt (fl 0 [] 5 0) 0 4) 24 = false ∧ (s1.link 0).partMsg = [] ∧ (s1.link 0).sendq = [] ∧
    parseMsgs 300 (List.take 240 (List.drop 4 (fl 0 [] 5 0))) = ([], [], none)) := by
  unfold State.Canonical; decide +kernel

/-- States and operands that meet what `FlitsAndInterrupts` asks, clause by clause (part 2). -/
theorem test_met_2 :
    s2.Canonical ∧ ((fl 0 (rd 256) 0 0).length = 256 ∧ ((crc32c (List.take 252 (fl 0 (rd 256) 0 0))).toNat = leAt (fl 0 (rd 256) 0 0) 252 4 ∧
    nbits (leAt (fl 0 (rd 256) 0 0) 0 4) 28 4 = 0 ∧ leAt (fl 0 (rd 256) 0 0) 250 2 = 0) ∧ nbits (leAt (fl 0 (rd 256) 0 0) 0 4) 25 3 = 0 ∧
    nbits (leAt (fl 0 (rd 256) 0 0) 0 4) 0 12 = (s1.link 0).rxNext ∧ nbit (leAt (fl 0 (rd 256) 0 0) 0 4) 24 = false ∧ (s1.link 0).partMsg = [] ∧
    (s1.link 0).sendq = [] ∧
    parseMsgs 300 (List.take 240 (List.drop 4 (fl 0 (rd 256) 0 0))) = ([{ opc := 1, tag := 1, addr := 256 }], [], none) ∧ 256 % 128 = 0 ∧
    s1.served 256 = true ∧ s1.mustWait 0 (256 / 128) = false ∧ (s1.line (256 / 128)).crcOk = true ∧ sbPoison (s1.sideOf (256 / 128)) = false) ∧
    (s1.aglLive 0 = true ∧ s1.lkState 0 = lkUp ∧ (s1.link 0).unacked = []) ∧ (s2.aglLive 0 = true ∧ s2.lkState 0 = lkUp ∧
    (s2.link 0).unacked ≠ [] ∧ (s2.link 0).replays < 8) := by
  unfold State.Canonical; decide +kernel

/-- States and operands that meet what `FlitsAndInterrupts` asks, clause by clause (part 3). -/
theorem test_met_3 :
    s3.Canonical ∧ s4.Canonical ∧ s5.Canonical ∧ (s3.aglLive 0 = true ∧ s3.lkState 0 = lkUp ∧ (s3.link 0).unacked ≠ [] ∧
    8 ≤ (s3.link 0).replays) ∧ (s1.aglLive 0 = true ∧ s1.lkState 0 = lkUp ∧ (∀ (f : Flit), f ∈ (s1.link 0).unacked → f.fseq ≠ 1)) ∧
    (s4.aglLive 0 = true ∧ List.find? (fun v => !s4.vectorHeld v) (s4.link 0).intrq = some 7 ∧ s4.lkState 0 = lkUp) ∧ (s5.aglLive 0 = true ∧
    List.find? (fun v => !s5.vectorHeld v) (s5.link 0).intrq = some 7 ∧ s5.lkState 0 = lkDown) := by
  unfold State.Canonical; decide +kernel

/-- States and operands that meet what `FlitsAndInterrupts` asks, clause by clause (part 4). -/
theorem test_met_4 :
    s6.Canonical ∧ ((fl (1 * 2 ^ 25 + 2 ^ 24 + 8 * 2 ^ 12) [] 0 0).length = 256 ∧
    ((crc32c (List.take 252 (fl (1 * 2 ^ 25 + 2 ^ 24 + 8 * 2 ^ 12) [] 0 0))).toNat = leAt (fl (1 * 2 ^ 25 + 2 ^ 24 + 8 * 2 ^ 12) [] 0 0) 252 4 ∧
    nbits (leAt (fl (1 * 2 ^ 25 + 2 ^ 24 + 8 * 2 ^ 12) [] 0 0) 0 4) 28 4 = 0 ∧ leAt (fl (1 * 2 ^ 25 + 2 ^ 24 + 8 * 2 ^ 12) [] 0 0) 250 2 = 0) ∧
    nbits (leAt (fl (1 * 2 ^ 25 + 2 ^ 24 + 8 * 2 ^ 12) [] 0 0) 0 4) 25 3 = 1 ∧
    nbit (leAt (fl (1 * 2 ^ 25 + 2 ^ 24 + 8 * 2 ^ 12) [] 0 0) 0 4) 24 = true ∧ (s6.link 0).sendq = [] ∧ (s6.link 0).unacked = [] ++ [f8, f9] ∧
    f8.fseq = nbits (leAt (fl (1 * 2 ^ 25 + 2 ^ 24 + 8 * 2 ^ 12) [] 0 0) 0 4) 12 12 ∧ (∀ (g : Flit), g ∈ [] → g.fseq ≠ f8.fseq)) ∧
    (s6.aglLive 0 = true ∧ s6.lkState 0 = lkUp ∧ (s6.link 0).sendq = [] ∧ (s6.link 0).unacked = [] ++ [f8, f9] ∧ f8.fseq = 8 ∧
    (∀ (g : Flit), g ∈ [] → g.fseq ≠ 8)) := by
  unfold State.Canonical; decide +kernel

/-- What `FlitsAndInterrupts` asks of the queues of these states. -/
theorem test_ready :
    s0.HostReady 0 ∧ s1.HostReady 0 ∧ s6.HostReady 0 :=
  ⟨hostReady_of (by decide +kernel), hostReady_of (by decide +kernel), hostReady_of (by decide +kernel)⟩

end FlitsAndInterrupts

namespace HostRequests

def x0 : Env := {}

def s0 : State := (up (ba))

def s1 : State := (up ((let s : State := ba; s.putLine 2 {bytes := [1,2], sb := 5})))

def s2 : State := ((up (ba))).putLine 2 (mkLine [1,2,3] 4 0 1)

/-- States and operands that meet what `HostRequests` asks, clause by clause (part 1). -/
theorem test_met_1 :
    s0.Canonical ∧
    (∃ r ∈ [(Instr.rdOnce 0 1 0, { opc := 1, tag := 1 }), (Instr.rdShared 0 1 0, { opc := 2, tag := 1 }), (Instr.rdOwn 0 1 0, { opc := 3, tag := 1 }), (Instr.rd8 0 1 0, { opc := 4, tag := 1 }), (Instr.wrLine 0 1 0 [] 0#64, { opc := 5, tag := 1, pay := payPL { bytes := [], sb := 0#64 } 0 }), (Instr.wrPart 0 1 0 [] (0#64) 0, { opc := 6, tag := 1, pay := payPM { bytes := [], sb := 0#64 } 0 0 }), (Instr.wr8 0 1 0 5#64, { opc := 7, tag := 1, pay := padTo 16 (leBytes 8 (5#64).toNat) }), (Instr.wrBack 0 1 0 [] 0#64, { opc := 8, tag := 1, pay := payPL { bytes := [], sb := 0#64 } 0 }), (Instr.evict 0 1 0, { opc := 9, tag := 1 }), (Instr.hostAtomic 0 1 0 384 (0#64) (0#64) x0 false, { opc := 10, tag := 1, ak := 384, pay := leBytes 8 (0#64).toNat ++ leBytes 8 (0#64).toNat })], (s0.proxyOut 0 = false) ∧
    (s0.hostStatus 0 r.snd ≠ 0)) := by
  unfold State.Canonical; decide +kernel

/-- States and operands that meet what `HostRequests` asks, clause by clause (part 2). -/
theorem test_met_2 :
    (∃ r ∈ [(Instr.rdOnce 0 1 0, { opc := 1, tag := 1 }), (Instr.rdShared 0 1 0, { opc := 2, tag := 1 }), (Instr.rdOwn 0 1 0, { opc := 3, tag := 1 }), (Instr.rd8 0 1 0, { opc := 4, tag := 1 }), (Instr.wrLine 0 1 0 [] 0#64, { opc := 5, tag := 1, pay := payPL { bytes := [], sb := 0#64 } 0 }), (Instr.wrPart 0 1 0 [] (0#64) 0, { opc := 6, tag := 1, pay := payPM { bytes := [], sb := 0#64 } 0 0 }), (Instr.wr8 0 1 0 5#64, { opc := 7, tag := 1, pay := padTo 16 (leBytes 8 (5#64).toNat) }), (Instr.wrBack 0 1 0 [] 0#64, { opc := 8, tag := 1, pay := payPL { bytes := [], sb := 0#64 } 0 }), (Instr.evict 0 1 0, { opc := 9, tag := 1 }), (Instr.hostAtomic 0 1 0 384 (0#64) (0#64) x0 false, { opc := 10, tag := 1, ak := 384, pay := leBytes 8 (0#64).toNat ++ leBytes 8 (0#64).toNat })], (s0.hostStatus 0 r.snd = 0) ∧
    (isRegAddr 0 = false) ∧ (s0.hostWaits 0 r.snd = false) ∧ (s0.proxyOut 0 = false) ∧ (r.snd.opc ≤ 3) ∧
    (sbPoison (s0.line (0 / 128)).sb = true ∨ (s0.line (0 / 128)).crcOk = true)) := by
  decide +kernel

/-- States and operands that meet what `HostRequests` asks, clause by clause (part 3). -/
theorem test_met_3 :
    s1.Canonical ∧
    (∃ r ∈ [(Instr.rdOnce 0 256 256, { opc := 1, tag := 256, addr := 256 }), (Instr.rdShared 0 256 256, { opc := 2, tag := 256, addr := 256 }), (Instr.rdOwn 0 256 256, { opc := 3, tag := 256, addr := 256 }), (Instr.rd8 0 256 256, { opc := 4, tag := 256, addr := 256 }), (Instr.wrLine 0 256 256 [1, 2, 3] 5#64, { opc := 5, tag := 256, addr := 256, pay := payPL { bytes := [1, 2, 3], sb := 5#64 } 0 }), (Instr.wrPart 0 256 256 [1, 2, 3] (5#64) 256, { opc := 6, tag := 256, addr := 256, pay := payPM { bytes := [1, 2, 3], sb := 5#64 } 0 256 }), (Instr.wr8 0 256 256 0#64, { opc := 7, tag := 256, addr := 256, pay := padTo 16 (leBytes 8 (0#64).toNat) }), (Instr.wrBack 0 256 256 [1, 2, 3] 5#64, { opc := 8, tag := 256, addr := 256, pay := payPL { bytes := [1, 2, 3], sb := 5#64 } 0 }), (Instr.evict 0 256 256, { opc := 9, tag := 256, addr := 256 }), (Instr.hostAtomic 0 256 256 0 (5#64) (0#64) x0 false, { opc := 10, tag := 256, addr := 256, pay := leBytes 8 (5#64).toNat ++ leBytes 8 (0#64).toNat })], (s1.hostStatus 0 r.snd = 0) ∧
    (isRegAddr 256 = false) ∧ (s1.hostWaits 0 r.snd = false) ∧ (s1.proxyOut 0 = false) ∧ (r.snd.opc ≤ 3) ∧
    (sbPoison (s1.line (256 / 128)).sb = false) ∧ ((s1.line (256 / 128)).crcOk = false)) := by
  unfold State.Canonical; decide +kernel

/-- States and operands that meet what `HostRequests` asks, clause by clause (part 4). -/
theorem test_met_4 :
    (∃ r ∈ [(Instr.rdOnce 0 1 0, { opc := 1, tag := 1 }), (Instr.rdShared 0 1 0, { opc := 2, tag := 1 }), (Instr.rdOwn 0 1 0, { opc := 3, tag := 1 }), (Instr.rd8 0 1 0, { opc := 4, tag := 1 }), (Instr.wrLine 0 1 0 [] 0#64, { opc := 5, tag := 1, pay := payPL { bytes := [], sb := 0#64 } 0 }), (Instr.wrPart 0 1 0 [] (0#64) 0, { opc := 6, tag := 1, pay := payPM { bytes := [], sb := 0#64 } 0 0 }), (Instr.wr8 0 1 0 5#64, { opc := 7, tag := 1, pay := padTo 16 (leBytes 8 (5#64).toNat) }), (Instr.wrBack 0 1 0 [] 0#64, { opc := 8, tag := 1, pay := payPL { bytes := [], sb := 0#64 } 0 }), (Instr.evict 0 1 0, { opc := 9, tag := 1 }), (Instr.hostAtomic 0 1 0 384 (0#64) (0#64) x0 false, { opc := 10, tag := 1, ak := 384, pay := leBytes 8 (0#64).toNat ++ leBytes 8 (0#64).toNat })], (s0.hostStatus 0 r.snd = 0) ∧
    (isRegAddr 0 = false) ∧ (s0.hostWaits 0 r.snd = false) ∧ (s0.proxyOut 0 = false) ∧ (r.snd.opc = 4) ∧
    (sbPoison (s0.line (0 / 128)).sb = false) ∧ ((s0.line (0 / 128)).crcOk = true)) := by
  decide +kernel

/-- States and operands that meet what `HostRequests` asks, clause by clause (part 5). -/
theorem test_met_5 :
    (∃ r ∈ [(Instr.rdOnce 0 1 0, { opc := 1, tag := 1 }), (Instr.rdShared 0 1 0, { opc := 2, tag := 1 }), (Instr.rdOwn 0 1 0, { opc := 3, tag := 1 }), (Instr.rd8 0 1 0, { opc := 4, tag := 1 }), (Instr.wrLine 0 1 0 [] 0#64, { opc := 5, tag := 1, pay := payPL { bytes := [], sb := 0#64 } 0 }), (Instr.wrPart 0 1 0 [] (0#64) 0, { opc := 6, tag := 1, pay := payPM { bytes := [], sb := 0#64 } 0 0 }), (Instr.wr8 0 1 0 5#64, { opc := 7, tag := 1, pay := padTo 16 (leBytes 8 (5#64).toNat) }), (Instr.wrBack 0 1 0 [] 0#64, { opc := 8, tag := 1, pay := payPL { bytes := [], sb := 0#64 } 0 }), (Instr.evict 0 1 0, { opc := 9, tag := 1 }), (Instr.hostAtomic 0 1 0 384 (0#64) (0#64) x0 false, { opc := 10, tag := 1, ak := 384, pay := leBytes 8 (0#64).toNat ++ leBytes 8 (0#64).toNat })], (s0.hostStatus 0 r.snd = 0) ∧
    (isRegAddr 0 = false) ∧ (s0.hostWaits 0 r.snd = false) ∧ (s0.proxyOut 0 = false) ∧ (r.snd.opc = 5)) := by
  decide +kernel

/-- States and operands that meet what `HostRequests` asks, clause by clause (part 6). -/
theorem test_met_6 :
    (∃ r ∈ [(Instr.rdOnce 0 1 0, { opc := 1, tag := 1 }), (Instr.rdShared 0 1 0, { opc := 2, tag := 1 }), (Instr.rdOwn 0 1 0, { opc := 3, tag := 1 }), (Instr.rd8 0 1 0, { opc := 4, tag := 1 }), (Instr.wrLine 0 1 0 [] 0#64, { opc := 5, tag := 1, pay := payPL { bytes := [], sb := 0#64 } 0 }), (Instr.wrPart 0 1 0 [] (0#64) 0, { opc := 6, tag := 1, pay := payPM { bytes := [], sb := 0#64 } 0 0 }), (Instr.wr8 0 1 0 5#64, { opc := 7, tag := 1, pay := padTo 16 (leBytes 8 (5#64).toNat) }), (Instr.wrBack 0 1 0 [] 0#64, { opc := 8, tag := 1, pay := payPL { bytes := [], sb := 0#64 } 0 }), (Instr.evict 0 1 0, { opc := 9, tag := 1 }), (Instr.hostAtomic 0 1 0 384 (0#64) (0#64) x0 false, { opc := 10, tag := 1, ak := 384, pay := leBytes 8 (0#64).toNat ++ leBytes 8 (0#64).toNat })], (s0.hostStatus 0 r.snd = 0) ∧
    (isRegAddr 0 = false) ∧ (s0.hostWaits 0 r.snd = false) ∧ (s0.proxyOut 0 = false) ∧ (r.snd.opc = 6)) := by
  decide +kernel

/-- States and operands that meet what `HostRequests` asks, clause by clause (part 7). -/
theorem test_met_7 :
    (∃ r ∈ [(Instr.rdOnce 0 0 128, { opc := 1, addr := 128 }), (Instr.rdShared 0 0 128, { opc := 2, addr := 128 }), (Instr.rdOwn 0 0 128, { opc := 3, addr := 128 }), (Instr.rd8 0 0 128, { opc := 4, addr := 128 }), (Instr.wrLine 0 0 128 (List.map (fun i => BitVec.ofNat 8 i) (List.range 128)) 5#64, { opc := 5, addr := 128, pay := payPL { bytes := List.map (fun i => BitVec.ofNat 8 i) (List.range 128), sb := 5#64 } 0 }), (Instr.wrPart 0 0 128 (List.map (fun i => BitVec.ofNat 8 i) (List.range 128)) (5#64) 15, { opc := 6, addr := 128, pay := payPM { bytes := List.map (fun i => BitVec.ofNat 8 i) (List.range 128), sb := 5#64 } 0 15 }), (Instr.wr8 0 0 128 0#64, { opc := 7, addr := 128, pay := padTo 16 (leBytes 8 (0#64).toNat) }), (Instr.wrBack 0 0 128 (List.map (fun i => BitVec.ofNat 8 i) (List.range 128)) 5#64, { opc := 8, addr := 128, pay := payPL { bytes := List.map (fun i => BitVec.ofNat 8 i) (List.range 128), sb := 5#64 } 0 }), (Instr.evict 0 0 128, { opc := 9, addr := 128 }), (Instr.hostAtomic 0 0 128 15 (0#64) (5#64) x0 false, { opc := 10, ak := 15, addr := 128, pay := leBytes 8 (0#64).toNat ++ leBytes 8 (5#64).toNat })], (s0.hostStatus 0 r.snd = 0) ∧
    (isRegAddr 128 = false) ∧ (s0.hostWaits 0 r.snd = false) ∧ (s0.proxyOut 0 = false) ∧ (r.snd.opc = 7)) := by
  decide +kernel

/-- States and operands that meet what `HostRequests` asks, clause by clause (part 8). -/
theorem test_met_8 :
    (∃ r ∈ [(Instr.rdOnce 0 1 0, { opc := 1, tag := 1 }), (Instr.rdShared 0 1 0, { opc := 2, tag := 1 }), (Instr.rdOwn 0 1 0, { opc := 3, tag := 1 }), (Instr.rd8 0 1 0, { opc := 4, tag := 1 }), (Instr.wrLine 0 1 0 [] 0#64, { opc := 5, tag := 1, pay := payPL { bytes := [], sb := 0#64 } 0 }), (Instr.wrPart 0 1 0 [] (0#64) 0, { opc := 6, tag := 1, pay := payPM { bytes := [], sb := 0#64 } 0 0 }), (Instr.wr8 0 1 0 5#64, { opc := 7, tag := 1, pay := padTo 16 (leBytes 8 (5#64).toNat) }), (Instr.wrBack 0 1 0 [] 0#64, { opc := 8, tag := 1, pay := payPL { bytes := [], sb := 0#64 } 0 }), (Instr.evict 0 1 0, { opc := 9, tag := 1 }), (Instr.hostAtomic 0 1 0 384 (0#64) (0#64) x0 false, { opc := 10, tag := 1, ak := 384, pay := leBytes 8 (0#64).toNat ++ leBytes 8 (0#64).toNat })], (s0.hostStatus 0 r.snd = 0) ∧
    (isRegAddr 0 = false) ∧ (s0.hostWaits 0 r.snd = false) ∧ (s0.proxyOut 0 = false) ∧ (r.snd.opc = 8)) := by
  decide +kernel

/-- States and operands that meet what `HostRequests` asks, clause by clause (part 9). -/
theorem test_met_9 :
    (∃ r ∈ [(Instr.rdOnce 0 1 0, { opc := 1, tag := 1 }), (Instr.rdShared 0 1 0, { opc := 2, tag := 1 }), (Instr.rdOwn 0 1 0, { opc := 3, tag := 1 }), (Instr.rd8 0 1 0, { opc := 4, tag := 1 }), (Instr.wrLine 0 1 0 [] 0#64, { opc := 5, tag := 1, pay := payPL { bytes := [], sb := 0#64 } 0 }), (Instr.wrPart 0 1 0 [] (0#64) 0, { opc := 6, tag := 1, pay := payPM { bytes := [], sb := 0#64 } 0 0 }), (Instr.wr8 0 1 0 5#64, { opc := 7, tag := 1, pay := padTo 16 (leBytes 8 (5#64).toNat) }), (Instr.wrBack 0 1 0 [] 0#64, { opc := 8, tag := 1, pay := payPL { bytes := [], sb := 0#64 } 0 }), (Instr.evict 0 1 0, { opc := 9, tag := 1 }), (Instr.hostAtomic 0 1 0 384 (0#64) (0#64) x0 false, { opc := 10, tag := 1, ak := 384, pay := leBytes 8 (0#64).toNat ++ leBytes 8 (0#64).toNat })], (s0.hostStatus 0 r.snd = 0) ∧
    (isRegAddr 0 = false) ∧ (s0.hostWaits 0 r.snd = false) ∧ (s0.proxyOut 0 = false) ∧ (r.snd.opc = 9)) := by
  decide +kernel

/-- States and operands that meet what `HostRequests` asks, clause by clause (part 10). -/
theorem test_met_10 :
    s2.Canonical ∧
    (∃ r ∈ [(Instr.rdOnce 0 1 264, { opc := 1, tag := 1, addr := 264 }), (Instr.rdShared 0 1 264, { opc := 2, tag := 1, addr := 264 }), (Instr.rdOwn 0 1 264, { opc := 3, tag := 1, addr := 264 }), (Instr.rd8 0 1 264, { opc := 4, tag := 1, addr := 264 }), (Instr.wrLine 0 1 264 [] 0#64, { opc := 5, tag := 1, addr := 264, pay := payPL { bytes := [], sb := 0#64 } 0 }), (Instr.wrPart 0 1 264 [] (0#64) 15, { opc := 6, tag := 1, addr := 264, pay := payPM { bytes := [], sb := 0#64 } 0 15 }), (Instr.wr8 0 1 264 0#64, { opc := 7, tag := 1, addr := 264, pay := padTo 16 (leBytes 8 (0#64).toNat) }), (Instr.wrBack 0 1 264 [] 0#64, { opc := 8, tag := 1, addr := 264, pay := payPL { bytes := [], sb := 0#64 } 0 }), (Instr.evict 0 1 264, { opc := 9, tag := 1, addr := 264 }), (Instr.hostAtomic 0 1 264 0 (18446744073709551615#64) (844446404968448#64) x0 false, { opc := 10, tag := 1, addr := 264, pay := leBytes 8 (18446744073709551615#64).toNat ++ leBytes 8 (844446404968448#64).toNat })], (s2.hostStatus 0 r.snd = 0) ∧
    (isRegAddr 264 = false) ∧ (s2.hostWaits 0 r.snd = false) ∧ (s2.proxyOut 0 = false) ∧ (r.snd.opc = 10) ∧
    (sbPoison (s2.line (264 / 128)).sb = true)) := by
  unfold State.Canonical; decide +kernel

/-- States and operands that meet what `HostRequests` asks, clause by clause (part 11). -/
theorem test_met_11 :
    (∃ r ∈ [(Instr.rdOnce 0 256 256, { opc := 1, tag := 256, addr := 256 }), (Instr.rdShared 0 256 256, { opc := 2, tag := 256, addr := 256 }), (Instr.rdOwn 0 256 256, { opc := 3, tag := 256, addr := 256 }), (Instr.rd8 0 256 256, { opc := 4, tag := 256, addr := 256 }), (Instr.wrLine 0 256 256 (List.map (fun i => BitVec.ofNat 8 i) (List.range 128)) 0#64, { opc := 5, tag := 256, addr := 256, pay := payPL { bytes := List.map (fun i => BitVec.ofNat 8 i) (List.range 128), sb := 0#64 } 0 }), (Instr.wrPart 0 256 256 (List.map (fun i => BitVec.ofNat 8 i) (List.range 128)) (0#64) 0, { opc := 6, tag := 256, addr := 256, pay := payPM { bytes := List.map (fun i => BitVec.ofNat 8 i) (List.range 128), sb := 0#64 } 0 0 }), (Instr.wr8 0 256 256 0#64, { opc := 7, tag := 256, addr := 256, pay := padTo 16 (leBytes 8 (0#64).toNat) }), (Instr.wrBack 0 256 256 (List.map (fun i => BitVec.ofNat 8 i) (List.range 128)) 0#64, { opc := 8, tag := 256, addr := 256, pay := payPL { bytes := List.map (fun i => BitVec.ofNat 8 i) (List.range 128), sb := 0#64 } 0 }), (Instr.evict 0 256 256, { opc := 9, tag := 256, addr := 256 }), (Instr.hostAtomic 0 256 256 1 (0#64) (844446404968448#64) x0 false, { opc := 10, tag := 256, ak := 1, addr := 256, pay := leBytes 8 (0#64).toNat ++ leBytes 8 (844446404968448#64).toNat })], (s0.hostStatus 0 r.snd = 0) ∧
    (isRegAddr 256 = false) ∧ (s0.hostWaits 0 r.snd = false) ∧ (s0.proxyOut 0 = false) ∧ (r.snd.opc = 10) ∧
    (sbPoison (s0.line (256 / 128)).sb = false) ∧ ((s0.line (256 / 128)).crcOk = true)) := by
  decide +kernel

/-- States and operands that meet what `HostRequests` asks, clause by clause (part 12). -/
theorem test_met_12 :
    (∃ r ∈ [(Instr.rdOnce 0 264 0, { opc := 1, tag := 264 }), (Instr.rdShared 0 264 0, { opc := 2, tag := 264 }), (Instr.rdOwn 0 264 0, { opc := 3, tag := 264 }), (Instr.rd8 0 264 0, { opc := 4, tag := 264 }), (Instr.wrLine 0 264 0 [] 844446404968448#64, { opc := 5, tag := 264, pay := payPL { bytes := [], sb := 844446404968448#64 } 0 }), (Instr.wrPart 0 264 0 [] (844446404968448#64) 1, { opc := 6, tag := 264, pay := payPM { bytes := [], sb := 844446404968448#64 } 0 1 }), (Instr.wr8 0 264 0 0#64, { opc := 7, tag := 264, pay := padTo 16 (leBytes 8 (0#64).toNat) }), (Instr.wrBack 0 264 0 [] 844446404968448#64, { opc := 8, tag := 264, pay := payPL { bytes := [], sb := 844446404968448#64 } 0 }), (Instr.evict 0 264 0, { opc := 9, tag := 264 }), (Instr.hostAtomic 0 264 0 1 (5#64) (0#64) x0 false, { opc := 10, tag := 264, ak := 1, pay := leBytes 8 (5#64).toNat ++ leBytes 8 (0#64).toNat })], (s0.hostStatus 0 r.snd = 0) ∧
    (isRegAddr 0 = false) ∧ (s0.hostWaits 0 r.snd = false) ∧ (s0.proxyOut 0 = false) ∧ (r.snd.opc = 10)) := by
  decide +kernel

/-- What `HostRequests` asks of the queues of these states. -/
theorem test_ready :
    s0.HostReady 0 ∧ s1.HostReady 0 ∧ s2.HostReady 0 :=
  ⟨hostReady_of (by decide +kernel), hostReady_of (by decide +kernel), hostReady_of (by decide +kernel)⟩

end HostRequests

namespace HostAnswers

def hq : HReq := {tag := 3, opc := 0x11, la := 2^47+512, own := .eng 3 0 (.line 256)}

def hf : Flight := {id := 3, d := 0, ws := [wordOf kRACK]}

def s0 : State := (up (ba))

def s1 : State := (up ((let s : State := ba; s.updLink 0 (fun k => {k with filter := [(2,true),(3,false)], snoops := [{tag := 3, ln := 2, inv := false, excl := true}]}))))

def s2 : State := (up ((let s : State := ba; s.updLink 0 (fun k => {k with filter := [(2,false),(3,false)], snoops := [{tag := 3, ln := 2, inv := true, discard := true, excl := true},{tag := 1, ln := 3, inv := true}]}))))

def s3 : State := (up ((let s : State := ba; s.updLink 0 (fun k => {k with hreqs := [{tag := 3, opc := 0x16, la := 512, own := .trap 0}]}))))

def s4 : State := {(up b8).updLink 0 (fun k => {k with hreqs := [hq]}) with flights := [hf], nextId := 4}

/-- States and operands that meet what `HostAnswers` asks, clause by clause (part 1). -/
theorem test_met_1 :
    s0.Canonical ∧ s1.Canonical ∧ s2.Canonical ∧ s3.Canonical ∧
    (∃ i ∈ [Instr.rsp 0 3 0, Instr.rsp8 0 3 0 0#64, Instr.rspData 0 3 0 (List.map (fun i => BitVec.ofNat 8 i) (List.range 128)) 0#64], (s0.snoopOf 0 3 = none) ∧
    (∀ (q : HReq), q ∈ (s0.link 0).hreqs → q.tag ≠ 3)) ∧ s0.snoopOf 0 3 = none ∧ (s1.snoopOf 0 3).isSome = true ∧
    ((s2.snoopOf 0 3).any (fun x => decide ((x.excl = false ∨ x.discard = true))) = true) ∧
    ((s1.snoopOf 0 3).any (fun x => decide ((x.excl = true) ∧ (x.discard = false) ∧ (fmtReserved (sbFmt 5#64) = false))) = true) ∧
    (s3.snoopOf 0 3 = none ∧ ((List.find? (fun q => decide (q.tag = 3)) (s3.link 0).hreqs).any (fun q => decide ((q.own = HOwner.trap 0) ∧
    (q.opc ≠ 17))) = true)) ∧ (s3.snoopOf 0 3 = none ∧
    (List.find? (fun q => decide (q.tag = 3)) (s3.link 0).hreqs).any (fun q => decide ((q.own = HOwner.trap 0))) = true) ∧
    (∀ (q : HReq), q ∈ (s0.link 0).hreqs → q.tag ≠ 3) := by
  unfold State.Canonical; decide +kernel

/-- States and operands that meet what `HostAnswers` asks, clause by clause (part 2). -/
theorem test_met_2 :
    s4.Canonical ∧ (s4.snoopOf 0 3 = none ∧
    ((List.find? (fun q => decide (q.tag = 3)) (s4.link 0).hreqs).any (fun q => decide ((q.own = HOwner.eng 3 0 (LineAct.line 256)) ∧
    (q.opc = 17) ∧ (s4.flight 3 = some hf) ∧ (hf.failed = false) ∧ (hf.todo = []) ∧ (s4.served 256 = true) ∧
    (s4.mustWait 1 (256 / 128) = false) ∧ (s4.isKept 0 (q.la / 128 * 128) = false))) = true)) := by
  unfold State.Canonical; decide +kernel

/-- What `HostAnswers` asks of the queues of these states. -/
theorem test_ready :
    s0.HostReady 0 ∧ s1.HostReady 0 ∧ s2.HostReady 0 ∧ s3.HostReady 0 ∧ s4.HostReady 0 :=
  ⟨hostReady_of (by decide +kernel), hostReady_of (by decide +kernel), hostReady_of (by decide +kernel), hostReady_of (by decide +kernel),
   hostReady_of (by decide +kernel)⟩

end HostAnswers

namespace StartsUp

def recs : Array FlashRec := #[{typ := 1}, {typ := 0x10, slot := 0, pay := [1]}, {typ := 0x20, die := 1}, {typ := 0x12, die := 1}, {typ := 0x22, die := 1}, {typ := 0x11, die := 1}]

def full : List FlashRec := [{typ := 1}, {typ := 0x10}, {typ := 0x11, die := 255}, {typ := 0x11, die := 1}] ++ [0,1].flatMap (fun d => [{typ := 0x20, die := d}, {typ := 0x12, die := d}, {typ := 0x22, die := d},{typ := 0x21, die := d}])

def started (s : State) (slot : Nat) (recs : List FlashRec) : ModCtl := { s.coreReset.modc with good := true, rstLow := false, slotId := slot % 8, boots := s.modc.boots + 1, flash := if recs = [] then s.modc.flash else recs }

def x0 : FlashRec := {typ := 1}

def x1 : FlashRec := {typ := 0x10, slot := 0, pay := [1]}

def s0 : State := ba

def s1 : State := State.reset

def s2 : State := forEach ba.linkDies (fun d t => t.setLk d lkUp) (forEach ba.allDies (fun d t => (t.setFld d .hbm 0 0 24 1 1).setFld d .hbm 1 0 24 1 1) ba)

def s5 : State := b8

def s3 : State := (b8.updDie 1 (fun x => { x with up := false})).setFld 0 .mod 0 0x20 0 4 2

def s4 : State := let s := (b8.setFld 0 .mod 0 0x20 0 4 2).updDie 1 (fun x => { x with up := false}); { s with modc := {s.modc with flash := full, loaded := []}}

/-- States and operands that meet what `StartsUp` asks, clause by clause (part 1). -/
theorem test_met_1 :
    s0.Canonical ∧ s1.Canonical ∧ s2.Canonical ∧ s3.Canonical ∧ (s0.modc.good = true ∧ s0.modc.rstLow = false ∧ s0.stage ≠ 15 ∧
    bitOf (s0.rg 0 Blk.mod 0 32) 4 = false) ∧
    (s1.modc.good = false ∨ s1.modc.rstLow = true ∨ s1.stage = 15 ∨ bitOf (s1.rg 0 Blk.mod 0 32) 4 = true) ∧ (s2.allReady = true ∧
    s2.stage ≠ 15) ∧ s0.allReady = false ∧ (1 < s3.nd ∧ s3.stage = 2 ∧ s3.modc.plane = true ∧ (s3.die 1).up = false ∧ s3.modc.rstLow = false ∧
    (s3.modc.firmware 17 1).fst = none) := by
  unfold State.Canonical; decide +kernel

/-- States and operands that meet what `StartsUp` asks, clause by clause (part 2). -/
theorem test_met_2 :
    s4.Canonical ∧ s5.Canonical ∧ (1 < s4.nd ∧ s4.stage = 2 ∧ s4.modc.plane = true ∧ (s4.die 1).up = false ∧ s4.modc.rstLow = false ∧
    (s4.modc.firmware 17 1).fst ≠ none ∧ (s4.modc.pick (s4.modc.recs 32 1)).fst ≠ none ∧ (s4.modc.pick (s4.modc.recs 18 1)).fst ≠ none ∧
    (s4.modc.field 34 1).fst ≠ none ∧ s4.modc.failedDies.contains 1 = false) ∧ (s5.modc.pendUpd = [] ∧
    ((started s5 3 [x0, x1]).firmware 16 255).fst ≠ none) ∧ (s0.modc.pendUpd = [] ∧ ((started s0 0 []).firmware 16 255).fst = none) := by
  unfold State.Canonical; decide +kernel

end StartsUp

namespace SecurityCommands

def root : FlashRec := {typ := 1}

def x0 : FlashRec := {typ := 2, serial := 7}

def x3 : FlashRec := {typ := 3}

def x2 : FlashRec := {typ := 0x12}

def x1 : FlashRec := {typ := 0x10, slot := 0, pay := [1], svn := 3}

def x4 : FlashRec := {typ := 2, serial := 5}

def s0 : State := { ba with modc := {ba.modc with sec := some (4, some (0, 8))}}

def s1 : State := ba

def s2 : State := ba.setRg 0 .sec 0 0x30 (wordOf (0x10 * 2^32 + 200))

def s3 : State := b8.setRg 0 .sec 0 0x30 (wordOf (0x10 * 2^32 + 200))

def s4 : State := let s := ba.setRg 0 .sec 0 0x30 (wordOf (0x10 * 2^32 + 200)); { s with modc := {s.modc with flash := [root, {typ := 0x10, svn := 4}, {typ := 0x11, die := 0, svn := 2}], loaded := [{typ := 0x10, svn := 4}, {typ := 0x11, svn := 2}]}}

def s5 : State := { ba with modc := {ba.modc with flash := [root, {typ := 0x10, svn := 4}, {typ := 0x11, die := 0, svn := 2}], loaded := [{typ := 0x10, svn := 4}, {typ := 0x11, svn := 2}]}}

def s6 : State := { b8 with modc := {b8.modc with serial := some 5}}

def s7 : State := ({ b8 with modc := {b8.modc with serial := some 5}}).setRg 0 .sec 0 0x30 (wordOf 512)

def s8 : State := { b8 with modc := {b8.modc with flash := [root]}}

def s9 : State := let s := { b8 with modc := {b8.modc with serial := some 5}}; { s with modc := {s.modc with flash := [root, {typ := 0x10, svn := 4}, {typ := 0x11, die := 0, svn := 2}], loaded := [{typ := 0x10, svn := 4}, {typ := 0x11, svn := 2}]}}

def s10 : State := let s := { b8 with modc := {b8.modc with flash := [root, {typ := 0x10, svn := 4}, {typ := 0x11, die := 0, svn := 2}], loaded := [{typ := 0x10, svn := 4}, {typ := 0x11, svn := 2}]}}; { s with modc := {s.modc with owner := some 12}}

/-- States and operands that meet what `SecurityCommands` asks, clause by clause (part 1). -/
theorem test_met_1 :
    s0.Canonical ∧ s1.Canonical ∧ s2.Canonical ∧ s3.Canonical ∧ (s0.live 0 = true ∧
    ((s0.modc.sec).any (fun x => decide ((∃ e ∈ [(1, Instr.update (some x0) true), (2, Instr.commit true), (3, Instr.attest (some []) [] true), (4, Instr.ownerInstall (some x0) true)], (x ≠ (e.fst, none))))) = true)) ∧
    (s1.live 0 = true ∧ (s1.modc.sec = none ∨ s1.modc.sec = some (1, none)) ∧ (s1.fld 0 Blk.sec 0 48 32 16 ≠ 16 ∧
    s1.fld 0 Blk.sec 0 48 32 16 ≠ 17 ∨ s1.fld 0 Blk.sec 0 48 0 32 < 128)) ∧ (s2.live 0 = true ∧
    (s2.modc.sec = none ∨ s2.modc.sec = some (1, none)) ∧ (s2.fld 0 Blk.sec 0 48 32 16 = 16 ∨ s2.fld 0 Blk.sec 0 48 32 16 = 17) ∧
    128 ≤ s2.fld 0 Blk.sec 0 48 0 32) ∧ (s3.live 0 = true ∧ (s3.modc.sec = none ∨ s3.modc.sec = some (1, none)) ∧
    (s3.fld 0 Blk.sec 0 48 32 16 = 16 ∨ s3.fld 0 Blk.sec 0 48 32 16 = 17) ∧ 128 ≤ s3.fld 0 Blk.sec 0 48 0 32 ∧
    x1.typ = s3.fld 0 Blk.sec 0 48 32 16 ∧ (s3.modc.cmdCode x1).isSome = true) := by
  unfold State.Canonical; decide +kernel

/-- States and operands that meet what `SecurityCommands` asks, clause by clause (part 2). -/
theorem test_met_2 :
    s4.Canonical ∧ s5.Canonical ∧ (s4.live 0 = true ∧ (s4.modc.sec = none ∨ s4.modc.sec = some (1, none)) ∧
    (s4.fld 0 Blk.sec 0 48 32 16 = 16 ∨ s4.fld 0 Blk.sec 0 48 32 16 = 17) ∧ 128 ≤ s4.fld 0 Blk.sec 0 48 0 32 ∧
    x1.typ = s4.fld 0 Blk.sec 0 48 32 16 ∧ s4.modc.cmdCode x1 = none) ∧ (s1.live 0 = true ∧ (s1.modc.sec = none ∨ s1.modc.sec = some (2, none)) ∧
    ¬smGet 0 s1.modc.minSvn 16 < s1.modc.activeSvn 16 ∧ ¬smGet 0 s1.modc.minSvn 17 < s1.modc.activeSvn 17) ∧ (s5.live 0 = true ∧
    (s5.modc.sec = none ∨ s5.modc.sec = some (2, none)) ∧
    (smGet 0 s5.modc.minSvn 16 < s5.modc.activeSvn 16 ∨ smGet 0 s5.modc.minSvn 17 < s5.modc.activeSvn 17)) ∧ (s1.live 0 = true ∧
    (s1.modc.sec = none ∨ s1.modc.sec = some (3, none)) ∧ s1.modc.serial = none) := by
  unfold State.Canonical; decide +kernel

/-- States and operands that meet what `SecurityCommands` asks, clause by clause (part 3). -/
theorem test_met_3 :
    s6.Canonical ∧ s7.Canonical ∧ (s6.live 0 = true ∧ (s6.modc.sec = none ∨ s6.modc.sec = some (3, none)) ∧ s6.modc.serial ≠ none ∧
    s6.fld 0 Blk.sec 0 48 0 32 < 512 + 64 * min 128 s6.modc.loaded.length) ∧ (s7.live 0 = true ∧
    (s7.modc.sec = none ∨ s7.modc.sec = some (3, none)) ∧ s7.modc.serial ≠ none ∧
    512 + 64 * min 128 s7.modc.loaded.length ≤ s7.fld 0 Blk.sec 0 48 0 32) ∧ (s1.live 0 = true ∧
    (s1.modc.sec = none ∨ s1.modc.sec = some (4, none)) ∧ x2.typ ≠ 2 ∧ x2.typ ≠ 3) ∧ (s1.live 0 = true ∧
    (s1.modc.sec = none ∨ s1.modc.sec = some (4, none)) ∧ (x3.typ = 2 ∨ x3.typ = 3) ∧ (s1.modc.cmdCode x3).isSome = true) := by
  unfold State.Canonical; decide +kernel

/-- States and operands that meet what `SecurityCommands` asks, clause by clause (part 4). -/
theorem test_met_4 :
    s8.Canonical ∧ s9.Canonical ∧ (s8.live 0 = true ∧ (s8.modc.sec = none ∨ s8.modc.sec = some (4, none)) ∧ (x0.typ = 2 ∨ x0.typ = 3) ∧
    s8.modc.cmdCode x0 = none ∧ x0.typ = 2 ∧ some x0.serial ≠ s8.modc.serial) ∧ (s8.live 0 = true ∧
    (s8.modc.sec = none ∨ s8.modc.sec = some (4, none)) ∧ (x3.typ = 2 ∨ x3.typ = 3) ∧ s8.modc.cmdCode x3 = none ∧ x3.typ = 3 ∧
    s8.modc.owner = none) ∧ (s9.live 0 = true ∧ (s9.modc.sec = none ∨ s9.modc.sec = some (4, none)) ∧ (x4.typ = 2 ∨ x4.typ = 3) ∧
    s9.modc.cmdCode x4 = none ∧ x4.typ = 2 ∧ some x4.serial = s9.modc.serial) := by
  unfold State.Canonical; decide +kernel

/-- States and operands that meet what `SecurityCommands` asks, clause by clause (part 5). -/
theorem test_met_5 :
    s10.Canonical ∧ (s10.live 0 = true ∧ (s10.modc.sec = none ∨ s10.modc.sec = some (4, none)) ∧ (x3.typ = 2 ∨ x3.typ = 3) ∧
    s10.modc.cmdCode x3 = none ∧ x3.typ = 3 ∧ s10.modc.owner ≠ none) ∧ (s1.live 0 = true ∧ s1.modc.sec = none) := by
  unfold State.Canonical; decide +kernel

end SecurityCommands

namespace S2

def s0 : State := { b8 with modc := {b8.modc with sec := some (4, some (0, 8))}}

/-- States and operands that meet what `SecurityCommands` asks, clause by clause. -/
theorem test_met :
    s0.Canonical ∧ (s0.live 0 = true ∧ s0.modc.sec = some (4, some (0, 8))) := by
  unfold State.Canonical; decide +kernel

end S2

namespace ClusterClocks

def ph (s : State) (p : Nat) (f : Phys → Phys) : State := s.updPh 0 p f

def s0 : State := ph b8 1 (fun x => {x with droopAt := some 0})

def s1 : State := ph b8 1 (fun x => {x with target := some 12, next := some 10, latched := true})

def s2 : State := (b4.setFld 0 .clk 0 (clPage 1) 0 5 12)

def s3 : State := b8.setFld 0 .mac 1 0 16 1 1

def s4 : State := ph b8 1 (fun x => {x with deferred := some 10, droopAt := some 0})

def s5 : State := ph b4 1 (fun x => {x with target := some 12, latched := true})

def s6 : State := ph b8 1 (fun x => {x with deferred := some 12})

def s7 : State := { b8 with modc := {b8.modc with refclk := false}}

def s8 : State := b4.setFld 0 .mac 1 0 16 1 1

def s9 : State := b4.setLk 0 lkUp

def s10 : State := b4.setRailSt 0 1 1

def s11 : State := (b8.setFld 0 .clk 0 (clPage 1) 10 1 1).updDie 0 (fun x => {x with heldX := [1]})

def s12 : State := b4.setFld 0 .clk 0 (clPage 1) 10 1 1

def s13 : State := (b4.setFld 0 .clk 0 (clPage 1) 10 1 1).updDie 0 (fun x => {x with heldX := [1]})

def s14 : State := (ph (b4.setFld 0 .clk 0 (clPage 1) 10 1 1) 1 (fun x => {x with target := some 12})).updDie 0 (fun x => {x with heldX := [1]})

def s15 : State := ph b8 1 (fun x => {x with deferred := some 10, droopAt := some 0})

/-- States and operands that meet what `ClusterClocks` asks, clause by clause (part 1). -/
theorem test_met_1 :
    s0.Canonical ∧ s1.Canonical ∧ s2.Canonical ∧ s3.Canonical ∧ (s0.clOn 0 1 = true ∧ (0 < 8 ∨ s0.fmax 0 1 < 0)) ∧ (s1.clOn 0 1 = true ∧ 8 ≤ 8 ∧
    8 ≤ s1.fmax 0 1 ∧ (s1.ph 0 1).target ≠ none) ∧ (s2.clOn 0 1 = true ∧ 8 ≤ 8 ∧ 8 ≤ s2.fmax 0 1 ∧ (s2.ph 0 1).target = none ∧
    8 < s2.stepN 0 1) ∧ (s3.clOn 1 2 = true ∧ 8 ≤ 8 ∧ 8 ≤ s3.fmax 1 2 ∧ (s3.ph 1 2).target = none ∧ 8 = s3.stepN 1 2) := by
  unfold State.Canonical; decide +kernel

/-- States and operands that meet what `ClusterClocks` asks, clause by clause (part 2). -/
theorem test_met_2 :
    s4.Canonical ∧ (s4.clOn 0 1 = true ∧ 8 ≤ 12 ∧ 12 ≤ s4.fmax 0 1 ∧ (s4.ph 0 1).target = none ∧ s4.stepN 0 1 < 12 ∧
    (s4.ph 0 1).deferred ≠ none) ∧ (s0.clOn 0 1 = true ∧ 8 ≤ 12 ∧ 12 ≤ s0.fmax 0 1 ∧ (s0.ph 0 1).target = none ∧ s0.stepN 0 1 < 12 ∧
    (s0.ph 0 1).deferred = none ∧ s0.droopRecent 0 1 = true) ∧ (s0.clOn 1 1 = true ∧ 8 ≤ 19 ∧ 19 ≤ s0.fmax 1 1 ∧ (s0.ph 1 1).target = none ∧
    s0.stepN 1 1 < 19 ∧ (s0.ph 1 1).deferred = none ∧ s0.droopRecent 1 1 = false) := by
  unfold State.Canonical; decide +kernel

/-- States and operands that meet what `ClusterClocks` asks, clause by clause (part 3). -/
theorem test_met_3 :
    s5.Canonical ∧ s6.Canonical ∧ s7.Canonical ∧ (s5.clOn 0 1 = true ∧ (s5.ph 0 1).target = some 12 ∧ (s5.ph 0 1).next = none) ∧
    (s6.clOn 0 1 = true ∧ (s6.ph 0 1).deferred = some 12 ∧ s6.droopRecent 0 1 = false) ∧ (s7.clOn 1 1 = true ∧
    s7.fld 1 Blk.clk 0 32 0 8 ≤ min 30 255) ∧ (s0.clOn 0 1 = true ∧ min 0 255 < s0.fld 0 Blk.clk 0 32 0 8) ∧ (s4.live 1 = true ∧
    s4.modc.refclk = true) ∧ (s7.live 0 = true ∧ s7.modc.refclk = false) := by
  unfold State.Canonical; decide +kernel

/-- States and operands that meet what `ClusterClocks` asks, clause by clause (part 4). -/
theorem test_met_4 :
    s8.Canonical ∧ s9.Canonical ∧ s10.Canonical ∧ s11.Canonical ∧ (s8.live 0 = true ∧ 1 < 4 ∧ s8.portUp 0 1 = true ∧
    (∀ (q : Nat), q ∈ s8.halves 0 1 → (s8.port 0 q).unacked = [] ∧ (s8.port 0 q).txq = [])) ∧ (s9.live 0 = true ∧ 0 ∈ s9.linkDies ∧
    s9.lkState 0 ≠ lkDown ∧ (s9.link 0).hreqs = []) ∧ (s10.live 0 = true ∧ 1 < 52 ∧ s10.railSt 0 1 = 1 ∧
    (∀ (e : Nat × Nat), e ∈ (s10.die 0).onReq → e.fst ≠ 1)) ∧ (s11.live 0 = true ∧ 1 < 52 ∧ s11.railSt 0 1 = 0 ∧ s11.clkStopped 0 1 = true ∧
    s11.part = Part.t8l ∧ (s11.ph 0 1).target = none) := by
  unfold State.Canonical; decide +kernel

/-- States and operands that meet what `ClusterClocks` asks, clause by clause (part 5). -/
theorem test_met_5 :
    s12.Canonical ∧ s13.Canonical ∧ (s12.live 0 = true ∧ 1 < 52 ∧ s12.railSt 0 1 = 0 ∧ s12.clkStopped 0 1 = true ∧ s12.part ≠ Part.t8l ∧
    (s12.die 0).heldX.contains 1 = false) ∧ (s1.live 1 = true ∧ 8 < 52 ∧ s1.railSt 1 8 = 0 ∧ s1.clkStopped 1 8 = false) ∧ (s1.live 1 = true ∧
    8 < 52 ∧ s1.part = Part.t8l) ∧ (s13.live 0 = true ∧ 1 < 52 ∧ s13.part ≠ Part.t8l ∧ (s13.die 0).heldX = [1] ∧ s13.railSt 0 1 = 0 ∧
    s13.clkStopped 0 1 = true ∧ (s13.ph 0 1).target = none) := by
  unfold State.Canonical; decide +kernel

/-- States and operands that meet what `ClusterClocks` asks, clause by clause (part 6). -/
theorem test_met_6 :
    s14.Canonical ∧ s15.Canonical ∧ (s14.live 0 = true ∧ 1 < 52 ∧ s14.part ≠ Part.t8l ∧ (s14.die 0).heldX = [1] ∧ s14.railSt 0 1 = 0 ∧
    s14.clkStopped 0 1 = true ∧ (s14.ph 0 1).target ≠ none) ∧ (s15.clOn 0 1 = true ∧ (s15.ph 0 1).deferred = some 10 ∧ s15.droopRecent 0 1 = true) := by
  unfold State.Canonical; decide +kernel

end ClusterClocks

namespace TimeBase

def s0 : State := b4

def s1 : State := b4.setFld 0 .tim 0 0x20 0 2 1

def s2 : State := b4.updDie 0 (fun x => { x with swapReq := [regAddr 0 .clk 0 0x18]})

def s3 : State := b8.updDie 1 (fun x => { x with now := x.now + 30, slew := 5, frac := 7})

def s4 : State := b8

def s5 : State := b8.setFld 0 .tim 0 0x20 0 2 2

def s6 : State := (b4.setFld 0 .tim 0 0x20 2 1 1).setFld 0 .tim 0 0x20 0 2 1

def s7 : State := b8.setFld 0 .tim 0 0x20 0 2 1

def s8 : State := (b4.setFld 1 .mac 1 0 16 1 1).setFld 0 .tim 0 0x20 0 2 2

/-- States and operands that meet what `TimeBase` asks, clause by clause (part 1). -/
theorem test_met_1 :
    s0.Canonical ∧ s1.Canonical ∧ s2.Canonical ∧ s3.Canonical ∧ s4.Canonical ∧ (s0.live 0 = true ∧ s0.timSrc = 0) ∧ (s1.live 3 = true ∧
    s1.timSrc ≠ 0) ∧ (s0.live 0 = true ∧ (s0.die 0).swapReq = []) ∧ (s2.live 0 = true ∧ (s2.die 0).swapReq = [regAddr 0 Blk.clk 0 24] ∧
    s2.sfld 0 Blk.clk 0 32 0 8 ≠ 0) ∧ (s3.live 1 = true ∧ 1 ≠ 0 ∧ s3.live 0 = true ∧
    4 < ((↑(s3.die 1).now : Int) - (↑(s3.die 0).now : Int)).natAbs) ∧ (s4.live 3 = true ∧ 3 ≠ 0 ∧ s4.live 0 = true ∧
    ((↑(s4.die 3).now : Int) - (↑(s4.die 0).now : Int)).natAbs ≤ 4) := by
  unfold State.Canonical; decide +kernel

/-- States and operands that meet what `TimeBase` asks, clause by clause (part 2). -/
theorem test_met_2 :
    s5.Canonical ∧ s6.Canonical ∧ s7.Canonical ∧ (s5.live 0 = true ∧ s5.timSrc = 2) ∧ (s0.live 0 = true ∧ s0.timSrc ≠ 2) ∧ (s6.live 0 = true ∧
    s6.timSrc ≠ 0 ∧ s6.isGm = true) ∧ (s7.live 0 = true ∧ s7.timSrc = 1 ∧ s7.isGm = false) ∧ (s5.live 0 = true ∧ (s5.timSrc = 2 ∨ s5.timSrc = 1 ∧
    3 ≤ (s5.die 0).missed)) ∧ (s0.live 0 = true ∧ (s0.timSrc = 0 ∨ s0.timSrc = 1 ∧ (s0.die 0).missed < 3)) := by
  unfold State.Canonical; decide +kernel

/-- States and operands that meet what `TimeBase` asks, clause by clause (part 3). -/
theorem test_met_3 :
    s8.Canonical ∧ (s8.live 1 = true ∧ s8.timSrc ≠ 0 ∧ s8.portUp 1 1 = true ∧ s8.modc.best = none) ∧ (s4.live 3 = true ∧
    (s4.timSrc = 0 ∨ s4.portUp 3 5 = false)) := by
  unfold State.Canonical; decide +kernel

end TimeBase

namespace TB2

def s0 : State := (((b8.setShad (regAddr 0 .clk 0 0x20) 0x33).updDie 0 (fun x => { x with syncAt := [(1, 5)], pdelay := [(1,7)]})).setFld 0 .mac 1 0 16 1 1).setFld 0 .tim 0 0x20 0 2 1

/-- States and operands that meet what `TimeBase` asks, clause by clause. -/
theorem test_met :
    s0.Canonical ∧ (s0.live 0 = true ∧ s0.timSrc ≠ 0 ∧ s0.portUp 0 1 = true ∧
    List.find? (fun e => decide (e.fst = 1)) (s0.die 0).syncAt = some (1, 5) ∧ s0.isGm = false ∧ s0.timSrc = 1) := by
  unfold State.Canonical; decide +kernel

end TB2

namespace PowerDelivery

def s0 : State := b8

def s1 : State := b4.setFld 0 .mod 0 0x28 32 4 2

def s2 : State := b4

def s3 : State := b8.setFld 0 .pwr 0 (clPage 1) 5 5 30

def s4 : State := b4.setFld 0 .pwr 0 (clPage 1) 5 5 3

def s5 : State := b4.setFld 0 .pwr 0 (clPage 1) 5 5 28

def s6 : State := b4.setRailSt 0 1 2

def s7 : State := b4.setRailSt 0 1 1

def s8 : State := b8.updDie 0 (fun x => { x with onReq := [(1,0)]})

/-- States and operands that meet what `PowerDelivery` asks, clause by clause (part 1). -/
theorem test_met_1 :
    s0.Canonical ∧ s1.Canonical ∧ s2.Canonical ∧ (s0.fed = true ∧ (2 < 3600 ∨ 5000 < 2)) ∧ (s0.fed = true ∧ 3600 ≤ 4800 ∧ 4800 ≤ 5000) ∧
    (s0.fed = true ∧ 2 < Part.ibcs s0.part ∧ s0.fld 0 Blk.mod 0 40 (32 + 2) 1 = 1 ∧ s0.fld 0 Blk.mod 0 40 32 4 ≠ 2 ^ 2) ∧ (s1.fed = true ∧
    1 < Part.ibcs s1.part ∧ s1.fld 0 Blk.mod 0 40 (32 + 1) 1 = 1 ∧ s1.fld 0 Blk.mod 0 40 32 4 = 2 ^ 1) ∧ (s2.live 1 = true ∧ 52 ≤ 59 ∧ 59 ≤ 59) ∧
    (s0.live 1 = true ∧ (0 < 52 ∨ 59 < 0)) := by
  unfold State.Canonical; decide +kernel

/-- States and operands that meet what `PowerDelivery` asks, clause by clause (part 2). -/
theorem test_met_2 :
    s3.Canonical ∧ s4.Canonical ∧ (s0.live 1 = true ∧ 0 < 52 ∧ 1 < 5 ∧ s0.railSt 1 0 ≠ 3 ∧
    nbit (s0.fld 1 Blk.pwr 0 (65792 + 8 * 0) 5 5) 1 = true ∧ s0.modc.sw = none ∧ popcount (s0.fld 1 Blk.pwr 0 (65792 + 8 * 0) 5 5) 5 - 1 = 4) ∧
    (s3.live 0 = true ∧ 1 < 52 ∧ 1 < 5 ∧ s3.railSt 0 1 ≠ 3 ∧ nbit (s3.fld 0 Blk.pwr 0 (65792 + 8 * 1) 5 5) 1 = true ∧ s3.modc.sw = none ∧
    popcount (s3.fld 0 Blk.pwr 0 (65792 + 8 * 1) 5 5) 5 - 1 = 3) ∧ (s4.live 0 = true ∧ 1 < 52 ∧ 1 < 5 ∧ s4.railSt 0 1 ≠ 3 ∧
    nbit (s4.fld 0 Blk.pwr 0 (65792 + 8 * 1) 5 5) 1 = true ∧ s4.modc.sw = none ∧ popcount (s4.fld 0 Blk.pwr 0 (65792 + 8 * 1) 5 5) 5 - 1 < 3) := by
  unfold State.Canonical; decide +kernel

/-- States and operands that meet what `PowerDelivery` asks, clause by clause (part 3). -/
theorem test_met_3 :
    s5.Canonical ∧ s6.Canonical ∧ s7.Canonical ∧ (s5.live 0 = true ∧ 1 < 52 ∧ 0 < 5 ∧ nbit (s5.fld 0 Blk.pwr 0 (65792 + 8 * 1) 5 5) 0 = false) ∧
    (s2.live 2 = true ∧ 1 < 52 ∧ s2.railSt 2 1 = 0 ∧ s2.fld 2 Blk.pwr 0 32 0 16 ≠ 0 ∧ s2.logical 2 1 < 48 ∧
    s2.clEmpty 2 (s2.logical 2 1) = true ∧ (s2.ph 2 1).target = none ∧ (s2.cl 2 (s2.logical 2 1)).held = false) ∧ (s6.live 0 = true ∧ 1 < 52 ∧
    (s6.railSt 0 1 ≠ 0 ∨ s6.fld 0 Blk.pwr 0 32 0 16 = 0 ∨ s6.clEmpty 0 (s6.logical 0 1) = false)) ∧ (s7.live 0 = true ∧ 1 < 52 ∧
    s7.railSt 0 1 = 1 ∧ (∀ (e : Nat × Nat), e ∈ (s7.die 0).onReq → e.fst ≠ 1)) := by
  unfold State.Canonical; decide +kernel

/-- States and operands that meet what `PowerDelivery` asks, clause by clause (part 4). -/
theorem test_met_4 :
    s8.Canonical ∧ (s2.live 2 = true ∧ 1 < 52 ∧ s2.railSt 2 1 ≠ 1) ∧ (s2.live 2 = true ∧ 1 < 52 ∧ s2.railSt 2 1 ≠ 2) ∧ (s6.live 0 = true ∧
    1 < 52 ∧ s6.railSt 0 1 = 2) ∧ (s8.live 0 = true ∧ (∀ (x : Nat), x < 52 → x / 13 = 0 → s8.railSt 0 x ≠ 2) ∧
    List.find? (fun e => decide (e.fst / 13 = 0)) (s8.die 0).onReq = some (1, 0) ∧ 1 < 52 ∧
    (3600 + s8.fld 0 Blk.pwr 0 32 16 8 * 100 ≤ 25000 ∨ 19 ≤ 0)) ∧ (s0.awake 1 = true ∧ 1 < 60 ∧ (1 < 52 → s0.railSt 1 1 < 2)) := by
  unfold State.Canonical; decide +kernel

end PowerDelivery

namespace PD2

def s0 : State := b8.updDie 0 (fun x => { x with onReq := [(1,0)]})

/-- States and operands that meet what `PowerDelivery` asks, clause by clause. -/
theorem test_met :
    s0.Canonical ∧ (s0.live 0 = true ∧ (∀ (x : Nat), x < 52 → x / 13 = 0 → s0.railSt 0 x ≠ 2) ∧
    List.find? (fun e => decide (e.fst / 13 = 0)) (s0.die 0).onReq = some (1, 0) ∧ 1 < 52 ∧ ¬30000 + s0.fld 0 Blk.pwr 0 32 16 8 * 100 ≤ 25000 ∧
    0 < 19) := by
  unfold State.Canonical; decide +kernel

end PD2

namespace PowerControl

def s0 : State := b8

def s1 : State := ba

def s2 : State := { b4 with modc := {b4.modc with plane := false}}

def s3 : State := b4

def s4 : State := b8.updCtx 0 0 (fun x => { x with st := .running})

def s5 : State := ex .enterLp ba

def s6 : State := b8.updPh 0 1 (fun x => {x with target := some 12})

/-- States and operands that meet what `PowerControl` asks, clause by clause (part 1). -/
theorem test_met_1 :
    s0.Canonical ∧ s1.Canonical ∧ s2.Canonical ∧ s3.Canonical ∧ s4.Canonical ∧ s5.Canonical ∧ (s0.live 4 = true ∧ 0 < 52) ∧ (s0.live 0 = true ∧
    1 < 52 ∧ s0.railSt 0 1 = 0 ∧ (s0.ph 0 1).target = none ∧ s0.clkStopped 0 1 = false ∧ (s0.ph 0 1).stretch = false) ∧ (s0.live 0 = true ∧
    1 < 52 ∧ (s0.ph 0 1).tagged 2 = false) ∧ s1.fed = true ∧ s2.fed = false ∧ s3.live 1 = true ∧ s4.lpReady = false ∧ s0.lpReady = true ∧
    s0.lowPower = false ∧ s5.lowPower = true := by
  unfold State.Canonical; decide +kernel

/-- States and operands that meet what `PowerControl` asks, clause by clause (part 2). -/
theorem test_met_2 :
    s6.Canonical ∧ (s6.live 0 = true ∧ 1 < 52 ∧ s6.railSt 0 1 = 0 ∧ (s6.ph 0 1).target ≠ none) := by
  unfold State.Canonical; decide +kernel

end PowerControl

namespace PC2

def s0 : State := b8.updPh 0 1 (fun x => { x with stretch := true})

def s1 : State := (b8.updPh 0 1 (fun x => { x with vf := [(4, 40), (5, 50)], used := [(4, 0), (5, 0)]})).updPh 0 1 (fun x => { x with stretch := true})

/-- States and operands that meet what `PowerControl` asks, clause by clause. -/
theorem test_met :
    s0.Canonical ∧ s1.Canonical ∧ (s0.live 0 = true ∧ 1 < 52 ∧ (s0.ph 0 1).stretch = true ∧ (s0.ph 0 1).stretched = []) ∧ (s1.live 0 = true ∧
    1 < 52 ∧ 4 < 24 ∧ (s1.ph 0 1).tagged 4 = true ∧ (∃ u, u ∈ (s1.ph 0 1).used ∧ u.fst = 4) ∧ (s1.ph 0 1).excluded.contains 4 = false) := by
  unfold State.Canonical; decide +kernel

end PC2

namespace Heat

def s0 : State := b4

def s1 : State := b8.setFld 0 .thm 0 (0x100+24) 0 12 850

def s2 : State := ba

def s3 : State := b8.setFld 0 .thm 0 (thPage 1) 8 12 900

def s4 : State := { b4 with modc := {b4.modc with noAns := (0,0,2)}}

def s5 : State := { b8 with modc := {b8.modc with good := false}}

def s6 : State := { ba with modc := {ba.modc with coolStop := some 2000}}

/-- States and operands that meet what `Heat` asks, clause by clause (part 1). -/
theorem test_met_1 :
    s0.Canonical ∧ s1.Canonical ∧ s2.Canonical ∧ s3.Canonical ∧ (s0.live 1 = true ∧ 1 < 114) ∧ (s1.live 0 = true ∧ 1 < 52 ∧
    s1.pairBad 0 1 = false ∧ 80 < s1.pairDiff 0 1) ∧ (s2.live 0 = true ∧ 3 < 52 ∧ (s2.pairBad 0 3 = true ∨ s2.pairDiff 0 3 ≤ 80)) ∧
    (s3.live 0 = true ∧ 1 < 52 ∧ 760 ≤ s3.temp 0 1) ∧ (s2.live 0 = true ∧ 3 < 52 ∧ s2.temp 0 3 < 760) ∧ (s3.live 0 = true ∧ 1 < 52 ∧
    896 ≤ s3.temp 0 1) := by
  unfold State.Canonical; decide +kernel

/-- States and operands that meet what `Heat` asks, clause by clause (part 2). -/
theorem test_met_2 :
    s4.Canonical ∧ s5.Canonical ∧ s6.Canonical ∧ (s2.live 0 = true ∧ 3 < 52 ∧ s2.temp 0 3 < 896) ∧ (s0.live 3 = true ∧ 0 < 2 ∧ 104 < 256) ∧
    (s0.modc.good = true ∧ s0.modc.rstLow = false ∧ s0.part.air = false ∧ (s0.die 0).swapReq = []) ∧ (s4.modc.good = true ∧
    s4.modc.rstLow = false ∧ s4.part.air = false ∧ (s4.die 0).swapReq = [] ∧ s4.modc.noAns.snd.snd = 2) ∧
    (s5.modc.good = false ∨ s5.modc.rstLow = true) ∧ (s6.modc.coolStop = some 2000 ∧ 2000 ≤ 2000) ∧
    (∀ (n : Nat), s0.modc.coolStop = some n → n < 2000) := by
  unfold State.Canonical; decide +kernel

end Heat

namespace StopsAndClears

def s0 : State := ba

def s1 : State := b8.raise 0 .mod 0 9 .ftl 3

def s2 : State := ba.raise 0 .mod 0 9 .ftl 3

def s3 : State := b8

def s4 : State := ba.raise 0 .pwr 0 11 .ftl 3

/-- States and operands that meet what `StopsAndClears` asks, clause by clause (part 1). -/
theorem test_met_1 :
    s0.Canonical ∧ s1.Canonical ∧ s2.Canonical ∧ s3.Canonical ∧ s4.Canonical ∧ s0.errnLow = false ∧ s1.errnLow = true ∧
    (s0.modc.stopDue = none ∨ s0.modc.stopped = true) ∧ (s2.modc.stopDue ≠ none ∧ s2.modc.stopped = false) ∧
    (s3.awake 0 = false ∨ (s3.die 0).stopDue ≠ some (Blk.mod, 0)) ∧ (s4.awake 0 = true ∧ (s4.die 0).stopDue = some (Blk.pwr, 11)) ∧
    (s0.live 1 = false ∨ s0.live 1 = false ∨ 1 = 1) ∧ (s3.live 0 = true ∧ s3.live 1 = true ∧ 0 ≠ 1 ∧ 0 < 8) ∧ (s0.live 0 = true ∧
    s0.live 1 = true ∧ 0 ≠ 1 ∧ 8 ≤ 9) ∧ (s0.hasInst 9 Blk.mod 8 = false ∨ s0.regsUp 9 Blk.mod = false) := by
  unfold State.Canonical; decide +kernel

/-- States and operands that meet what `StopsAndClears` asks, clause by clause (part 2). -/
theorem test_met_2 :
    (s3.hasInst 0 Blk.pwr 0 = true ∧ s3.regsUp 0 Blk.pwr = true) := by
  decide +kernel

end StopsAndClears

namespace SpareCommands

def s0 : State := { b8 with modc := {b8.modc with rstLow := true}}

def s1 : State := { ba with modc := {ba.modc with sw := some (0,1,1,50,0,false)}}

def s2 : State := b8

def s3 : State := forEach [48,49,50,51] (fun k t => t.updPh 0 k (fun x => { x with retired := true})) ba

def s4 : State := forEach (List.range 32) (fun k t => t.setFld 0 .cel 0 (spareOff k) 0 1 1) ba

def s5 : State := ba.updCel 0 (fun x => { x with flush := some default})

def s6 : State := (b8.setFld 0 .mac 0 0 16 1 1).setFld 0 .mac 0 0x20 0 2 1

def s7 : State := ba.updHbm 0 0 (fun x => { x with bad := (List.range 256)})

def s8 : State := ba

/-- States and operands that meet what `SpareCommands` asks, clause by clause (part 1). -/
theorem test_met_1 :
    s0.Canonical ∧ s1.Canonical ∧ s2.Canonical ∧ s3.Canonical ∧ (s0.mcUp = false ∧
    [Instr.clIn 0 8, Instr.testCl 0 8, Instr.bankIn 0 8, Instr.laneIn 0 8 2, Instr.spareRetire 0 3 0 8] ≠ []) ∧ (s1.mcUp = true ∧
    s1.switchBusy = true ∧ [Instr.clIn 8 1, Instr.testCl 8 1, Instr.bankIn 8 1, Instr.laneIn 8 1 0, Instr.spareRetire 8 7 7 1] ≠ []) ∧
    (s2.mcUp = true ∧ s2.switchBusy = false ∧ s2.modc.due = [] ∧
    (∃ e ∈ [(Instr.clIn 8 0, false), (Instr.testCl 8 0, true)], (s2.live 8 = false ∨ 48 ≤ 0 ∨ s2.serving 8 0 = none))) ∧ (s3.mcUp = true ∧
    s3.switchBusy = false ∧ s3.modc.due = [] ∧ (∃ e ∈ [(Instr.clIn 0 3, false), (Instr.testCl 0 3, true)], (s3.live 0 = true) ∧ (3 < 48) ∧
    (s3.serving 0 3 = some 3) ∧ (s3.freeSpare 0 = none))) := by
  unfold State.Canonical; decide +kernel

/-- States and operands that meet what `SpareCommands` asks, clause by clause (part 2). -/
theorem test_met_2 :
    s4.Canonical ∧ (s2.mcUp = true ∧ s2.switchBusy = false ∧ s2.modc.due = [] ∧
    (∃ e ∈ [(Instr.clIn 3 7, false), (Instr.testCl 3 7, true)], (s2.live 3 = true) ∧ (7 < 48) ∧ (s2.serving 3 7 = some 7) ∧
    ((s2.freeSpare 3).isSome = true))) ∧ (s2.mcUp = true ∧ s2.switchBusy = false ∧ s2.modc.due = [] ∧ (s2.live 8 = false ∨ 1024 ≤ 0)) ∧
    (s4.mcUp = true ∧ s4.switchBusy = false ∧ s4.modc.due = [] ∧ s4.live 0 = true ∧ 7 < 1024 ∧
    (∀ (n : Nat), n < 32 → s4.fld 0 Blk.cel 0 (spareOff n) 0 1 = 1)) := by
  unfold State.Canonical; decide +kernel

/-- States and operands that meet what `SpareCommands` asks, clause by clause (part 3). -/
theorem test_met_3 :
    s5.Canonical ∧ (s5.mcUp = true ∧ s5.switchBusy = false ∧ s5.modc.due = [] ∧ s5.live 0 = true ∧ 0 < 1024 ∧
    (List.find? (fun n => decide (s5.fld 0 Blk.cel 0 (spareOff n) 0 1 = 0)) (List.range 32)).any (fun _ => decide ((s5.celBusy 0 = true))) = true) ∧
    (s2.mcUp = true ∧ s2.switchBusy = false ∧ s2.modc.due = [] ∧ s2.live 0 = true ∧ 8 < 1024 ∧
    ((List.find? (fun n => decide (s2.fld 0 Blk.cel 0 (spareOff n) 0 1 = 0)) (List.range 32)).any (fun _ => decide ((s2.celBusy 0 = false) ∧
    (∀ (m : Nat), m < 32 → s2.fld 0 Blk.cel 0 (spareOff m) 0 1 = 1 → s2.fld 0 Blk.cel 0 (spareOff m) 1 10 ≠ 8))) = true)) ∧ (s2.mcUp = true ∧
    s2.switchBusy = false ∧ s2.modc.due = [] ∧ (s2.live 0 = false ∨ 4 ≤ 8 ∨ 8 ≤ 8)) := by
  unfold State.Canonical; decide +kernel

/-- States and operands that meet what `SpareCommands` asks, clause by clause (part 4). -/
theorem test_met_4 :
    s6.Canonical ∧ (s6.mcUp = true ∧ s6.switchBusy = false ∧ s6.modc.due = [] ∧ s6.live 0 = true ∧ 0 < 4 ∧ 1 < 8 ∧ s6.spareFree 0 0 = true ∧
    s6.portUp 0 0 = true) ∧ (s2.mcUp = true ∧ s2.switchBusy = false ∧ s2.modc.due = [] ∧ s2.live 7 = true ∧ 2 < 4 ∧ 1 < 8 ∧
    s2.spareFree 7 2 = false) ∧ (s2.mcUp = true ∧ s2.switchBusy = false ∧ s2.modc.due = [] ∧ (s2.hbmLive 0 8 = false ∨ 15104 ≤ 8)) := by
  unfold State.Canonical; decide +kernel

/-- States and operands that meet what `SpareCommands` asks, clause by clause (part 5). -/
theorem test_met_5 :
    s7.Canonical ∧ s8.Canonical ∧ (s7.mcUp = true ∧ s7.switchBusy = false ∧ s7.modc.due = [] ∧ s7.hbmLive 0 0 = true ∧ 1 < 15104 ∧
    (s7.hbm 0 0).cmd = none ∧ (s7.hbm 0 0).freeUnits (0 % 64) = 0) ∧ (s8.mcUp = true ∧ s8.switchBusy = false ∧ s8.modc.due = [] ∧
    s8.hbmLive 0 1 = true ∧ 7 < 15104 ∧ (s8.hbm 0 1).cmd = none ∧ (s8.hbm 0 1).freeUnits (1 % 64) ≠ 0) := by
  unfold State.Canonical; decide +kernel

end SpareCommands

namespace SwitchIn

def s0 : State := ({ b8 with modc := {b8.modc with sw := some (0,1,1,50,0,false)}}).setRailSt 0 50 2

def s1 : State := let s := { b8 with modc := {b8.modc with repair := [(0,true)]}}; { s with modc := {s.modc with sw := some (0,1,1,50,0,false)}}

def s3 : State := { ba with modc := {ba.modc with sw := some (0,1,1,50,1,false)}}

def s2 : State := { ({ b8 with modc := {b8.modc with sw := some (0,1,1,50,1,true)}}) with flights := [{id:=0,d := 0, ws := [wordOf kMMA], units := [4]}]}

def s4 : State := { ba with modc := {ba.modc with test := some (0,1)}}

def s5 : State := ba

def s6 : State := { ba with modc := {ba.modc with repair := [(0,false),(1,true)]}}

def s7 : State := { ba with modc := {ba.modc with repair := [(0,true)]}}

def s8 : State := { b8 with modc := {b8.modc with repair := [(0,false),(1,true)]}}

/-- States and operands that meet what `SwitchIn` asks, clause by clause (part 1). -/
theorem test_met_1 :
    s0.Canonical ∧ (0 < 8 ∧ 1 < 48 ∧ 1 < 52 ∧ 50 < 52 ∧ 1 ≠ 50 ∧ s0.modc.sw = some (0, 1, 1, 50, 0, false) ∧
    (s0.live 0 = false ∨ s0.railSt 0 50 ≠ 0)) := by
  unfold State.Canonical; decide +kernel

/-- States and operands that meet what `SwitchIn` asks, clause by clause (part 2). -/
theorem test_met_2 :
    s1.Canonical ∧ (0 < 8 ∧ 1 < 48 ∧ 1 < 52 ∧ 50 < 52 ∧ 1 ≠ 50 ∧ s1.modc.sw = some (0, 1, 1, 50, 0, false) ∧ s1.live 0 = true ∧
    s1.railSt 0 50 = 0) := by
  unfold State.Canonical; decide +kernel

/-- States and operands that meet what `SwitchIn` asks, clause by clause (part 3). -/
theorem test_met_3 :
    s2.Canonical ∧ (0 < 8 ∧ 1 < 48 ∧ 1 < 52 ∧ 50 < 52 ∧ 1 ≠ 50 ∧ s2.modc.sw = some (0, 1, 1, 50, 1, true) ∧ s2.modc.due = [] ∧
    (s2.live 0 = false ∨ s2.railSt 0 1 ≠ 3 ∧ (s2.clEmpty 0 1 = false ∨ (s2.cl 0 1).preload ≠ none))) := by
  unfold State.Canonical; decide +kernel

/-- States and operands that meet what `SwitchIn` asks, clause by clause (part 4). -/
theorem test_met_4 :
    s3.Canonical ∧ (0 < 8 ∧ 1 < 48 ∧ 1 < 52 ∧ 50 < 52 ∧ 1 ≠ 50 ∧ s3.modc.sw = some (0, 1, 1, 50, 1, false) ∧ s3.modc.due = [] ∧
    s3.live 0 = true ∧ (s3.railSt 0 1 = 3 ∨ s3.clEmpty 0 1 = true ∧ (s3.cl 0 1).preload = none)) := by
  unfold State.Canonical; decide +kernel

/-- States and operands that meet what `SwitchIn` asks, clause by clause (part 5). -/
theorem test_met_5 :
    s4.Canonical ∧ (0 < 8 ∧ 1 < 48 ∧ 1 < 52 ∧ 0 < 52 ∧ 1 ≠ 0 ∧ s4.modc.test = some (0, 1) ∧ s4.modc.due = []) := by
  unfold State.Canonical; decide +kernel

/-- States and operands that meet what `SwitchIn` asks, clause by clause (part 6). -/
theorem test_met_6 :
    s5.Canonical ∧ s5.modc.sw = none := by
  unfold State.Canonical; decide +kernel

/-- States and operands that meet what `SwitchIn` asks, clause by clause (part 7). -/
theorem test_met_7 :
    s5.modc.test = none := by
  decide +kernel

/-- States and operands that meet what `SwitchIn` asks, clause by clause (part 8). -/
theorem test_met_8 :
    (∃ e ∈ [(Instr.repairRecordWrite 1 true, false), (Instr.repairRetry 1 true, true)], (s5.mcUp = false ∨ s5.modc.repair.contains (1, e.snd) = false)) := by
  decide +kernel

/-- States and operands that meet what `SwitchIn` asks, clause by clause (part 9). -/
theorem test_met_9 :
    s6.Canonical ∧ (∃ e ∈ [(Instr.repairRecordWrite 0 true, false), (Instr.repairRetry 0 true, true)], (s6.mcUp = true) ∧
    (s6.modc.repair.contains (0, e.snd) = true) ∧ (true = true)) := by
  unfold State.Canonical; decide +kernel

/-- States and operands that meet what `SwitchIn` asks, clause by clause (part 10). -/
theorem test_met_10 :
    s7.Canonical ∧ (∃ e ∈ [(Instr.repairRecordWrite 0 false, false), (Instr.repairRetry 0 false, true)], (s7.mcUp = true) ∧
    (s7.modc.repair.contains (0, e.snd) = true) ∧ (false = false) ∧ (e.snd = true)) := by
  unfold State.Canonical; decide +kernel

/-- States and operands that meet what `SwitchIn` asks, clause by clause (part 11). -/
theorem test_met_11 :
    s8.Canonical ∧ (∃ e ∈ [(Instr.repairRecordWrite 0 false, false), (Instr.repairRetry 0 false, true)], (s8.mcUp = true) ∧
    (s8.modc.repair.contains (0, e.snd) = true) ∧ (false = false) ∧ (e.snd = false)) := by
  unfold State.Canonical; decide +kernel

end SwitchIn

namespace RegisterSwaps

def s0 : State := b4

def s1 : State := ba

def s2 : State := b8

def s3 : State := (mk1 0 .mma 1 0x20 77 (b4))

def s4 : State := (mk1 0 .clk 0 0x20 0 (b8))

/-- States and operands that meet what `RegisterSwaps` asks, clause by clause (part 1). -/
theorem test_met_1 :
    s0.Canonical ∧ s1.Canonical ∧ s2.Canonical ∧ (s0.hasInst 4 Blk.clk 0 = false ∨ Blk.clk ≠ Blk.mod ∧ s0.live 4 = false) ∧
    (s1.hasInst 0 Blk.trl 0 = true ∧ (Blk.trl = Blk.mod ∨ s1.live 0 = true) ∧ (Blk.trl = Blk.agl → s1.linkDies.contains 0 = true) ∧
    (byCluster Blk.trl = true → s1.modc.absent.contains (0 * 64 + 0) = false) ∧ hasShadow Blk.trl = false) ∧ (s2.hasInst 4 Blk.srg 4 = true ∧
    (Blk.srg = Blk.mod ∨ s2.live 4 = true) ∧ (Blk.srg = Blk.agl → s2.linkDies.contains 4 = true) ∧
    (byCluster Blk.srg = true → s2.modc.absent.contains (4 * 64 + 4) = false) ∧ hasShadow Blk.srg = true ∧ Blk.srg ≠ Blk.seq) ∧
    (s0.hasInst 0 Blk.seq 0 = true ∧ (Blk.seq = Blk.mod ∨ s0.live 0 = true) ∧ (Blk.seq = Blk.agl → s0.linkDies.contains 0 = true) ∧
    (byCluster Blk.seq = true → s0.modc.absent.contains (0 * 64 + 0) = false) ∧ Blk.seq = Blk.seq) ∧ s0.swapLive 4 Blk.clk 0 = false := by
  unfold State.Canonical; decide +kernel

/-- States and operands that meet what `RegisterSwaps` asks, clause by clause (part 2). -/
theorem test_met_2 :
    s3.Canonical ∧ s4.Canonical ∧ (s1.swapLive 0 Blk.trl 0 = true ∧ Blk.trl ≠ Blk.seq ∧ Blk.trl ≠ Blk.agl ∧
    ((s1.die 0).swapReq.contains (swapMark 0 Blk.trl 0) = false ∨ s1.quiescent 0 Blk.trl 0 = false)) ∧ (s3.swapLive 0 Blk.mma 1 = true ∧
    ¬Blk.mma ∈ [Blk.seq, Blk.cel, Blk.mac, Blk.agl] ∧ (s3.die 0).swapReq.contains (swapMark 0 Blk.mma 1) = true ∧
    s3.quiescent 0 Blk.mma 1 = true ∧ s3.unswappable 0 Blk.mma 1 = false) ∧ (s4.swapLive 0 Blk.clk 0 = true ∧
    ¬Blk.clk ∈ [Blk.seq, Blk.cel, Blk.mac, Blk.agl] ∧ (s4.die 0).swapReq.contains (swapMark 0 Blk.clk 0) = true ∧
    s4.quiescent 0 Blk.clk 0 = true ∧ s4.unswappable 0 Blk.clk 0 = true) ∧ s1.swapLive 0 Blk.seq 0 = true := by
  unfold State.Canonical; decide +kernel

end RegisterSwaps

namespace RegisterWrites

def liveAt (x : RegAt) (p : RegLoc → RegDef → Bool) : Bool :=
  match x with
  | .live l r => p l r
  | _ => false

def stillAt (x : RegAt) (p : RegLoc → RegDef → Bool) : Bool :=
  match x with
  | .still l r => p l r
  | _ => false

def s0 : State := b4

def s1 : State := ba

def s2 : State := b8

def s3 : State := b8.updDie 0 (fun x => {x with stopped := true})

def s4 : State := b4.updCl 0 1 (fun x => {x with preload := some 1})

def s5 : State := b4

/-- States and operands that meet what `RegisterWrites` asks, clause by clause (part 1). -/
theorem test_met_1 :
    s0.Canonical ∧ s1.Canonical ∧ s2.Canonical ∧ (s0.hasInst 7 Blk.sec 5 = false ∨ Blk.sec ≠ Blk.mod ∧ s0.live 7 = false) ∧
    (s1.hasInst 1 Blk.trl 0 = true ∧ (Blk.trl = Blk.mod ∨ s1.live 1 = true) ∧ (Blk.trl = Blk.agl → s1.linkDies.contains 1 = true) ∧
    (byCluster Blk.trl = true → s1.modc.absent.contains (1 * 64 + 0) = false)) ∧ isRegWord 6 = false ∧ (isRegWord 2199032692872 = true ∧
    (s2.regAt 2199032692872 = RegAt.absent ∨ s2.regAt 2199032692872 = RegAt.reserved)) ∧ s1.live 6 = false ∧ (s2.live 6 = true ∧ 0 < 8 ∧ 5 < 48 ∧
    s2.modc.absent.contains (6 * 64 + 5) = false) ∧ (s2.live 6 = true ∧ 0 < 8 ∧ 0 < 5) ∧ (s0.live 1 = true ∧ 6 < 8 ∧ 5 ≤ 6) := by
  unfold State.Canonical; decide +kernel

/-- States and operands that meet what `RegisterWrites` asks, clause by clause (part 2). -/
theorem test_met_2 :
    s3.Canonical ∧ s4.Canonical ∧ s5.Canonical ∧ (isRegWord 2199033741408 = true ∧
    (stillAt (s3.regAt 2199033741408) (fun l _ => decide (l.f ≠ 0 ∧ l.f ≠ 16)) = true)) ∧ (isRegWord 2199038988352 = true ∧
    (liveAt (s4.regAt 2199038988352) (fun l r => decide (32 ≤ l.f ∧ l.b = .srg ∧ r.rws ≠ 0 ∧ s4.preloadLocked l.d l.b l.i = true)) = true)) ∧
    (isRegWord 2199040036896 = true ∧ (liveAt (s5.regAt 2199040036896) (fun l r => decide (32 ≤ l.f ∧ l.b = .eng ∧
    (r.rws = 0 ∨ s5.preloadLocked l.d l.b l.i = false))) = true)) := by
  unfold State.Canonical; decide +kernel

end RegisterWrites

namespace ManagementBus

def w (a : Nat) (v : Nat) : List Byte := [1] ++ leBytes 6 a ++ leBytes 8 v

def r (a : Nat) : List Byte := [2] ++ leBytes 6 a

def s0 : State := { b8 with modc := {b8.modc with rstLow := true}}

def s1 : State := b8

def s2 : State := ba

def s3 : State := { ba with modc := {ba.modc with i3cAns := some (1, 7)}}

def s4 : State := { ba with modc := {ba.modc with dyn := some 9}}

def s5 : State := b8

def s6 : State := ex (.i3cWrite (w 3 5)) b8

/-- States and operands that meet what `ManagementBus` asks, clause by clause (part 1). -/
theorem test_met_1 :
    s0.Canonical ∧ s1.Canonical ∧ s2.Canonical ∧ s0.busUp = false ∧ (s1.busUp = true ∧ (w (regAddr 0 Blk.clk 0 32) 7).length = 15 ∧
    leAt (w (regAddr 0 Blk.clk 0 32) 7) 0 1 = 1 ∧ isRegWord (leAt (w (regAddr 0 Blk.clk 0 32) 7) 1 6) = true ∧
    s1.regWaits (leAt (w (regAddr 0 Blk.clk 0 32) 7) 1 6) = none) ∧ (s2.busUp = true ∧ (r (regAddr 0 Blk.mod 0 40)).length = 7 ∧
    leAt (r (regAddr 0 Blk.mod 0 40)) 0 1 = 2 ∧ isRegWord (leAt (r (regAddr 0 Blk.mod 0 40)) 1 6) = true ∧
    s2.regWaits (leAt (r (regAddr 0 Blk.mod 0 40)) 1 6) = none) ∧ (s1.busUp = true ∧ (1 = 5 ∧ ¬((r 5).length = 15 ∧ leAt (r 5) 0 1 = 1) ∧
    ¬((r 5).length = 7 ∧ leAt (r 5) 0 1 = 2) ∨ 1 = 1 ∧ ((r 5).length = 15 ∧ leAt (r 5) 0 1 = 1 ∨ (r 5).length = 7 ∧ leAt (r 5) 0 1 = 2) ∧
    isRegWord (leAt (r 5) 1 6) = false)) := by
  unfold State.Canonical; decide +kernel

/-- States and operands that meet what `ManagementBus` asks, clause by clause (part 2). -/
theorem test_met_2 :
    s3.Canonical ∧ s4.Canonical ∧ s5.Canonical ∧ (s3.busUp = true ∧ (s3.modc.i3cAns).isSome = true) ∧ (s1.busUp = true ∧ s1.modc.i3cAns = none) ∧
    (s1.busUp = true ∧ s1.modc.dyn = none) ∧ (s4.busUp = true ∧ s4.modc.dyn ≠ none) ∧ (s1.busUp = true ∧
    [Ccc.enec, Ccc.disec, Ccc.other 0] ≠ []) ∧ (s5.busUp = true ∧ w 3 5 ≠ [] ∧ s6.busUp = true) := by
  unfold State.Canonical; decide +kernel

/-- What `ManagementBus` asks of the queues of these states. -/
theorem test_ready :
    exec (Instr.i3cWrite (w 3 5)) s5 = Host.Outcome.next s6 :=
    rfl

end ManagementBus

end Sys2Proof.Tests
end

/-! PROOFS. Accumulation in the matrix arrays (R51, R52) and the residue shadow beside it (R57): the facts about ranges, residues and one depth tile. -/

namespace Sys2Proof.Machine

/-! ### Ranges -/

theorem inRange_iff (n : Nat) (x : Int) : inRange n x = true ↔ -(2 ^ (n - 1)) ≤ x ∧ x < 2 ^ (n - 1) := by
  rw [inRange, Bool.and_eq_true_iff, decide_eq_true_iff, decide_eq_true_iff, Int.natCast_pow]
  exact Iff.rfl

theorem wrapInt_inRange {n : Nat} (hn : 0 < n) (x : Int) : inRange n (wrapInt n x) = true := by
  have hpow : (2 : Int) ^ n = 2 * 2 ^ (n - 1) := by rw [← Int.pow_succ', Nat.sub_add_cancel hn]
  have hpos : (0 : Int) < 2 ^ n := Int.pow_pos (by decide)
  have hlo := Int.emod_nonneg (x + 2 ^ (n - 1)) (Int.ne_of_gt hpos)
  have hhi := Int.emod_lt_of_pos (x + 2 ^ (n - 1)) hpos
  rw [inRange_iff, wrapInt]
  omega

theorem clampInt_inRange (n : Nat) (x : Int) : inRange n (clampInt (-(2 ^ (n - 1))) (2 ^ (n - 1) - 1) x) = true := by
  have hpos : (0 : Int) < 2 ^ (n - 1) := Int.pow_pos (by decide)
  rw [inRange_iff, clampInt]
  split
  · omega
  · split <;> omega

/-- Saturating and wrapping both end in the range (R51, R52). -/
theorem fitInt_inRange {n : Nat} (hn : 0 < n) (wrap : Bool) (x : Int) : inRange n (fitInt wrap n x) = true := by
  cases wrap with
  | true => exact wrapInt_inRange hn x
  | false => exact clampInt_inRange n x

theorem toInt_ofInt_of_inRange {n : Nat} (hn : 0 < n) {x : Int} (h : inRange n x = true) : (BitVec.ofInt n x).toInt = x :=
  have ⟨hlo, hhi⟩ := (inRange_iff n x).mp h
  BitVec.toInt_ofInt_eq_self hn hlo hhi

/-! ### Residues modulo 7 -/

theorem mod7_cast (x : Int) : (mod7 x : Int) = x % 7 :=
  Int.toNat_of_nonneg (Int.emod_nonneg x (by decide))

theorem mod7_add (x y : Int) : mod7 (x + y) = (mod7 x + mod7 y) % 7 := by
  have hx := mod7_cast x
  have hy := mod7_cast y
  have hxy := mod7_cast (x + y)
  omega

theorem mod7_mul (x y : Int) : mod7 (x * y) = mod7 x * mod7 y % 7 := by
  apply Int.natCast_inj.mp
  rw [Int.natCast_emod, Int.natCast_mul, mod7_cast, mod7_cast, mod7_cast]
  exact Int.mul_emod x y 7

/-- Powers of 2 repeat modulo 7 with period 3. -/
theorem mod7_two_pow : (k : Nat) → mod7 (2 ^ k) = pow2mod7 k
  | 0 => rfl
  | 1 => rfl
  | 2 => rfl
  | k + 3 => by
    have hcube : (2 : Int) ^ (k + 3) = 2 ^ k * 8 := by rw [Int.pow_succ, Int.pow_succ, Int.pow_succ]; omega
    have hperiod : ((k + 3 : Nat) : Int) % 3 = (k : Int) % 3 := by omega
    have hmod : mod7 (2 ^ k) < 7 := by have := mod7_cast (2 ^ k); omega
    rw [pow2mod7, hperiod, ← pow2mod7, ← mod7_two_pow k, hcube, mod7_mul]
    change mod7 (2 ^ k) * 1 % 7 = mod7 (2 ^ k)
    rw [Nat.mul_one, Nat.mod_eq_of_lt hmod]

theorem mod7_shiftFloor_of_nonneg (p : Int) {k : Int} (hk : 0 ≤ k) : mod7 (shiftFloor p k) = mod7 p * pow2mod7 k % 7 := by
  have hcast : ((k.toNat : Nat) : Int) = k := Int.toNat_of_nonneg hk
  rw [shiftFloor, if_pos hk, mod7_mul, mod7_two_pow, hcast]

/-! ### Integer modes (R51) -/

theorem dot_eq_sum (s : State) (oa ow : Opnd) (r c k0 k1 : Nat) :
    s.dot oa ow r c k0 k1 = ((List.range (k1 - k0)).map (fun i => s.arrInt oa r (k0 + i) * s.arrInt ow c (k0 + i))).sum := by
  rw [State.dot, List.sum_eq_foldl, List.foldl_map]

theorem tileElem_of_integer (s : State) {mode : Nat} (hm : mode < 2) (wrap : Bool) (texp : Int) (oa ow : Opnd) (r c k0 k1 : Nat)
    (e : Elem) : s.tileElem mode wrap texp oa ow r c k0 k1 e = intAccum wrap e (s.dot oa ow r c k0 k1) :=
  if_pos hm

theorem intAccum_of_inRange (wrap : Bool) {e : Elem} {x : Int} (h : inRange 32 (e.main.toInt + x) = true) :
    intAccum wrap e x = ({ e with main := BitVec.ofInt 32 (e.main.toInt + x), shadow := (e.shadow + mod7 x) % 7 }, {}) :=
  if_pos h

theorem intAccum_of_not_inRange (wrap : Bool) {e : Elem} {x : Int} (h : ¬ inRange 32 (e.main.toInt + x) = true) :
    intAccum wrap e x = ({ e with main := BitVec.ofInt 32 (fitInt wrap 32 (e.main.toInt + x)),
                                  shadow := mod7 (fitInt wrap 32 (e.main.toInt + x)) }, { sat := 1 }) :=
  if_neg h

@[simp] theorem intAccum_comp (wrap : Bool) (e : Elem) (x : Int) : (intAccum wrap e x).1.comp = e.comp := by
  by_cases h : inRange 32 (e.main.toInt + x) = true
  · rw [intAccum_of_inRange wrap h]
  · rw [intAccum_of_not_inRange wrap h]

/-- Past the range, `fitInt` gives the nearest end or the total modulo 2^32 (R51). -/
theorem fitInt_32_of_not_inRange (wrap : Bool) {t : Int} (h : ¬ (-(2 ^ 31) ≤ t ∧ t < 2 ^ 31)) :
    fitInt wrap 32 t = if wrap then (t + 2 ^ 31) % 2 ^ 32 - 2 ^ 31 else if t < 0 then -(2 ^ 31) else 2 ^ 31 - 1 := by
  cases wrap with
  | true => rfl
  | false =>
    change (if t < -(2 ^ 31) then -(2 ^ 31) else if 2 ^ 31 - 1 < t then 2 ^ 31 - 1 else t) = if t < 0 then -(2 ^ 31) else 2 ^ 31 - 1
    by_cases hneg : t < 0
    · rw [if_pos hneg, if_pos (by omega)]
    · rw [if_neg hneg, if_neg (by omega), if_pos (by omega)]

theorem intAccum_main_of_fits (wrap : Bool) (e : Elem) (x : Int)
    (h : -(2 ^ 31) ≤ e.main.toInt + x ∧ e.main.toInt + x < 2 ^ 31) :
    (intAccum wrap e x).1.main.toInt = e.main.toInt + x ∧ (intAccum wrap e x).2 = {} := by
  have hr : inRange 32 (e.main.toInt + x) = true := (inRange_iff 32 _).mpr h
  rw [intAccum_of_inRange wrap hr]
  exact ⟨toInt_ofInt_of_inRange (by decide) hr, rfl⟩

theorem intAccum_main_of_not_fits (wrap : Bool) (e : Elem) (x : Int)
    (h : ¬ (-(2 ^ 31) ≤ e.main.toInt + x ∧ e.main.toInt + x < 2 ^ 31)) :
    (intAccum wrap e x).2 = { sat := 1 } ∧ (intAccum wrap e x).1.main.toInt =
      if wrap then (e.main.toInt + x + 2 ^ 31) % 2 ^ 32 - 2 ^ 31 else if e.main.toInt + x < 0 then -(2 ^ 31) else 2 ^ 31 - 1 := by
  have hr : ¬ inRange 32 (e.main.toInt + x) = true := fun hr => h ((inRange_iff 32 _).mp hr)
  rw [intAccum_of_not_inRange wrap hr, ← fitInt_32_of_not_inRange wrap h]
  exact ⟨rfl, toInt_ofInt_of_inRange (by decide) (fitInt_inRange (by decide) wrap _)⟩

theorem drainLine_congr_main {mode : Nat} (hm : mode < 2) (r j : Nat) {t u : Tile}
    (h : ∀ r c, (t.get r c).main = (u.get r c).main) : t.drainLine mode r j = u.drainLine mode r j := by
  simp only [Tile.drainLine, if_neg (Nat.not_le.mpr hm), h]

/-! ### The residue shadow (R57) -/

theorem intAccum_shadow (wrap : Bool) (e : Elem) (x : Int) (h : e.shadow = mod7 e.main.toInt) :
    (intAccum wrap e x).1.shadow = mod7 (intAccum wrap e x).1.main.toInt := by
  by_cases hr : inRange 32 (e.main.toInt + x) = true
  · rw [intAccum_of_inRange wrap hr, toInt_ofInt_of_inRange (by decide) hr, mod7_add, h]
  · rw [intAccum_of_not_inRange wrap hr, toInt_ofInt_of_inRange (by decide) (fitInt_inRange (by decide) wrap _)]

/-- The shadow contribution of a block is the residue of its value, whether it comes from the operands or from the shifter. -/
theorem blockTerm_shadow (wrap : Bool) (p d : Int) : (blockTerm wrap p d).2.2 = mod7 (blockTerm wrap p d).1 := by
  by_cases hp : p = 0
  · rw [blockTerm, if_pos hp]
    rfl
  by_cases hd : 47 < d
  · rw [blockTerm, if_neg hp, if_pos hd]
    rfl
  rw [blockTerm, if_neg hp, if_neg hd]
  dsimp only
  by_cases hpath : (inRange 48 (shiftFloor p (16 - d)) && decide (d ≤ 16)) = true
  · obtain ⟨hrange, hle⟩ := Bool.and_eq_true_iff.mp hpath
    have hshift : 0 ≤ 16 - d := by have := of_decide_eq_true hle; omega
    rw [if_pos hpath, if_pos hrange, mod7_shiftFloor_of_nonneg p hshift]
  · rw [if_neg hpath]

/-- Shadows added up modulo 7 give the residue of the summed values. -/
theorem foldl_shadow_eq_mod7 (b : Int) (ts : List (Int × MmaCnt × Nat)) (h : ∀ q ∈ ts, q.2.2 = mod7 q.1) (a : Int) :
    ts.foldl (fun sh q => (sh + q.2.2) % 7) (mod7 (b + a)) = mod7 (b + ts.foldl (fun a q => a + q.1) a) := by
  induction ts generalizing a with
  | nil => rfl
  | cons q ts ih =>
    have hq : (mod7 (b + a) + q.2.2) % 7 = mod7 (b + (a + q.1)) := by
      rw [h q List.mem_cons_self, ← mod7_add, Int.add_assoc]
    rw [List.foldl_cons, List.foldl_cons, hq]
    exact ih (fun x hx => h x (List.mem_cons_of_mem q hx)) (a + q.1)

theorem accElem_acc {t : Int} (h : inRange 48 t = true) (shadow : Nat) : (accElem t shadow).acc = t := by
  have ⟨hlo, hhi⟩ := (inRange_iff 48 t).mp h
  have hmain : (BitVec.ofInt 32 (t / 65536)).toInt = t / 65536 :=
    toInt_ofInt_of_inRange (by decide) ((inRange_iff 32 _).mpr (by omega))
  have hcomp : ((BitVec.ofInt 16 (t % 65536)).toNat : Int) = t % 65536 := by
    rw [BitVec.toNat_ofInt]; omega
  rw [Elem.acc, accElem, hmain, hcomp, Int.mul_comm, Int.mul_ediv_add_emod]

theorem blockAccum_shadow (wrap : Bool) (e : Elem) (ps : List (Int × Int)) (h : e.shadow = mod7 e.acc) :
    (blockAccum wrap e ps).1.shadow = mod7 (blockAccum wrap e ps).1.acc := by
  unfold blockAccum
  extract_lets ts s c sh t u
  by_cases hr : inRange 48 t = true
  · have hterms : ∀ q ∈ ts, q.2.2 = mod7 q.1 :=
      List.forall_mem_map.mpr fun q _ => blockTerm_shadow wrap q.1 q.2
    have hsum : sh = mod7 t := by
      have := foldl_shadow_eq_mod7 e.acc ts hterms 0
      rwa [Int.add_zero, ← h] at this
    rw [if_pos hr, accElem_acc hr]
    exact hsum
  · rw [if_neg hr, accElem_acc (fitInt_inRange (by decide) wrap _)]
    rfl

/-- Settles O9: `intAccum` by its two equations, in the range and past it, the drained line by congruence in MAIN, and the block-mode shadow by
induction on the depth tile's blocks. -/
theorem arraysAccumulate : Obligations.ArraysAccumulate := by
  unfold Obligations.ArraysAccumulate
  refine ⟨?_, fun mode r j t u hm h => drainLine_congr_main hm r j h, intAccum_shadow, blockAccum_shadow⟩
  intro s mode wrap texp oa ow r c k0 k1 e hm
  rw [tileElem_of_integer s hm, ← dot_eq_sum]
  exact ⟨intAccum_comp wrap e _, intAccum_main_of_fits wrap e _, intAccum_main_of_not_fits wrap e _⟩

end Sys2Proof.Machine

/-! PROOFS. Fabric requests at their home (R204, R206, R207): byte strings, the frame of the home's own bookkeeping, the kept response, and
what READ, WRITE, ATOMIC and SIGNAL leave in memory and registers. -/

namespace Sys2Proof.Machine

/-! ### Byte strings -/

theorem length_leBytes (n v : Nat) : (leBytes n v).length = n := by
  induction n generalizing v with
  | zero => rfl
  | succ n ih => rw [leBytes, List.length_cons, ih]

theorem leNat_leBytes (n v : Nat) : leNat (leBytes n v) = v % 256 ^ n := by
  induction n generalizing v with
  | zero => rw [Nat.pow_zero, Nat.mod_one]; rfl
  | succ n ih => rw [leBytes, leNat, ih, Nat.pow_succ', Nat.mod_mul]; rfl

theorem wordOf_leNat_leBytes (w : Word) : wordOf (leNat (leBytes 8 w.toNat)) = w := by
  rw [leNat_leBytes, Nat.mod_eq_of_lt (by exact w.isLt), wordOf, BitVec.ofNat_toNat, BitVec.setWidth_eq]

theorem leAt_spliceAt (xs v : List Byte) {off : Nat} (h : off ≤ xs.length) : leAt (spliceAt xs off v) off v.length = leNat v := by
  have hlen : (xs.take off).length = off := List.length_take_of_le h
  rw [leAt, spliceAt, List.append_assoc, List.drop_left' hlen, List.take_left]

theorem length_spliceAt {xs v : List Byte} {off : Nat} (h : off + v.length ≤ xs.length) : (spliceAt xs off v).length = xs.length := by
  rw [spliceAt, List.length_append, List.length_append, List.length_take, List.length_drop]
  omega

theorem getD_spliceAt_of_outside (xs v : List Byte) {off i : Nat} (h : off + v.length ≤ xs.length) (hi : i < off ∨ off + v.length ≤ i) :
    (spliceAt xs off v).getD i 0 = xs.getD i 0 := by
  have hlen : (xs.take off).length = off := List.length_take_of_le (by omega)
  rw [List.getD_eq_getElem?_getD, List.getD_eq_getElem?_getD, spliceAt, List.append_assoc]
  rcases hi with hi | hi
  · rw [List.getElem?_append_left (by omega), List.getElem?_take_of_lt hi]
  · rw [List.getElem?_append_right (by omega), List.getElem?_append_right (by omega), List.getElem?_drop, hlen]
    congr 2
    omega

theorem padTo_of_length {n : Nat} {xs : List Byte} (h : xs.length = n) : padTo n xs = xs := by
  subst h
  rw [padTo, List.take_length, Nat.sub_self, List.replicate_zero, List.append_nil]

theorem length_mergeBytes (mask k : Nat) (xs ys : List Byte) : (mergeBytes mask k xs ys).length = xs.length := by
  induction xs generalizing k ys with
  | nil => rfl
  | cons x xs ih => rw [mergeBytes, List.length_cons, List.length_cons, ih]

theorem getD_mergeBytes (mask k : Nat) (xs ys : List Byte) {i : Nat} (hi : i < xs.length) :
    (mergeBytes mask k xs ys).getD i 0 = if nbit mask (k + i) then ys.getD i 0 else xs.getD i 0 := by
  induction xs generalizing k ys i with
  | nil => exact absurd hi (Nat.not_lt_zero i)
  | cons x xs ih =>
    rw [mergeBytes]
    cases i with
    | zero => cases ys <;> rfl
    | succ i =>
      rw [List.getD_cons_succ, List.getD_cons_succ, ih (k + 1) ys.tail (Nat.lt_of_succ_lt_succ hi), Nat.add_right_comm, Nat.add_assoc]
      cases ys <;> rfl

theorem length_smRange {α : Type} (d : α) (m : List (Nat × α)) (k n : Nat) : (smRange d m k n).length = n := by
  induction n generalizing k with
  | zero => rfl
  | succ n ih => rw [smRange, List.length_cons, ih]

theorem getD_smRange {α : Type} (d e : α) (m : List (Nat × α)) (k : Nat) {n i : Nat} (hi : i < n) :
    (smRange d m k n).getD i e = smGet d m (k + i) := by
  induction n generalizing k i with
  | zero => exact absurd hi (Nat.not_lt_zero i)
  | succ n ih =>
    rw [smRange]
    cases i with
    | zero => rfl
    | succ i => rw [List.getD_cons_succ, ih (k + 1) (Nat.lt_of_succ_lt_succ hi), Nat.add_right_comm, Nat.add_assoc]

theorem State.length_line_bytes (s : State) (n : Nat) : (s.line n).bytes.length = 128 := length_smRange _ _ _ _

theorem State.getD_line_bytes (s : State) (n : Nat) {i : Nat} (hi : i < 128) : (s.line n).bytes.getD i 0 = s.byte (128 * n + i) :=
  getD_smRange _ _ _ _ hi

/-! ### Lines written -/

theorem State.LineWritten.bytes_line {s t : State} {n : Nat} {bs : List Byte} {sb : Word} (h : s.LineWritten n bs sb t) :
    (t.line n).bytes = padTo 128 bs := by
  obtain ⟨hbytes, -⟩ := h
  apply List.ext_getElem?
  intro i
  by_cases hi : i < 128
  · have hget := hbytes i hi
    rw [← t.getD_line_bytes n hi, List.getD_eq_getElem?_getD, List.getD_eq_getElem?_getD,
      List.getElem?_eq_getElem (by rwa [t.length_line_bytes]), List.getElem?_eq_getElem (by rwa [length_padTo])] at hget
    rw [List.getElem?_eq_getElem (by rwa [t.length_line_bytes]), List.getElem?_eq_getElem (by rwa [length_padTo])]
    exact congrArg some hget
  · rw [List.getElem?_eq_none (by rw [t.length_line_bytes]; omega), List.getElem?_eq_none (by rw [length_padTo]; omega)]

theorem State.lineWritten_putLine (s : State) (n : Nat) (l : Line) : s.LineWritten n l.bytes l.sb (s.putLine n l) :=
  ⟨s.byte_putLine n l, s.sideOf_putLine n l, fun _ ha => s.byte_putLine_out n l (fun he => ha (List.mem_singleton.mpr he)),
    fun _ hm => s.sideOf_putLine_ne l hm⟩

/-! ### Slots of register space -/

/-- The slot of its die's window that a register-space address names (R396). -/
def regSlot (a : Nat) : Nat := (a - regBase) % 0x2000000 / 0x100000

theorem regSlot_regAddr (d : Nat) (b : Blk) {i f : Nat} (h : 0x1000 * i + f < 0x100000) : regSlot (regAddr d b i f) = b.pos := by
  have hpos : b.pos < 18 := by cases b <;> decide
  unfold regSlot regAddr
  omega

theorem Blk.pos_injective : Function.Injective Blk.pos := by
  have hall : ∀ b : Blk, Blk.all[b.pos]? = some b := fun b => by cases b <;> rfl
  intro b c h
  exact Option.some.inj ((hall b).symm.trans (h ▸ hall c))

/-! ### The frame of the home's own bookkeeping -/

/-- Nothing that an answer is read from has changed, but registers of the blocks `bs`: the part, memory and sidebands, the dies, the members
that blend units keep, and every register elsewhere. -/
structure FrameBut (bs : List Blk) (s t : State) : Prop where
  part : t.part = s.part
  mem : t.mem = s.mem
  side : t.side = s.side
  die : ∀ d, t.die d = s.die d
  merged : ∀ d, (t.router d).merged = (s.router d).merged
  reg : ∀ a, (∀ b ∈ bs, regSlot a ≠ b.pos) → t.reg a = s.reg a

section
variable {bs cs : List Blk} {s t u : State}

theorem FrameBut.refl (bs : List Blk) (s : State) : FrameBut bs s s := ⟨rfl, rfl, rfl, fun _ => rfl, fun _ => rfl, fun _ _ => rfl⟩

theorem FrameBut.trans (h : FrameBut bs s t) (k : FrameBut bs t u) : FrameBut bs s u where
  part := k.part.trans h.part
  mem := k.mem.trans h.mem
  side := k.side.trans h.side
  die d := (k.die d).trans (h.die d)
  merged d := (k.merged d).trans (h.merged d)
  reg a ha := (k.reg a ha).trans (h.reg a ha)

theorem FrameBut.mono (h : FrameBut bs s t) (hsub : bs ⊆ cs) : FrameBut cs s t :=
  { h with reg := fun a ha => h.reg a fun b hb => ha b (hsub hb) }

theorem FrameBut.rg (h : FrameBut bs s t) {b : Blk} (hb : b ∉ bs) (d : Nat) {i f : Nat} (hf : 0x1000 * i + f < 0x100000) :
    t.rg d b i f = s.rg d b i f :=
  h.reg _ fun _ hc he => hb (Blk.pos_injective ((regSlot_regAddr d b hf).symm.trans he) ▸ hc)

theorem FrameBut.byte (h : FrameBut bs s t) (a : Nat) : t.byte a = s.byte a := by rw [State.byte, h.mem, State.byte]

theorem FrameBut.sideOf (h : FrameBut bs s t) (n : Nat) : t.sideOf n = s.sideOf n := by rw [State.sideOf, h.side, State.sideOf]

theorem FrameBut.sameMemory (h : FrameBut bs s t) : s.SameMemory t := ⟨h.byte, h.sideOf⟩

theorem FrameBut.line (h : FrameBut bs s t) (n : Nat) : t.line n = s.line n := by rw [State.line, h.mem, h.sideOf, State.line]

theorem FrameBut.nd (h : FrameBut bs s t) : t.nd = s.nd := congrArg Part.dies h.part

theorem FrameBut.live (h : FrameBut bs s t) (hmod : Blk.mod ∉ bs) (d : Nat) : t.live d = s.live d := by
  rw [State.live, State.awake, State.lowPower, State.fld, h.nd, h.die, h.rg hmod 0 (by decide)]
  rfl

theorem FrameBut.served (h : FrameBut bs s t) (hmod : Blk.mod ∉ bs) (hcel : Blk.cel ∉ bs) (a : Nat) : t.served a = s.served a := by
  rw [State.served, State.isMem, State.isHbm, State.isCel, State.spLines, State.fld, h.live hmod, h.nd, h.rg hcel _ (by decide)]
  rfl

/-- A line written between two pieces of bookkeeping is what memory shows of both (R125). -/
theorem FrameBut.lineWritten {n : Nat} {l : Line} (h : FrameBut bs s t) (k : FrameBut cs (t.putLine n l) u) :
    s.LineWritten n l.bytes l.sb u := by
  obtain ⟨hbytes, hside, hout, hsides⟩ := t.lineWritten_putLine n l
  exact ⟨fun i hi => (k.byte _).trans (hbytes i hi), (k.sideOf n).trans hside,
    fun a ha => (k.byte a).trans ((hout a ha).trans (h.byte a)), fun m hm => (k.sideOf m).trans ((hsides m hm).trans (h.sideOf m))⟩

theorem forEach_frameBut {α : Type} (xs : List α) {f : α → State → State} (hf : ∀ x t, FrameBut bs t (f x t)) (s : State) :
    FrameBut bs s (forEach xs f s) := by
  unfold forEach
  induction xs generalizing s with
  | nil => exact FrameBut.refl bs s
  | cons x xs ih => exact (hf x s).trans (ih (f x s))

end

section
variable (bs : List Blk) (s : State)

theorem updCel_frameBut (d : Nat) (f : Cellar → Cellar) : FrameBut bs s (s.updCel d f) :=
  ⟨rfl, rfl, rfl, fun _ => rfl, fun _ => rfl, fun _ _ => rfl⟩

theorem updLink_frameBut (d : Nat) (f : Link → Link) : FrameBut bs s (s.updLink d f) :=
  ⟨rfl, rfl, rfl, fun _ => rfl, fun _ => rfl, fun _ _ => rfl⟩

theorem updPort_frameBut (d p : Nat) (f : Port → Port) : FrameBut bs s (s.updPort d p f) :=
  ⟨rfl, rfl, rfl, fun _ => rfl, fun _ => rfl, fun _ _ => rfl⟩

theorem emit_frameBut (o : OutMsg) : FrameBut bs s (s.emit o) :=
  ⟨rfl, rfl, rfl, fun _ => rfl, fun _ => rfl, fun _ _ => rfl⟩

theorem noteClass_frameBut (d : Nat) (b : Blk) (i bit : Nat) (c : Cls) : FrameBut bs s (s.noteClass d b i bit c) :=
  ⟨rfl, rfl, rfl, fun _ => rfl, fun _ => rfl, fun _ _ => rfl⟩

theorem fresh_frameBut : FrameBut bs s { s with free := s.free + 1 } :=
  ⟨rfl, rfl, rfl, fun _ => rfl, fun _ => rfl, fun _ _ => rfl⟩

theorem updRouter_frameBut (d : Nat) {f : Router → Router} (hf : ∀ k, (f k).merged = k.merged) : FrameBut bs s (s.updRouter d f) where
  part := rfl
  mem := rfl
  side := rfl
  die _ := rfl
  merged e := by
    by_cases he : e = d
    · rw [he, State.router_updRouter, hf]
    · rw [State.router_updRouter_ne s d f e he]
  reg _ _ := rfl

variable {bs}

theorem setRg_frameBut (d : Nat) {b : Blk} {i f : Nat} (v : Word) (hb : b ∈ bs) (hf : 0x1000 * i + f < 0x100000) :
    FrameBut bs s (s.setRg d b i f v) where
  part := State.setReg_part s _ v
  mem := State.setReg_mem s _ v
  side := State.setReg_side s _ v
  die _ := State.setReg_die_frame s _ v _
  merged _ := congrArg Router.merged (State.setReg_router_frame s _ v _)
  reg _ ha := State.reg_setReg_ne s v fun he => ha b hb (he ▸ regSlot_regAddr d b hf)

theorem addRg_frameBut (d : Nat) {b : Blk} {i f : Nat} (k : Nat) (hb : b ∈ bs) (hf : 0x1000 * i + f < 0x100000) :
    FrameBut bs s (s.addRg d b i f k) :=
  setRg_frameBut s d _ hb hf

end

/-! ### What a record's way through the module leaves alone -/

theorem sendPfc_frameBut (s : State) (d p cls quanta : Nat) : FrameBut [.mac] s (s.sendPfc d p cls quanta) :=
  (emit_frameBut _ s _).trans (addRg_frameBut _ d 1 List.mem_cons_self (by omega))

theorem releasePfc_frameBut (s : State) (d p : Nat) : FrameBut [.mac] s (s.releasePfc d p) :=
  forEach_frameBut _ (fun _ t => (updPort_frameBut _ t d p _).trans (sendPfc_frameBut _ d p _ 0)) s

/-- Transit lines that come free change only ports and their PFC counters (R241). -/
theorem freeTransit_frameBut (s : State) (r : FRec) : FrameBut [.mac] s (s.freeTransit r) := by
  refine forEach_frameBut _ (fun x t => ?_) s
  split
  · exact (updPort_frameBut _ t x.1 x.2 _).trans (releasePfc_frameBut _ x.1 x.2)
  · exact FrameBut.refl _ t

theorem takeRec_frameBut (s : State) (d : Nat) (r : FRec) : FrameBut [.mac] s (s.takeRec d r) := by
  unfold State.takeRec
  split
  · exact FrameBut.refl _ s
  · exact (updRouter_frameBut _ s d fun _ => by rfl).trans (freeTransit_frameBut _ _)

theorem enqueue_frameBut (s : State) (x : Nat × Nat) (cls : Nat) (r : FRec) : FrameBut [] s (s.enqueue x cls r) :=
  updPort_frameBut [] s x.1 x.2 fun p => { p with txq := p.txq ++ [(cls, r)] }

theorem forward_frameBut (s : State) (d cls : Nat) (r : FRec) : FrameBut [] s (s.forward d cls r).1 := by
  unfold State.forward
  extract_lets ctrl
  split
  · exact updRouter_frameBut [] s d (f := fun k => { k with heldq := k.heldq ++ [(cls, r)] }) fun _ => rfl
  · split
    · exact FrameBut.refl [] s
    · exact enqueue_frameBut s _ cls r

theorem forward_applied (s : State) (d cls : Nat) (r : FRec) (e : Nat) :
    ((s.forward d cls r).1.router e).applied = (s.router e).applied := by
  unfold State.forward
  extract_lets ctrl
  split
  · by_cases he : e = d
    · rw [he, State.router_updRouter]
    · rw [State.router_updRouter_ne s d _ e he]
  · split <;> rfl

theorem sendResp_frameBut (s : State) (d cls : Nat) (q : FRec) : FrameBut [] s (s.sendResp d cls q) := by
  unfold State.sendResp
  split
  · exact updRouter_frameBut _ s q.die fun _ => rfl
  · exact forward_frameBut s d cls q

theorem sendResp_applied (s : State) (d cls : Nat) (q : FRec) (e : Nat) :
    ((s.sendResp d cls q).router e).applied = (s.router e).applied := by
  unfold State.sendResp
  split
  · by_cases he : e = q.die
    · rw [he, State.router_updRouter]
    · rw [State.router_updRouter_ne s _ _ e he]
  · exact forward_applied s d cls q e

theorem noteApplied_frameBut (s : State) (cls : Nat) (q : FRec) : FrameBut [] s (s.noteApplied cls q) := by
  unfold State.noteApplied
  exact updRouter_frameBut _ s 0 fun _ => by rfl

/-! ### The cache's part of an access -/

theorem allocate_frameBut (s : State) (a : Nat) (dirty : Bool) : FrameBut [.cel] s (s.allocate a dirty) := by
  unfold State.allocate
  extract_lets d n c rest was same v s1 s2
  split
  · exact updCel_frameBut _ s d _
  · have hs2 : FrameBut [.cel] s s2 := (updCel_frameBut _ s d _).trans (fresh_frameBut _ s1)
    split
    · exact hs2.trans (addRg_frameBut s2 d 1 List.mem_cons_self (by decide))
    · exact hs2

theorem touchRead_frameBut (s : State) (a : Nat) : FrameBut [.cel] s (s.touchRead a) := by
  unfold State.touchRead
  extract_lets d s1
  split
  · exact FrameBut.refl _ s
  split
  · exact (addRg_frameBut s d 1 List.mem_cons_self (by decide)).trans (allocate_frameBut _ a false)
  have hs1 : FrameBut [.cel] s s1 := addRg_frameBut s d 1 List.mem_cons_self (by decide)
  split
  · exact hs1
  · exact hs1.trans (allocate_frameBut s1 a false)

theorem touchWrite_frameBut (s : State) (a : Nat) (masked : Bool) : FrameBut [.cel] s (s.touchWrite a masked) := by
  unfold State.touchWrite
  extract_lets d hit s1
  have hs1 : FrameBut [.cel] s s1 := by
    unfold s1
    split
    · exact addRg_frameBut s d 1 List.mem_cons_self (by decide)
    split
    · exact addRg_frameBut s d 1 List.mem_cons_self (by decide)
    · exact FrameBut.refl _ s
  split
  · exact FrameBut.refl _ s
  split
  · exact hs1.trans (allocate_frameBut s1 a true)
  · exact hs1.trans (allocate_frameBut s1 a false)
  · split
    · exact hs1.trans (updCel_frameBut _ s1 d _)
    · exact hs1

/-! ### Causes at the home (R371) -/

theorem setStat_frameBut (s : State) (d : Nat) (b : Blk) (up : Word) : FrameBut [b] s (s.setStat d b 0 up) := by
  unfold State.setStat
  extract_lets old rise s1
  have hs1 : FrameBut [b] s s1 := setRg_frameBut s d _ List.mem_cons_self (by decide)
  split
  · exact hs1
  · exact hs1.trans (updLink_frameBut _ s1 _ _)

theorem rg_setStat (s : State) (d : Nat) (b : Blk) (i : Nat) (up : Word) : (s.setStat d b i up).rg d b i 0 = s.rg d b i 0 ||| up := by
  unfold State.setStat
  extract_lets old rise s1
  have hs1 : s1.rg d b i 0 = old ||| up := State.rg_setRg s d b i 0 _
  split
  · exact hs1
  · exact (State.putLink_rg_frame s1 _ _ d b i 0).trans hs1

theorem fillLog_frameBut (s : State) (d : Nat) (b : Blk) (log : Nat) : FrameBut [b] s (s.fillLog d b 0 log) := by
  unfold State.fillLog
  split
  · exact FrameBut.refl _ s
  · exact setRg_frameBut s d _ List.mem_cons_self (by decide)

theorem rg_fillLog (s : State) (d : Nat) (b : Blk) (i log : Nat) : (s.fillLog d b i log).rg d b i 0 = s.rg d b i 0 := by
  unfold State.fillLog
  split
  · rfl
  · exact State.rg_setRg_ne s d b i 0x10 _ d b i 0 (regAddr_ne d b i (by decide))

/-- A class short of FTL asks for no stop (R371, step 6). -/
theorem raise_ucc (s : State) (d : Nat) (b : Blk) (i bit log : Nat) :
    s.raise d b i bit .ucc log = ((s.setStat d b i (bitMask bit ||| Cls.ucc.bit)).noteClass d b i bit .ucc).fillLog d b i log := rfl

theorem homeCause_frameBut (s : State) (hd cause : Nat) (r : FRec) : FrameBut [.fab] s (s.homeCause hd cause r) := by
  rw [State.homeCause, raise_ucc]
  exact ((setStat_frameBut s hd .fab _).trans (noteClass_frameBut _ _ hd .fab 0 _ .ucc)).trans (fillLog_frameBut _ hd .fab _)

theorem homeCause_statSet (s : State) (hd : Nat) (r : FRec) : (s.homeCause hd 3 r).StatSet hd .fab 0 10 := by
  have hstat : (s.homeCause hd 3 r).rg hd .fab 0 0 = s.rg hd .fab 0 0 ||| (bitMask 10 ||| Cls.ucc.bit) := by
    rw [State.homeCause, raise_ucc, rg_fillLog]
    exact rg_setStat s hd .fab 0 _
  rw [State.StatSet, hstat, bitOf, BitVec.getLsbD_or, show (bitMask 10 ||| Cls.ucc.bit).getLsbD 10 = true from by decide, Bool.or_true]

/-! ### The kept response (R219, R227) -/

/-- No blend unit of this module keeps members of a request (R217). -/
def State.NoMembers (s : State) (r : FRec) : Prop := ∀ d, smGet [] (s.router d).merged (memberKey r) = []

theorem FrameBut.noMembers {bs : List Blk} {s t : State} (h : FrameBut bs s t) {r : FRec} (hr : s.NoMembers r) : t.NoMembers r :=
  fun d => (h.merged d).symm ▸ hr d

theorem State.NoMembers.putLine {s : State} {r : FRec} (h : s.NoMembers r) (n : Nat) (l : Line) : (s.putLine n l).NoMembers r :=
  fun d => (State.putLine_router_frame s n l d).symm ▸ h d

/-- The response that `State.finish` keeps and sends. -/
def State.homeResp (s : State) (d : Nat) (r : FRec) (st : Nat) (pay : List Byte) : FRec :=
  { respTo r (s.ownId d) st pay with src := if r.op = opRead && st = 0 then gaLocal r.addr / 128 + 1 else 0 }

section
variable {s : State} {r : FRec} (h : s.NoMembers r)
include h

theorem find_members_eq_none (d st : Nat) (pay : List Byte) :
    s.allDies.find? (fun e => !(smGet [] (s.router e).merged (respKey (s.homeResp d r st pay))).isEmpty) = none :=
  List.find?_eq_none.mpr fun e _ => by
    have hkey : smGet [] (s.router e).merged (respKey (s.homeResp d r st pay)) = [] := h e
    rw [hkey]
    decide

/-- Without kept members a request ends with one response: kept in its source's window, and sent. -/
theorem finish_of_noMembers (d cls st : Nat) (pay : List Byte) :
    s.finish d cls r st pay =
      (s.noteApplied cls (s.homeResp d r st pay)).sendResp d (respClass cls) (s.homeResp d r st pay) := by
  have hlist : s.memberList (s.homeResp d r st pay) = [s.homeResp d r st pay] := by
    rw [State.memberList, find_members_eq_none h]
  have hmerged : ∀ e, ((s.noteApplied cls (s.homeResp d r st pay)).router e).merged = (s.router e).merged :=
    (noteApplied_frameBut s cls _).merged
  have hsplit : (s.noteApplied cls (s.homeResp d r st pay)).splitResp (s.homeResp d r st pay) =
      (s.noteApplied cls (s.homeResp d r st pay), [s.homeResp d r st pay]) := by
    have hnone := find_members_eq_none h d st pay
    simp only [← hmerged] at hnone
    rw [State.splitResp]
    rw [show (s.noteApplied cls (s.homeResp d r st pay)).allDies = s.allDies from rfl, hnone]
  have hfinish : s.finish d cls r st pay =
      (forEach (s.memberList (s.homeResp d r st pay)) (fun q t => t.noteApplied cls q) s).takeResp d (respClass cls)
        (s.homeResp d r st pay) := rfl
  rw [hfinish, hlist]
  show (s.noteApplied cls (s.homeResp d r st pay)).takeResp d (respClass cls) (s.homeResp d r st pay) = _
  rw [State.takeResp, hsplit]
  rfl

theorem finish_frameBut (d cls st : Nat) (pay : List Byte) : FrameBut [] s (s.finish d cls r st pay) := by
  rw [finish_of_noMembers h]
  exact (noteApplied_frameBut s cls _).trans (sendResp_frameBut _ d _ _)

/-- The window of the source holds the response under the request's number (R227). -/
theorem finish_applied (d cls st : Nat) (pay : List Byte) :
    (s.finish d cls r st pay).applied? cls r = some (s.homeResp d r st pay) := by
  rw [finish_of_noMembers h, State.applied?, State.window, sendResp_applied, State.noteApplied, State.router_updRouter]
  rw [show winKey cls r = ((s.homeResp d r st pay).dstMod * 8 + (s.homeResp d r st pay).die) * 2 + b2n (ctrlClass cls) from rfl,
    smGet_smPut, List.take_succ_cons, List.find?_cons_of_pos (by exact decide_eq_true rfl)]
  rfl

end

/-! ### A request that stands at its home (R201, R227) -/

theorem served_takeRec (s : State) (d : Nat) (r : FRec) (a : Nat) : (s.takeRec d r).served a = s.served a :=
  (takeRec_frameBut s d r).served (by decide) (by decide) a

section
variable {s : State} {d : Nat} {r : FRec} (h : s.HomeReady d r)
include h

theorem State.HomeReady.takeRec_noMembers : (s.takeRec d r).NoMembers r := by
  obtain ⟨-, -, -, -, -, hmembers⟩ := h
  exact (takeRec_frameBut s d r).noMembers hmembers

theorem serve_of_homeReady (hd : Nat) (f : Nat → State → State × Nat × List Byte) {u : State} {st : Nat} {pay : List Byte}
    (hf : f (s.homeClass d r) (s.takeRec d r) = (u, st, pay)) :
    s.serve d hd r f = (if st = 0 then u.addRg hd .fab 0 0x108 1 else u).finish d (s.homeClass d r) r st pay := by
  obtain ⟨hhome, hnew, horder, haccept, hwaits, -⟩ := h
  rw [State.serve]
  simp only [hhome, hnew, horder, haccept, hwaits, hf, Bool.not_true, Bool.false_eq_true, if_false, List.isEmpty_nil]

/-- A request that its home applies with an OK: it is counted at the die that holds it, and answered. -/
theorem serve_ok (hd : Nat) (f : Nat → State → State × Nat × List Byte) {u : State} {pay : List Byte}
    (hf : f (s.homeClass d r) (s.takeRec d r) = (u, 0, pay)) (hu : u.NoMembers r) :
    s.Answered d r 0 pay (s.serve d hd r f) ∧ FrameBut [] (u.addRg hd .fab 0 0x108 1) (s.serve d hd r f) := by
  have hcount : (u.addRg hd .fab 0 0x108 1).NoMembers r :=
    (addRg_frameBut (bs := [.fab]) u hd 1 List.mem_cons_self (by decide)).noMembers hu
  rw [serve_of_homeReady h hd f hf, if_pos rfl]
  exact ⟨⟨_, finish_applied hcount _ _ _ _, rfl, rfl, rfl, rfl, rfl, rfl, rfl, rfl⟩, finish_frameBut hcount _ _ _ _⟩

/-- A request that its home refuses is answered, and nothing is counted. -/
theorem serve_refused (hd : Nat) (f : Nat → State → State × Nat × List Byte) {u : State} {st : Nat} {pay : List Byte}
    (hf : f (s.homeClass d r) (s.takeRec d r) = (u, st, pay)) (hu : u.NoMembers r) (hst : st ≠ 0) :
    s.Answered d r st pay (s.serve d hd r f) ∧ FrameBut [] u (s.serve d hd r f) := by
  rw [serve_of_homeReady h hd f hf, if_neg hst]
  exact ⟨⟨_, finish_applied hu _ _ _ _, rfl, rfl, rfl, rfl, rfl, rfl, rfl, rfl⟩, finish_frameBut hu _ _ _ _⟩

/-- A request refused before anything of the home has changed leaves memory as it is. -/
theorem serve_refused_sameMemory (hd : Nat) (f : Nat → State → State × Nat × List Byte) {st : Nat} {pay : List Byte}
    (hf : f (s.homeClass d r) (s.takeRec d r) = (s.takeRec d r, st, pay)) (hst : st ≠ 0) :
    s.SameMemory (s.serve d hd r f) ∧ s.Answered d r st pay (s.serve d hd r f) := by
  obtain ⟨hans, hframe⟩ := serve_refused h hd f hf h.takeRec_noMembers hst
  exact ⟨((takeRec_frameBut s d r).trans (hframe.mono (List.nil_subset _))).sameMemory, hans⟩

/-- A request that writes one line with an OK: the line is what memory shows, and the request is answered. -/
theorem serve_writes_line (hd : Nat) (f : Nat → State → State × Nat × List Byte) {v : State} {n : Nat} {l : Line} {pay : List Byte}
    (hv : FrameBut [.cel] (s.takeRec d r) v) (hf : f (s.homeClass d r) (s.takeRec d r) = (v.putLine n l, 0, pay)) :
    s.LineWritten n l.bytes l.sb (s.serve d hd r f) ∧ s.Answered d r 0 pay (s.serve d hd r f) := by
  obtain ⟨hans, hframe⟩ := serve_ok h hd f hf ((hv.noMembers h.takeRec_noMembers).putLine n l)
  have hbefore : FrameBut [.mac, .cel] s v :=
    ((takeRec_frameBut s d r).mono (by decide)).trans (hv.mono (by decide))
  have hafter : FrameBut [.fab] (v.putLine n l) (s.serve d hd r f) :=
    (addRg_frameBut _ hd 1 List.mem_cons_self (by decide)).trans (hframe.mono (List.nil_subset _))
  exact ⟨hbefore.lineWritten hafter, hans⟩

end

/-! ### What a request names -/

/-- Number of the line that a request names. -/
abbrev reqLine (r : FRec) : Nat := gaLocal r.addr / 128

/-- First address of the line that a request names. -/
abbrev reqAddr (r : FRec) : Nat := gaLocal r.addr / 128 * 128

/-- The line in the payload of a WRITE (Table 12.6). -/
abbrev writeLine (r : FRec) : Line := payLine (r.pay.take 136) 1 0

/-- The byte mask in the payload of a WRITE (Table 12.6). -/
abbrev writeByteMask (r : FRec) : Nat := leAt r.pay 136 16

/-- The die of the counter that a SIGNAL names (R207). -/
abbrev sigDie (r : FRec) : Nat := nbits (r.addr % 2 ^ 32) 8 3

/-- The offset of the counter that a SIGNAL names (R103, R207). -/
abbrev sigOff (r : FRec) : Nat := cntOff (nbits (r.addr % 2 ^ 32) 28 3) (nbits (r.addr % 2 ^ 32) 0 8)

theorem reqAddr_div (r : FRec) : reqAddr r / 128 = reqLine r := Nat.mul_div_cancel _ (by decide)

theorem sigOff_lt (r : FRec) : 0x1000 * 0 + sigOff r < 0x100000 := by
  have hctx : nbits (r.addr % 2 ^ 32) 28 3 < 2 ^ 3 := Nat.mod_lt _ (by decide)
  have hcnt : nbits (r.addr % 2 ^ 32) 0 8 < 2 ^ 8 := Nat.mod_lt _ (by decide)
  unfold sigOff cntOff
  omega

/-! ### What each request does at its home -/

section
variable (s : State) (r : FRec)

theorem readFab_of_served (h : s.served (reqAddr r) = true) :
    s.readFab r =
      (s.touchRead (reqAddr r), 0, padTo 128 (s.line (reqLine r)).bytes ++ leBytes 8 (s.sideOf (reqLine r)).toNat) := by
  simp only [State.readFab, State.readAt, h, if_true, reqAddr_div]
  rfl

theorem readFab_of_not_served (h : s.served (reqAddr r) = false) : s.readFab r = (s, 1, []) := by
  simp only [State.readFab, h, Bool.false_eq_true, if_false]

theorem doWrite_of_not_served (cls : Nat) (h : s.served (reqAddr r) = false) : s.doWrite r cls = (s, 1, []) := by
  simp only [State.doWrite, State.writeFab, h, Bool.not_false, if_true]

/-- A full WRITE outside the control class replaces the line and its sideband (R174, R204). -/
theorem doWrite_full {cls : Nat} (h : s.served (reqAddr r) = true) (hmask : writeByteMask r = 2 ^ 128 - 1)
    (hcls : ctrlClass cls = false) :
    s.doWrite r cls = ((s.touchWrite (reqAddr r) false).putLine (reqLine r) (writeLine r), 0, []) := by
  simp only [State.doWrite, State.writeFab, State.writeAt, h, hmask, hcls, Bool.not_true, Bool.not_false, Bool.false_eq_true, and_self,
    if_true, if_false, reqAddr_div]

/-- A masked WRITE whose payload fails its check changes no line (Tables 11.3, 11.10). -/
theorem doWrite_damaged {cls : Nat} (h : s.served (reqAddr r) = true)
    (hmask : ¬ (writeByteMask r = 2 ^ 128 - 1 ∧ ctrlClass cls = false))
    (hpoison : sbPoison (writeLine r).sb = false) (hcrc : (writeLine r).crcOk = false) :
    s.doWrite r cls = (s.homeCause (homeDie (reqAddr r)) 3 r, 2, []) := by
  simp only [State.doWrite, State.writeFab, h, hpoison, hcrc, Bool.not_true, Bool.not_false, Bool.false_eq_true, Bool.and_self,
    Bool.not_eq_true', hmask, if_true, if_false]

/-- A masked WRITE merges its bytes, with or without a sideband of its own (R175, R209). -/
theorem doWrite_masked {cls : Nat} (h : s.served (reqAddr r) = true)
    (hmask : ¬ (writeByteMask r = 2 ^ 128 - 1 ∧ ctrlClass cls = false))
    (hsound : sbPoison (writeLine r).sb = true ∨ (writeLine r).crcOk = true) :
    ∃ sb, s.doWrite r cls = ((s.touchWrite (reqAddr r) true).putLine (reqLine r)
      { bytes := mergeBytes (writeByteMask r) 0 (s.line (reqLine r)).bytes (writeLine r).bytes, sb := sb }, 0, []) := by
  have hpass : (!sbPoison (writeLine r).sb && !(writeLine r).crcOk) = false := by
    rcases hsound with hp | hp
    · rw [hp, Bool.not_true, Bool.false_and]
    · rw [hp, Bool.not_true, Bool.and_false]
  have hline := (touchWrite_frameBut s (reqAddr r) true).line (reqLine r)
  simp only [State.doWrite, State.writeFab, State.mergeBare, State.mergeAt, State.mergeLine, h, hpass, hline, Bool.not_true,
    Bool.false_eq_true, Bool.not_eq_true', hmask, if_false, reqAddr_div]
  split
  · exact ⟨_, rfl⟩
  · exact ⟨_, rfl⟩

theorem doAtomic_of_not_served (h : s.served (reqAddr r) = false) : s.doAtomic r = (s, 1, []) := by
  simp only [State.doAtomic, h, Bool.false_eq_true, if_false]

theorem doAtomic_of_poison (h : s.served (reqAddr r) = true)
    (hpoison : sbPoison (s.sideOf (reqLine r)) = true) : s.doAtomic r = (s, 3, []) := by
  have hat : ∀ x y, s.atomicAt (reqAddr r) r.word r.akind x y r = (s, 3, 0) := fun x y => by
    rw [State.atomicAt, reqAddr_div]
    exact if_pos hpoison
  simp only [State.doAtomic, h, hat, if_true]
  rfl

/-- The word of the line that an ATOMIC acts on (R206). -/
def State.atomicOld (s : State) (r : FRec) : Word := wordOf (leAt (s.line (reqLine r)).bytes (8 * r.word) 8)

/-- The word that an ATOMIC leaves (R206). -/
def State.atomicWord (s : State) (r : FRec) : Word :=
  atomicNew r.akind (s.atomicOld r) (wordOf (leAt r.pay 0 8)) (wordOf (leAt r.pay 8 8))

/-- The bytes of the line that an ATOMIC leaves (R206). -/
def State.atomicBytes (s : State) (r : FRec) : List Byte :=
  spliceAt (s.line (reqLine r)).bytes (8 * r.word) (leBytes 8 (s.atomicWord r).toNat)

theorem doAtomic_of_sound (h : s.served (reqAddr r) = true)
    (hpoison : sbPoison (s.sideOf (reqLine r)) = false) (hcrc : (s.line (reqLine r)).crcOk = true) :
    s.doAtomic r = ((s.touchWrite (reqAddr r) false).putLine (reqLine r)
      (mkLine (s.atomicBytes r) (sbVer (s.sideOf (reqLine r))) (sbFmt (s.sideOf (reqLine r)))
        (sbFlags (s.sideOf (reqLine r)))), 0, leBytes 8 (s.atomicOld r).toNat) := by
  have hside : sbPoison (s.line (reqLine r)).sb = false := hpoison
  simp only [State.doAtomic, State.atomicAt, State.writeAt, h, hside, hcrc, if_true, Bool.not_true, Bool.false_eq_true, if_false,
    reqAddr_div]
  rfl

theorem doSignal_of_live (h : s.live (sigDie r) = true) :
    s.doSignal r = (s.addRg (sigDie r) .seq 0 (sigOff r)
      (r.addr / 2 ^ 32), 0, []) := by
  simp only [State.doSignal, State.signalAt, State.addCnt, h, if_true]

theorem doSignal_of_not_live (h : s.live (sigDie r) = false) : s.doSignal r = (s, 1, []) := by
  simp only [State.doSignal, State.signalAt, h, Bool.false_eq_true, if_false]

end

/-! ### The word of an ATOMIC -/

section
variable (s : State) {r : FRec} (hword : r.word < 16)
include hword

theorem length_atomicBytes : (s.atomicBytes r).length = 128 := by
  rw [State.atomicBytes, length_spliceAt (by rw [s.length_line_bytes, length_leBytes]; omega), s.length_line_bytes]

theorem leAt_atomicBytes : wordOf (leAt (s.atomicBytes r) (8 * r.word) 8) = s.atomicWord r := by
  have hsplice := leAt_spliceAt (s.line (reqLine r)).bytes (leBytes 8 (s.atomicWord r).toNat) (off := 8 * r.word)
    (by rw [s.length_line_bytes]; omega)
  rw [length_leBytes] at hsplice
  rw [State.atomicBytes, hsplice, wordOf_leNat_leBytes]

theorem getD_atomicBytes {i : Nat} (hi : i < 128) (hother : i / 8 ≠ r.word) :
    (s.atomicBytes r).getD i 0 = s.byte (128 * (reqLine r) + i) := by
  have hfits : 8 * r.word + (leBytes 8 (s.atomicWord r).toNat).length ≤ (s.line (reqLine r)).bytes.length := by
    rw [s.length_line_bytes, length_leBytes]; omega
  rw [State.atomicBytes, getD_spliceAt_of_outside _ _ hfits (by rw [length_leBytes]; omega), s.getD_line_bytes _ hi]

end

/-! ### The commands -/

section
variable (s : State) (d : Nat) {r : FRec}

theorem exec_read (hop : r.op = opRead) :
    exec (.read d r) s = .next (s.serve d (s.homeOf d r) r fun _ t => t.readFab r) := by
  rw [show exec (.read d r) s = execRead d r s from rfl, execRead, if_pos hop]

theorem exec_write (hop : r.op = opWrite ∨ r.op = opMcast) :
    exec (.write d r) s = .next (s.serve d (s.homeOf d r) r fun cls t => t.doWrite r cls) := by
  rw [show exec (.write d r) s = execWrite d r s from rfl, execWrite, if_pos hop]

theorem exec_atomic (env : Env) (hop : r.op = opAtomic) :
    exec (.atomic d r env false) s = .next (s.serve d (s.homeOf d r) r fun _ t => t.doAtomic r) := by
  rw [show exec (.atomic d r env false) s = execAtomic d r env false s from rfl, execAtomic, State.atomicRow, if_neg (not_not_intro hop),
    Bool.false_and, if_neg Bool.false_ne_true]

theorem exec_signal (hop : r.op = opSignal) :
    exec (.signal d r false) s =
      .next (s.serve d (if nbits r.addr 8 3 < s.nd then nbits r.addr 8 3 else d) r fun _ t => t.doSignal r) := by
  rw [show exec (.signal d r false) s = execSignal d r false s from rfl, execSignal, State.signalRow]
  simp only [hop, ne_eq, not_true_eq_false, if_false, Bool.false_and, Bool.false_eq_true]

end

/-! ### READ, WRITE, ATOMIC and SIGNAL at a home that is ready for them -/

section
variable {s : State} {d : Nat} {r : FRec} (h : s.HomeReady d r)
include h

theorem read_served (hop : r.op = opRead) (hs : s.served (reqAddr r) = true) :
    ∃ t, exec (.read d r) s = .next t ∧ s.SameMemory t ∧
      s.Answered d r 0 (padTo 128 (s.line (reqLine r)).bytes ++ leBytes 8 (s.sideOf (reqLine r)).toNat) t ∧
      t.rg (s.homeOf d r) .fab 0 0x108 = s.rg (s.homeOf d r) .fab 0 0x108 + 1 := by
  have htake := takeRec_frameBut s d r
  have htouch := touchRead_frameBut (s.takeRec d r) (reqAddr r)
  have hread := readFab_of_served (s.takeRec d r) r ((served_takeRec s d r _).trans hs)
  rw [htake.line, htake.sideOf] at hread
  have hbefore : FrameBut [.mac, .cel] s ((s.takeRec d r).touchRead (reqAddr r)) :=
    (htake.mono (by decide)).trans (htouch.mono (by decide))
  obtain ⟨hans, hafter⟩ := serve_ok h (s.homeOf d r) (fun _ t => t.readFab r) hread (htouch.noMembers h.takeRec_noMembers)
  have hcount := addRg_frameBut (bs := [.fab]) ((s.takeRec d r).touchRead (reqAddr r)) (s.homeOf d r) (b := .fab) (i := 0)
    (f := 0x108) 1 List.mem_cons_self (by decide)
  refine ⟨_, exec_read s d hop, ?_, hans, ?_⟩
  · exact ((hbefore.mono (by decide : _ ⊆ [Blk.mac, .cel, .fab])).trans
      ((hcount.mono (by decide)).trans (hafter.mono (List.nil_subset _)))).sameMemory
  · rw [hafter.rg List.not_mem_nil _ (by decide), State.addRg, State.rg_setRg, hbefore.rg (by decide) _ (by decide)]
    rfl

theorem read_not_served (hop : r.op = opRead) (hs : s.served (reqAddr r) = false) :
    ∃ t, exec (.read d r) s = .next t ∧ s.SameMemory t ∧ s.Answered d r 1 [] t :=
  ⟨_, exec_read s d hop,
    serve_refused_sameMemory h _ _ (readFab_of_not_served (s.takeRec d r) r ((served_takeRec s d r _).trans hs)) (by decide)⟩

theorem write_not_served (hop : r.op = opWrite ∨ r.op = opMcast) (hs : s.served (reqAddr r) = false) :
    ∃ t, exec (.write d r) s = .next t ∧ s.SameMemory t ∧ s.Answered d r 1 [] t :=
  ⟨_, exec_write s d hop,
    serve_refused_sameMemory h _ _ (doWrite_of_not_served (s.takeRec d r) r _ ((served_takeRec s d r _).trans hs)) (by decide)⟩

theorem write_full (hop : r.op = opWrite ∨ r.op = opMcast) (hs : s.served (reqAddr r) = true)
    (hmask : writeByteMask r = 2 ^ 128 - 1) (hcls : ctrlClass (s.homeClass d r) = false) :
    ∃ t, exec (.write d r) s = .next t ∧
      s.LineWritten (reqLine r) (writeLine r).bytes (writeLine r).sb t ∧
      s.Answered d r 0 [] t :=
  ⟨_, exec_write s d hop, serve_writes_line h _ _ (touchWrite_frameBut _ _ false)
    (doWrite_full (s.takeRec d r) r ((served_takeRec s d r _).trans hs) hmask hcls)⟩

theorem write_masked (hop : r.op = opWrite ∨ r.op = opMcast) (hs : s.served (reqAddr r) = true)
    (hmask : ¬ (writeByteMask r = 2 ^ 128 - 1 ∧ ctrlClass (s.homeClass d r) = false))
    (hsound : sbPoison (writeLine r).sb = true ∨ (writeLine r).crcOk = true) :
    ∃ t, exec (.write d r) s = .next t ∧ s.Answered d r 0 [] t ∧ s.SameBytesBut [reqLine r] t ∧
      ∀ i, i < 128 → t.byte (128 * (reqLine r) + i) =
        if nbit (writeByteMask r) i then (writeLine r).bytes.getD i 0
        else s.byte (128 * (reqLine r) + i) := by
  obtain ⟨sb, hwrite⟩ := doWrite_masked (s.takeRec d r) r ((served_takeRec s d r _).trans hs) hmask hsound
  rw [(takeRec_frameBut s d r).line] at hwrite
  obtain ⟨⟨hbytes, -, hout, -⟩, hans⟩ :=
    serve_writes_line h (s.homeOf d r) (fun cls t => t.doWrite r cls) (touchWrite_frameBut _ _ true) hwrite
  refine ⟨_, exec_write s d hop, hans, hout, fun i hi => ?_⟩
  have hlen : (s.line (reqLine r)).bytes.length = 128 := s.length_line_bytes _
  rw [hbytes i hi, padTo_of_length ((length_mergeBytes _ _ _ _).trans hlen), getD_mergeBytes _ _ _ _ (hlen ▸ hi), Nat.zero_add,
    s.getD_line_bytes _ hi]

theorem write_damaged (hop : r.op = opWrite ∨ r.op = opMcast) (hs : s.served (reqAddr r) = true)
    (hmask : ¬ (writeByteMask r = 2 ^ 128 - 1 ∧ ctrlClass (s.homeClass d r) = false))
    (hpoison : sbPoison (writeLine r).sb = false) (hcrc : (writeLine r).crcOk = false) :
    ∃ t, exec (.write d r) s = .next t ∧ s.Answered d r 2 [] t ∧ s.SameMemory t ∧
      t.StatSet (homeDie (reqAddr r)) .fab 0 10 := by
  have hcause := homeCause_frameBut (s.takeRec d r) (homeDie (reqAddr r)) 3 r
  obtain ⟨hans, hafter⟩ := serve_refused h (s.homeOf d r) (fun cls t => t.doWrite r cls)
    (doWrite_damaged (s.takeRec d r) r ((served_takeRec s d r _).trans hs) hmask hpoison hcrc)
    (hcause.noMembers h.takeRec_noMembers) (by decide)
  refine ⟨_, exec_write s d hop, hans, ?_, ?_⟩
  · exact (((takeRec_frameBut s d r).mono (by decide : _ ⊆ [Blk.mac, .fab])).trans
      ((hcause.mono (by decide)).trans (hafter.mono (List.nil_subset _)))).sameMemory
  · rw [State.StatSet, hafter.rg List.not_mem_nil _ (by decide)]
    exact homeCause_statSet _ _ r

theorem atomic_not_served (env : Env) (hop : r.op = opAtomic) (hs : s.served (reqAddr r) = false) :
    ∃ t, exec (.atomic d r env false) s = .next t ∧ s.SameMemory t ∧ s.Answered d r 1 [] t :=
  ⟨_, exec_atomic s d env hop,
    serve_refused_sameMemory h _ _ (doAtomic_of_not_served (s.takeRec d r) r ((served_takeRec s d r _).trans hs)) (by decide)⟩

theorem atomic_of_poison (env : Env) (hop : r.op = opAtomic) (hs : s.served (reqAddr r) = true)
    (hpoison : sbPoison (s.sideOf (reqLine r)) = true) :
    ∃ t, exec (.atomic d r env false) s = .next t ∧ s.SameMemory t ∧ s.Answered d r 3 [] t := by
  rw [← (takeRec_frameBut s d r).sideOf] at hpoison
  exact ⟨_, exec_atomic s d env hop,
    serve_refused_sameMemory h _ _ (doAtomic_of_poison (s.takeRec d r) r ((served_takeRec s d r _).trans hs) hpoison) (by decide)⟩

theorem atomic_of_sound (env : Env) (hop : r.op = opAtomic) (hs : s.served (reqAddr r) = true)
    (hpoison : sbPoison (s.sideOf (reqLine r)) = false) (hcrc : (s.line (reqLine r)).crcOk = true)
    (hword : r.word < 16) :
    ∃ t, exec (.atomic d r env false) s = .next t ∧ s.Answered d r 0 (leBytes 8 (s.atomicOld r).toNat) t ∧
      s.SameBytesBut [reqLine r] t ∧
      wordOf (leAt (t.line (reqLine r)).bytes (8 * r.word) 8) = s.atomicWord r ∧
      (∀ i, i < 128 → i / 8 ≠ r.word → t.byte (128 * (reqLine r) + i) = s.byte (128 * (reqLine r) + i)) ∧
      t.sideOf (reqLine r) = mkSide (crc32c (t.line (reqLine r)).bytes) (sbVer (s.sideOf (reqLine r)))
        (sbFmt (s.sideOf (reqLine r))) (sbFlags (s.sideOf (reqLine r))) := by
  have htake := takeRec_frameBut s d r
  have hatomic := doAtomic_of_sound (s.takeRec d r) r
    ((served_takeRec s d r _).trans hs) (htake.sideOf _ ▸ hpoison) (htake.line _ ▸ hcrc)
  rw [State.atomicBytes, State.atomicWord, State.atomicOld, htake.line, htake.sideOf] at hatomic
  obtain ⟨hwritten, hans⟩ := serve_writes_line h (s.homeOf d r) (fun _ t => t.doAtomic r) (touchWrite_frameBut _ _ false) hatomic
  have hpad : padTo 128 (s.atomicBytes r) = s.atomicBytes r := padTo_of_length (length_atomicBytes s hword)
  have hline := hwritten.bytes_line.trans hpad
  obtain ⟨hbytes, hside, hout, -⟩ := hwritten
  refine ⟨_, exec_atomic s d env hop, hans, hout, ?_, fun i hi hother => ?_, ?_⟩
  · rw [hline, leAt_atomicBytes s hword]
  · exact (hbytes i hi).trans ((congrArg (fun bs => bs.getD i 0) hpad).trans (getD_atomicBytes s hword hi hother))
  · rw [hline]
    exact hside

theorem signal_live (hop : r.op = opSignal) (hlive : s.live (sigDie r) = true) :
    ∃ t, exec (.signal d r false) s = .next t ∧ s.SameMemory t ∧ s.Answered d r 0 [] t ∧
      t.rg (sigDie r) .seq 0 (sigOff r) =
        s.rg (sigDie r) .seq 0 (sigOff r) +
          wordOf (r.addr / 2 ^ 32) := by
  have htake := takeRec_frameBut s d r
  have hadd := addRg_frameBut (bs := [.seq]) (s.takeRec d r) (sigDie r) (b := .seq) (r.addr / 2 ^ 32)
    List.mem_cons_self (sigOff_lt r)
  obtain ⟨hans, hafter⟩ := serve_ok h (if nbits r.addr 8 3 < s.nd then nbits r.addr 8 3 else d) (fun _ t => t.doSignal r)
    (doSignal_of_live (s.takeRec d r) r ((htake.live (by decide) _).trans hlive)) (hadd.noMembers h.takeRec_noMembers)
  have hcounted := (addRg_frameBut (bs := [.fab]) _ _ 1 List.mem_cons_self (by decide)).trans (hafter.mono (List.nil_subset _))
  refine ⟨_, exec_signal s d hop, ?_, hans, ?_⟩
  · exact ((htake.mono (by decide : _ ⊆ [Blk.mac, .seq, .fab])).trans ((hadd.mono (by decide)).trans
      (hcounted.mono (by decide)))).sameMemory
  · rw [hcounted.rg (by decide) _ (sigOff_lt r), State.addRg, State.rg_setRg, htake.rg (by decide) _ (sigOff_lt r)]

theorem signal_not_live (hop : r.op = opSignal) (hlive : s.live (sigDie r) = false) :
    ∃ t, exec (.signal d r false) s = .next t ∧ s.SameMemory t ∧ s.Answered d r 1 [] t :=
  ⟨_, exec_signal s d hop, serve_refused_sameMemory h _ _
    (doSignal_of_not_live (s.takeRec d r) r (((takeRec_frameBut s d r).live (by decide) _).trans hlive)) (by decide)⟩

end

/-- Settles O32: the record's way to its home and its response leave memory, dies and every block but their own counters alone, so each
request's own effect is what the next state shows, and the kept window holds the response. -/
theorem fabricRequestsAtHome : Obligations.FabricRequestsAtHome := by
  unfold Obligations.FabricRequestsAtHome
  intro s d r env _ h
  refine ⟨fun hop => ⟨read_served h hop, read_not_served h hop⟩, fun hop => ⟨write_not_served h hop, write_full h hop, ?_⟩,
    fun hop => ⟨atomic_not_served h env hop, atomic_of_poison h env hop, atomic_of_sound h env hop⟩,
    fun hop => ⟨signal_live h hop, signal_not_live h hop⟩⟩
  exact fun hs hmask => ⟨write_masked h hop hs hmask, write_damaged h hop hs hmask⟩

end Sys2Proof.Machine

/-! PROOFS. What the end of a die's work leaves alone (R59, R224, R283, R384): the dies, the registers of SAF, stopped contexts and the steps
in flight, through traps, failing requests, the fabric router and ports that go down. -/

namespace Sys2Proof.Machine

/-! ### What the end of a die's work leaves alone -/

/-- What the end of a die's work leaves alone (Table 22.4, t2): the part, the dies and the registers of SAF; no context starts to run, and no
step is in flight that was not before. Lines may be poisoned and records lost on the way, so this is no `FrameBut`. -/
structure Quiet (s t : State) : Prop where
  part : t.part = s.part
  die : ∀ d, t.die d = s.die d
  saf : ∀ a, regSlot a = Blk.saf.pos → t.reg a = s.reg a
  ctx : ∀ d c, (t.ctx d c).st = .running → (s.ctx d c).st = .running
  flights : ∀ f ∈ t.flights, ∃ g ∈ s.flights, g.id = f.id ∧ g.d = f.d

section
variable {s t u : State}

/-- A change of none of the tables that `Quiet` reads. -/
theorem Quiet.of_same (hpart : t.part = s.part) (hdies : t.dies = s.dies) (hregs : t.regs = s.regs) (hctxs : t.ctxs = s.ctxs)
    (hflights : t.flights = s.flights) : Quiet s t where
  part := hpart
  die _ := by rw [State.die, hdies, State.die]
  saf _ _ := by rw [State.reg, hregs, hpart, State.reg]
  ctx _ _ h := by rwa [State.ctx, hctxs] at h
  flights f hf := ⟨f, hflights ▸ hf, rfl, rfl⟩

theorem Quiet.refl (s : State) : Quiet s s := .of_same rfl rfl rfl rfl rfl

theorem Quiet.trans (h : Quiet s t) (k : Quiet t u) : Quiet s u where
  part := k.part.trans h.part
  die d := (k.die d).trans (h.die d)
  saf a ha := (k.saf a ha).trans (h.saf a ha)
  ctx d c hrun := h.ctx d c (k.ctx d c hrun)
  flights f hf := by
    obtain ⟨g, hg, hgid, hgd⟩ := k.flights f hf
    obtain ⟨r, hr, hrid, hrd⟩ := h.flights g hg
    exact ⟨r, hr, hrid.trans hgid, hrd.trans hgd⟩

theorem Quiet.rg_saf (h : Quiet s t) (d : Nat) {f : Nat} (hf : f < 0x100000) : t.rg d .saf 0 f = s.rg d .saf 0 f :=
  h.saf _ (regSlot_regAddr d .saf (by omega))

theorem forEach_quiet {α : Type} (xs : List α) {f : α → State → State} (hf : ∀ x t, Quiet t (f x t)) (s : State) :
    Quiet s (forEach xs f s) := by
  unfold forEach
  induction xs generalizing s with
  | nil => exact Quiet.refl s
  | cons x xs ih => exact (hf x s).trans (ih (f x s))

end

section
variable (s : State)

/-! ### Tables that `Quiet` does not read -/

theorem putRouter_quiet (d : Nat) (x : Router) : Quiet s (s.putRouter d x) := .of_same rfl rfl rfl rfl rfl
theorem putLink_quiet (d : Nat) (x : Link) : Quiet s (s.putLink d x) := .of_same rfl rfl rfl rfl rfl
theorem putPort_quiet (d p : Nat) (x : Port) : Quiet s (s.putPort d p x) := .of_same rfl rfl rfl rfl rfl
theorem putCel_quiet (d : Nat) (x : Cellar) : Quiet s (s.putCel d x) := .of_same rfl rfl rfl rfl rfl
theorem putHbm_quiet (d k : Nat) (x : Hbm) : Quiet s (s.putHbm d k x) := .of_same rfl rfl rfl rfl rfl
theorem putHc_quiet (c : Nat) (x : HCtx) : Quiet s (s.putHc c x) := .of_same rfl rfl rfl rfl rfl
theorem putChan_quiet (d c h : Nat) (x : Chan) : Quiet s (s.putChan d c h x) := .of_same rfl rfl rfl rfl rfl
theorem putPh_quiet (d p : Nat) (x : Phys) : Quiet s (s.putPh d p x) := .of_same rfl rfl rfl rfl rfl
theorem poisonLine_quiet (n : Nat) : Quiet s (s.poisonLine n) := .of_same rfl rfl rfl rfl rfl
theorem putLine_quiet (n : Nat) (l : Line) : Quiet s (s.putLine n l) := .of_same rfl rfl rfl rfl rfl
theorem emit_quiet (o : OutMsg) : Quiet s (s.emit o) := .of_same rfl rfl rfl rfl rfl
theorem fresh_quiet : Quiet s s.fresh := .of_same rfl rfl rfl rfl rfl
theorem queueIntr_quiet (d v : Nat) : Quiet s (s.queueIntr d v) := .of_same rfl rfl rfl rfl rfl
theorem noteClass_quiet (d : Nat) (b : Blk) (i bit : Nat) (c : Cls) : Quiet s (s.noteClass d b i bit c) := .of_same rfl rfl rfl rfl rfl
theorem loseMemory_quiet (d : Nat) : Quiet s (s.loseMemory d) := .of_same rfl rfl rfl rfl rfl

/-! ### Registers, contexts and steps in flight -/

theorem setRg_quiet (d : Nat) {b : Blk} {i f : Nat} (v : Word) (hb : b ≠ .saf) (hf : 0x1000 * i + f < 0x100000) :
    Quiet s (s.setRg d b i f v) where
  part := State.setReg_part s _ v
  die := State.setReg_die_frame s _ v
  saf _ ha := State.reg_setReg_ne s v fun he => hb (Blk.pos_injective ((regSlot_regAddr d b hf).symm.trans (he ▸ ha)))
  ctx d' c h := by rwa [State.setRg, State.setReg_ctx_frame] at h
  flights f hf := ⟨f, by rwa [State.setRg, State.setReg_flights] at hf, rfl, rfl⟩

theorem setFld_quiet (d : Nat) {b : Blk} {i f : Nat} (lo n v : Nat) (hb : b ≠ .saf) (hf : 0x1000 * i + f < 0x100000) :
    Quiet s (s.setFld d b i f lo n v) := setRg_quiet s d _ hb hf

theorem addRg_quiet (d : Nat) {b : Blk} {i f : Nat} (k : Nat) (hb : b ≠ .saf) (hf : 0x1000 * i + f < 0x100000) :
    Quiet s (s.addRg d b i f k) := setRg_quiet s d _ hb hf

theorem updCtx_quiet (d c : Nat) {f : Ctx → Ctx} (hf : (f (s.ctx d c)).st ≠ .running) : Quiet s (s.updCtx d c f) :=
  { (.of_same rfl rfl rfl rfl rfl : Quiet s { s.updCtx d c f with ctxs := s.ctxs }) with
    ctx := fun d' c' h => by
      by_cases hkey : d' * 8 + c' = d * 8 + c
      · have hsame : (s.updCtx d c f).ctx d' c' = f (s.ctx d c) := by
          rw [State.ctx, hkey]
          exact State.ctx_updCtx s d c f
        exact absurd (hsame ▸ h) hf
      · rwa [State.ctx_updCtx_ne s d c f d' c' hkey] at h }

theorem dropFlight_quiet (id : Nat) : Quiet s (s.dropFlight id) :=
  { (.of_same rfl rfl rfl rfl rfl : Quiet s { s.dropFlight id with flights := s.flights }) with
    flights := fun f hf => ⟨f, (List.mem_filter.mp hf).1, rfl, rfl⟩ }

theorem updFlight_quiet (id : Nat) {g : Flight → Flight} (hg : ∀ f, (g f).d = f.d) : Quiet s (s.updFlight id g) :=
  { (.of_same rfl rfl rfl rfl rfl : Quiet s { s.updFlight id g with flights := s.flights }) with
    flights := fun f hf => by
      obtain ⟨r, hr, rfl⟩ := List.mem_map.mp hf
      refine ⟨r, hr, ?_⟩
      split
      · exact ⟨rfl, (hg r).symm⟩
      · exact ⟨rfl, rfl⟩ }

/-! ### Causes short of FTL -/

theorem setStat_quiet (d : Nat) {b : Blk} {i : Nat} (up : Word) (hb : b ≠ .saf) (hi : i < 8) : Quiet s (s.setStat d b i up) := by
  unfold State.setStat
  extract_lets old rise s1
  have hs1 : Quiet s s1 := setRg_quiet s d _ hb (by omega)
  split
  · exact hs1
  · exact hs1.trans (queueIntr_quiet s1 d _)

theorem fillLog_quiet (d : Nat) {b : Blk} {i : Nat} (log : Nat) (hb : b ≠ .saf) (hi : i < 8) : Quiet s (s.fillLog d b i log) := by
  unfold State.fillLog
  split
  · exact Quiet.refl s
  · exact setRg_quiet s d _ hb (by omega)

theorem raise_quiet (d : Nat) {b : Blk} {i : Nat} (bit : Nat) {c : Cls} (log : Nat) (hb : b ≠ .saf) (hi : i < 8) (hc : c ≠ .ftl) :
    Quiet s (s.raise d b i bit c log) := by
  have hcause : s.cause d b i bit c = (s.setStat d b i (bitMask bit ||| c.bit)).noteClass d b i bit c := if_neg hc
  rw [State.raise, hcause]
  exact ((setStat_quiet s d _ hb hi).trans (noteClass_quiet _ d b i bit c)).trans (fillLog_quiet _ d log hb hi)

/-! ### Memory -/

theorem allocate_quiet (a : Nat) (dirty : Bool) : Quiet s (s.allocate a dirty) := by
  unfold State.allocate
  extract_lets d n c rest was same v s1 s2
  have hs2 : Quiet s s2 := (putCel_quiet s d _).trans (fresh_quiet _)
  split
  · exact putCel_quiet s d _
  · split
    · exact hs2.trans (addRg_quiet s2 d 1 (by decide) (by decide))
    · exact hs2

theorem touchWrite_quiet (a : Nat) (masked : Bool) : Quiet s (s.touchWrite a masked) := by
  unfold State.touchWrite
  extract_lets d hit s1
  have hs1 : Quiet s s1 := by
    unfold s1
    split
    · exact addRg_quiet s d 1 (by decide) (by decide)
    split
    · exact addRg_quiet s d 1 (by decide) (by decide)
    · exact Quiet.refl s
  split
  · exact Quiet.refl s
  split
  · exact hs1.trans (allocate_quiet s1 a true)
  · exact hs1.trans (allocate_quiet s1 a false)
  · split
    · exact hs1.trans (putCel_quiet s1 d _)
    · exact hs1

theorem writeAt_quiet (a : Nat) (l : Line) : Quiet s (s.writeAt a l) := (touchWrite_quiet s a false).trans (putLine_quiet _ _ l)

/-! ### Traps and steps that end (R59, R111, R258) -/

theorem writeDigest_quiet (d c h : Nat) (complete : Bool) : Quiet s (s.writeDigest d c h complete) := by
  unfold State.writeDigest
  extract_lets base ch
  split
  · exact Quiet.refl s
  · split
    · exact Quiet.refl s
    · exact writeAt_quiet s _ _

theorem abandonChan_quiet (d c h : Nat) : Quiet s (s.abandonChan d c h) := by
  unfold State.abandonChan
  extract_lets ch
  split
  · exact Quiet.refl s
  · extract_lets s1 s2
    have hs1 : Quiet s s1 := by
      unfold s1
      split
      · exact Quiet.refl s
      · refine (writeDigest_quiet s d c h false).trans (forEach_quiet _ (fun j t => forEach_quiet _ (fun n u => ?_) t) _)
        split
        · exact poisonLine_quiet u n
        · exact Quiet.refl u
    have hs2 : Quiet s s2 := hs1.trans (forEach_quiet _ (fun (x : Bucket) t => dropFlight_quiet t x.fid) s1)
    exact hs2.trans (putChan_quiet s2 d c h _)

theorem abandonCtx_quiet (d c : Nat) : Quiet s (s.abandonCtx d c) :=
  forEach_quiet _ (fun h t => abandonChan_quiet t d c h) s

theorem trapDies_quiet (c : Nat) : Quiet s (s.trapDies c) := by
  refine forEach_quiet _ (fun d t => ?_) s
  split
  · exact abandonCtx_quiet t d c
  · exact (updCtx_quiet t d c CtxSt.noConfusion).trans (abandonCtx_quiet _ d c)

theorem trap_quiet (c : Nat) (r : TrapRec) : Quiet s (s.trap c r) := (putHc_quiet s c _).trans (trapDies_quiet _ c)

theorem failFlight_quiet (id : Nat) : Quiet s (s.failFlight id) := by
  unfold State.failFlight
  split
  · exact Quiet.refl s
  · refine Quiet.trans ?_ (updFlight_quiet _ id fun _ => rfl)
    split
    · exact Quiet.refl s
    · exact (forEach_quiet _ (fun n t => poisonLine_quiet t n) s).trans (putHc_quiet _ _ _)

theorem Flight.eng_lt (f : Flight) : f.eng < 8 := Nat.mod_lt _ (by decide)

theorem engTrap_quiet (f : Flight) (cause bit w2 w3 : Nat) : Quiet s (s.engTrap f cause bit w2 w3) :=
  ((raise_quiet s f.d bit _ (by decide) f.eng_lt (by decide)).trans (failFlight_quiet _ f.id)).trans (trap_quiet _ f.c _)

theorem hostFail_quiet (f : Flight) (i st la : Nat) : Quiet s (s.hostFail f i st la) := engTrap_quiet s f _ _ _ _

theorem redTrap_quiet (d c h fid cause level st w2 w3 : Nat) : Quiet s (s.redTrap d c h fid cause level st w2 w3) := by
  unfold State.redTrap
  extract_lets f s1 log s2
  have hs1 : Quiet s s1 := setRg_quiet s d _ (by decide) (by decide)
  have hs2 : Quiet s s2 := by
    unfold s2
    split
    · exact hs1
    · exact hs1.trans (setRg_quiet s1 d _ (by decide) (by decide))
  exact hs2.trans (trap_quiet s2 c _)

/-! ### The Aigraic Link -/

theorem aglCnt_quiet (d n : Nat) {k : Nat} (hk : k < 16) : Quiet s (s.aglCnt d k n) := addRg_quiet s d n (by decide) (by omega)

theorem sendFlit_quiet (d : Nat) (m : Option LMsg) : Quiet s (s.sendFlit d m) :=
  ((putLink_quiet s d _).trans (emit_quiet _ _)).trans (aglCnt_quiet _ d 1 (by decide))

theorem pumpLink_quiet (d n : Nat) : Quiet s (State.pumpLink d n s) := by
  induction n generalizing s with
  | zero => exact Quiet.refl s
  | succ n ih =>
    rw [State.pumpLink]
    split
    · exact Quiet.refl s
    · exact ((putLink_quiet s d _).trans (sendFlit_quiet _ d _)).trans (ih _)

theorem sendMsg_quiet (d : Nat) (m : LMsg) : Quiet s (s.sendMsg d m) := (putLink_quiet s d _).trans (pumpLink_quiet _ d _)

theorem respond_quiet (d : Nat) (m : LMsg) : Quiet s (s.respond d m) := by
  unfold State.respond
  extract_lets s1
  have hs1 : Quiet s s1 := by
    unfold s1
    split
    · exact Quiet.refl s
    · exact aglCnt_quiet s d 1 (by decide)
  split
  · exact hs1
  · exact hs1.trans (sendMsg_quiet s1 d m)

/-! ### Requests that fail (R210, R228) -/

theorem formatDet_quiet (r : FRec) : Quiet s (s.formatDet r).1 := by
  unfold State.formatDet
  split
  · exact Quiet.refl s
  · exact fresh_quiet s

theorem failOwner_quiet (d : Nat) (t : TagEnt) (st : Nat) : Quiet s (s.failOwner d t st) := by
  unfold State.failOwner
  split
  · exact trap_quiet s _ _
  · split
    · exact Quiet.refl s
    · refine (updFlight_quiet s _ ?_).trans (engTrap_quiet _ _ _ _ _ _)
      exact fun _ => rfl
  · extract_lets ch
    split
    · exact Quiet.refl s
    · extract_lets f
      split
      · exact (formatDet_quiet s t.r).trans (trap_quiet _ _ _)
      · exact redTrap_quiet s _ _ _ _ _ _ _ _ _
  · exact respond_quiet s _ _

/-! ### The fabric router -/

theorem enqueue_quiet (x : Nat × Nat) (cls : Nat) (r : FRec) : Quiet s (s.enqueue x cls r) := putPort_quiet s x.1 x.2 _

theorem forward_quiet (d cls : Nat) (r : FRec) : Quiet s (s.forward d cls r).1 := by
  unfold State.forward
  extract_lets ctrl
  split
  · exact putRouter_quiet s d _
  · split
    · exact Quiet.refl s
    · exact enqueue_quiet s _ cls r

theorem keepMembers_quiet (d : Nat) (r : FRec) (ms : List FRec) : Quiet s (s.keepMembers d r ms) := by
  unfold State.keepMembers
  split
  · exact Quiet.refl s
  · exact putRouter_quiet s d _

theorem blend_quiet (d cls : Nat) (r : FRec) : Quiet s (s.blend d cls r).1 := by
  unfold State.blend
  split
  · exact Quiet.refl s
  split
  · exact Quiet.refl s
  extract_lets k rest full old s1 s2 s3 keep
  split
  · split
    · exact putRouter_quiet s d _
    split
    · exact putRouter_quiet s d _
    split
    · exact (putRouter_quiet s d _).trans (addRg_quiet _ d 1 (by decide) (by decide))
    · exact putRouter_quiet s d _
  split
  · have hs1 : Quiet s s1 := putRouter_quiet s d _
    have hs2 : Quiet s s2 := by
      unfold s2
      split
      · exact hs1.trans (addRg_quiet s1 d 1 (by decide) (by decide))
      · exact hs1
    show Quiet s s3
    unfold s3
    clear_value old
    split
    · split
      · exact hs2.trans ((keepMembers_quiet s2 d _ _).trans (forward_quiet _ d _ _))
      · exact hs2
    · exact hs2
  · exact putRouter_quiet s d _

theorem launch_quiet (d : Nat) (own : Owner) (r : FRec) : Quiet s (s.launch d own r) := by
  unfold State.launch
  extract_lets cls k tag q r1 ent s1 n s2
  have hs1 : Quiet s s1 := (putRouter_quiet s d _).trans (addRg_quiet _ d 1 (by decide) (by decide))
  have hs2 : Quiet s s2 := by
    unfold s2
    split
    · exact hs1.trans (setFld_quiet s1 d _ _ _ (by decide) (by decide))
    · exact hs1
  have hs3 : Quiet s (if s.blends d r.dstMod then s2.blend d cls r1 else (s2, some r1)).1 := by
    split
    · exact hs2.trans (blend_quiet s2 d cls r1)
    · exact hs2
  split
  next s3 go hgo =>
  rw [hgo] at hs3
  split
  · exact hs3
  next r2 =>
  split
  · exact hs3.trans (putRouter_quiet s3 d _)
  · extract_lets via
    have hs4 : Quiet s (s3.forward d cls r2).1 := hs3.trans (forward_quiet s3 d cls r2)
    split
    next s4 ok hok =>
    rw [hok] at hs4
    split
    · exact hs4.trans (putRouter_quiet s4 d _)
    · extract_lets s5
      have hs5 : Quiet s s5 := hs4.trans (raise_quiet s4 d 15 _ (by decide) (by decide) (by decide))
      exact (hs5.trans (putRouter_quiet s5 d _)).trans (failOwner_quiet _ d ent 6)

theorem pumpFab_quiet (d : Nat) (before q : List (FRec × Owner)) : Quiet s (State.pumpFab d before q s) := by
  induction q generalizing before s with
  | nil => exact putRouter_quiet s d _
  | cons e rest ih =>
    rw [State.pumpFab]
    split
    · exact (launch_quiet s d e.2 e.1).trans (ih _ before)
    · exact ih s _

theorem returnTag_quiet (d tag : Nat) : Quiet s (s.returnTag d tag) :=
  ((putRouter_quiet s d _).trans (putRouter_quiet _ d _)).trans (pumpFab_quiet _ d _ _)

theorem failTag_quiet (d tag st : Nat) : Quiet s (s.failTag d tag st) := by
  unfold State.failTag
  split
  · exact Quiet.refl s
  · exact (failOwner_quiet s d _ st).trans (returnTag_quiet _ d tag)

theorem sendResp_quiet (d cls : Nat) (r : FRec) : Quiet s (s.sendResp d cls r) := by
  unfold State.sendResp
  split
  · exact putRouter_quiet s r.die _
  · exact forward_quiet s d cls r

theorem splitResp_quiet (r : FRec) : Quiet s (s.splitResp r).1 := by
  unfold State.splitResp
  split
  · exact Quiet.refl s
  · exact putRouter_quiet s _ _

theorem takeResp_quiet (d cls : Nat) (r : FRec) : Quiet s (s.takeResp d cls r) :=
  (splitResp_quiet s r).trans (forEach_quiet _ (fun m t => sendResp_quiet t d cls m) _)

theorem forwardOr_quiet (d cls : Nat) (r : FRec) : Quiet s (s.forwardOr d cls r) := by
  unfold State.forwardOr
  extract_lets x
  have hx : Quiet s x.1 := forward_quiet s d cls r
  split
  · exact hx
  · unfold State.noRoute
    split
    · exact hx.trans (takeResp_quiet x.1 d _ _)
    · exact hx

theorem resend_quiet (d tag : Nat) : Quiet s (s.resend d tag) := by
  unfold State.resend
  split
  · exact Quiet.refl s
  split
  · extract_lets _ r s1 ctrl via s2 x
    have hs1 : Quiet s s1 :=
      (raise_quiet s d 12 _ (by decide) (by decide) (by decide)).trans (addRg_quiet _ d 1 (by decide) (by decide))
    clear_value s1
    have hs2 : Quiet s s2 := hs1.trans (putRouter_quiet s1 d _)
    clear_value s2
    split
    · exact hs2.trans (putRouter_quiet s2 d _)
    · have hx : Quiet s x.1 := hs2.trans (forward_quiet s2 d 1 r)
      split
      · exact hx
      · exact (hx.trans (raise_quiet x.1 d 15 _ (by decide) (by decide) (by decide))).trans (failTag_quiet _ d tag 6)
  · exact (raise_quiet s d 13 _ (by decide) (by decide) (by decide)).trans (failTag_quiet _ d tag 5)

/-! ### Ports that go DOWN (R224, R283) -/

theorem portDown_quiet (d p : Nat) : Quiet s (s.portDown d p) := by
  unfold State.portDown
  extract_lets k s1 s2 s3 s4
  have hport : p % 4 < 4 := Nat.mod_lt p (by decide)
  have hs1 : Quiet s s1 := (setFld_quiet s d 16 1 0 (by decide) (by omega)).trans (raise_quiet _ d 14 _ (by decide) (by decide) (by decide))
  clear_value s1
  have hs2 : Quiet s s2 := hs1.trans (putPort_quiet s1 d p _)
  clear_value s2
  have hs3 : Quiet s s3 := hs2.trans (forEach_quiet _ (fun (x : Nat × Nat) t => resend_quiet t x.1 x.2) s2)
  clear_value s3
  have hs4 : Quiet s s4 := by
    unfold s4
    split
    · exact (hs3.trans (putRouter_quiet s3 d _)).trans (setFld_quiet _ d 16 1 1 (by decide) (by decide))
    · exact hs3
  clear_value s4
  exact hs4.trans (forEach_quiet _ (fun (x : Nat × FRec) t => forwardOr_quiet t d x.1 x.2) s4)

theorem setLk_quiet (d st : Nat) : Quiet s (s.setLk d st) :=
  ((setFld_quiet s d _ _ _ (by decide) (by decide)).trans (setFld_quiet _ d _ _ _ (by decide) (by decide))).trans
    (setFld_quiet _ 0 _ _ _ (by decide) (by decide))

theorem descArrive_failed_quiet (c : Nat) (ws : List Word) : Quiet s (s.descArrive c false ws) := by
  unfold State.descArrive
  split
  · exact Quiet.refl s
  · exact putHc_quiet s c _

/-- A module request that ends with LINK_DOWN writes nothing and sends nothing on (R283, R293). -/
theorem hostEnd_linkDown_quiet (q : HReq) (l : Line) : Quiet s (s.hostEnd q 7 l) := by
  unfold State.hostEnd
  split
  · exact descArrive_failed_quiet s _ _
  · exact putHc_quiet s _ _
  · exact Quiet.refl s
  · exact Quiet.refl s
  · split
    · exact Quiet.refl s
    · refine (updFlight_quiet s _ ?_).trans (hostFail_quiet _ _ _ _ _)
      exact fun _ => rfl
  · rw [if_pos (by decide)]
    unfold State.ownerEnd
    split
    · exact putHc_quiet s _ _
    · exact Quiet.refl s

theorem linkDown_quiet (d : Nat) : Quiet s (s.linkDown d) := by
  unfold State.linkDown
  extract_lets k lost s1 s2
  have hs1 : Quiet s s1 := ((setLk_quiet s d lkDown).trans (putLink_quiet _ d _)).trans (aglCnt_quiet _ d lost (by decide))
  have hs2 : Quiet s s2 := hs1.trans (forEach_quiet _ (fun (e : Nat × Bool) t => poisonLine_quiet t e.1) s1)
  exact hs2.trans (forEach_quiet _ (fun q t => hostEnd_linkDown_quiet t q zeroLine) s2)

theorem stopPorts_quiet (d : Nat) : Quiet s (s.stopPorts d) := by
  unfold State.stopPorts
  extract_lets s1
  have hs1 : Quiet s s1 := by
    refine forEach_quiet _ (fun p t => ?_) s
    split
    · exact portDown_quiet t d p
    · exact Quiet.refl t
  split
  · exact hs1.trans (linkDown_quiet s1 d)
  · exact hs1

end

end Sys2Proof.Machine

/-! PROOFS. Causes and clears (R371, R374, R387, R405): what a cause changes, the ERR_N readback, the rejections of a bridge, and the bits that
ones written to a status register clear. -/

namespace Sys2Proof.Machine

/-! ### Ones written to a status register (R387) -/

theorem getLsbD_maskOf (lo n k : Nat) (hk : k < 64) : (maskOf lo n).getLsbD k = decide (lo ≤ k ∧ k < lo + n) := by
  rw [maskOf, BitVec.getLsbD_ofNat, Nat.testBit_shiftLeft, Nat.testBit_two_pow_sub_one, decide_eq_true hk, Bool.true_and,
    ← Bool.decide_and, decide_eq_decide]
  omega

theorem getLsbD_bitMask (i k : Nat) (hk : k < 64) : (bitMask i).getLsbD k = decide (i = k) := by
  rw [bitMask, BitVec.getLsbD_ofNat, Nat.testBit_two_pow, decide_eq_true hk, Bool.true_and]

theorem getLsbD_not (w : Word) (k : Nat) (hk : k < 64) : (~~~ w).getLsbD k = !w.getLsbD k := by
  rw [BitVec.getLsbD_not, decide_eq_true hk, Bool.true_and]

/-- The bits that `State.clearStat` is to clear: ones written to W1C bits that no rule holds. -/
def State.clearMask (s : State) (d : Nat) (b : Blk) (v : Word) : Word :=
  v &&& (maskOf 0 4 ||| causeMask b) &&& ~~~ s.stuckBits d b

/-- The status register after its cause bits are cleared. -/
def State.causesKept (s : State) (d : Nat) (b : Blk) (i : Nat) (v : Word) : Word :=
  s.rg d b i 0 &&& ~~~ (s.clearMask d b v &&& ~~~ maskOf 0 3)

/-- The class bits that are cleared: those written with ones that no remaining cause holds. -/
def State.classesFreed (s : State) (d : Nat) (b : Blk) (i : Nat) (v : Word) : Word :=
  (List.range 3).foldl (fun acc k =>
    if bitOf (s.clearMask d b v) k && !s.holdsClass d b i (s.causesKept d b i v) k then acc ||| bitMask k else acc) 0

/-- The status register that a clear leaves. -/
def State.statCleared (s : State) (d : Nat) (b : Blk) (i : Nat) (v : Word) : Word :=
  s.causesKept d b i v &&& ~~~ s.classesFreed d b i v

theorem clearStat_eq (s : State) (d : Nat) (b : Blk) (i : Nat) (v : Word) :
    s.clearStat d b i v = (s.setRg d b i 0 (s.statCleared d b i v)).forgetClasses d b i (s.statCleared d b i v) := rfl

/-- A fold that sets the bits of a list which meet a test. -/
theorem getLsbD_foldl_bitMask (p : Nat → Bool) (xs : List Nat) (acc : Word) (k : Nat) (hk : k < 64) :
    (xs.foldl (fun acc j => if p j then acc ||| bitMask j else acc) acc).getLsbD k = (acc.getLsbD k || (xs.contains k && p k)) := by
  induction xs generalizing acc with
  | nil => simp
  | cons j xs ih =>
    rw [List.foldl_cons, ih, List.contains_cons]
    by_cases hjk : j = k
    · subst hjk
      cases hp : p j <;> simp [getLsbD_bitMask _ _ hk]
    · have hkj : (k == j) = false := beq_false_of_ne (Ne.symm hjk)
      cases hp : p j <;> simp [getLsbD_bitMask _ _ hk, hjk, hkj]

section
variable (s : State) (d : Nat) (b : Blk) (i : Nat) (v : Word)

theorem getLsbD_clearMask (k : Nat) (hk : k < 64) : (s.clearMask d b v).getLsbD k =
    (v.getLsbD k && (decide (k < 4) || (causeMask b).getLsbD k) && !(s.stuckBits d b).getLsbD k) := by
  rw [State.clearMask, BitVec.getLsbD_and, BitVec.getLsbD_and, BitVec.getLsbD_or, getLsbD_maskOf _ _ _ hk, getLsbD_not _ _ hk]
  simp

theorem getLsbD_causesKept (k : Nat) (hk : k < 64) : (s.causesKept d b i v).getLsbD k =
    ((s.rg d b i 0).getLsbD k && !((s.clearMask d b v).getLsbD k && !decide (k < 3))) := by
  rw [State.causesKept, BitVec.getLsbD_and, getLsbD_not _ _ hk, BitVec.getLsbD_and, getLsbD_not _ _ hk, getLsbD_maskOf _ _ _ hk]
  simp

theorem getLsbD_classesFreed (k : Nat) (hk : k < 64) : (s.classesFreed d b i v).getLsbD k =
    (decide (k < 3) && ((s.clearMask d b v).getLsbD k && !s.holdsClass d b i (s.causesKept d b i v) k)) := by
  rw [State.classesFreed, getLsbD_foldl_bitMask _ _ _ _ hk]
  simp [bitOf]

theorem getLsbD_statCleared (k : Nat) (hk : k < 64) : (s.statCleared d b i v).getLsbD k =
    ((s.causesKept d b i v).getLsbD k && !(s.classesFreed d b i v).getLsbD k) := by
  rw [State.statCleared, BitVec.getLsbD_and, getLsbD_not _ _ hk]

/-- No rule holds CONFIG_BUSY (R164, R387). -/
theorem stuckBits_three : (s.stuckBits d b).getLsbD 3 = false := by
  have hbit : ∀ (p : Prop) [Decidable p] (w : Word), w.getLsbD 3 = false → (if p then w else 0).getLsbD 3 = false := by
    intro p _ w hw
    split
    · exact hw
    · rfl
  rw [State.stuckBits, BitVec.getLsbD_or, BitVec.getLsbD_or, hbit _ _ (by decide), hbit _ _ (by decide)]
  split
  · exact hbit _ _ (by decide)
  · exact hbit _ _ (by decide)

theorem statCleared_cause (k : Nat) (hlo : 8 ≤ k) (hhi : k < 64) : bitOf (s.statCleared d b i v) k =
    (bitOf (s.rg d b i 0) k && !(bitOf v k && bitOf (causeMask b) k && !bitOf (s.stuckBits d b) k)) := by
  have h4 : ¬ k < 4 := by omega
  have h3 : ¬ k < 3 := by omega
  simp only [bitOf, getLsbD_statCleared _ _ _ _ _ _ hhi, getLsbD_classesFreed _ _ _ _ _ _ hhi, getLsbD_causesKept _ _ _ _ _ _ hhi,
    getLsbD_clearMask _ _ _ _ _ hhi, h4, h3, decide_false, Bool.false_or, Bool.false_and, Bool.not_false, Bool.and_true]

theorem statCleared_busy : bitOf (s.statCleared d b i v) 3 = (bitOf (s.rg d b i 0) 3 && !bitOf v 3) := by
  have h64 : 3 < 64 := by decide
  simp only [bitOf, getLsbD_statCleared _ _ _ _ _ _ h64, getLsbD_classesFreed _ _ _ _ _ _ h64, getLsbD_causesKept _ _ _ _ _ _ h64,
    getLsbD_clearMask _ _ _ _ _ h64, stuckBits_three]
  simp

/-- Only cause bits hold a class. -/
theorem holdsClass_congr {w x : Word} (h : ∀ k, 8 ≤ k → k < 64 → bitOf w k = bitOf x k) (cls : Nat) :
    s.holdsClass d b i w cls = s.holdsClass d b i x cls := by
  unfold State.holdsClass
  rw [Bool.eq_iff_iff, List.any_eq_true, List.any_eq_true]
  refine exists_congr fun k => and_congr_right fun hk => ?_
  by_cases h8 : 8 ≤ k
  · rw [h k h8 (List.mem_range.mp hk)]
  · rw [decide_eq_false h8, Bool.false_and, Bool.false_and, Bool.false_and, Bool.false_and]

theorem holdsClass_statCleared (cls : Nat) :
    s.holdsClass d b i (s.statCleared d b i v) cls = s.holdsClass d b i (s.causesKept d b i v) cls := by
  refine holdsClass_congr s d b i (fun k hlo hhi => ?_) cls
  have h3 : ¬ k < 3 := by omega
  rw [bitOf, getLsbD_statCleared _ _ _ _ _ _ hhi, getLsbD_classesFreed _ _ _ _ _ _ hhi, decide_eq_false h3, Bool.false_and,
    Bool.not_false, Bool.and_true, bitOf]

theorem statCleared_class (k : Nat) (hk : k < 3) : bitOf (s.statCleared d b i v) k =
    (bitOf (s.rg d b i 0) k && !(bitOf v k && !bitOf (s.stuckBits d b) k && !s.holdsClass d b i (s.statCleared d b i v) k)) := by
  have h64 : k < 64 := by omega
  have h4 : k < 4 := by omega
  rw [holdsClass_statCleared]
  simp only [bitOf, getLsbD_statCleared _ _ _ _ _ _ h64, getLsbD_classesFreed _ _ _ _ _ _ h64, getLsbD_causesKept _ _ _ _ _ _ h64,
    getLsbD_clearMask _ _ _ _ _ h64, hk, h4, decide_true, Bool.true_or, Bool.true_and, Bool.not_true, Bool.and_false, Bool.not_false,
    Bool.and_true]

end

/-! ### Memory, what was sent, and registers -/

/-- The part, memory and what was sent are as before, and so is every register but those at the local addresses `as`. -/
structure OnlyRegs (as : List Nat) (s t : State) : Prop where
  part : t.part = s.part
  memory : s.SameMemory t
  regs : s.SameRegsBut as t
  out : t.out = s.out

section
variable {as bs : List Nat} {s t u : State}

theorem OnlyRegs.of_same (hmem : t.mem = s.mem) (hside : t.side = s.side) (hpart : t.part = s.part) (hregs : t.regs = s.regs)
    (hout : t.out = s.out) : OnlyRegs as s t where
  part := hpart
  memory := ⟨fun a => by rw [State.byte, hmem, State.byte], fun n => by rw [State.sideOf, hside, State.sideOf]⟩
  regs a _ := by rw [State.reg, hpart, hregs, State.reg]
  out := hout

theorem OnlyRegs.trans (h : OnlyRegs as s t) (k : OnlyRegs as t u) : OnlyRegs as s u where
  part := k.part.trans h.part
  memory := ⟨fun a => (k.memory.1 a).trans (h.memory.1 a), fun n => (k.memory.2 n).trans (h.memory.2 n)⟩
  regs a ha := (k.regs a ha).trans (h.regs a ha)
  out := k.out.trans h.out

theorem OnlyRegs.mono (h : OnlyRegs as s t) (hsub : as ⊆ bs) : OnlyRegs bs s t :=
  { h with regs := fun a ha => h.regs a fun hin => ha (hsub hin) }

theorem setReg_onlyRegs (s : State) {a : Nat} (v : Word) (ha : a ∈ as) : OnlyRegs as s (s.setReg a v) where
  part := State.setReg_part s a v
  memory := ⟨State.setReg_byte_frame s a v, State.setReg_sideOf_frame s a v⟩
  regs _ hb := State.reg_setReg_ne s v fun he => hb (he ▸ ha)
  out := State.setReg_out s a v

end

section
variable (s : State) (d : Nat) (b : Blk) (i : Nat)

theorem addRg_onlyRegs (f k : Nat) : OnlyRegs [regAddr d b i f] s (s.addRg d b i f k) ∧
    (s.addRg d b i f k).rg d b i f = s.rg d b i f + wordOf k :=
  ⟨setReg_onlyRegs s _ List.mem_cons_self, State.rg_setRg s d b i f _⟩

theorem queueIntr_onlyRegs (v : Nat) (as : List Nat) : OnlyRegs as s (s.queueIntr d v) := .of_same rfl rfl rfl rfl rfl

theorem setStat_onlyRegs (up : Word) : OnlyRegs [regAddr d b i 0] s (s.setStat d b i up) := by
  unfold State.setStat
  extract_lets old rise s1
  have hs1 : OnlyRegs [regAddr d b i 0] s s1 := setReg_onlyRegs s _ List.mem_cons_self
  split
  · exact hs1
  · exact hs1.trans (queueIntr_onlyRegs s1 d _ _)

theorem fillLog_onlyRegs (log : Nat) : OnlyRegs [regAddr d b i 0x10] s (s.fillLog d b i log) := by
  unfold State.fillLog
  split
  · exact .of_same rfl rfl rfl rfl rfl
  · exact setReg_onlyRegs s _ List.mem_cons_self

theorem noteStop_onlyRegs (bit : Nat) (c : Cls) (as : List Nat) : OnlyRegs as s (s.noteStop d b bit c) := by
  unfold State.noteStop
  split
  · split
    · exact .of_same rfl rfl rfl rfl rfl
    · exact .of_same rfl rfl rfl rfl rfl
  · exact .of_same rfl rfl rfl rfl rfl

theorem noteClass_onlyRegs (bit : Nat) (c : Cls) (as : List Nat) : OnlyRegs as s (s.noteClass d b i bit c) :=
  .of_same rfl rfl rfl rfl rfl

theorem cause_onlyRegs (bit : Nat) (c : Cls) : OnlyRegs [regAddr d b i 0] s (s.cause d b i bit c) :=
  ((setStat_onlyRegs s d b i _).trans (noteClass_onlyRegs _ d b i bit c _)).trans (noteStop_onlyRegs _ d b bit c _)

/-- A cause changes its block's status and log, and nothing in memory (R371). -/
theorem raise_onlyRegs (bit : Nat) (c : Cls) (log : Nat) :
    OnlyRegs [regAddr d b i 0, regAddr d b i 0x10] s (s.raise d b i bit c log) :=
  ((cause_onlyRegs s d b i bit c).mono (by simp)).trans ((fillLog_onlyRegs _ d b i log).mono (by simp))

theorem rg_raise (bit : Nat) (c : Cls) (log : Nat) :
    (s.raise d b i bit c log).rg d b i 0 = s.rg d b i 0 ||| (bitMask bit ||| c.bit) := by
  have hstop := (noteStop_onlyRegs ((s.setStat d b i (bitMask bit ||| c.bit)).noteClass d b i bit c) d b bit c []).regs
    (regAddr d b i 0) List.not_mem_nil
  rw [State.raise, rg_fillLog]
  exact hstop.trans (rg_setStat s d b i _)

theorem raise_statSet {bit k : Nat} {c : Cls} (log : Nat) (hk : (bitMask bit ||| c.bit).getLsbD k = true) :
    (s.raise d b i bit c log).StatSet d b i k := by
  rw [State.StatSet, rg_raise, bitOf, BitVec.getLsbD_or, hk, Bool.or_true]

/-! ### The stop that a fatal cause calls for (R371, step 6) -/

theorem setStat_die (up : Word) (e : Nat) : (s.setStat d b i up).die e = s.die e := by
  unfold State.setStat
  extract_lets old rise s1
  have hs1 : s1.die e = s.die e := State.setReg_die_frame s _ _ e
  split
  · exact hs1
  · exact (State.putLink_die_frame s1 _ _ e).trans hs1

theorem setStat_modc (up : Word) : (s.setStat d b i up).modc = s.modc := by
  unfold State.setStat
  extract_lets old rise s1
  have hs1 : s1.modc = s.modc := State.setReg_modc s _ _
  split
  · exact hs1
  · exact (State.putLink_modc s1 _ _).trans hs1

theorem fillLog_die (log e : Nat) : (s.fillLog d b i log).die e = s.die e := by
  unfold State.fillLog
  split
  · rfl
  · exact State.setReg_die_frame s _ _ e

theorem fillLog_modc (log : Nat) : (s.fillLog d b i log).modc = s.modc := by
  unfold State.fillLog
  split
  · rfl
  · exact State.setReg_modc s _ _

theorem raise_ftl_mod_stopDue (bit log : Nat) : (s.raise d .mod i bit .ftl log).modc.stopDue ≠ none := by
  rw [State.raise, fillLog_modc]
  exact Option.some_ne_none _

theorem raise_ftl_stopDue (hb : b ≠ .mod) (bit log : Nat) : ((s.raise d b i bit .ftl log).die d).stopDue ≠ none := by
  rw [State.raise, fillLog_die, State.cause, State.noteStop, if_pos rfl, if_neg hb, State.die_updDie]
  exact Option.some_ne_none _

theorem raise_die_ne (bit : Nat) (c : Cls) (log : Nat) {e : Nat} (he : e ≠ d) : (s.raise d b i bit c log).die e = s.die e := by
  have hset : ((s.setStat d b i (bitMask bit ||| c.bit)).noteClass d b i bit c).die e = s.die e := setStat_die s d b i _ e
  rw [State.raise, fillLog_die, State.cause, State.noteStop, ← hset]
  split
  · split
    · rfl
    · exact State.die_updDie_ne _ d _ e he
  · rfl

end

/-! ### ERRN_STUCK (R374) -/

theorem exec_errnStuck (s : State) : exec .errnStuck s = .next s.errnStuckSeen := rfl

theorem errnStuck_released {s : State} (h : s.errnLow = false) : exec .errnStuck s = .next s := by
  rw [exec_errnStuck, State.errnStuckSeen, if_neg (by rw [h]; decide)]

theorem errnStuck_low {s : State} (h : s.errnLow = true) : ∃ t, exec .errnStuck s = .next t ∧ s.SameMemory t ∧
    s.SameRegsBut [regAddr 0 .mod 0 0, regAddr 0 .mod 0 0x10] t ∧ t.StatSet 0 .mod 0 16 ∧ t.StatSet 0 .mod 0 2 ∧
    t.errnStuck = true ∧ t.modc.stopDue ≠ none := by
  have hraise := raise_onlyRegs s 0 .mod 0 16 .ftl (modLog 7 0 0)
  refine ⟨{ s.modRaise 16 7 0 0 .ftl with errnStuck := true }, ?_, hraise.memory, hraise.regs, ?_, ?_, rfl, ?_⟩
  · rw [exec_errnStuck, State.errnStuckSeen, if_pos h]
  · exact raise_statSet s 0 .mod 0 _ (by decide)
  · exact raise_statSet s 0 .mod 0 _ (by decide)
  · exact raise_ftl_mod_stopDue s 0 0 16 _

/-! ### Rejected flits of a bridge (R405) -/

section
variable {s : State} {d peer n : Nat}

theorem exec_bridgeFlitReject (s : State) (d peer n : Nat) : exec (.bridgeFlitReject d peer n) s = .next (s.bridgeReject d peer n) := rfl

theorem bridgeReject_idle (h : s.live d = false ∨ s.live peer = false ∨ d = peer) :
    exec (.bridgeFlitReject d peer n) s = .next s := by
  have hoff : (s.live d && s.live peer && decide (d ≠ peer)) = false := by
    rcases h with h | h | h <;> simp [h]
  rw [exec_bridgeFlitReject, State.bridgeReject, hoff]
  rfl

section
variable (hd : s.live d = true) (hpeer : s.live peer = true) (hne : d ≠ peer)
include hd hpeer hne

theorem bridgeReject_resent (hn : n < 8) : ∃ t, exec (.bridgeFlitReject d peer n) s = .next t ∧ s.SameMemory t ∧ t.StatSet d .trl 0 8 ∧
    t.rg d .trl 0 0x20 = s.rg d .trl 0 0x20 + 1 ∧ t.out = .bridge d peer :: s.out ∧
    s.SameRegsBut [regAddr d .trl 0 0, regAddr d .trl 0 0x10, regAddr d .trl 0 0x20] t := by
  have hexec : exec (.bridgeFlitReject d peer n) s =
      .next (((s.raise d .trl 0 8 .ce (trlLog 1 peer)).addRg d .trl 0 0x20 1).emit (.bridge d peer)) := by
    rw [exec_bridgeFlitReject, State.bridgeReject, hd, hpeer, decide_eq_true hne, if_neg (by decide), if_neg (Nat.not_le.mpr hn)]
  have hraise := raise_onlyRegs s d .trl 0 8 .ce (trlLog 1 peer)
  have hstat := raise_statSet s d .trl 0 (bit := 8) (k := 8) (c := .ce) (trlLog 1 peer) (by decide)
  generalize s.raise d .trl 0 8 .ce (trlLog 1 peer) = u at hexec hraise hstat
  obtain ⟨hadd, hcount⟩ := addRg_onlyRegs u d .trl 0 0x20 1
  have hboth : OnlyRegs [regAddr d .trl 0 0, regAddr d .trl 0 0x10, regAddr d .trl 0 0x20] s (u.addRg d .trl 0 0x20 1) :=
    (hraise.mono (by simp)).trans (hadd.mono (by simp))
  have hstat' : (u.addRg d .trl 0 0x20 1).rg d .trl 0 0 = u.rg d .trl 0 0 := hadd.regs _ (by simp [regAddr_ne])
  have hcount' : u.rg d .trl 0 0x20 = s.rg d .trl 0 0x20 := hraise.regs _ (by simp [regAddr_ne])
  rw [hcount'] at hcount
  rw [State.StatSet, ← hstat'] at hstat
  generalize u.addRg d .trl 0 0x20 1 = w at hexec hboth hcount hstat
  refine ⟨w.emit (.bridge d peer), hexec, ⟨fun a => ?_, fun m => ?_⟩, ?_, ?_, congrArg _ hboth.out, fun a ha => ?_⟩
  · exact (w.emit_byte_frame _ a).trans (hboth.memory.1 a)
  · exact (w.emit_sideOf_frame _ m).trans (hboth.memory.2 m)
  · rwa [State.StatSet, State.emit_rg_frame]
  · exact (w.emit_rg_frame _ d .trl 0 0x20).trans hcount
  · exact (w.emit_reg_frame _ a).trans (hboth.regs a ha)

theorem bridgeReject_fatal (hn : 8 ≤ n) : ∃ t, exec (.bridgeFlitReject d peer n) s = .next t ∧ s.SameMemory t ∧
    t.StatSet d .trl 0 9 ∧ t.StatSet peer .trl 0 9 ∧ (t.die d).stopDue ≠ none ∧ (t.die peer).stopDue ≠ none := by
  have hmine := raise_onlyRegs s d .trl 0 9 .ftl (trlLog 2 peer)
  have hpeers := raise_onlyRegs (s.raise d .trl 0 9 .ftl (trlLog 2 peer)) peer .trl 0 9 .ftl (trlLog 2 d)
  refine ⟨(s.raise d .trl 0 9 .ftl (trlLog 2 peer)).raise peer .trl 0 9 .ftl (trlLog 2 d), ?_, ⟨fun a => ?_, fun a => ?_⟩, ?_,
    raise_statSet _ peer .trl 0 _ (by decide), ?_, raise_ftl_stopDue _ peer .trl 0 (by decide) 9 _⟩
  · rw [exec_bridgeFlitReject, State.bridgeReject, hd, hpeer, decide_eq_true hne, if_neg (by decide), if_pos hn]
  · exact (hpeers.memory.1 a).trans (hmine.memory.1 a)
  · exact (hpeers.memory.2 a).trans (hmine.memory.2 a)
  · have hapart : regAddr d .trl 0 0 ∉ [regAddr peer .trl 0 0, regAddr peer .trl 0 0x10] := by
      simp only [List.mem_cons, List.not_mem_nil, or_false, regAddr]
      omega
    exact (congrArg (fun w => bitOf w 9) (hpeers.regs _ hapart)).trans (raise_statSet s d .trl 0 _ (by decide))
  · rw [raise_die_ne _ peer .trl 0 9 .ftl _ hne]
    exact raise_ftl_stopDue s d .trl 0 (by decide) 9 _

end
end

/-! ### STATUS_CLEAR (R387) -/

section
variable {s : State} {d i : Nat} {b : Blk} {v : Word}

theorem exec_statusClear (s : State) (d i : Nat) (b : Blk) (v : Word) :
    exec (.statusClear d b i v) s = .next (if s.hasInst d b i && s.regsUp d b then s.clearStat d b i v else s) := rfl

theorem statusClear_absent (h : s.hasInst d b i = false ∨ s.regsUp d b = false) : exec (.statusClear d b i v) s = .next s := by
  have hoff : (s.hasInst d b i && s.regsUp d b) = false := by
    rcases h with h | h <;> simp [h]
  rw [exec_statusClear, hoff]
  rfl

theorem forgetClasses_onlyRegs (s : State) (d : Nat) (b : Blk) (i : Nat) (stat : Word) (as : List Nat) :
    OnlyRegs as s (s.forgetClasses d b i stat) := by
  unfold State.forgetClasses forEach
  refine List.foldlRecOn (motive := OnlyRegs as s) _ _ (.of_same rfl rfl rfl rfl rfl) fun t ht k _ => ?_
  exact ht.trans (.of_same rfl rfl rfl rfl rfl)

theorem clearStat_onlyRegs (s : State) (d : Nat) (b : Blk) (i : Nat) (v : Word) :
    OnlyRegs [regAddr d b i 0] s (s.clearStat d b i v) := by
  rw [clearStat_eq]
  exact (setReg_onlyRegs s _ List.mem_cons_self).trans (forgetClasses_onlyRegs _ d b i _ _)

theorem rg_clearStat (s : State) (d : Nat) (b : Blk) (i : Nat) (v : Word) :
    (s.clearStat d b i v).rg d b i 0 = s.statCleared d b i v := by
  rw [clearStat_eq]
  exact ((forgetClasses_onlyRegs _ d b i _ []).regs _ List.not_mem_nil).trans (State.rg_setRg s d b i 0 _)

theorem statusClear_present (hinst : s.hasInst d b i = true) (hup : s.regsUp d b = true) :
    ∃ t, exec (.statusClear d b i v) s = .next t ∧ s.SameMemory t ∧ s.SameRegsBut [regAddr d b i 0] t ∧
      t.rg d b i 0 = s.statCleared d b i v := by
  refine ⟨s.clearStat d b i v, ?_, (clearStat_onlyRegs s d b i v).memory, (clearStat_onlyRegs s d b i v).regs, rg_clearStat s d b i v⟩
  rw [exec_statusClear, hinst, hup]
  rfl

end

end Sys2Proof.Machine

/-! PROOFS. Stopping in order (R384, R385): the stages of Table 22.4 one by one, what each brings about and what the later ones keep of it. -/

namespace Sys2Proof.Machine

/-! ### A die stops in order: its stages (Table 22.4) -/

/-- t1: the record of the cause and the time, and DIE_STOPPED. -/
def State.stopRecord (s : State) (d : Nat) (b : Blk) (bit : Nat) : State :=
  ((s.setRg d .saf 0 0x28 (wordOf (b.pos + bit * 256 + 8192))).setRg d .saf 0 0x30 (wordOf (s.time d))).setStat d .saf 0 (bitMask 14)

/-- t2: the die's work ends, its router is emptied and its ports go DOWN. -/
def State.stopTraffic (s : State) (d : Nat) : State := ((s.stopWork d).putRouter d {}).stopPorts d

/-- t2: SAF_STAT.STOPPED, and the die no longer runs. -/
def State.markStopped (s : State) (d : Nat) : State :=
  (s.setFld d .saf 0 0 16 1 1).updDie d (fun x => { x with stopped := true, stopDue := none, swapReq := [], onReq := [], heldX := [] })

/-- t3: one cluster is dark. -/
def State.darken (s : State) (d p : Nat) : State :=
  (s.setRailSt d p 3).updPh d p (fun x => { x with target := none, next := none, deferred := none, stretch := false })

/-- t3: every cluster of the die is dark. -/
def State.darkenAll (s : State) (d : Nat) : State := forEach allPhys (fun p t => t.darken d p) s

/-- t3: what the Cellar and the HBM of the die held is lost. -/
def State.stopMemory (s : State) (d : Nat) : State :=
  (((s.loseMemory d).putCel d {}).putHbm d 0 { remap := (s.hbm d 0).remap, bad := (s.hbm d 0).bad }).putHbm d 1
    { remap := (s.hbm d 1).remap, bad := (s.hbm d 1).bad }

/-- The state in which the die's work has ended and its ports are down. -/
def State.stopEnded (s : State) (d : Nat) (b : Blk) (bit : Nat) : State := (s.stopRecord d b bit).stopContexts.stopTraffic d

theorem dieStop_eq (s : State) (d : Nat) (b : Blk) (bit : Nat) :
    s.dieStop d b bit = (((s.stopEnded d b bit).markStopped d).darkenAll d).stopMemory d := rfl

/-- What one pass of a loop brings about for its own element, and every pass keeps, the loop brings about for all its elements. -/
theorem forEach_establishes {α : Type} {P : α → State → Prop} {f : α → State → State}
    (hkeep : ∀ x y t, P x t → P x (f y t)) (hmake : ∀ x t, P x (f x t)) (xs : List α) (s : State) :
    ∀ x ∈ xs, P x (forEach xs f s) := by
  unfold forEach
  induction xs generalizing s with
  | nil => exact fun x hx => absurd hx List.not_mem_nil
  | cons y ys ih =>
    intro x hx
    rw [List.foldl_cons]
    by_cases hys : x ∈ ys
    · exact ih (f y s) x hys
    · obtain rfl := (List.mem_cons.mp hx).resolve_right hys
      exact List.foldlRecOn (motive := P x) ys _ (hmake x s) fun t ht z _ => hkeep x z t ht

section
variable {s t : State} (h : Quiet s t)
include h

theorem Quiet.not_running {e c : Nat} (hs : (s.ctx e c).st ≠ .running) : (t.ctx e c).st ≠ .running :=
  fun hrun => hs (h.ctx e c hrun)

theorem Quiet.no_flight_id {id : Nat} (hs : ∀ f ∈ s.flights, f.id ≠ id) : ∀ f ∈ t.flights, f.id ≠ id := by
  intro f hf
  obtain ⟨g, hg, hid, -⟩ := h.flights f hf
  exact hid ▸ hs g hg

theorem Quiet.no_flight_of_die {d : Nat} (hs : ∀ f ∈ s.flights, f.d ≠ d) : ∀ f ∈ t.flights, f.d ≠ d := by
  intro f hf
  obtain ⟨g, hg, -, hd⟩ := h.flights f hf
  exact hd ▸ hs g hg

end

section
variable (s : State) (d : Nat)

/-! ### t1 -/

section
variable (b : Blk) (bit : Nat)

/-- The two writes of the record. -/
theorem stopRecord_onlyRegs : OnlyRegs [regAddr d .saf 0 0]
    ((s.setRg d .saf 0 0x28 (wordOf (b.pos + bit * 256 + 8192))).setRg d .saf 0 0x30 (wordOf (s.time d))) (s.stopRecord d b bit) :=
  setStat_onlyRegs _ d .saf 0 _

theorem stopRecord_cause : (s.stopRecord d b bit).rg d .saf 0 0x28 = wordOf (b.pos + bit * 256 + 8192) :=
  ((stopRecord_onlyRegs s d b bit).regs _ (by simp [regAddr_ne])).trans
    ((State.rg_setRg_ne _ d .saf 0 0x30 _ d .saf 0 0x28 (regAddr_ne d .saf 0 (by decide))).trans (State.rg_setRg s d .saf 0 0x28 _))

theorem stopRecord_time : (s.stopRecord d b bit).rg d .saf 0 0x30 = wordOf (s.time d) :=
  ((stopRecord_onlyRegs s d b bit).regs _ (by simp [regAddr_ne])).trans (State.rg_setRg _ d .saf 0 0x30 _)

theorem stopRecord_statSet : (s.stopRecord d b bit).StatSet d .saf 0 14 := by
  rw [State.StatSet, State.stopRecord, rg_setStat, bitOf, BitVec.getLsbD_or, getLsbD_bitMask 14 14 (by decide)]
  exact Bool.or_true _

theorem stopRecord_die (e : Nat) : (s.stopRecord d b bit).die e = s.die e := by
  rw [State.stopRecord, setStat_die]
  exact (State.setReg_die_frame _ _ _ e).trans (State.setReg_die_frame s _ _ e)

theorem stopRecord_nd : (s.stopRecord d b bit).nd = s.nd :=
  congrArg Part.dies ((stopRecord_onlyRegs s d b bit).part.trans ((State.setReg_part _ _ _).trans (State.setReg_part s _ _)))

end

/-- One context of a die stops where it runs. -/
def State.stopContext (s : State) (d c : Nat) : State :=
  if (s.ctx d c).st = .running then s.updCtx d c (fun x => { x with st := .stopped }) else s

/-- The contexts of one die stop. -/
def State.stopDieContexts (s : State) (d : Nat) : State := forEach (List.range 8) (fun c t => t.stopContext d c) s

theorem stopContexts_eq : s.stopContexts = forEach s.allDies (fun d t => t.stopDieContexts d) s := rfl

theorem stopContext_quiet (c : Nat) : Quiet s (s.stopContext d c) := by
  unfold State.stopContext
  split
  · exact updCtx_quiet s d c CtxSt.noConfusion
  · exact Quiet.refl s

theorem stopContext_not_running (c : Nat) : ((s.stopContext d c).ctx d c).st ≠ .running := by
  unfold State.stopContext
  split
  · rw [State.ctx_updCtx]
    exact CtxSt.noConfusion
  · assumption

theorem stopDieContexts_quiet : Quiet s (s.stopDieContexts d) := forEach_quiet _ (fun c t => stopContext_quiet t d c) s

theorem stopContexts_quiet : Quiet s s.stopContexts := by
  rw [stopContexts_eq]
  exact forEach_quiet _ (fun d t => stopDieContexts_quiet t d) s

theorem stopDieContexts_not_running {c : Nat} (hc : c < 8) : ((s.stopDieContexts d).ctx d c).st ≠ .running :=
  forEach_establishes (P := fun c t => (t.ctx d c).st ≠ .running) (fun _ c' t ht => (stopContext_quiet t d c').not_running ht)
    (fun c t => stopContext_not_running t d c) _ s c (List.mem_range.mpr hc)

theorem stopContexts_not_running {e c : Nat} (he : e < s.nd) (hc : c < 8) : (s.stopContexts.ctx e c).st ≠ .running := by
  rw [stopContexts_eq]
  exact forEach_establishes (P := fun e t => (t.ctx e c).st ≠ .running) (fun _ e' t ht => (stopDieContexts_quiet t e').not_running ht)
    (fun e t => stopDieContexts_not_running t e hc) _ s e (List.mem_range.mpr he)

/-! ### t2 -/

theorem endFlight_quiet (id : Nat) : Quiet s ((s.failFlight id).dropFlight id) :=
  (failFlight_quiet s id).trans (dropFlight_quiet _ id)

theorem stopWork_quiet : Quiet s (s.stopWork d) :=
  (forEach_quiet _ (fun c t => abandonCtx_quiet t d c) s).trans (forEach_quiet _ (fun i t => endFlight_quiet t i) _)

/-- Every step of the die is dropped by its number (Table 22.4, t2). -/
theorem stopWork_no_flight : ∀ f ∈ (s.stopWork d).flights, f.d ≠ d := by
  unfold State.stopWork
  extract_lets s1
  clear_value s1
  intro f hf hd
  obtain ⟨g, hg, hid, hgd⟩ := (forEach_quiet _ (fun i t => endFlight_quiet t i) s1).flights f hf
  have hmem : f.id ∈ (s1.flights.filter (fun f => f.d = d)).map (·.id) :=
    List.mem_map.mpr ⟨g, List.mem_filter.mpr ⟨hg, decide_eq_true (hgd.trans hd)⟩, hid⟩
  refine forEach_establishes (P := fun id t => ∀ f ∈ State.flights t, f.id ≠ id) ?_ ?_ _ s1 f.id hmem f hf rfl
  · exact fun id id' t ht => (endFlight_quiet t id').no_flight_id ht
  · exact fun id t f hf => of_decide_eq_true (List.mem_filter.mp hf).2

theorem stopTraffic_quiet : Quiet s (s.stopTraffic d) :=
  ((stopWork_quiet s d).trans (putRouter_quiet _ d _)).trans (stopPorts_quiet _ d)

theorem stopTraffic_no_flight : ∀ f ∈ (s.stopTraffic d).flights, f.d ≠ d :=
  ((putRouter_quiet _ d _).trans (stopPorts_quiet _ d)).no_flight_of_die (stopWork_no_flight s d)

/-! ### The die is marked as stopped -/

theorem markStopped_rg {f : Nat} (hf : f ≠ 0) : (s.markStopped d).rg d .saf 0 f = s.rg d .saf 0 f := by
  rw [State.markStopped, State.updDie, State.putDie_rg_frame, State.setFld,
    State.rg_setRg_ne s d .saf 0 0 _ d .saf 0 f (regAddr_ne d .saf 0 hf)]

theorem markStopped_stat : (s.markStopped d).rg d .saf 0 0 = withBits (s.rg d .saf 0 0) 16 1 1 := by
  rw [State.markStopped, State.updDie, State.putDie_rg_frame, State.setFld, State.rg_setRg]

theorem markStopped_statSet (h : s.StatSet d .saf 0 14) : (s.markStopped d).StatSet d .saf 0 14 := by
  rw [State.StatSet, markStopped_stat, bitOf, getLsbD_withBits _ _ _ _ _ (by decide), if_neg (by decide)]
  exact h

theorem markStopped_die : ((s.markStopped d).die d).stopped = true ∧ ((s.markStopped d).die d).stopDue = none := by
  rw [State.markStopped, State.die_updDie]
  exact ⟨rfl, rfl⟩

theorem markStopped_die_ne {e : Nat} (he : e ≠ d) : (s.markStopped d).die e = s.die e :=
  (State.die_updDie_ne _ d _ e he).trans (State.setReg_die_frame s _ _ e)

theorem markStopped_ctx (e c : Nat) : (s.markStopped d).ctx e c = s.ctx e c :=
  (State.putDie_ctx_frame _ d _ e c).trans (State.setReg_ctx_frame s _ _ e c)

theorem markStopped_flights : (s.markStopped d).flights = s.flights :=
  (State.putDie_flights _ d _).trans (State.setReg_flights s _ _)

/-! ### t3 -/

theorem clPage_lt {p : Nat} (hp : p < 52) : 0x1000 * 0 + clPage p < 0x100000 := by
  unfold clPage
  omega

theorem darken_quiet {p : Nat} (hp : p < 52) : Quiet s (s.darken d p) :=
  (setFld_quiet s d _ _ _ (by decide) (clPage_lt hp)).trans (putPh_quiet _ d p _)

theorem darken_railSt_eq (p q : Nat) : (s.darken d q).railSt d p = (s.setRailSt d q 3).railSt d p := by
  rw [State.railSt, State.fld, State.darken, State.updPh, State.putPh_rg_frame, State.railSt, State.fld]

theorem darken_railSt (p : Nat) : (s.darken d p).railSt d p = 3 :=
  (darken_railSt_eq s d p p).trans (State.fld_setFld s d .pwr 0 (clPage p) 10 2 3 (by decide))

theorem darken_railSt_ne {p q : Nat} (h : p ≠ q) : (s.darken d q).railSt d p = s.railSt d p := by
  have hpage : clPage p ≠ clPage q := by
    unfold clPage
    omega
  rw [darken_railSt_eq, State.railSt, State.fld, State.setRailSt, State.setFld,
    State.rg_setRg_ne _ _ _ _ _ _ _ _ _ _ (regAddr_ne d .pwr 0 hpage), State.railSt, State.fld]

theorem darkenAll_quiet : Quiet s (s.darkenAll d) := by
  unfold State.darkenAll forEach
  exact List.foldlRecOn (motive := Quiet s) _ _ (Quiet.refl s) fun t ht p hp => ht.trans (darken_quiet t d (List.mem_range.mp hp))

theorem darkenAll_railSt {p : Nat} (hp : p < 52) : (s.darkenAll d).railSt d p = 3 := by
  refine forEach_establishes (P := fun p t => t.railSt d p = 3) (fun p q t ht => ?_) (fun p t => darken_railSt t d p) _ s p
    (List.mem_range.mpr hp)
  by_cases hpq : p = q
  · subst hpq
    exact darken_railSt t d p
  · exact (darken_railSt_ne t d hpq).trans ht

theorem stopMemory_quiet : Quiet s (s.stopMemory d) :=
  (((loseMemory_quiet s d).trans (putCel_quiet _ d _)).trans (putHbm_quiet _ d 0 _)).trans (putHbm_quiet _ d 1 _)

theorem loseMemory_rg (e : Nat) (b : Blk) (i f : Nat) : (s.loseMemory d).rg e b i f = s.rg e b i f := rfl

theorem stopMemory_railSt (p : Nat) : (s.stopMemory d).railSt d p = s.railSt d p := by
  rw [State.railSt, State.fld, State.stopMemory, State.putHbm_rg_frame, State.putHbm_rg_frame, State.putCel_rg_frame, loseMemory_rg,
    State.railSt, State.fld]

/-- HBM contents of the die are lost (Table 22.4, t3): its slice reads as nothing written (log entry 27). -/
theorem stopMemory_byte {a : Nat} (hlo : d * hbmSlice ≤ a) (hhi : a < (d + 1) * hbmSlice) : (s.stopMemory d).byte a = 0 := by
  refine smGet_absent fun e he hea => ?_
  have hkept := (List.mem_filter.mp he).2
  simp [hea, hlo, hhi] at hkept

end

/-! ### DIE_STOP (R384) -/

section
variable (s : State) (d : Nat) (b : Blk) (bit : Nat)

theorem stopEnded_quiet : Quiet (s.stopRecord d b bit) (s.stopEnded d b bit) :=
  (stopContexts_quiet _).trans (stopTraffic_quiet _ d)

theorem dieStop_quiet : Quiet ((s.stopEnded d b bit).markStopped d) (s.dieStop d b bit) := by
  rw [dieStop_eq]
  exact (darkenAll_quiet _ d).trans (stopMemory_quiet _ d)

theorem dieStop_die : ((s.dieStop d b bit).die d).stopped = true ∧ ((s.dieStop d b bit).die d).stopDue = none := by
  rw [(dieStop_quiet s d b bit).die]
  exact markStopped_die _ d

theorem dieStop_die_ne {e : Nat} (he : e ≠ d) : (s.dieStop d b bit).die e = s.die e := by
  rw [(dieStop_quiet s d b bit).die, markStopped_die_ne _ d he, (stopEnded_quiet s d b bit).die, stopRecord_die]

theorem dieStop_stopped_of_stopped {e : Nat} (he : (s.die e).stopped = true) : ((s.dieStop d b bit).die e).stopped = true := by
  by_cases hed : e = d
  · subst hed
    exact (dieStop_die s e b bit).1
  · rw [dieStop_die_ne s d b bit hed, he]

theorem dieStop_rg {f : Nat} (hf : f ≠ 0) (hlt : f < 0x100000) : (s.dieStop d b bit).rg d .saf 0 f = (s.stopRecord d b bit).rg d .saf 0 f := by
  rw [(dieStop_quiet s d b bit).rg_saf d hlt, markStopped_rg _ d hf, (stopEnded_quiet s d b bit).rg_saf d hlt]

theorem dieStop_stopped_bit : (s.dieStop d b bit).fld d .saf 0 0 16 1 = 1 := by
  rw [State.fld, (dieStop_quiet s d b bit).rg_saf d (by decide), markStopped_stat]
  exact bits_withBits _ 16 1 1 (by decide)

theorem dieStop_statSet : (s.dieStop d b bit).StatSet d .saf 0 14 := by
  rw [State.StatSet, (dieStop_quiet s d b bit).rg_saf d (by decide)]
  refine markStopped_statSet _ d ?_
  rw [State.StatSet, (stopEnded_quiet s d b bit).rg_saf d (by decide)]
  exact stopRecord_statSet s d b bit

theorem dieStop_not_running {e c : Nat} (he : e < s.nd) (hc : c < 8) : ((s.dieStop d b bit).ctx e c).st ≠ .running := by
  refine (dieStop_quiet s d b bit).not_running ?_
  rw [markStopped_ctx]
  exact (stopTraffic_quiet _ d).not_running (stopContexts_not_running _ ((stopRecord_nd s d b bit).symm ▸ he) hc)

theorem dieStop_no_flight : ∀ f ∈ (s.dieStop d b bit).flights, f.d ≠ d := by
  refine (dieStop_quiet s d b bit).no_flight_of_die ?_
  rw [markStopped_flights]
  exact stopTraffic_no_flight _ d

theorem dieStop_railSt {p : Nat} (hp : p < 52) : (s.dieStop d b bit).railSt d p = 3 := by
  rw [dieStop_eq, stopMemory_railSt, darkenAll_railSt _ d hp]

theorem dieStop_byte {a : Nat} (hlo : d * hbmSlice ≤ a) (hhi : a < (d + 1) * hbmSlice) : (s.dieStop d b bit).byte a = 0 := by
  rw [dieStop_eq, stopMemory_byte _ d hlo hhi]

theorem exec_dieStop : exec (.dieStop d b bit) s =
    .next (if s.awake d && decide ((s.die d).stopDue = some (b, bit)) then s.dieStop d b bit else s) := rfl

end

section
variable {s : State} {d bit : Nat} {b : Blk}

theorem dieStop_idle (h : s.awake d = false ∨ (s.die d).stopDue ≠ some (b, bit)) : exec (.dieStop d b bit) s = .next s := by
  have hoff : (s.awake d && decide ((s.die d).stopDue = some (b, bit))) = false := by
    rcases h with h | h <;> simp [h]
  rw [exec_dieStop, hoff]
  rfl

theorem dieStop_due (hawake : s.awake d = true) (hdue : (s.die d).stopDue = some (b, bit)) :
    exec (.dieStop d b bit) s = .next (s.dieStop d b bit) := by
  rw [exec_dieStop, hawake, decide_eq_true hdue]
  rfl

/-! ### MODULE_STOP (R385) -/

theorem exec_moduleStop (s : State) : exec .moduleStop s = execModuleStop s := rfl

theorem moduleStop_idle (h : s.modc.stopDue = none ∨ s.modc.stopped = true) : exec .moduleStop s = .next s := by
  rw [exec_moduleStop, execModuleStop]
  split
  next bit hbit =>
    have hstopped : s.modc.stopped = true := h.resolve_left fun hnone => Option.some_ne_none bit (hbit.symm.trans hnone)
    rw [if_pos hstopped]
  next => rfl

/-- One die of the module stops, for its own cause or that of MOD. -/
def State.stopOne (s : State) (bit d : Nat) : State :=
  s.dieStop d ((s.die d).stopDue.getD (.mod, bit)).1 ((s.die d).stopDue.getD (.mod, bit)).2

/-- Every die that runs stops. -/
def State.stopAll (s : State) (bit : Nat) : State := forEach (s.allDies.filter s.awake) (fun d t => t.stopOne bit d) s

theorem stopAll_stopped (s : State) (bit : Nat) {d : Nat} (hawake : s.awake d = true) : ((s.stopAll bit).die d).stopped = true := by
  have hnd : d < s.nd := of_decide_eq_true (Bool.and_eq_true_iff.mp (Bool.and_eq_true_iff.mp hawake).1).1
  exact forEach_establishes (P := fun d t => (State.die t d).stopped = true) (fun d e t => dieStop_stopped_of_stopped t e _ _)
    (fun d t => (dieStop_die t d _ _).1) _ s d (List.mem_filter.mpr ⟨List.mem_range.mpr hnd, hawake⟩)

theorem moduleStop_eq (s : State) (bit : Nat) : s.moduleStop bit =
    ((s.stopAll bit).updMod (fun m => { m with stopDue := none, stopped := true, plane := false, sw := none, test := none })).setFld
      0 .mod 0 0x28 32 4 0 := rfl

theorem moduleStop_due (hdue : s.modc.stopDue ≠ none) (hstopped : s.modc.stopped = false) :
    ∃ t, exec .moduleStop s = .next t ∧ t.modc.stopped = true ∧ t.modc.plane = false ∧ t.modc.stopDue = none ∧
      t.fld 0 .mod 0 0x28 32 4 = 0 ∧ ∀ d, s.awake d = true → (t.die d).stopped = true := by
  obtain ⟨bit, hbit⟩ := Option.ne_none_iff_exists'.mp hdue
  have hexec : exec .moduleStop s = .next (s.moduleStop bit) := by
    rw [exec_moduleStop, execModuleStop, hbit, hstopped]
    rfl
  have hmodc : (s.moduleStop bit).modc =
      { (s.stopAll bit).modc with stopDue := none, stopped := true, plane := false, sw := none, test := none } := by
    rw [moduleStop_eq]
    exact State.setReg_modc _ _ _
  refine ⟨_, hexec, ?_, ?_, ?_, ?_, fun d hd => ?_⟩
  · rw [hmodc]
  · rw [hmodc]
  · rw [hmodc]
  · rw [moduleStop_eq]
    exact State.fld_setFld _ 0 .mod 0 0x28 32 4 0 (by decide)
  · rw [moduleStop_eq]
    exact (congrArg DieSt.stopped (State.setReg_die_frame _ _ _ d)).trans (stopAll_stopped s bit hd)

end

/-- Settles O55: a stopped die's own stages leave the record, the stopped contexts and the dropped steps of the stages before them alone, so
each stage's effect is what the next state shows; ones written to a status register are followed bit by bit. -/
theorem stopsAndClears : Obligations.StopsAndClears := by
  unfold Obligations.StopsAndClears
  refine ⟨fun s _ => ⟨errnStuck_released, errnStuck_low, moduleStop_idle, moduleStop_due⟩, ?_, ?_, ?_⟩
  · intro s d bit b _
    refine ⟨dieStop_idle, fun hawake hdue => ⟨_, dieStop_due hawake hdue, (dieStop_die s d b bit).1, (dieStop_die s d b bit).2,
      dieStop_stopped_bit s d b bit, dieStop_statSet s d b bit, ?_, ?_, fun _ _ => dieStop_not_running s d b bit,
      dieStop_no_flight s d b bit, fun _ => dieStop_railSt s d b bit, fun _ => dieStop_byte s d b bit⟩⟩
    · exact (dieStop_rg s d b bit (by decide) (by decide)).trans (stopRecord_cause s d b bit)
    · exact (dieStop_rg s d b bit (by decide) (by decide)).trans (stopRecord_time s d b bit)
  · intro s d peer n _
    exact ⟨bridgeReject_idle, fun hd hpeer hne => ⟨bridgeReject_resent hd hpeer hne, bridgeReject_fatal hd hpeer hne⟩⟩
  · intro s d i b v _
    refine ⟨statusClear_absent, fun hinst hup => ?_⟩
    obtain ⟨t, hexec, hmem, hregs, hstat⟩ := statusClear_present (v := v) hinst hup
    refine ⟨t, hexec, hmem, hregs, ?_⟩
    rw [hstat]
    exact ⟨statCleared_cause s d b i v, statCleared_busy s d b i v, statCleared_class s d b i v⟩

end Sys2Proof.Machine
